-- ==== Sys2Proof/Word.lean ====
section
/-! DEFINITION. Word types of the model and their plainest arithmetic (00 R2: bit 0 is the least significant bit). -/

namespace Sys2Proof

/-- A byte of memory, of a link or of a packet field (00 R2). -/
abbrev Byte := BitVec 8

/-- A 64-bit register, key value or packet field. -/
abbrev Word64 := BitVec 64

/-- The largest value a 64-bit counter reaches: it stops there and does not wrap (02 R67). -/
abbrev cntMax : Nat := 18446744073709551615

end Sys2Proof
end

