-- ==== Sys2Proof/Syntax.lean ====
section
/-! DEFINITION. The commands of the block: one constructor of `Instr` for each row of spec/opcode_table.json, and the
data types their operands are made of. Structures in memory, packets and records are carried as their decoded fields
where the command is the hardware reading them. -/

namespace Sys2Proof

/-! ### Formats (02 R35) -/

/-- The sixteen formats, in the order of their numbers 1 to 16 (02 R35). -/
inductive Fmt where
  | fp64 | fp32 | fp16 | bf16 | pewter8 | smoke8 | fawn6 | dove4 | pewter8b32 | dove4b16
  | int4 | int8 | int16 | int32 | fx64 | fx192
deriving DecidableEq, Repr, Inhabited

/-- Rounding of FP32 and FP64 results, `rm` codes 0 to 4 (06 R154). -/
inductive Rm where
  | tiesToEven | towardZero | towardPositive | towardNegative | tiesToAway
deriving DecidableEq, Repr, Inhabited

/-! ### Host packets (14 R414, R418) -/

/-- A packet header as Ivory reads it (14 R414). `ring` is the ring it was read from; `slotFail` says that the host
read of its slot failed (14 R412). `rsvdHi` is bits [63:40] and `rsvdLo` bits [24:16]. -/
structure Hdr where
  ring : Nat := 0
  seq : Nat := 0
  resAddr : Nat := 0
  resLen : Nat := 0
  tag : Nat := 0
  rsvdHi : Nat := 0
  plen : Nat := 0
  prof : Nat := 0
  irq : Bool := false
  early : Bool := false
  fence : Bool := false
  rsvdLo : Nat := 0
  opcode : Nat := 0
  slotFail : Bool := false
deriving DecidableEq, Repr, Inhabited

/-- An SPDM request, decoded (19 R519). Byte strings stand for the fields the DMTF standard gives the request. -/
inductive SpdmReq where
  | getVersion
  | getCapabilities
  | negotiateAlgorithms (offersAll : Bool)
  | getDigests
  | getCertificate (slot offset len : Nat)
  | challenge (slot : Nat) (nonce : List Byte)
  | getMeasurements (index : Nat) (sign : Bool) (nonce : List Byte)
  | keyExchange (exchange : List Byte)
  | finish (session : Nat) (verifies : Bool)
  | heartbeat (session : Nat)
  | keyUpdate (session : Nat)
  | endSession (session : Nat)
  | other (code : Nat)
deriving DecidableEq, Repr, Inhabited

/-- The two transports SPDM arrives on (19 R520). -/
inductive Transport where
  | mctp | attest
deriving DecidableEq, Repr, Inhabited

/-! ### Parts of an image whose byte layout the spec does not give (15 R432; log 17) -/

/-- A product operand: its token, its tile-store base addresses (element plane and scale plane), its layout (0 `LA`,
1 `LB`, 2 `LR`), whether it is used transposed, and the `LR` pitch in elements (04 R94, R95, R97). -/
structure OperandDesc where
  tok : Nat := 0
  base : Nat := 0
  sbase : Nat := 0
  layout : Nat := 0
  trans : Bool := false
  pitch : Nat := 0
deriving DecidableEq, Repr, Inhabited

/-- A product: its operands, extents and output conversion (04 R101, 03 R85, R87). `tint` marks an adapter product of a
Tint group (04 R110); `arr` is the array the loader places it on (0 Ochre, 1 Sienna 0, 2 Sienna 1; 04 R100). -/
structure ProdDesc where
  a : OperandDesc := {}
  b : OperandDesc := {}
  c : Option OperandDesc := none
  out : OperandDesc := {}
  m : Nat := 0
  k : Nat := 0
  n : Nat := 0
  cvt : Nat := 0
  tint : Bool := false
  arr : Nat := 0
deriving DecidableEq, Repr, Inhabited

/-- The kernel of a schedule entry (01 R20): a location is a section index and a byte offset in that section. -/
inductive EKind where
  | product (d : ProdDesc)
  | stream (sect off : Nat)
  | register (sect off len : Nat) (budget : Option Nat)
  | solve (sect off bSect bOff : Nat)
  | dynamics (sect off mSect mOff bSect bOff : Nat)
  | exchange (ctx : Nat)
deriving DecidableEq, Repr, Inhabited

/-- The declared kind of an entry (07 R176). -/
inductive Decl where
  | forward | backward | optimizer
deriving DecidableEq, Repr, Inhabited

/-- One triple of an explicit unit map (01 R33). -/
structure UMap where
  g : Nat
  first : Nat
  count : Nat
deriving DecidableEq, Repr, Inhabited

/-- A schedule entry: kernel, index space, unit map, declared kind and tokens (15 R432, 01 R17, R23, R33). -/
structure Entry where
  kind : EKind := .exchange 0
  decl : Decl := .forward
  opId : Nat := 0
  space : List Nat := []
  map : List UMap := []
  reads : List Nat := []
  writes : List Nat := []
deriving DecidableEq, Repr, Inhabited

/-- Which node counts which element range of a verdict input (07 R173): elements `lo` to `hi` - 1. -/
structure VRange where
  tok : Nat
  node : Nat
  lo : Nat
  hi : Nat
deriving DecidableEq, Repr, Inhabited

/-- The entries of a Tint group's eight products for one micro-batch, named as R111 names them (04 R111). -/
structure TintBatch where
  p0 : Nat
  h : Nat
  y : Nat
  d0 : Nat
  g : Nat
  dv : Nat
  du : Nat
  dx : Nat
deriving DecidableEq, Repr, Inhabited

/-- A Tint group: frozen weight, adapters, rank, and its micro-batches (04 R109, R111). -/
structure Tint where
  w : Nat
  u : Nat
  v : Nat
  rank : Nat
  batches : List TintBatch := []
deriving DecidableEq, Repr, Inhabited

/-- The entries of a layer's products for one micro-batch: forward, input gradient, weight gradient (04 R108). -/
structure MicroBatch where
  fwd : Nat
  dX : Nat
  dW : Nat
deriving DecidableEq, Repr, Inhabited

/-- The rows of a distributed solve that the image declares for a node: the entry, the node, its first row and how many it
has (08 R205, R232). -/
structure RowRange where
  entry : Nat
  node : Nat
  first : Nat
  count : Nat
deriving DecidableEq, Repr, Inhabited

/-- Where a constant token's data lie (15 R436). -/
structure ConstRef where
  tok : Nat
  sect : Nat
  off : Nat
deriving DecidableEq, Repr, Inhabited

/-- A prefetch stream of one unit for one entry (10 R279). -/
structure StreamRef where
  entry : Nat
  unit : Nat
  slot : Nat
  sect : Nat
  off : Nat
deriving DecidableEq, Repr, Inhabited

/-- Where an exchange context's record and peer table lie in the type-6 section, and the tokens it works on (11 R313,
R325). A reference without a node stands for every node of the block (11 R314). -/
structure CtxRef where
  node : Option Nat := none
  ctx : Nat
  off : Nat
  peerOff : Nat
  srcTok : Nat
  dstTok : Nat
  routeTok : Nat
  slotTok : Nat
deriving DecidableEq, Repr, Inhabited

/-- The decoded parts of an image: schedule entries, product descriptors inside them, the layers whose micro-batches the
loader interleaves, the row ranges of distributed solves, and references (log 17). -/
structure ImageParts where
  entries : List Entry := []
  vranges : List VRange := []
  tints : List Tint := []
  layers : List (List MicroBatch) := []
  rowRanges : List RowRange := []
  consts : List ConstRef := []
  streams : List StreamRef := []
  ctxs : List CtxRef := []
deriving DecidableEq, Repr, Inhabited

/-- The host commands and their parameters (14 R418). -/
inductive HostOp where
  | echo (data : List Byte)
  | identify
  | attest (reqAddr reqLen : Nat) (req : SpdmReq)
  | loadImage (addr len strict : Nat) (parts : ImageParts)
  | bind (ox oy oz sx sy sz epoch : Nat)
  | unload
  | runSteps (count : Nat)
  | haltAtStep (h : Nat)
  | stepStatus
  | checkpoint (dest capacity : Nat)
  | restore (record epoch : Nat)
  | solve (desc : Nat)
  | dynamics (desc : Nat)
  | getParam (n : Nat) (keys : List Nat)
  | setParam (n : Nat) (pairs : List (Nat × Nat))
  | memCopy (src dst len : Nat)
  | memFill (dst len pattern : Nat)
  | testTraffic (kind first count ctl base len seed passes : Nat)
  | portCtl (port action pattern rate : Nat)
  | powerCtl (fn action point : Nat)
  | resetFunction (kind : Nat)
deriving DecidableEq, Repr, Inhabited

/-- A host write to a BAR0 register, or a write to a key (00 R7). -/
inductive RegTarget where
  | bar (offset : Nat) (value : BitVec 64)
  | key (key : Nat) (value : BitVec 64)
deriving DecidableEq, Repr, Inhabited

/-! ### Step verdict (07 R175) -/

/-- A step verdict message (07 R175). `flags` holds the 32 flag bits. -/
structure VerdictMsg where
  ssq : Nat := 0
  swBin : List Nat := []
  step : BitVec 64 := 0
  livery : BitVec 64 := 0
  flags : BitVec 32 := 0
  nContrib : Nat := 0
  lsExp : Int := 0
deriving DecidableEq, Repr, Inhabited

/-- What the header of a verdict message says: the sending node, the sequence number and the job's epoch (11 R312, R335). -/
structure VerdictHead where
  src : Nat := 0
  seq : Nat := 0
  epoch : Nat := 0
deriving DecidableEq, Repr, Inhabited

/-! ### Slate instructions (06 R152, R153) -/

/-- Scalar operations of `salu` (06 R153). -/
inductive SaluOp where
  | add | sub | mul | and | or | xor | shl | shr | sra | min | max | slt | sltu
deriving DecidableEq, Repr, Inhabited

/-- Integer operations of `vi` (06 R153). -/
inductive ViOp where
  | add | sub | mul | and | or | xor | shl | shr | sra | min | max | minu | maxu
deriving DecidableEq, Repr, Inhabited

/-- Floating-point operations of `vf` (06 R153). -/
inductive VfOp where
  | add | sub | mul | div | min | max | sqrt
deriving DecidableEq, Repr, Inhabited

/-- Forms of `vfma` (06 R153). -/
inductive FmaOp where
  | fma | fms | fnma | fnms
deriving DecidableEq, Repr, Inhabited

/-- Conditions of R131 (05 R131). -/
inductive Cond where
  | eq | ne | lt | le | gt | ge | unord | ord
deriving DecidableEq, Repr, Inhabited

/-- Forms of `vred` (06 R153, R159). -/
inductive RedOp where
  | ordered | tree | exact | max | min
deriving DecidableEq, Repr, Inhabited

/-- Forms of `vperm` (06 R153, R155). -/
inductive PermOp where
  | vid | viota | compress | slideUp | slideDown | gather | splat | extract
deriving DecidableEq, Repr, Inhabited

/-- The register fields of a vector instruction: destination, sources, mask, `mu`, and whether b is a scalar
(06 R152). -/
structure VOps where
  d : Nat := 0
  a : Nat := 0
  b : Nat := 0
  msk : Nat := 0
  mu : Bool := false
  sb : Bool := false
deriving DecidableEq, Repr, Inhabited

/-- The fields of a memory instruction (06 R152, R153): registers, the space bit, the index format bit (true: INT16), and
what the environment does: `ue` is the lowest element whose access meets an uncorrectable data error or, for `vlhost`, a
failed host read, and `late` the cycles by which the access exceeds its `t_lat` (06 R168). -/
structure MOps where
  d : Nat := 0
  a : Nat := 0
  b : Nat := 0
  msk : Nat := 0
  mu : Bool := false
  space : Bool := false
  idx16 : Bool := false
  ue : Option Nat := none
  late : Nat := 0
deriving DecidableEq, Repr, Inhabited

/-! ### Memory and links -/

/-- A memory request (10 R293, R294): the port it arrives at, class, requester, beats, device physical address, and the
line's data for a write of a whole line. `store` marks a write whose bytes its sender has put in place already, `part` one
that covers less than the line (10 R276). `ue` and `ce` say that the access meets an uncorrectable or a corrected error
(10 R286). `rest` counts beats beyond the grant in progress, of a message that a burst limit cuts (10 R296). -/
structure MemReq where
  port : Nat := 0
  cls : Nat := 0
  req : Nat := 0
  beats : Nat := 1
  addr : Nat := 0
  write : Option (List Byte) := none
  store : Bool := false
  part : Bool := false
  ue : Bool := false
  ce : Bool := false
  stamp : Nat := 0
  rest : Nat := 0
deriving DecidableEq, Repr, Inhabited

/-- A CXL.mem request of the host (10 R278, R299): a 64 B line read, or written with `data`. -/
structure CxlReq where
  addr : Nat := 0
  data : Option (List Byte) := none
deriving DecidableEq, Repr, Inhabited

/-- The header of a message (12 R360). -/
structure MsgHdr where
  seq : Nat := 0
  epoch : Nat := 0
  segment : Nat := 0
  src : Nat := 0
  dstX : Nat := 0
  dstY : Nat := 0
  dstZ : Nat := 0
  ctx : Nat := 0
  lenM1 : Nat := 0
  mkind : Nat := 0
  cls : Nat := 0
deriving DecidableEq, Repr, Inhabited

/-- A message: header, body, and the ranges (offset, length) of the body that came from poisoned lines (11 R322, 12 R360).
`mcrcOk` says that `mcrc` checks; `port` is the Flosin port it arrived over. -/
structure Msg where
  hdr : MsgHdr := {}
  body : List Byte := []
  poison : List (Nat × Nat) := []
  mcrcOk : Bool := true
  port : Nat := 0
deriving DecidableEq, Repr, Inhabited

/-- A sync word (13 R395). -/
structure SyncWord where
  ppsTick : BitVec 64 := 0
  step : BitVec 64 := 0
  livery : BitVec 64 := 0
  cobTick : BitVec 64 := 0
  mapGen : Nat := 0
  syncCount : Nat := 0
  epoch : Nat := 0
  srcX : Nat := 0
  srcY : Nat := 0
  srcZ : Nat := 0
  depth : Nat := 0
  corr : Int := 0
  bound : Bool := false
  master : Bool := false
  holdover : Bool := false
  ppsValid : Bool := false
  skew : Bool := false
deriving DecidableEq, Repr, Inhabited

/-- An identity record (13 R383). -/
structure Identity where
  serial : BitVec 64 := 0
  slot : Nat := 0
  y : Nat := 0
  z : Nat := 0
  mx : Nat := 0
  my : Nat := 0
  mz : Nat := 0
  role : Nat := 0
  port : Nat := 0
  tt : Nat := 0
  digest : BitVec 64 := 0
  mapGen : Nat := 0
deriving DecidableEq, Repr, Inhabited

/-- What a `TRAIN` flit carries (12 R367, 13 R383, 20 R540). -/
inductive TrainRec where
  | probe (tick : Nat)
  | maxima (d : Int)
  | confirm (lat : Nat)
  | identity (i : Identity)
  | retire
deriving DecidableEq, Repr, Inhabited

/-- Flit payloads by type (12 R350). -/
inductive FlitBody where
  | idle
  | data (bytes : List Byte)
  | sync (w : SyncWord)
  | train (r : TrainRec)
  | test (bytes : List Byte)
  | invalid (ftype : Nat)
deriving DecidableEq, Repr, Inhabited

/-- A flit (12 R348): header fields, body, and whether its CRC checks. `cr0`, `cr1` are (virtual channel, freed count
mod 8,192). -/
structure Flit where
  body : FlitBody := .idle
  fseq : Nat := 0
  ackSeq : Nat := 0
  ackV : Bool := true
  nak : Bool := false
  vc : Nat := 0
  som : Bool := false
  eom : Bool := false
  abort : Bool := false
  len : Nat := 0
  cr0 : Nat × Nat := (0, 0)
  cr1 : Nat × Nat := (0, 0)
  crcOk : Bool := true
deriving DecidableEq, Repr, Inhabited

/-! ### Board, boot and management -/

/-- The package rails (17 R463). -/
inductive Rail where
  | vinCore | vfl | vlpPhy | vcxl | vaon | vioAon
deriving DecidableEq, Repr, Inhabited

/-- Causes of a warm reset that reach it as an event of its own (17 R480). -/
inductive WarmCause where
  | perst | wake
deriving DecidableEq, Repr, Inhabited

/-- One port record of a topology table entry (13 R382). -/
structure TopPort where
  present : Bool := false
  slot : Nat := 0
  y : Nat := 0
  z : Nat := 0
  port : Nat := 0
  trim : Int := 0
  iface : Nat := 0
deriving DecidableEq, Repr, Inhabited

/-- One topology table entry (13 R382). -/
structure TopEntry where
  slot : Nat := 0
  y : Nat := 0
  z : Nat := 0
  role : Nat := 0
  serial : BitVec 64 := 0
  ports : List TopPort := []
deriving DecidableEq, Repr, Inhabited

/-- A topology table: header, entries, and the first 64 bits of its SHA-512 (13 R382, R383). -/
structure TopTable where
  xm : Nat := 0
  ym : Nat := 0
  zm : Nat := 0
  spares : Bool := false
  master : Nat := 0
  deputy : Nat := 0
  entries : List TopEntry := []
  digest : BitVec 64 := 0
deriving DecidableEq, Repr, Inhabited

/-- The sections of a configuration image (19 R514). `profiles` lists, for a profile number, (key, value) pairs; `repair`
is the tile repair map of this package's serial: the logical unit and the spare of its field that takes its place (01
R15); `equal` holds, for each port, the fixed transmit equaliser value of a chip-to-module interface (12 R341). -/
structure Policy where
  strict : Bool := false
  allowDebug : Bool := false
  allowAttest : Bool := false
  lpGib : Nat := 0
  tables : List TopTable := []
  imageKeys : List (List Byte) := []
  profiles : List (Nat × List (Nat × Nat)) := []
  debugKeys : List (List Byte) := []
  repair : List (Nat × Nat) := []
  equal : List Nat := []
  sharedDigest : List Byte := []
  perPkgDigest : List Byte := []
deriving DecidableEq, Repr, Inhabited

/-- A firmware or configuration slot of the flash: the fields of its signed header, the signed message (SHA-512 of
header bytes 0 to 127 followed by the body), the SHA-512 of the slot, the Nisel key slot its header names for
revocation, and a configuration slot's sections (19 R511, R514, R515). -/
structure FlashSlot where
  magic : BitVec 64 := 0
  kind : Nat := 0
  secver : Nat := 0
  len : Nat := 0
  version : BitVec 64 := 0
  key : List Byte := []
  sig : List Byte := []
  message : List Byte := []
  digest : List Byte := []
  revoke : Option Nat := none
  cfg : Policy := {}
deriving DecidableEq, Repr, Inhabited

/-- The flash (19 R510): preferred slots and the slots; `certKeyOk` says that the stored device certificate's key is the
device-identity key (19 R517). -/
structure Flash where
  prefFw : Nat := 0
  prefCfg : Nat := 0
  fwA : FlashSlot := {}
  fwB : FlashSlot := {}
  cfgA : FlashSlot := {}
  cfgB : FlashSlot := {}
  cert : List Byte := []
  certKeyOk : Bool := true
deriving DecidableEq, Repr, Inhabited

/-- An owner-provisioning message (19 R521): slot, key hash to write (or revocation when none), signer, signature, and
the SPDM session it arrived in (none: outside a session). -/
structure OwnerMsg where
  slot : Nat := 0
  hash : Option (List Byte) := none
  key : List Byte := []
  sig : List Byte := []
  message : List Byte := []
  session : Option Nat := none
deriving DecidableEq, Repr, Inhabited

/-- A debug token (19 R528). `message` is the SHA-512 of bytes 0 to 63. -/
structure DebugTok where
  serial : BitVec 64 := 0
  nonce : BitVec 64 := 0
  scope : BitVec 32 := 0
  rsvd : Nat := 0
  key : List Byte := []
  sig : List Byte := []
  message : List Byte := []
deriving DecidableEq, Repr, Inhabited

/-- What the environment reports at a boundary: average input power of the step in mW, errors that scrubbing met (device
physical address, corrected?) (10 R301), the thermal sensors in 1/16 °C and the rail monitors in mV (17 R472, R477; empty:
unchanged), the channels whose device is above 85 °C (10 R300), and the tile-store errors corrected since the last
boundary, by field (10 R273). -/
structure BoundaryInfo where
  powerMw : Nat := 0
  scrub : List (Nat × Bool) := []
  sensors : List Int := []
  railMv : List Nat := []
  hot : List Nat := []
  tsCe : List Nat := []
deriving DecidableEq, Repr, Inhabited

/-- A ring whose held reply is written, and whether that write of its completion line fails (14 R408, R413). -/
structure RingPost where
  ring : Nat
  failed : Bool := false
deriving DecidableEq, Repr, Inhabited

/-- A channel and whether its device reports more than 85 °C (10 R300). -/
structure ChanHeat where
  chan : Nat
  hot : Bool := false
deriving DecidableEq, Repr, Inhabited

/-- What error correction finds in a line: a corrected error, an uncorrectable one (10 R286). -/
structure LineEcc where
  ce : Bool := false
  ue : Bool := false
deriving DecidableEq, Repr, Inhabited

/-! ### The commands -/

/-- The commands of the block, one constructor per row of spec/opcode_table.json, in the table's order. -/
inductive Instr where
  -- host commands (14 R418)
  | echo (h : Hdr) (data : List Byte)
  | identify (h : Hdr)
  | attest (h : Hdr) (reqAddr reqLen : Nat) (req : SpdmReq)
  | loadImage (h : Hdr) (addr len strict : Nat) (parts : ImageParts)
  | bind (h : Hdr) (ox oy oz sx sy sz epoch : Nat)
  | unload (h : Hdr)
  | runSteps (h : Hdr) (count : Nat)
  | haltAtStep (h : Hdr) (step : Nat)
  | stepStatus (h : Hdr)
  | checkpoint (h : Hdr) (dest capacity : Nat)
  | restore (h : Hdr) (record epoch : Nat)
  | solve (h : Hdr) (desc : Nat)
  | dynamics (h : Hdr) (desc : Nat)
  | getParam (h : Hdr) (n : Nat) (keys : List Nat)
  | setParam (h : Hdr) (n : Nat) (pairs : List (Nat × Nat))
  | memCopy (h : Hdr) (src dst len : Nat)
  | memFill (h : Hdr) (dst len pattern : Nat)
  | testTraffic (h : Hdr) (kind first count ctl base len seed passes : Nat)
  | portCtlEnable (h : Hdr) (port pattern rate : Nat)
  | portCtlDisable (h : Hdr) (port pattern rate : Nat)
  | portCtlRetrain (h : Hdr) (port pattern rate : Nat)
  | portCtlLoopbackStart (h : Hdr) (port pattern rate : Nat)
  | portCtlLoopbackStop (h : Hdr) (port pattern rate : Nat)
  | portCtlTestStart (h : Hdr) (port pattern rate : Nat)
  | portCtlTestStop (h : Hdr) (port pattern rate : Nat)
  | portCtlReturnFromFailed (h : Hdr) (port pattern rate : Nat)
  | powerCtlQuery (h : Hdr) (fn point : Nat)
  | powerCtlDisable (h : Hdr) (fn point : Nat)
  | powerCtlEnable (h : Hdr) (fn point : Nat)
  | powerCtlSetPoint (h : Hdr) (fn point : Nat)
  | powerCtlSleep (h : Hdr) (point : Nat)
  | resetFunctionWarm (h : Hdr)
  | abandonJob (h : Hdr)
  -- Ivory, rings, registers (14)
  | queuedCommandStart (index : Nat)
  | ringEnable (ring : Nat) (value : BitVec 32)
  | ringDisable (ring : Nat) (value : BitVec 32)
  | registerWrite (target : RegTarget)
  | ringLineSnoop (ring cmdProd cplCons : Nat)
  | ringPoll (lines : List (Nat × Nat × Nat))
  | journalResume
  | replyPost (post : RingPost)
  | cxlMemAccess (req : CxlReq)
  -- steps (16, 07)
  | stepStart
  | entryStart (entry : Nat)
  | entryEnd (entry waits : Nat)
  | stepBoundary (info : BoundaryInfo)
  | opChangeDone
  | idleBoundary (info : BoundaryInfo)
  | verdictContribution
  | verdictMessage (msg : VerdictMsg) (head : VerdictHead)
  -- arrays and chain (04, 05)
  | productOutputTile (unit entry ti tj : Nat) (ue : Bool)
  | swatchRecompute (unit entry ti tj : Nat)
  | chainElementPass (unit entry pass iota : Nat) (ue : Bool)
  | rowProgram (unit entry row : Nat)
  | splitRowCombine (unit entry row : Nat)
  -- Slate (06)
  | setvl (unit d a : Nat) (fmt : Fmt) (lg : Nat)
  | sli (unit d : Nat) (imm : BitVec 21)
  | slui (unit d : Nat) (imm : BitVec 21)
  | salu (unit d a b : Nat) (op : SaluOp)
  | sbnz (unit a : Nat) (off : BitVec 16)
  | send (unit : Nat)
  | scsr (unit d : Nat) (stepNo : Bool)
  | srdtime (unit d : Nat)
  | vi (unit : Nat) (o : VOps) (op : ViOp)
  | vf (unit : Nat) (o : VOps) (rm : Rm) (op : VfOp)
  | vfma (unit : Nat) (o : VOps) (rm : Rm) (op : FmaOp)
  | vcmp (unit : Nat) (o : VOps) (c : Cond)
  | vsel (unit : Nat) (o : VOps)
  | vmlog (unit : Nat) (o : VOps) (table : Nat)
  | vwmul (unit : Nat) (o : VOps) (rm : Rm) (acc : Bool)
  | vdot (unit : Nat) (o : VOps) (rm : Rm) (four : Bool)
  | vcvt (unit : Nat) (o : VOps) (cvt : Nat) (dst : Fmt)
  | vred (unit : Nat) (o : VOps) (op : RedOp)
  | vmaxi (unit : Nat) (o : VOps)
  | vperm (unit : Nat) (o : VOps) (op : PermOp)
  | vmcnt (unit : Nat) (o : VOps) (first : Bool)
  | vl (unit : Nat) (o : MOps)
  | vs (unit : Nat) (o : MOps)
  | vls (unit : Nat) (o : MOps)
  | vss (unit : Nat) (o : MOps)
  | vlseg (unit : Nat) (o : MOps) (fields : Nat)
  | vsseg (unit : Nat) (o : MOps) (fields : Nat)
  | vlx (unit : Nat) (o : MOps)
  | vlxs (unit : Nat) (o : MOps) (mres : Nat)
  | vsx (unit : Nat) (o : MOps)
  | vsxadd (unit : Nat) (o : MOps)
  | vsxadda (unit : Nat) (o : MOps) (order : List Nat)
  | vlhost (unit : Nat) (o : MOps)
  | slateBudgetEnd (unit : Nat)
  -- Umber (08, 09)
  | umberSIteration (field : Nat)
  | umberSPrepass (field : Nat)
  | umberJGroup (field : Nat) (ue : Bool)
  -- memory (10)
  | memoryRequest (req : MemReq)
  | arbiterDecision (port : Nat)
  | streamLineRequest (unit slot : Nat)
  | streamLineLanded (unit slot line : Nat) (ue : Bool)
  | writeStreamAccepted (unit slot : Nat)
  | streamCancel (unit slot : Nat)
  | refresh (chan : ChanHeat)
  | forcedRefresh (chan : Nat)
  | unscheduledRetraining (chan : Nat)
  | unfence (chan : Nat)
  | channelFailed (chan : Nat)
  | tgStart (chan : Nat)
  | tgStop (chan : Nat)
  | tgLine (chan : Nat) (ecc : LineEcc)
  -- Indigo (11)
  | roundStart (ctx : Nat)
  | messageSend (ctx peer : Nat)
  | messageReceived (msg : Msg)
  | acknowledgement (ctx peer seq segment : Nat)
  | ackTimeout (ctx peer segment : Nat)
  | peerReplay (x y z : Nat)
  | accumulateAddPass (ctx : Nat)
  -- Flosin (12)
  | flitSlot (port : Nat)
  | syncFlitSend (port : Nat)
  | codewordReceived (port corrected : Nat) (uncorrectable : Bool)
  | flitRelease (port : Nat)
  | flitReceived (port : Nat) (flit : Flit)
  | nakRepeat (port : Nat)
  | replay (port : Nat)
  | pmdTrainDone (port : Nat)
  | blockLockDone (port : Nat) (reversed : Bool) (inverted : BitVec 16)
  | identityRecord (port : Nat) (rec : Identity)
  | alignProbe (port carried : Nat)
  | alignMaxima (port : Nat) (partner : Int)
  | alignConfirm (port lat : Nat)
  | alignCheckDone (port : Nat) (ok : Bool)
  | portStateTimeout (port : Nat)
  | lossOfSignal (port lane : Nat)
  | portFailed (port : Nat)
  | retireRecordReceived (port : Nat)
  -- torus and time (13)
  | switchIn (y z slot mapGen : Nat)
  | syncWordReceived (port : Nat) (word : SyncWord) (arrival : Nat)
  | cobaltCorrection
  | cobaltHoldover
  | syncPpsEdge (validated : Bool)
  -- power, clocks, boot (17)
  | railGood (rail : Rail)
  | railLost (rail : Rail)
  | powerOnReset
  | warmReset (cause : WarmCause)
  | ashPllLock
  | ashResetRelease
  | bootRomVerify (flash : Flash)
  | fastRailsReady
  | corePllLock
  | ivorySelfTestDone (badTile : Option Nat)
  | memoryTrainingDone (densities : List Nat) (failed : Option Nat)
  | bootLimitExceeded
  | sleepEntry
  | wakeInput (pin : Nat)
  | functionPowerUpDone (fn : Nat)
  | functionShutdownDone (fn : Nat)
  | thermalTrip (readings : List Int)
  | tripClear (readings : List Int)
  | throttleN (low : Bool)
  | faultN
  | eventWindowEnd (pin : Nat) (level : Bool)
  | stuck (pin : Nat)
  | stuckRecheck (active : List Nat)
  | ivoryLockstepMismatch
  -- management (19)
  | entdaa (address : Nat)
  | getVersion
  | getCapabilities
  | negotiateAlgorithms (offersAll : Bool)
  | getDigests
  | getCertificate (slot offset len : Nat)
  | challenge (slot : Nat) (nonce : List Byte)
  | getMeasurements (index : Nat) (sign : Bool) (nonce : List Byte)
  | keyExchange (exchange : List Byte)
  | finish (session : Nat) (verifies : Bool)
  | heartbeat (session : Nat)
  | keyUpdate (session : Nat)
  | endSession (session : Nat)
  | unsupportedRequest (code : Nat)
  | ownerProvisioning (msg : OwnerMsg)
  | debugToken (tok : DebugTok)
  | pldmDiscovery
  | pldmSensorReading (id : Nat)
  | pollForPlatformEventMessage
  | requestUpdate
  | componentTransfer (component : Nat) (content : FlashSlot)
  | activateFirmware
  | lossOfLock (port : Nat)
  | strapClockEdge (bit merged : Bool)
  | configurationRequest
  | cxlLinkTrained (lanes rate : Nat)
  | endpointId (id : Nat)
deriving DecidableEq, Repr, Inhabited

end Sys2Proof
end

