-- ==== Sys2Proof/WellFormed.lean ====
section
/-! DEFINITION. Well-formed commands: every operand within the width of the field it stands for. The meanings are total;
the checks say which operands the block's interfaces can carry. -/

namespace Sys2Proof

/-- A number fits a field of a width. -/
def fits (w n : Nat) : Bool := decide (n < 2 ^ w)

/-- Every number of a list fits the 64 bits that carry it. -/
def fit64 (l : List Nat) : Bool := l.all (fits 64)

/-- The fields of a packet header's upper half (14 R414). -/
def Hdr.wfUpper (h : Hdr) : Bool := fit64 [h.seq, h.resAddr] && [h.resLen, h.tag].all (fits 32)

/-- The fields of its lower half, and the ring it stands in (14 R406, R414). -/
def Hdr.wfLower (h : Hdr) : Bool :=
  fits 24 h.rsvdHi && fits 32 h.plen && fits 8 h.prof && fits 9 h.rsvdLo && fits 16 h.opcode && fits 4 h.ring

/-- A packet header's fields fit their widths (14 R414). -/
def Hdr.wf (h : Hdr) : Bool := h.wfUpper && h.wfLower

/-- A unit number names one of the 224 active tiles (01 R15). -/
def unitWf (u : Nat) : Bool := decide (u < 224)

/-- A Flosin port number (12 R340). -/
def portWf (p : Nat) : Bool := decide (p < 8)

/-- A memory channel: HBM4 0 to 255, LPDDR5X 256 to 319 (10 R286). -/
def chanWf (c : Nat) : Bool := decide (c < 320)

/-- A Slate register field of five bits (06 R152). -/
def regWf (r : Nat) : Bool := decide (r < 32)

/-- The register fields of a vector instruction (06 R152). -/
def VOps.wf (o : VOps) : Bool := regWf o.d && regWf o.a && regWf o.b && decide (o.msk < 8)

/-- The register fields of a memory instruction (06 R152). -/
def MOps.wf (o : MOps) : Bool := regWf o.d && regWf o.a && regWf o.b && decide (o.msk < 8)

/-- A command's operands fit the fields they stand for. -/
def Instr.wf : Instr → Bool
  | .echo h data => h.wf && fits 32 data.length
  | .identify h | .unload h | .stepStatus h => h.wf
  | .resetFunctionWarm h | .abandonJob h => h.wf
  | .attest h reqAddr reqLen _ => h.wf && fit64 [reqAddr, reqLen]
  | .loadImage h addr len strict _ => h.wf && fit64 [addr, len, strict]
  | .bind h ox oy oz sx sy sz epoch => h.wf && fit64 [ox, oy, oz, sx, sy, sz, epoch]
  | .runSteps h v | .haltAtStep h v => h.wf && fits 64 v
  | .solve h desc | .dynamics h desc => h.wf && fits 64 desc
  | .checkpoint h dest capacity => h.wf && fit64 [dest, capacity]
  | .restore h record epoch => h.wf && fit64 [record, epoch]
  | .getParam h n keys => h.wf && fits 64 n && keys.all (fits 32)
  | .setParam h n pairs => h.wf && fits 64 n && pairs.all (fun p => fits 32 p.1 && fits 64 p.2)
  | .memCopy h src dst len => h.wf && fit64 [src, dst, len]
  | .memFill h dst len pattern => h.wf && fit64 [dst, len, pattern]
  | .testTraffic h kind first count ctl base len seed passes =>
    h.wf && fit64 [kind, first, count, ctl] && fit64 [base, len, seed, passes]
  | .portCtlEnable h p a b | .portCtlDisable h p a b | .portCtlRetrain h p a b => h.wf && fit64 [p, a, b]
  | .portCtlLoopbackStart h p a b | .portCtlLoopbackStop h p a b => h.wf && fit64 [p, a, b]
  | .portCtlTestStart h p a b | .portCtlTestStop h p a b | .portCtlReturnFromFailed h p a b => h.wf && fit64 [p, a, b]
  | .powerCtlQuery h fn point | .powerCtlDisable h fn point => h.wf && fit64 [fn, point]
  | .powerCtlEnable h fn point | .powerCtlSetPoint h fn point => h.wf && fit64 [fn, point]
  | .powerCtlSleep h point => h.wf && fits 64 point
  | .ringEnable ring _ | .ringDisable ring _ | .replyPost ⟨ring, _⟩ => decide (ring < 16)
  | .ringLineSnoop ring p c => fits 4 ring && [p, c].all (fits 32)
  | .productOutputTile u _ _ _ _ | .swatchRecompute u _ _ _ | .chainElementPass u _ _ _ _ | .rowProgram u _ _
  | .splitRowCombine u _ _ | .send u | .slateBudgetEnd u | .streamLineRequest u _ | .streamLineLanded u _ _ _
  | .writeStreamAccepted u _ | .streamCancel u _ => unitWf u
  | .setvl u d a _ lg => unitWf u && regWf d && regWf a && decide (lg < 4)
  | .sli u d _ | .slui u d _ | .scsr u d _ | .srdtime u d => unitWf u && regWf d
  | .salu u d a b _ => unitWf u && regWf d && regWf a && regWf b
  | .sbnz u a _ => unitWf u && regWf a
  | .vmlog u o t => unitWf u && o.wf && decide (t < 16)
  | .vmcnt u o _ => unitWf u && o.wf
  | .vi u o _ | .vf u o _ _ | .vfma u o _ _ | .vcmp u o _ | .vsel u o | .vwmul u o _ _ | .vdot u o _ _ | .vred u o _
  | .vmaxi u o | .vperm u o _ => unitWf u && o.wf
  | .vcvt u o cvt _ => unitWf u && o.wf && decide (cvt < 256)
  | .vl u o | .vs u o | .vls u o | .vss u o | .vlx u o | .vsx u o | .vsxadd u o | .vsxadda u o _ | .vlhost u o =>
    unitWf u && o.wf
  | .vlseg u o f | .vsseg u o f => unitWf u && o.wf && decide (2 ≤ f) && decide (f ≤ 4)
  | .vlxs u o mres => unitWf u && o.wf && decide (mres < 8)
  | .umberSIteration f | .umberSPrepass f | .umberJGroup f _ => decide (f < 4)
  | .arbiterDecision p => decide (p < 392)
  | .memoryRequest r => decide (r.port < 392) && decide (r.cls < 16) && decide (1 ≤ r.beats) && decide (r.beats ≤ 64)
  | .forcedRefresh c | .unscheduledRetraining c | .unfence c | .channelFailed c | .tgStart c | .tgStop c
  | .refresh ⟨c, _⟩ => chanWf c
  | .tgLine c _ => chanWf c
  | .flitSlot p | .syncFlitSend p | .codewordReceived p _ _ | .flitRelease p | .flitReceived p _ | .nakRepeat p
  | .replay p | .pmdTrainDone p | .blockLockDone p _ _ | .identityRecord p _ | .alignProbe p _ | .alignMaxima p _
  | .alignConfirm p _ | .alignCheckDone p _ | .portStateTimeout p | .portFailed p | .retireRecordReceived p
  | .lossOfLock p | .syncWordReceived p _ _ => portWf p
  | .lossOfSignal p lane => portWf p && decide (lane < 16)
  | .wakeInput pin | .eventWindowEnd pin _ | .stuck pin => decide (pin < 6)
  | .functionPowerUpDone f | .functionShutdownDone f => decide (f < 15)
  | _ => true

end Sys2Proof
end

