-- ==== Sys2Proof/Machine/Types.lean ====
section
/-! DEFINITION. Data types of the parts of State: records the spec lays out, decoded, and the running state of engines. -/

namespace Sys2Proof.Machine

/-! ### Values -/

/-- The exact value of a code: a NaN (signalling or quiet), an infinity, a zero, or the finite value
(-1)^neg * m * 2^e with m > 0 (02 R36 to R39, R49). -/
inductive DVal where
  | nan (signalling : Bool)
  | inf (neg : Bool)
  | zero (neg : Bool)
  | fin (neg : Bool) (m : Nat) (e : Int)
deriving DecidableEq, Repr, Inhabited

/-! ### Host attachment -/

/-- A reply (14 R415), less the phase bit, which its completion slot gives it; `irq` is the packet's. -/
structure ReplyRec where
  seq : Nat := 0
  result : Nat := 0
  tag : Nat := 0
  detail : Nat := 0
  resBytes : Nat := 0
  opcode : Nat := 0
  status : Nat := 0
  interim : Bool := false
  ring : Nat := 0
  irq : Bool := false
deriving DecidableEq, Repr, Inhabited

/-! ### Power, clocks, start-up (17) -/

/-- Package phases (17 R479). -/
inductive Phase where
  | off | ash | boot | run | sleep
deriving DecidableEq, Repr, Inhabited

/-- The row of the cold-start table that completes next (17 R482). -/
inductive BootRow where
  | ref | strap | verify | rails | plls | selfTest | memTrain | done | stopped
deriving DecidableEq, Repr, Inhabited

/-- The reports of a boot that stopped (17 R482). -/
inductive BootReport where
  | refMissing | strapBad | imageBad | railMissing (r : Rail) | railLost | pllLock | tileBist (tile : Option Nat)
  | memTrain (what : Option Nat)
deriving DecidableEq, Repr, Inhabited

/-- States of a function (17 R484). -/
inductive FnState where
  | off | starting | on | stopping
deriving DecidableEq, Repr, Inhabited

/-! ### Slate (06) -/

/-- The vector type: element format and group (06 R148). -/
structure VType where
  fmt : Fmt
  g : Nat
deriving DecidableEq, Repr, Inhabited

/-- Whether the lanes run a kernel: it ended by `send`, or stopped at a fault (06 R147, R162, R168). -/
inductive SlateRun where
  | idle | running | ended | faulted
deriving DecidableEq, Repr, Inhabited

/-- The Slate fault record (06 R166). -/
structure SlateFault where
  addr : Nat := 0
  opId : Nat := 0
  pc : Nat := 0
  elem : Nat := 0
  cause : Nat := 0
  unit : Nat := 0
  step : BitVec 64 := 0
deriving DecidableEq, Repr, Inhabited

/-! ### Chroma (05) -/

/-- A Chroma tensor descriptor (05 R120). Extents are the extents themselves. -/
structure TDesc where
  eBase : Nat := 0
  tok : Nat := 0
  sbase : Nat := 0
  base : Nat := 0
  str : List Int := []
  ext : List Nat := []
  fmt : Nat := 0
  xscale : Int := 0
  cvt : Nat := 0
  ndim : Nat := 0
  dynEn : Bool := false
  dynWire : Nat := 0
deriving DecidableEq, Repr, Inhabited

/-- A reduction slot (05 R136). -/
structure RedSlot where
  rop : Nat := 0
  wire : Nat := 0
  maskEn : Bool := false
  maskSel : Nat := 0
deriving DecidableEq, Repr, Inhabited

/-- A chain configuration record (05 R125): header fields, descriptors, constants, micro-operation words. -/
structure ChainRec where
  inPass : List Nat := []
  red : List RedSlot := []
  esumN : Nat := 0
  rpLen : Nat := 0
  stageOps : List Nat := []
  o1Wire : Nat := 0
  o0Wire : Nat := 0
  nOut : Nat := 0
  nIn : Nat := 0
  rowMode : Bool := false
  nStage : Nat := 0
  opId : Nat := 0
  ins : List TDesc := []
  outs : List TDesc := []
  consts : List Nat := []
  ops : List (BitVec 32) := []
  rp : List (BitVec 32) := []
  redRsvd : Bool := false
deriving DecidableEq, Repr, Inhabited

/-- A pass-1 element as the slots see it: row position, wires, masks (05 R136). -/
structure ChainElem where
  pos : Nat := 0
  w : List Nat := []
  m : List Bool := []
deriving DecidableEq, Repr, Inhabited

/-! ### Umber (08, 09) -/

/-- A solve descriptor (08 R207). Points are signed. Beside its 192 bytes stand the rows the image declares for each node
(node, first row, rows; 08 R205) and the declared bounds the range analysis took (08 R208). -/
structure SolveDesc where
  own : List (Nat × Nat × Nat) := []
  bnd : List Nat := []
  deadline : Nat := 0
  rtol : Nat := 0
  atol : Nat := 0
  n : Nat := 0
  nnz : Nat := 0
  nCap : Nat := 0
  fxA : Int := 0
  fxM : Int := 0
  fxB : Int := 0
  fxX : Int := 0
  fxR : Int := 0
  fxZ : Int := 0
  fxP : Int := 0
  fxQ : Int := 0
  pivLog2 : Int := 0
  dirLog2 : Nat := 0
  method : Nat := 0
  pc : Nat := 0
  mfmt : Nat := 0
  mfPar : Nat := 0
  restart : Nat := 1
  cheb : Nat := 1
  engLog2 : Nat := 0
  transpose : Bool := false
  warm : Bool := false
  pcReuse : Bool := false
  dlMode : Bool := false
  dist : Bool := false
  fmtB : Nat := 0
  fmtX : Nat := 0
  rsvd : Nat := 0
  opId : Nat := 0
  slots : List Nat := []
deriving DecidableEq, Repr, Inhabited

/-- Who asked for an Umber operation: a host command or a schedule entry (08 R203). -/
inductive UmberSrc where
  | cmd (h : Hdr)
  | entry (e : Nat)
deriving DecidableEq, Repr, Inhabited

/-- The profile an operation takes its keys by: a command's own, the current values for an entry (14 R429). -/
def UmberSrc.prof : UmberSrc → Nat
  | .cmd h => h.prof
  | .entry _ => 0

/-- Where a solve stands (08 R221, R228). -/
inductive SolvePhase where
  | prepass | iterate | ended
deriving DecidableEq, Repr, Inhabited

/-- Preconditioner data as read from or written to `pc_store` (08 R223): inverse diagonal, dense LU blocks (row start,
edge, row-major entries), or sparse ILU rows; and the pivots replaced when they were computed (08 R225). -/
structure PcData where
  piv : Nat := 0
  diag : List Int := []
  blocks : List (Nat × Nat × List Int) := []
  ilu : List (List (Nat × Int)) := []
deriving DecidableEq, Repr, Inhabited

/-- What an operation raises: flags, counts of R67, event bits of R69 (a saturation; a NaN or infinity written). -/
structure Ev where
  fl : BitVec 5 := 0
  sat : Nat := 0
  van : Nat := 0
  nanOut : Nat := 0
  nonfin : Bool := false
  satEv : Bool := false
deriving DecidableEq, Repr, Inhabited

/-- What a distributed solve waits for from the other nodes: the halo entries of a vector it multiplies, or the combined
value of its exact partial sums (08 R232). -/
inductive NetAsk where
  | halo (v : List Int)
  | sums (parts : List Int)
deriving DecidableEq, Repr, Inhabited

/-- A solve in progress on the engines of one node (08 R203 to R238). Vectors are FX64 integers at their class's
point; coefficients are FP64 codes. `netIn` holds what the other nodes sent and the solve has not used yet, `asked` what
it waits for, `dimOnly` the key `us_warm_dim_only` as the operation takes it. `rowStored` counts the stored entries of
each row, those of the padding rows after the node's own at its end; `rates` holds the stream rate and level latency of
every engine slot; `lead` says that this is node 0, whose slot 0 decides on live time. `xf` is the forward solution and
`haloF` its halo entries. -/
structure SolveSt where
  desc : SolveDesc := {}
  src : UmberSrc := .entry 0
  fields : List Nat := []
  phase : SolvePhase := .prepass
  startTick : Nat := 0
  rows : List (List (Nat × Int)) := []
  pcd : PcData := {}
  b : List Int := []
  x : List Int := []
  r : List Int := []
  z : List Int := []
  p : List Int := []
  q : List Int := []
  rhat : List Int := []
  basis : List (List Int) := []
  zbasis : List (List Int) := []
  hess : List (List Nat) := []
  giv : List (Nat × Nat) := []
  gvec : List Nat := []
  rho : Nat := 0
  alpha : Nat := 0
  omega : Nat := 0
  iters : Nat := 0
  bestX : List Int := []
  bestIter : Nat := 0
  bestNorm : Option Nat := none
  bestSet : Bool := false
  tainted : Bool := false
  sat : Nat := 0
  piv : Nat := 0
  sigHash : BitVec 64 := 0
  sigN : Nat := 0
  confirmFail : Bool := false
  rangeInput : Bool := false
  breakdown : Bool := false
  warmRejected : Bool := false
  capHit : Bool := false
  deadlineHit : Bool := false
  rangeHit : Bool := false
  charged : Nat := 0
  netIn : List (List Int) := []
  asked : Option NetAsk := none
  bb : Int := 0
  rr : Int := 0
  ev : Ev := {}
  rowStored : List Nat := []
  dimOnly : Bool := false
  rates : List (Nat × Nat) := []
  tar : Nat := 0
  lead : Bool := true
  lastX : List Int := []
  lastIdx : Nat := 0
  x0Sat : Bool := false
  prods : Nat := 0
  xf : List Int := []
  haloF : List Int := []
deriving DecidableEq, Repr, Inhabited

/-- A dynamics descriptor (09 R262). -/
structure DynDesc where
  frames : List Nat := []
  nTree : Nat := 1
  nJ : Nat := 1
  op : Nat := 0
  nFrame : Nat := 1
  nFrameM1 : Nat := 0
  engLog2 : Nat := 0
  jdot : Bool := false
  fext : Bool := false
  fmtIn : Nat := 0
  fmtOut : Nat := 0
  singLog2 : Int := 0
  rsvd : Nat := 0
  opId : Nat := 0
  slots : List Nat := []
deriving DecidableEq, Repr, Inhabited

/-- A joint record (09 R245); real values are FP64 codes. -/
structure Joint where
  parent : Int := -1
  jtype : Nat := 0
  pitch : Nat := 0
  rot : List Nat := []
  trans : List Nat := []
  mass : Nat := 0
  com : List Nat := []
  inertia : List Nat := []
deriving DecidableEq, Repr, Inhabited

/-- A model (09 R244). -/
structure Model where
  nJ : Nat := 0
  nq : Nat := 0
  nv : Nat := 0
  grav : List Nat := []
  joints : List Joint := []
deriving DecidableEq, Repr, Inhabited

/-- A per-tree result (09 R267). -/
structure TreeRes where
  sat : Nat := 0
  singFirst : Nat := 0xFFFF
  singCount : Nat := 0
  tree : Nat := 0
  range : Bool := false
  singular : Bool := false
  quatFix : Bool := false
deriving DecidableEq, Repr, Inhabited

/-- The packet `seq` of a command, 0 for an entry (20 R532). -/
def UmberSrc.seq : UmberSrc → Nat
  | .cmd h => h.seq
  | .entry _ => 0

/-- An Umber-J command in progress (09 R264): the engines it runs on, for each engine slot the next tree, and the keys
`uj_quat_tol` and `uj_sing_log2` as the operation takes them. `halt` says that another engine met a fault, so that this one
stops after its current group (09 R270); `done` that the operation ended and its engines are held until its charge ends (09
R266). -/
structure DynSt where
  desc : DynDesc := {}
  model : Model := {}
  points : List Int := []
  src : UmberSrc := .entry 0
  fields : List Nat := []
  slot : Nat := 0
  next : Nat := 0
  stop : Nat := 0
  results : List TreeRes := []
  faulted : Bool := false
  halt : Bool := false
  done : Bool := false
  charged : Nat := 0
  quatTol : Int := 0
  sing : Int := 0
deriving DecidableEq, Repr, Inhabited

/-! ### Memory (10) -/

/-- A prefetch stream descriptor (10 R279). -/
structure StreamDesc where
  mbase : Nat := 0
  land : Nat := 0
  depth : Nat := 0
  str : List Int := []
  ext : List Nat := []
  fmt : Nat := 0
  write : Bool := false
  ndim : Nat := 0
  opId : Nat := 0
  entry : Nat := 0
deriving DecidableEq, Repr, Inhabited

/-- A line held in a Pearl set (10 R276, R277): its address, its way, whether it is dirty. -/
structure PearlLine where
  addr : Nat := 0
  way : Nat := 0
  dirty : Bool := false
deriving DecidableEq, Repr, Inhabited

/-! ### Indigo (11) -/

/-- A message sent and not acknowledged: its number, how often it was sent, and when last (11 R322, R323). -/
structure Unacked where
  msg : Msg := {}
  sendings : Nat := 0
  lastSent : Nat := 0
deriving DecidableEq, Repr, Inhabited

/-- An exchange context record (11 R313). -/
structure CtxRec where
  src : Nat := 0
  dst : Nat := 0
  seq : Nat := 0
  peerTab : Nat := 0
  bytes : Nat := 0
  epoch : Nat := 0
  nPeer : Nat := 0
  cap : Nat := 0
  nRoundM1 : Nat := 0
  credits : Nat := 0
  fmtIn : Nat := 0
  fmtOut : Nat := 0
  kind : Nat := 0
  rop : Nat := 0
  cvt : Nat := 0
  fold : Nat := 0
  topk : Nat := 0
  reroute : Bool := false
  tok : Nat := 0
  rowBytes : Nat := 0
  rsvd : Nat := 0
  opId : Nat := 0
  srcTok : Nat := 0
  routeTok : Nat := 0
  slotTok : Nat := 0
  tokens : Nat := 0
deriving DecidableEq, Repr, Inhabited

/-- A peer table entry (11 R314). -/
structure Peer where
  idx : Nat := 0
  count : Nat := 0
  expert : Nat := 0xFFFF
  pctx : Nat := 0
  z : Nat := 0
  y : Nat := 0
  x : Nat := 0
  rsvd : Nat := 0
deriving DecidableEq, Repr, Inhabited

/-! ### Flosin (12) -/

/-- Port states (12 R373). -/
inductive PortState where
  | off | pmdTrain | blockLock | ident | align | run | isolated | retrain | failed
deriving DecidableEq, Repr, Inhabited

/-! ### Images and steps (15, 16) -/

/-- A section table entry (15 R432). -/
structure Sect where
  stype : Nat := 0
  off : Nat := 0
  len : Nat := 0
  zeros : Nat := 0
deriving DecidableEq, Repr, Inhabited

/-- A token entry of the manifest (15 R436). -/
structure TokDecl where
  tok : Nat := 0
  fmt : Nat := 0
  ndim : Nat := 0
  home : Nat := 0
  flags : Nat := 0
  seqMask : Nat := 0
  ext : List Nat := []
  producer : Nat := 0
  zeros : Nat := 0
deriving DecidableEq, Repr, Inhabited

/-- A loaded image: header values of the manifest, lists, and the decoded objects of its sections (15 R431 to R440). -/
structure Image where
  digest : List Byte := []
  strict : Bool := false
  len : Nat := 0
  sects : List Sect := []
  contract : Nat := 0
  mflags : Nat := 0
  jobSeed : BitVec 64 := 0
  toks : List TokDecl := []
  vars : List (Nat × Nat × Nat) := []
  pbound : List (Nat × Nat × Nat) := []
  params : List (Nat × Nat) := []
  parts : ImageParts := {}
  chains : List (Nat × ChainRec) := []
  kernels : List (Nat × List (BitVec 32)) := []
  solves : List (Nat × SolveDesc × List Nat) := []
  dyns : List (Nat × DynDesc × Model × List Int) := []
  streams : List (StreamRef × StreamDesc) := []
  ctxs : List (CtxRef × CtxRec × List Peer) := []
deriving DecidableEq, Repr, Inhabited

/-- Where a unit holds its part of a unit-home token: the addresses of the slots, the lowest byte of the token that the
part covers, and how many bytes it covers (15 R445, R553). -/
structure UnitPlace where
  a0 : Nat := 0
  a1 : Nat := 0
  low : Nat := 0
  len : Nat := 0
deriving DecidableEq, Repr, Inhabited

/-- Where a token was placed (15 R445): the offsets of its slots in the region of its home (equal when it is not
versioned), its bytes, and for a unit-home token its place in each of the 224 tile stores. -/
structure Placed where
  tok : Nat := 0
  home : Nat := 0
  addr0 : Nat := 0
  addr1 : Nat := 0
  bytes : Nat := 0
  units : List UnitPlace := []
deriving DecidableEq, Repr, Inhabited

/-- A gated interval of a unit's planned timeline: the unit, the end of what it did before, the cycle at which its pre-roll
begins, and the planned start that the pre-roll serves; without one, at the step's end, the last two agree (17 R473, R474). -/
structure PreRoll where
  unit : Nat := 0
  idle : Nat := 0
  start : Nat := 0
  stop : Nat := 0
deriving DecidableEq, Repr, Inhabited

/-- A binding (15 R444): block, placement, planned start and charge of every entry, planned length, and the pre-rolls of
this node's units. -/
structure Bound where
  ox : Nat := 0
  oy : Nat := 0
  oz : Nat := 0
  sx : Nat := 1
  sy : Nat := 1
  sz : Nat := 1
  placed : List Placed := []
  plan : List (Nat × Nat) := []
  planLen : Nat := 0
  rolls : List PreRoll := []
deriving DecidableEq, Repr, Inhabited

/-- A schedule entry within a step (16 R450). -/
inductive EntSt where
  | waiting
  | running (start : Nat)
  | ended (start stop : Nat)
deriving DecidableEq, Repr, Inhabited

/-- Step outcomes (07 R179), and the two records of an image without a verdict (20 R535). -/
inductive Outc where
  | commit | skip | withhold | halt | ran | faulted
deriving DecidableEq, Repr, Inhabited

/-! ### Faults, events, management (19, 20) -/

/-- A fault record (20 R532). -/
structure FaultRec where
  time : BitVec 64 := 0
  step : BitVec 64 := 0
  addr : BitVec 64 := 0
  seq : BitVec 64 := 0
  opId : Nat := 0
  pc : Nat := 0
  elem : Nat := 0
  inst : Nat := 0
  sub : Nat := 0
  cause : Nat := 0
  status : Nat := 0
  cls : Nat := 0
  num : Nat := 0
deriving DecidableEq, Repr, Inhabited

/-- Management events (19 R525), each named as the spec names it. -/
inductive Event where
  | strapBad | refMissing | imageBad | railMissing (r : Rail) | railLost (r : Rail) | pllLock | tileBist (tile : Option Nat)
  | memTrain (what : Option Nat) | slotFallback | certMismatch | cabling (port result : Nat) (partner : Identity)
  | fault (num : Nat) | retired | liverySkew | cobaltSkew | alignLost (port : Nat) | portReport (port : Nat)
  | switchIgnored (mapGen : Nat) | coordChanged | rowPair (y z : Nat) | stuck (pin : Nat) | swatchAlarm
  | throttle (cause : Nat) | owner (slot : Nat) | bootStopped
deriving DecidableEq, Repr, Inhabited

/-- The security fuses (19 R509): key hashes (empty: unwritten), revoke bits, security versions. -/
structure Fuses where
  nisel : List (List Byte) := []
  niselRevoke : BitVec 4 := 0
  owner : List (List Byte) := []
  ownerRevoke : BitVec 4 := 0
  svFw : Nat := 0
  svCfg : Nat := 0
  vmin : List Nat := []
  passNarrow : List Bool := []
deriving DecidableEq, Repr, Inhabited

/-- The connection state of one SPDM transport (19 R520): how far negotiation has come. -/
structure SpdmConn where
  version : Bool := false
  caps : Bool := false
  algs : Bool := false
deriving DecidableEq, Repr, Inhabited

/-- An open SPDM session (19 R520). -/
structure SpdmSession where
  id : Nat := 0
  tr : Transport := .mctp
  finished : Bool := false
  keyGen : Nat := 0
deriving DecidableEq, Repr, Inhabited

/-- Responses sent over MCTP (19 R519 to R527) and SPDM responses in general; byte strings that the DMTF standards or
the keys fix are carried as values. -/
inductive MgmtResp where
  | version (v : Nat)
  | capabilities
  | algorithms (ok : Bool)
  | digests (d : List Byte)
  | certificate (bytes : List Byte)
  | challengeAuth (sig : List Byte)
  | measurements (vals : List (List Byte)) (sig : Option (List Byte))
  | keyExchangeRsp (session : Nat)
  | finishRsp (session : Nat)
  | heartbeatAck (session : Nat)
  | keyUpdateAck (session : Nat)
  | endSessionAck (session : Nat)
  | errUnsupported | errBusy | errInvalid | errCert | errUnexpected
  | ownerOk | ownerRefused | debugOk | debugRefused
  | pldmTypes (types : List Nat)
  | sensor (value : Option Int)
  | platformEvent (ev : Option Event) (overflow : Bool)
  | updateAccepted | alreadyInUpdateMode | verifyComplete (ok : Bool) | activated (deferred : Bool)
  | notInUpdate
deriving DecidableEq, Repr, Inhabited

/-- A firmware update in progress (19 R526): slots written and verified so far. -/
structure Update where
  fw : Option Nat := none
  cfg : Option Nat := none
deriving DecidableEq, Repr, Inhabited

end Sys2Proof.Machine
end

