-- ==== Sys2Proof/Config.lean ====
section
/-! DEFINITION. What one package fixes and the spec leaves open: constants with no body (free values), and the
implementation parameters of 01 R29. Nothing in Lean can evaluate an `opaque` of this file. -/

namespace Sys2Proof

/-- The byte that an address of undefined contents holds, by the generation of the contents and the address
(10 R282, R287, R310; 15 R434; 20 R533). Free: log 1. -/
opaque Config.freeByte : Nat → Nat → BitVec 8

/-- A free 64-bit value, by a tag for its use and a number; the number is a counter of State, or the value's operands
(log 1). Values of different tags or numbers are unrelated. -/
opaque Config.freeWord : Nat → Nat → BitVec 64

/-- The data a traffic generator gives the bytes of a line in the patterns whose bits 10 R305 does not lay out (walking
ones, address, PRBS31): by pattern, seed, channel-local line address and byte. Free: log 37. -/
opaque Config.tgByte : Nat → BitVec 64 → Nat → Nat → BitVec 8

/-- The state that PRBS31 starts a line with, by seed and channel-local line address: 10 R305 names both and not the
function. Free: log 37. -/
opaque Config.prbsSeed : BitVec 64 → Nat → BitVec 31

/-- A free integer, by a number for the operation and one for the value in it (log 42). -/
opaque Config.freeInt : Nat → Nat → Int

/-- The package's serial number (19 R517). Free: log 16. -/
opaque Config.serial : BitVec 64

/-- The part revision of `IDENTIFY` (14 R420). Free: log 16. -/
opaque Config.partRevision : BitVec 64

/-- The one-time fuses as manufactured (19 R509). Free: log 16. -/
opaque Config.fuses : Machine.Fuses

/-- The seed of the on-die unclonable source, 32 bytes (19 R516). Free: log 16. -/
opaque Config.idSeed : List Byte

/-- The SHA-512 of the boot ROM (19 R522). Free: log 16. -/
opaque Config.romDigest : List Byte

/-- Whether an Ed25519 signature (public key, message, signature) verifies (19 R509 to R529, 15 R439). Uninterpreted:
log 20. -/
opaque Config.ed25519Verify : List Byte → List Byte → List Byte → Bool

/-- The Ed25519 signature of a message under a private key. Uninterpreted: log 20. -/
opaque Config.ed25519Sign : List Byte → List Byte → List Byte

/-- The certificate chain bytes of slot 0, from the stored certificate, the alias key and the two slot digests (19 R517,
R518). Uninterpreted: log 20. -/
opaque Config.certChain : List Byte → List Byte → List Byte → List Byte → List Byte

/-- The bytes of an SPDM response, which the DMTF standard lays out (19 R519, R520). Uninterpreted: log 20. -/
opaque Config.spdmBytes : Machine.MgmtResp → List Byte

/-- The time a schedule entry's planned start lies after the earliest cycle its inputs and engine allow, by image digest
and entry (16 R449 gives the loader's planning no rule). Free: log 18. -/
opaque Config.planSlack : List Byte → Nat → Nat

/-- Whether a fused multiply-add of 0, infinity and a quiet NaN raises `invalid`: IEEE 754-2019 leaves it open, and R40
does not bind it. Free: log 25. -/
opaque Config.fmaZeroInfNan : Bool

/-- Fault causes outside Slate, by a number the model gives the kind of fault (20 R532 codes only the Slate causes).
Free: log 19. -/
opaque Config.faultCause : Nat → Nat

/-- Milliseconds from the rails being good to `ready`, by the start's number, where the model's clock does not give them
(17 R486). Free: log 22. -/
opaque Config.bootMs : Nat → Nat

/-- The digest of measurement index 8, from the strap word, `map_gen` and the two fuse counters; R522 gives its bytes no
layout. Uninterpreted: log 20. -/
opaque Config.measStrap : Nat → Nat → Nat → Nat → List Byte

/-- The implementation parameters of TK1 in the encoding and order of 01 R29. -/
def Config.params : List Nat :=
  [2, 224, 4, 3145728, 2048, 8, 0x0000002000000040, 32, 4, 4096, 4294967296, 1048576, 32768]

end Sys2Proof
end

