-- ==== Sys2Proof/Machine/Tab.lean ====
section
/-! DEFINITION. Sparse tables (lists of key and value, keys strictly rising) and byte memories. A table has a default:
what a key it does not list reads as; it lists no entry equal to the default. A memory lists bytes that differ from 0
and ranges of undefined contents, whose bytes are free values (log 1, log 2). -/

namespace Sys2Proof.Machine

/-- A sparse table: (key, value) pairs with keys strictly rising. -/
abbrev Tab (α : Type) := List (Nat × α)

/-- The value at a key; `d` is the table's default. -/
def Tab.get {α : Type} (d : α) (k : Nat) : List (Nat × α) → α
  | [] => d
  | (j, v) :: t => if j = k then v else Tab.get d k t

/-- The table with the entry for `k` removed. -/
def Tab.erase {α : Type} (k : Nat) : List (Nat × α) → List (Nat × α)
  | [] => []
  | (j, v) :: t => if j = k then Tab.erase k t else (j, v) :: Tab.erase k t

/-- The table with `v` listed at `k`. -/
def Tab.insert {α : Type} (k : Nat) (v : α) : List (Nat × α) → List (Nat × α)
  | [] => [(k, v)]
  | (j, w) :: t =>
    if j = k then (k, v) :: t else if k < j then (k, v) :: (j, w) :: t else (j, w) :: Tab.insert k v t

/-- The table with `k` reading `v`: an entry equal to the default is dropped. -/
def Tab.set {α : Type} [DecidableEq α] (d : α) (k : Nat) (v : α) : List (Nat × α) → List (Nat × α)
  | [] => if v = d then [] else [(k, v)]
  | (j, w) :: t =>
    if j = k then (if v = d then Tab.set d k v t else (k, v) :: t)
    else if k < j then (if v = d then (j, w) :: Tab.set d k v t else (k, v) :: (j, w) :: t)
    else (j, w) :: Tab.set d k v t

/-- The canonical form: keys strictly rising and no entry equal to the default. -/
def Tab.wf {α : Type} [DecidableEq α] (d : α) : List (Nat × α) → Bool
  | [] => true
  | [(_, v)] => decide (v ≠ d)
  | (j, v) :: (k, w) :: t => decide (v ≠ d) && decide (j < k) && Tab.wf d ((k, w) :: t)

/-- A range of addresses, `lo` to `hi` - 1, whose contents are undefined, and the generation of those contents. -/
structure Undef where
  lo : Nat
  hi : Nat
  gen : Nat
deriving DecidableEq, Repr, Inhabited

/-- A byte memory: cells in canonical form (addresses rising, no byte 0), and ranges of undefined contents. -/
structure Mem where
  cells : List Host.Cell := []
  undef : List Undef := []
deriving DecidableEq, Repr, Inhabited

/-- The range of undefined contents an address lies in. -/
def Mem.undefAt (a : Nat) : List Undef → Option Undef
  | [] => none
  | u :: us => if u.lo ≤ a ∧ a < u.hi then some u else Mem.undefAt a us

/-- The byte at an address: free in a range of undefined contents, else as listed, else 0. -/
def Mem.read (m : Mem) (a : Nat) : Byte :=
  match Mem.undefAt a m.undef with
  | some u => Config.freeByte u.gen a
  | none => Tab.get 0 a m.cells

/-- What is left of one range with [lo, hi) taken out. -/
def Mem.carveOne (lo hi : Nat) (u : Undef) : List Undef :=
  (if u.lo < min u.hi lo then [{ lo := u.lo, hi := min u.hi lo, gen := u.gen : Undef }] else []) ++
    (if max u.lo hi < u.hi then [{ lo := max u.lo hi, hi := u.hi, gen := u.gen : Undef }] else [])

/-- The ranges with [lo, hi) taken out. -/
def Mem.carve (lo hi : Nat) : List Undef → List Undef
  | [] => []
  | u :: us => (if hi ≤ lo then [u] else Mem.carveOne lo hi u) ++ Mem.carve lo hi us

/-- Ranges in rising order with one more; an empty one is left out. -/
def Mem.addRange (x : Undef) : List Undef → List Undef
  | [] => if x.lo < x.hi then [x] else []
  | u :: us => if x.hi ≤ x.lo then u :: us else if x.lo < u.lo then x :: u :: us else u :: Mem.addRange x us

/-- The cells that list a byte string from an address: its bytes other than 0. -/
def Mem.listed (a : Nat) : List Byte → List Host.Cell
  | [] => []
  | v :: vs => if v = 0 then Mem.listed (a + 1) vs else (a, v) :: Mem.listed (a + 1) vs

/-- `n` bytes from an address, lowest address first. -/
def Mem.readN (m : Mem) (a : Nat) : Nat → List Byte
  | 0 => []
  | n + 1 => m.read a :: Mem.readN m (a + 1) n

/-- The memory after a write of a byte string, lowest address first. -/
def Mem.writeN (m : Mem) (a : Nat) (vs : List Byte) : Mem :=
  { cells := m.cells.filter (fun c => decide (c.1 < a)) ++ Mem.listed a vs ++
      m.cells.filter (fun c => decide (a + vs.length ≤ c.1))
    undef := Mem.carve a (a + vs.length) m.undef }

/-- The memory after a write of one byte. -/
def Mem.write (m : Mem) (a : Nat) (v : Byte) : Mem := m.writeN a [v]

/-- The memory with the contents of [lo, hi) undefined, in generation `gen`. -/
def Mem.forget (m : Mem) (lo hi gen : Nat) : Mem :=
  { cells := m.cells.filter (fun c => decide (c.1 < lo) || decide (hi ≤ c.1))
    undef := Mem.addRange { lo := lo, hi := hi, gen := gen } (Mem.carve lo hi m.undef) }

/-- The canonical form of ranges: none empty, rising, apart from one another. -/
def Mem.rangesOk : List Undef → Bool
  | [] => true
  | [u] => decide (u.lo < u.hi)
  | u :: v :: us => decide (u.lo < u.hi) && decide (u.hi ≤ v.lo) && Mem.rangesOk (v :: us)

/-- The canonical form of a memory: cells and ranges canonical, no cell in a range of undefined contents. -/
def Mem.wf (m : Mem) : Bool :=
  Tab.wf 0 m.cells && Mem.rangesOk m.undef && m.cells.all (fun c => (Mem.undefAt c.1 m.undef).isNone)

/-- Bytes of address space kept for one unit's tile store. -/
abbrev tileSpan : Nat := 4194304

/-- A tile store whose every byte is undefined: unit `u`, generation `gen`. -/
def freshTile (u gen : Nat) : Mem :=
  { cells := [], undef := [{ lo := tileSpan * u, hi := tileSpan * (u + 1), gen := gen }] }

end Sys2Proof.Machine
end

