-- ==== Sys2Proof/Machine/State.lean ====
section
/-! DEFINITION. The state of the package, as plain data: one structure per part, every field with the rule that names it
and its reset value (INVENTORY.md lists the same). `State.reset` is the moment VAON and VIO_AON are good: row 0 of the
cold-start table (17 R482; log 3). -/

namespace Sys2Proof.Machine

/-- One ring's BAR0 registers as last written, the values latched at enable, and its lines (R406 to R413). -/
structure Ring where
  /-- 64 (cr_base [63:12]) (14 R406); reset 0. -/
  crBase : BitVec 64 := 0
  /-- 64 (cq_base [63:12]) (14 R406); reset 0. -/
  cqBase : BitVec 64 := 0
  /-- 64 (rl_addr [63:6]) (14 R406); reset 0. -/
  rlAddr : BitVec 64 := 0
  /-- 64 (sl_addr [63:6]) (14 R406); reset 0. -/
  slAddr : BitVec 64 := 0
  /-- 1 (14 R406); reset 0. -/
  en : Bool := false
  /-- 1 (14 R406); reset 0. -/
  rRun : Bool := false
  /-- 1 (14 R406); reset 0. -/
  rErr : Bool := false
  /-- 64, tick at which r_err was last set (00 R7); reset none. -/
  errAt : Option Nat := none
  /-- 4 (14 R406); reset 0. -/
  cqLog2 : Nat := 0
  /-- 4 (14 R406); reset 0. -/
  crLog2 : Nat := 0
  /-- 5 (14 R406); reset r, the ring's number (State.reset gives ring r the value r). -/
  vec : Nat := 0
  /-- 64, cr_base latched at enable (14 R407); reset DESIGN CHOICE 0 (nothing latched; log 4). -/
  lCr : BitVec 64 := 0
  /-- 64, cq_base latched at enable (14 R407); reset DESIGN CHOICE 0 (log 4). -/
  lCq : BitVec 64 := 0
  /-- 64, rl_addr latched at enable (14 R407); reset DESIGN CHOICE 0 (log 4). -/
  lRl : BitVec 64 := 0
  /-- 64, sl_addr latched at enable (14 R407); reset DESIGN CHOICE 0 (log 4). -/
  lSl : BitVec 64 := 0
  /-- 4, latched at enable (14 R407); reset DESIGN CHOICE 0 (log 4). -/
  lCrLog2 : Nat := 0
  /-- 4, latched at enable (14 R407); reset DESIGN CHOICE 0 (log 4). -/
  lCqLog2 : Nat := 0
  /-- 5, latched at enable (14 R407); reset DESIGN CHOICE 0 (log 4). -/
  lVec : Nat := 0
  /-- 1, an enable waits for ready (14 R407); reset no enable waits. -/
  enWait : Bool := false
  /-- 32, cmd_prod as last read (14 R408, R410); reset 0 (cleared at enable). -/
  prodSeen : Nat := 0
  /-- 32, cmd_cons (14 R408); reset 0. -/
  cons : Nat := 0
  /-- 32, cpl_prod (14 R408); reset 0. -/
  cplProd : Nat := 0
  /-- 32, cpl_cons as last read (14 R408); reset 0. -/
  cplCons : Nat := 0
  /-- 32, r_errcode (14 R408, R412); reset 0. -/
  errcode : Nat := 0
  /-- 64, previous nonzero seq since the enable (14 R417); reset 0 (none). -/
  lastSeq : Nat := 0
  /-- queue of replies held back (14 R413); reset empty. -/
  held : List ReplyRec := []
deriving DecidableEq, Repr, Inhabited

/-- A command accepted and not yet retired (R419 to R426). -/
structure Cmd where
  /-- 32 B packet header (14 R414); reset - (no command at reset). -/
  hdr : Hdr := {}
  /-- the command and its parameters (14 R418); reset -. -/
  op : HostOp := HostOp.identify
  /-- 1, started / still waiting to start (14 R419); reset -. -/
  started : Bool := false
  /-- 64, steps run, bytes copied or trees done so far (14 R421); reset -. -/
  done : Nat := 0
  /-- a SOLVE's descriptor as analysed at acceptance (08 R207, 15 R446); reset - (none before acceptance). -/
  solve : Option SolveDesc := none
  /-- a DYNAMICS's descriptor, model and class points as analysed at acceptance (09 R244, 15 R446); reset - (none before acceptance). -/
  dyn : Option (DynDesc × Model × List Int) := none
deriving DecidableEq, Repr, Inhabited

/-- A journal entry (R424): packet header, parameters, reply, state, ring. -/
structure JEntry where
  /-- 32 B, j_hdr and j_ring (14 R424); reset -. -/
  hdr : Hdr := {}
  /-- 224 B, j_par (14 R424); reset -. -/
  op : HostOp := HostOp.identify
  /-- 32 B, j_reply (14 R424); reset -. -/
  reply : ReplyRec := {}
  /-- 8, j_state: 1 accepted, 2 retired, 3 posted (a free entry is not listed) (14 R424); reset -. -/
  state : Nat := 0
  /-- 17, the entry's place in the journal (14 R424); reset -. -/
  slot : Nat := 0
deriving DecidableEq, Repr, Inhabited

/-- The host attachment: device status, journal, watermark, commands in flight, interrupts (chapter 14). -/
structure HostIf where
  /-- 1, dev_status.ready (14 R406); reset 0. -/
  ready : Bool := false
  /-- 1, dev_status.jfull (14 R406); reset 0. -/
  jfull : Bool := false
  /-- 1, dev_status.in_reset (14 R406); reset 0. -/
  inReset : Bool := false
  /-- 16 rings (14 R406); reset 16 rings at their reset values. -/
  rings : List Ring := []
  /-- 131,072 entries of 512 B, oldest first (14 R424); reset DESIGN CHOICE empty (every entry free; log 5). -/
  journal : List JEntry := []
  /-- 64, watermark W, undefined until set (14 R424); reset undefined. -/
  wm : Option Nat := none
  /-- commands accepted and not retired, oldest first (14 R419); reset empty. -/
  cmds : List Cmd := []
  /-- 4, ring after the ring served last (14 R411); reset DESIGN CHOICE 0 (log 4). -/
  rrNext : Nat := 0
  /-- MSI-X vectors signalled, oldest first (14 R403, R413); reset empty. -/
  msix : List Nat := []
  /-- completions of configuration requests: true served, false Configuration Request Retry Status (17 R482); reset empty. -/
  cfgReplies : List Bool := []
  /-- 1, the CXL link is trained (14 R403, 20 R541); reset down. -/
  cxlUp : Bool := false
  /-- 1, Ash holds the CXL controller in reset (20 R541); reset 0. -/
  cxlHeld : Bool := false
  /-- CXL.mem requests held by host_hold, oldest first (10 R299); reset empty. -/
  memHeld : List CxlReq := []
  /-- data of CXL.mem reads served, oldest first (10 R278); reset empty. -/
  memReplies : List (List Byte) := []
  /-- whether the line of each of these reads was poisoned (10 R286); reset empty. -/
  memPoison : List Bool := []
  /-- 64, tick at which Ivory last read every ring line (14 R410, R430); reset 0. -/
  lastPoll : Nat := 0
deriving DecidableEq, Repr, Inhabited

/-- Clocks, phases and the start-up sequence (chapter 17). -/
structure Clk where
  /-- 64, Cobalt time (13 R393); reset 0. -/
  cobalt : BitVec 64 := 0
  /-- package phase: off, ash, boot, run, sleep (17 R479); reset DESIGN CHOICE ash: State.reset is the moment VAON and VIO_AON are good (log 3). -/
  phase : Phase := Phase.ash
  /-- the row of the cold-start table the boot waits for (17 R482); reset row 0. -/
  row : BootRow := BootRow.ref
  /-- 1, the start-up in progress is a cold start (17 R480); reset 1. -/
  cold : Bool := true
  /-- the row Ash reports when the boot has stopped (17 R482); reset none. -/
  report : Option BootReport := none
  /-- 1, Ash PLL locked (17 R470, R482); reset 0. -/
  ashPll : Bool := false
  /-- 1, Ash has left reset (17 R482); reset 0. -/
  ashOut : Bool := false
  /-- 1, core PLL locked and Cobalt handed over (17 R472); reset 0. -/
  corePll : Bool := false
  /-- 4, each field's PLL locked (17 R470, R473, R482); reset 0. -/
  fieldPll : List Bool := [false, false, false, false]
  /-- 64, tick at which the verification row began (17 R482); reset 0. -/
  verifyAt : Nat := 0
  /-- 64, tick at which the fast rails were good (17 R482); reset 0. -/
  railsAt : Nat := 0
deriving DecidableEq, Repr, Inhabited

/-- One function of POWER_CTL and its one waiting request (R484, R485). -/
structure Fn where
  /-- 2: OFF, STARTING, ON, STOPPING (17 R484); reset DESIGN CHOICE OFF (log 6). -/
  state : FnState := FnState.off
  /-- commands whose reply is due when the present transition ends (17 R485); reset empty. -/
  waiters : List Hdr := []
  /-- the waiting enable (and none when empty) (17 R485); reset empty. -/
  waitEn : List Hdr := []
  /-- the waiting disable and the disables coalesced with it (17 R485); reset empty. -/
  waitDis : List Hdr := []
  /-- 64, tick at which the present transition began (17 R483); reset 0. -/
  since : Nat := 0
deriving DecidableEq, Repr, Inhabited

/-- Rails, functions, operating points and throttle triggers (chapter 17). -/
structure Pwr where
  /-- 6 power-good detectors, the good rails (17 R466); reset DESIGN CHOICE VAON and VIO_AON good (log 3). -/
  rails : List Rail := [Rail.vaon, Rail.vioAon]
  /-- functions 0 to 14 (17 R483); reset 15 functions, OFF. -/
  fns : List Fn := []
  /-- 1, integrated regulators enabled (17 R467, R482); reset 0. -/
  regs : Bool := false
  /-- 1, isolation clamps of the fast domains engaged (17 R467); reset 1. -/
  clamps : Bool := true
  /-- 1, THROTTLE_N trigger asserted (17 R477); reset 0. -/
  throttle : Bool := false
  /-- 1, sensor >= 100 C trigger active (17 R477); reset 0. -/
  trig100 : Bool := false
  /-- 1, sensor >= 105 C trigger active (17 R477); reset 0. -/
  trig105 : Bool := false
  /-- 64, tick since which the hottest sensor reads below 95 C (17 R477); reset none. -/
  cool100 : Option Nat := none
  /-- 64, tick since which it reads below 100 C (17 R477); reset none. -/
  cool105 : Option Nat := none
  /-- 2, point of the average-power trigger while it is active (17 R477); reset none. -/
  trigPwr : Option Nat := none
  /-- 64, tick since which steps are at or below 2,150 W (17 R477); reset none. -/
  coolPwr : Option Nat := none
  /-- pending change: new point, tick at which it completes (17 R476); reset none. -/
  opChange : Option (Nat × Nat) := none
  /-- 64, tick before which the boundary hold keeps the next step (17 R476); reset 0. -/
  holdUntil : Nat := 0
  /-- 64 thermal sensors, in 1/16 C (17 R472, 19 R524); reset 64 sensors at 0 (DESIGN CHOICE 0, log 7). -/
  sensors : List Int := []
  /-- 6 rail monitors, mV at the sense pairs (17 R472, 19 R524); reset 6 at 0 (DESIGN CHOICE 0, log 7). -/
  railMv : List Nat := []
  /-- 1, a thermal trip holds the package off (17 R478); reset 0. -/
  tripped : Bool := false
  /-- 64, tick at which the package enters sleep (17 R481); reset none. -/
  sleepAt : Option Nat := none
  /-- 1, LPDDR5X packages in self-refresh (17 R480, 10 R310); reset 0. -/
  lpSelfRefresh : Bool := false
deriving DecidableEq, Repr, Inhabited

/-- One Shade input (R495 to R498). -/
structure Pin where
  /-- 1, filtered level (18 R495); reset DESIGN CHOICE high for pins 0 to 3 and 5, low for pin 4: the board's pulls (log 8). -/
  level : Bool := true
  /-- 64, tick at which the 10 us window ends (18 R496); reset none. -/
  windowEnd : Option Nat := none
  /-- 1, state after the last event (18 R496); reset as level. -/
  evLevel : Bool := true
  /-- 1, seen inactive in the current phase (18 R498); reset 0. -/
  armed : Bool := false
  /-- 1, masked as STUCK (18 R497); reset 0. -/
  masked : Bool := false
  /-- 64, tick since which the input is active (18 R497); reset none. -/
  activeSince : Option Nat := none
  /-- 64, tick at which CHATTER was last set (00 R7, 18 R496); reset none. -/
  chatAt : Option Nat := none
deriving DecidableEq, Repr, Inhabited

/-- The Shade pins and the strap phase (chapter 18, R380, R381). -/
structure Pins where
  /-- SHD0 to SHD5 (18 R493); reset 6 pins. -/
  inp : List Pin := []
  /-- 64, the last 64 bits shifted in (13 R381); reset DESIGN CHOICE 0 (log 8). -/
  strapWord : BitVec 64 := 0
  /-- 1, an edge was merged in the strap phase (18 R494); reset 0. -/
  strapMerged : Bool := false
  /-- 1, SHD2 / ALERT_N driven low (18 R493); reset 0. -/
  alert : Bool := false
  /-- 64, pps_tick (18 R499, 13 R395); reset DESIGN CHOICE 0 (log 8). -/
  ppsTick : BitVec 64 := 0
  /-- 1, pps_tick valid (13 R395); reset 0. -/
  ppsValid : Bool := false
deriving DecidableEq, Repr, Inhabited

/-- What each unit accumulates (R42, R68, R69, R176). -/
structure UnitSt where
  /-- 5 IEEE sticky flags (02 R42); reset 0. -/
  flags : BitVec 5 := 0
  /-- local count for cvt_saturated (02 R68); reset 0. -/
  sat : Nat := 0
  /-- local count for cvt_vanished (02 R68); reset 0. -/
  vanished : Nat := 0
  /-- local count for cvt_nan_out (02 R68); reset 0. -/
  nanOut : Nat := 0
  /-- 1, conversion event bit: NaN or infinity written (02 R69, 07 R176); reset 0. -/
  evNonfinite : Bool := false
  /-- 1, conversion event bit: saturation in a forward entry (02 R69, 07 R176); reset 0. -/
  evSatFwd : Bool := false
  /-- 1, conversion event bit: saturation in a backward or optimizer entry (02 R69, 07 R176); reset 0. -/
  evSatBwd : Bool := false
deriving DecidableEq, Repr, Inhabited

/-- One array of a tile: its two accumulator banks (R91). -/
structure ArrSt where
  /-- 1, the bank that accumulates (04 R91); reset DESIGN CHOICE 0 (log 9). -/
  bank : Bool := false
  /-- 2,048 accumulators, bank 0 (04 R91); reset DESIGN CHOICE every cell 0 (log 9). -/
  acc0 : List Nat := []
  /-- 2,048 accumulators, bank 1 (04 R91); reset DESIGN CHOICE every cell 0 (log 9). -/
  acc1 : List Nat := []
deriving DecidableEq, Repr, Inhabited

/-- The Slate lanes of one tile (R146 to R150). -/
structure Slate where
  /-- 32 vector registers of 2,048 bits (06 R146); reset DESIGN CHOICE 0 (log 10); cleared at kernel entry R147. -/
  v : Tab (BitVec 2048) := []
  /-- 8 mask registers of 2,048 bits (06 R146); reset DESIGN CHOICE 0 (log 10). -/
  m : Tab (BitVec 2048) := []
  /-- 32 scalar registers of 64 bits, s0 reads 0 (06 R146); reset DESIGN CHOICE 0 (log 10). -/
  x : Tab (BitVec 64) := []
  /-- element format and group in force (06 R148); reset none in force. -/
  vtype : Option VType := none
  /-- 12, vector length (06 R150); reset DESIGN CHOICE 0 (log 10). -/
  vl : Nat := 0
  /-- 32, byte offset of the next instruction (06 R166); reset DESIGN CHOICE 0 (log 10). -/
  pc : Nat := 0
  /-- idle, running an entry, or ended by send (06 R147, R168); reset idle. -/
  run : SlateRun := SlateRun.idle
  /-- the entry the kernel belongs to (06 R166); reset DESIGN CHOICE 0 (log 10). -/
  entry : Nat := 0
  /-- 32 B Slate fault record (06 R166); reset none. -/
  fault : Option SlateFault := none
  /-- bytes the kernel has stored: memory space, address, length; what a fault leaves defined of its tokens (20 R533); reset empty. -/
  stored : List (Bool × Nat × Nat) := []
  /-- cycles by which the kernel's memory accesses exceeded their t_lat; they do not count against the budget (06 R168); reset 0. -/
  stall : Nat := 0
deriving DecidableEq, Repr, Inhabited

/-- One row of a row-mode chain operation (R135 to R140). -/
structure RowSt where
  /-- the elements pass 1 has fed to the slots, whose exact partial results a split row combines through Pearl: position, wires, masks (05 R136, R137); reset -. -/
  elems : List ChainElem := []
  /-- 4 row scalars z0 to z3, FP32 (05 R139); reset -. -/
  z : List Nat := []
  /-- 32, ESUM anchor (05 R138); reset -. -/
  yn : Nat := 0
  /-- 1, the row program has run (05 R139); reset -. -/
  ready : Bool := false
deriving DecidableEq, Repr, Inhabited

/-- A block of a block-scaled chain output being gathered (R133, R548). -/
structure BlkSt where
  /-- the block's source values so far (02 R62); reset -. -/
  xs : List DVal := []
  /-- their linear indices e (02 R60, R548); reset -. -/
  es : List Nat := []
deriving DecidableEq, Repr, Inhabited

/-- The Chroma chain of one tile (R116). -/
structure ChainSt where
  /-- the running operation's entry (05 R116); reset none. -/
  entry : Option Nat := none
  /-- row state, by row number (05 R135); reset empty. -/
  rows : Tab RowSt := []
  /-- output blocks being gathered, by output*2^40 + block number (05 R133); reset empty. -/
  blk : Tab BlkSt := []
  /-- 1, stopped by a read fault (05 R145); reset 0. -/
  stopped : Bool := false
deriving DecidableEq, Repr, Inhabited

/-- A Swatch buffer (R193): the FP32 accumulators of one sampled tile. -/
structure SwTile where
  /-- 8 (07 R193); reset -. -/
  unit : Nat := 0
  /-- 32 (07 R193); reset -. -/
  entry : Nat := 0
  /-- output tile row (07 R192); reset -. -/
  ti : Nat := 0
  /-- output tile column (07 R192); reset -. -/
  tj : Nat := 0
  /-- 8 KiB: 2,048 accumulators (07 R193); reset -. -/
  acc : List Nat := []
deriving DecidableEq, Repr, Inhabited

/-- One of the 8 slots of a tile's stream prefetcher (R279 to R283). -/
structure StreamSlot where
  /-- 64 B stream descriptor (10 R279); reset none (slot free). -/
  desc : Option StreamDesc := none
  /-- line addresses the elements touch, in order of first touch (10 R280); reset empty. -/
  lines : List Nat := []
  /-- lines requested so far (10 R280); reset 0. -/
  asked : Nat := 0
  /-- indices of the lines landed (10 R280); reset empty. -/
  landed : List Nat := []
  /-- write-stream lines accepted at their slices (10 R283); reset 0. -/
  accepted : Nat := 0
deriving DecidableEq, Repr, Inhabited

/-- One active tile (chapters 02 to 06, 10). -/
structure Tile where
  /-- unit counts, flags and event bits (02 R68); reset 0. -/
  u : UnitSt := {}
  /-- Ochre array (04 R91); reset DESIGN CHOICE cleared (log 9). -/
  ochre : ArrSt := {}
  /-- Sienna 0 array (04 R91); reset DESIGN CHOICE cleared (log 9). -/
  sienna0 : ArrSt := {}
  /-- Sienna 1 array (04 R91); reset DESIGN CHOICE cleared (log 9). -/
  sienna1 : ArrSt := {}
  /-- (entry, array) products stopped by a read fault (04 R103); reset empty. -/
  stopped : List (Nat × Nat) := []
  /-- Chroma chain (05 R116); reset idle. -/
  chain : ChainSt := {}
  /-- Slate lanes (06 R146); reset see Slate. -/
  slate : Slate := {}
  /-- 8 stream slots (10 R279); reset free. -/
  streams : Tab StreamSlot := []
  /-- (entry, slot) read streams cancelled in this step (10 R282); reset empty. -/
  cancelled : List (Nat × Nat) := []
  /-- bits of landing areas, first and next, that landed with an uncorrectable error (10 R286); reset empty. -/
  bad : List (Nat × Nat) := []
  /-- (entry, item) done in this step: output tiles of products, elements of chain operations (16 R450, 20 R533); reset empty. -/
  work : List (Nat × Nat) := []
deriving DecidableEq, Repr, Inhabited

/-- One Umber engine (R203, R264). -/
structure Engine where
  /-- 1, configuration J; 0, configuration S (08 R203); reset DESIGN CHOICE S (log 11). -/
  cfgJ : Bool := false
  /-- the Umber-S solve in progress (08 R204); reset none. -/
  solve : Option SolveSt := none
  /-- the Umber-J command in progress (09 R264); reset none. -/
  dyn : Option DynSt := none
deriving DecidableEq, Repr, Inhabited

/-- One memory channel (chapter 10). -/
structure Chan where
  /-- 64, tick of the last refresh (10 R300); reset DESIGN CHOICE 0 (log 12). -/
  lastRefresh : Nat := 0
  /-- 4, intervals of refresh owed (10 R300); reset 0. -/
  debt : Nat := 0
  /-- 1, device above 85 C (10 R300); reset DESIGN CHOICE 0 (log 12). -/
  hot : Bool := false
  /-- 1, fenced for unscheduled retraining (10 R303); reset 0. -/
  fenced : Bool := false
  /-- 64, tick of the fence, or of the unfence once it has ended (10 R303); reset 0. -/
  fenceAt : Nat := 0
  /-- 1, triggered, waits unfenced for its turn (10 R303); reset 0. -/
  waitTurn : Bool := false
  /-- ticks of the corrected errors of the last 2^20 cc, latest first (10 R303); reset empty. -/
  ceTicks : List Nat := []
  /-- 64, tick of the last training (10 R302); reset DESIGN CHOICE 0 (log 12). -/
  lastTrain : Nat := 0
  /-- 1, the channel has failed (10 R304); reset 0. -/
  failed : Bool := false
  /-- 1, generator running (tg_busy) (10 R305, R311); reset 0. -/
  tgRun : Bool := false
  /-- ticks of the lines the generator issued in the last 256 cc, latest first (10 R305); reset empty. -/
  tgTicks : List Nat := []
  /-- pass in progress (10 R305); reset 0. -/
  tgPass : Nat := 0
  /-- next line of the pass (10 R305); reset 0. -/
  tgIdx : Nat := 0
  /-- 1, the read half of the pass (10 R305); reset 0. -/
  tgRead : Bool := false
  /-- 1, stop at the next line (10 R305); reset 0. -/
  tgStop : Bool := false
  /-- next line the scrubber visits (10 R301); reset DESIGN CHOICE 0 (log 12). -/
  scrubAt : Nat := 0
deriving DecidableEq, Repr, Inhabited

/-- One port of the shared arbiter (R293 to R298). -/
structure ArbPort where
  /-- 4, class-wheel pointer (10 R295); reset 0. -/
  ptr : Nat := 0
  /-- pending queue (10 R297); reset empty. -/
  pend : List MemReq := []
  /-- the grant in progress (10 R296); reset none. -/
  cur : Option MemReq := none
  /-- 64, tick of the last beat of the grant (10 R298); reset 0. -/
  busyUntil : Nat := 0
deriving DecidableEq, Repr, Inhabited

/-- One set of a Pearl slice (R276, R277). -/
structure PearlSet where
  /-- 6 (10 R275); reset -. -/
  slice : Nat := 0
  /-- 12 (10 R276); reset -. -/
  set : Nat := 0
  /-- at most 16 ways, most recently used first (10 R276); reset every way empty. -/
  lines : List PearlLine := []
deriving DecidableEq, Repr, Inhabited

/-- A sending context's state toward one peer entry (R320 to R324). -/
structure PeerSt where
  /-- 8, messages that may be sent (11 R320); reset -. -/
  credits : Nat := 0
  /-- 32, next segment index (11 R317); reset -. -/
  next : Nat := 0
  /-- messages sent and not acknowledged, in (seq, segment) order (11 R322); reset -. -/
  unacked : List Unacked := []
deriving DecidableEq, Repr, Inhabited

/-- One exchange context (R312 to R322). -/
structure CtxSt where
  /-- 64 B context record (11 R313); reset -. -/
  cfg : CtxRec := {}
  /-- peer table (11 R314); reset -. -/
  peers : List Peer := []
  /-- 24, current round j of the step (11 R318); reset -. -/
  round : Nat := 0
  /-- 1, a round is in progress (11 R317); reset -. -/
  active : Bool := false
  /-- send state per peer entry (11 R320); reset -. -/
  send : List PeerSt := []
  /-- arrival bits set: (source node, segment) (11 R321); reset -. -/
  arrived : List (Nat × Nat) := []
  /-- messages this round expects (11 R321); reset -. -/
  expect : List (Nat × Nat) := []
  /-- slot map of a dispatch round (11 R326); reset -. -/
  slots : List Int := []
  /-- landed and not yet used, in order of the first number: kind 7 (list position, index, value), kind 6 (list position, 0, value), collectives (ring step, element, value) (11 R331, R333, R334); reset -. -/
  pairs : List (Nat × Nat × Nat) := []
  /-- 1, every arrival bit is set (11 R321); reset -. -/
  complete : Bool := false
  /-- collective: the partial results of this round, by element, in the accumulator format or fmt_in (11 R329, R331); reset -. -/
  work : List Nat := []
  /-- all-gather: the elements that came from poisoned lines (11 R322); reset -. -/
  bad : List Nat := []
deriving DecidableEq, Repr, Inhabited

/-- One Flosin port (chapter 12). -/
structure Port where
  /-- 4, fl_state (12 R373); reset OFF. -/
  state : PortState := PortState.off
  /-- 1, mode taken at the last PMD_TRAIN (12 R377); reset native. -/
  native : Bool := true
  /-- 1, enabled by PORT_CTL and fl_mode (12 R373, R376); reset 1. -/
  enabled : Bool := true
  /-- 16, next fseq to send (12 R351); reset 0. -/
  fseqNext : Nat := 0
  /-- retry buffer, at most 8,192 flits (12 R351); reset empty. -/
  retry : List Flit := []
  /-- 16, highest in-order good fseq received (ack_seq) (12 R352); reset 0; 65,535 at entry to RUN (log 40). -/
  rxAck : Nat := 0
  /-- 1, ack_seq valid (12 R352); reset 0. -/
  rxAckV : Bool := false
  /-- 1, nak goes into the next header (12 R353); reset 0. -/
  nakOut : Bool := false
  /-- 1, a replay episode is open at the receiver (12 R353); reset 0. -/
  rxEpisode : Bool := false
  /-- 64, tick of the nak (12 R353); reset 0. -/
  nakAt : Nat := 0
  /-- 1, the second nak was set (12 R353); reset 0. -/
  nakTwice : Bool := false
  /-- 16, ack_seq + 1 of a replay awaited or running (12 R354); reset none. -/
  replayFrom : Option Nat := none
  /-- 64, tick at which the nak of a replay arrived (12 R354); reset 0. -/
  replayAt : Nat := 0
  /-- buffered flits still to resend (12 R354); reset empty. -/
  replayLeft : List Flit := []
  /-- 16, fseq of the last replay episode (12 R357); reset 0. -/
  replaySeq : Nat := 0
  /-- consecutive episodes for that fseq (12 R357); reset 0. -/
  replayRun : Nat := 0
  /-- 8 counts of send credits, by vc (12 R359); reset 0 outside RUN. -/
  credit : List Nat := []
  /-- 8 cumulative freed counts known to the sender (12 R359); reset 0. -/
  freedSeen : List Nat := []
  /-- 8 cumulative counts of flits freed by this receiver (12 R359); reset 0. -/
  rxFreed : List Nat := []
  /-- receive buffer, 3,072 flits (12 R358); reset empty. -/
  rxBuf : List Flit := []
  /-- bytes of the message being received, by vc (12 R360); reset empty. -/
  rxMsg : Tab (List Byte) := []
  /-- bytes of the message being sent, by vc (12 R360); reset empty. -/
  txMsg : Tab (List Byte) := []
  /-- 64, next slot number k (12 R346); reset 0. -/
  slot : Nat := 0
  /-- 64, next slot number to arrive (12 R346, R370); reset 0. -/
  rxSlot : Nat := 0
  /-- 64, the ceremony's reference tick (12 R346); reset 0. -/
  refTick : Nat := 0
  /-- 64, last multiple of 4,096 ticks a SYNC was sent for (12 R366); reset 0. -/
  lastSync : Nat := 0
  /-- 32, sync words sent (13 R395); reset 0. -/
  syncCount : Nat := 0
  /-- receive crossing, 64 flits: (release tick, flit) (12 R370); reset empty. -/
  crossing : List (Nat × Flit) := []
  /-- flits still to be marked bad by an uncorrectable codeword (12 R347); reset 0. -/
  codewordBad : Nat := 0
  /-- uncorrectable codewords in the present 2^20 periods (12 R374); reset 0. -/
  cwWindow : Nat := 0
  /-- codeword periods counted (12 R374); reset 0. -/
  cwPeriods : Nat := 0
  /-- largest D recorded (12 R367); reset none. -/
  dMax : Option Int := none
  /-- probes seen in the stage (12 R367); reset 0. -/
  probes : Nat := 0
  /-- stage of the ceremony (12 R367); reset 0. -/
  stage : Nat := 0
  /-- link_lat computed in stage 2 (12 R367); reset 0. -/
  alLat : Nat := 0
  /-- ceremonies run (12 R367); reset 0. -/
  attempts : Nat := 0
  /-- 64, tick of entry to the state (12 R373); reset 0. -/
  enteredAt : Nat := 0
  /-- 64, tick of leaving RUN (12 R375); reset none. -/
  leftRunAt : Option Nat := none
  /-- ticks of the retrains of the last second (12 R375); reset empty. -/
  retrainTicks : List Nat := []
  /-- 1, near-end PMA loopback (12 R376); reset 0. -/
  loopback : Bool := false
  /-- TEST traffic: pattern, flits per us (12 R376); reset none. -/
  test : Option (Nat × Nat) := none
  /-- the partner's identity record (13 R383); reset none. -/
  partner : Option Identity := none
  /-- the latest sync word received (13 R395, R401); reset none. -/
  partnerWord : Option SyncWord := none
  /-- flits sent on the wire and not yet read by the partner (12 R346); reset empty. -/
  txQueue : List Flit := []
  /-- TEST flits sent (12 R376); reset 0. -/
  testSent : Nat := 0
  /-- link_lat at BIND (16 R456); reset 0. -/
  latBind : Nat := 0
  /-- 1, a block edge isolates the port (13 R386); reset 0. -/
  isolate : Bool := false
  /-- transmit equaliser value of a chip-to-module port, of the configuration image; none where link training sets it (12 R341); reset none. -/
  txEq : Option Nat := none
deriving DecidableEq, Repr, Inhabited

/-- Position, maps, time and Livery (chapter 13). -/
structure Torus where
  /-- 5, machine x (13 R379); reset DESIGN CHOICE 0 until the strap word is taken (log 13). -/
  x : Nat := 0
  /-- 5, machine y (13 R379); reset DESIGN CHOICE 0 (log 13). -/
  y : Nat := 0
  /-- 5, machine z (13 R379); reset DESIGN CHOICE 0 (log 13). -/
  z : Nat := 0
  /-- 6, slot of the position (13 R378); reset DESIGN CHOICE 0 (log 13). -/
  slot : Nat := 0
  /-- 1, the package holds machine coordinates (13 R379); reset 0. -/
  hasCoord : Bool := false
  /-- 4, st_role (13 R380); reset DESIGN CHOICE 0 (log 13). -/
  role : Nat := 0
  /-- the topology table the strap word names (13 R382); reset {} (from the configuration image at boot). -/
  table : TopTable := {}
  /-- failed slot of a row whose spare is in use, by y*32+z (13 R389); reset no holes. -/
  holes : Tab Nat := []
  /-- rows left incomplete (13 R390); reset empty. -/
  lostRows : List Nat := []
  /-- 32, map_gen (13 R388); reset 0. -/
  mapGen : Nat := 0
  /-- switch-in messages held until restore or unload: y, z, slot, map_gen (13 R388); reset empty. -/
  heldSwitch : List (Nat × Nat × Nat × Nat) := []
  /-- 1, this package is the time master (13 R394); reset 0. -/
  master : Bool := false
  /-- 1, the master is lost: the deputy takes over at the next correction (13 R394); reset 0. -/
  masterLost : Bool := false
  /-- 1, the deputy is master (13 R394); reset 0. -/
  deputy : Bool := false
  /-- 1, the correction of this Sable window is done (13 R397); reset 0. -/
  corrDone : Bool := false
  /-- 3, port that leads to the time parent (13 R394); reset none. -/
  parent : Option Nat := none
  /-- offset estimates since the last correction (13 R397); reset empty. -/
  ests : List Int := []
  /-- 16, corr of the parent's latest word (13 R397); reset 0. -/
  parentCorr : Int := 0
  /-- 1, the next correction is the first after the parent port reached RUN (13 R397); reset 1. -/
  firstCorr : Bool := true
  /-- corrections in a row without an estimate (13 R398); reset 0. -/
  noEst : Nat := 0
  /-- 1, holdover (13 R394, R398); reset 0. -/
  holdover : Bool := false
  /-- 64, tick of the last correction (13 R397); reset 0. -/
  lastCorrTick : Nat := 0
  /-- 1, LIVERY_SKEW raised in this step (13 R401); reset 0. -/
  skewRaised : Bool := false
  /-- 64 B digest of the shared configuration sections (13 R400); reset DESIGN CHOICE 64 zero bytes until the boot ROM has run (log 13). -/
  shared : List Byte := []
deriving DecidableEq, Repr, Inhabited

/-- The loaded image, its binding and its steps (chapters 01, 07, 14, 15, 16). -/
structure Job where
  /-- the loaded image (14 R421); reset none. -/
  img : Option Image := none
  /-- the binding: block, epoch, placement, plan (15 R444); reset none. -/
  bound : Option Bound := none
  /-- 1, the RWL keys are locked (00 R7, 15 R442); reset 0. -/
  locked : Bool := false
  /-- 64, number of the next step to run, or of the step in progress (01 R25); reset 0. -/
  step : BitVec 64 := 0
  /-- 1, a step is in progress (16 R451); reset 0. -/
  inStep : Bool := false
  /-- 1, a Sable window is in progress (10 R301); reset 0. -/
  inSable : Bool := false
  /-- 64, tick of the step's start (16 R449); reset 0. -/
  stepStart : Nat := 0
  /-- 64, tick of the last step's end (16 R451); reset 0. -/
  stepEnd : Nat := 0
  /-- 64, boundary delay before the step in progress (16 R451); reset 0. -/
  bdelay : Nat := 0
  /-- 64, last step run (all ones before any) (14 R418); reset all ones (DESIGN CHOICE, log 14). -/
  lastRun : BitVec 64 := 0xFFFFFFFFFFFFFFFF
  /-- state of every schedule entry in this step (16 R450); reset empty. -/
  ents : List EntSt := []
  /-- version table: active bit per versioned token (07 R187); reset slot 0. -/
  active : Tab Bool := []
  /-- versioned tokens written in this step (07 R189); reset empty. -/
  written : List Nat := []
  /-- 64, armed halt (14 R421); reset none. -/
  haltAt : Option Nat := none
  /-- 1, a contained fault in this step (07 R172, 20 R533); reset 0. -/
  fault : Bool := false
  /-- 1, a FAULT_N in the Sable window counts for the next step (20 R538); reset 0. -/
  faultNext : Bool := false
  /-- 1, FAULT_N halts the job at the next boundary (20 R538); reset 0. -/
  fltnHalt : Bool := false
  /-- 1, set livery_mismatch in this step's contribution (13 R401); reset 0. -/
  liveryMismatch : Bool := false
  /-- 1, the verdict contribution was sent (07 R172); reset 0. -/
  sent : Bool := false
  /-- verdict messages combined so far on this node (11 R335); reset none. -/
  part : Option VerdictMsg := none
  /-- 1, this node's combined message of the step has gone on toward the root (11 R335); reset 0. -/
  vFwd : Bool := false
  /-- verdict messages received toward the next forwarding (11 R335); reset 0. -/
  vGot : Nat := 0
  /-- the combined verdict of this step (07 R178); reset none. -/
  combined : Option VerdictMsg := none
  /-- 8, loss-scale exponent e (07 R183); reset 0 while no image is bound. -/
  lsE : Int := 0
  /-- 16, clean count c (07 R183); reset 0. -/
  lsC : Nat := 0
  /-- 16, skip run k (07 R183); reset 0. -/
  lsK : Nat := 0
  /-- 32, lag_clip32, FP32 bits (07 R182); reset DESIGN CHOICE 0 while no image is bound (log 14). -/
  lagClip : Nat := 0
  /-- 64, committed step count (07 R191); reset 0. -/
  optStep : BitVec 64 := 0
  /-- outcome of the last verdict, or of the last step (07 R179, 20 R535); reset none. -/
  outcome : Option Outc := none
  /-- 16, job-fault reason (20 R539); reset none. -/
  jobFault : Option Nat := none
  /-- 16, job epoch (11 R319); reset 0. -/
  epoch : Nat := 0
  /-- tiles sampled on this node in this step (07 R202); reset 0. -/
  swTiles : Nat := 0
  /-- 16 Swatch bins of this step, 48 bits each (07 R194); reset zero. -/
  swBins : List Nat := []
  /-- Swatch buffers (07 R193); reset empty. -/
  swBufs : List SwTile := []
  /-- 10, tm_last_events being gathered in this step (16 R461); reset 0. -/
  events : BitVec 32 := 0
  /-- refresh operations that delayed a request in this step (16 R461); reset 0. -/
  evRef : Nat := 0
  /-- replay episodes and resends in this step (16 R461); reset 0. -/
  evLink : Nat := 0
  /-- 640, exact sum of squares of this node's contribution (07 R174); reset 0. -/
  ssq : Nat := 0
deriving DecidableEq, Repr, Inhabited

/-- Indigo (chapter 11). -/
structure Exch where
  /-- 4,096 exchange contexts (11 R312); reset no context allocated. -/
  ctxs : Tab CtxSt := []
  /-- transit messages: input port, output port, vc (12 R364); reset empty. -/
  inflight : List (Nat × Nat × Nat) := []
deriving DecidableEq, Repr, Inhabited

/-- Fault records and events (chapter 20, R525). -/
structure Flt where
  /-- last 64 fault records, 64 B each (20 R532); reset empty. -/
  ring : List FaultRec := []
  /-- 64, fr_num of the next record (20 R532); reset 0. -/
  num : Nat := 0
  /-- last 16 device-class records (20 R541); reset empty. -/
  ashStore : List FaultRec := []
  /-- 256 PLDM platform events, oldest first (19 R525); reset empty. -/
  queue : List Event := []
  /-- 1, the next event delivered carries the overflow flag (19 R525); reset 0. -/
  overflow : Bool := false
  /-- event log of the flash, newest first (19 R510, R525); reset DESIGN CHOICE empty (log 15). -/
  log : List Event := []
  /-- 1, the package is retired (20 R540); reset 0. -/
  retired : Bool := false
  /-- 1, Ivory is stopped (20 R541); reset 0. -/
  ivoryStopped : Bool := false
deriving DecidableEq, Repr, Inhabited

/-- Fuses, boot chain, SPDM, PLDM and debug (chapter 19). -/
structure Sec where
  /-- one-time fuses (19 R509); reset DESIGN CHOICE Config's fuses as manufactured, opaque (log 16). -/
  fuses : Fuses := {}
  /-- directory and slot headers of the xSPI flash (19 R510, R511); reset DESIGN CHOICE empty flash (log 16). -/
  flash : Flash := {}
  /-- 1, firmware slot booted (19 R513, R530); reset 0. -/
  fwSlot : Nat := 0
  /-- 1, configuration slot booted (19 R513, R530); reset 0. -/
  cfgSlot : Nat := 0
  /-- 1, booted from a non-preferred slot (19 R513); reset 0. -/
  fallback : Bool := false
  /-- 1, the boot ROM has started the firmware (19 R513); reset 0. -/
  booted : Bool := false
  /-- sections of the booted configuration image (19 R514); reset DESIGN CHOICE {} until the boot ROM has run (log 16). -/
  policy : Policy := {}
  /-- tile repair map in force: logical unit, spare tile (01 R15, 17 R482, 19 R514); reset empty. -/
  spares : List (Nat × Nat) := []
  /-- 64 B digest of the running firmware slot (19 R518, 13 R400); reset DESIGN CHOICE zero bytes (log 16). -/
  fwDigest : List Byte := []
  /-- 64 B digest of the configuration slot (19 R518); reset DESIGN CHOICE zero bytes (log 16). -/
  cfgDigest : List Byte := []
  /-- 64 B digest of the per-package sections (19 R522); reset DESIGN CHOICE zero bytes (log 16). -/
  perPkgDigest : List Byte := []
  /-- 32 B alias private key (19 R518); reset DESIGN CHOICE zero bytes (log 16). -/
  aliasKey : List Byte := []
  /-- 1, the device-identity key is unreadable (19 R513); reset 0. -/
  idLocked : Bool := false
  /-- 32, dbg_state at boot (19 R518); reset 0. -/
  dbgBoot : Nat := 0
  /-- SPDM connection state: MCTP, ATTEST (19 R520); reset 2, nothing negotiated. -/
  conns : List SpdmConn := []
  /-- open sessions, at most 4 (19 R520); reset empty. -/
  sessions : List SpdmSession := []
  /-- next session identifier (19 R520); reset 0. -/
  nextSession : Nat := 0
  /-- measurement snapshot, indices 1 to 8 (19 R522); reset DESIGN CHOICE empty (log 16). -/
  snapshot : List (List Byte) := []
  /-- 1, CERT_MISMATCH (19 R517); reset 0. -/
  certMismatch : Bool := false
  /-- number of the dbg_nonce drawn (19 R529); reset 0. -/
  nonceCtr : Nat := 0
  /-- 7, I3C dynamic address (19 R523); reset none. -/
  i3cAddr : Option Nat := none
  /-- 8, MCTP endpoint ID (19 R523); reset none. -/
  eid : Option Nat := none
  /-- responses sent over MCTP, oldest first (19 R523); reset empty. -/
  tx : List MgmtResp := []
  /-- firmware update in progress (19 R526); reset none. -/
  updating : Option Update := none
  /-- 1, an activation waits for UNLOAD (19 R527); reset 0. -/
  activate : Bool := false
  /-- slots an activation makes preferred (19 R527); reset none. -/
  pendPref : Option (Nat × Nat) := none
  /-- 64, serial number (14 R420, 19 R517); reset DESIGN CHOICE Config's serial, opaque (log 16). -/
  serial : BitVec 64 := 0
deriving DecidableEq, Repr, Inhabited

/-- Device memory beyond the tiles (chapter 10). -/
structure MemSys where
  /-- HBM4 and LPDDR5X, by device physical address (10 R287); reset DESIGN CHOICE nothing listed; every byte undefined (log 2). -/
  dram : Mem := {}
  /-- 224 tile stores of 3 MiB, by unit; byte a of unit u has the address u*2^22 + a in the unit's memory; a unit not listed has every byte undefined, generation 1 (10 R273); reset DESIGN CHOICE nothing listed; every byte undefined (log 2). -/
  tile : Tab Mem := []
  /-- host memory, 52-bit addresses (14 R416); reset DESIGN CHOICE nothing listed; an unlisted byte reads 0 (log 2). -/
  host : Mem := {}
  /-- poisoned 64 B lines, by device physical address (10 R286); reset empty. -/
  poison : List Nat := []
  /-- 64 slices of 4,096 sets (10 R276); reset empty. -/
  pearl : List PearlSet := []
  /-- 320 channels: HBM c at c, LPDDR5X l at 256 + l (10 R286); reset 320 channels. -/
  chans : Tab Chan := []
  /-- arbiter ports: channel inputs 0 to 319, Pearl slices 320 to 383, Flosin 384 to 391 (10 R293); reset idle. -/
  ports : Tab ArbPort := []
  /-- preconditioner factors that solves wrote, decoded, by the address of pc_store (the spec gives their bytes no layout) (08 R223, R225); reset DESIGN CHOICE none written (log 41). -/
  pcStore : Tab PcData := []
  /-- generation of the undefined contents (10 R310); reset DESIGN CHOICE 1 (model's own, log 1). -/
  memGen : Nat := 1
deriving DecidableEq, Repr, Inhabited

/-- The whole package (chapters 00 to 20), the queue of waiting commands, and the model's own counter of free values. -/
structure State where
  /-- the queue of waiting commands (the block form's own) (task); reset empty. -/
  pending : List Instr := []
  /-- counter of free values (the MODEL's own) (log 1); reset DESIGN CHOICE 0 (log 1). -/
  fresh : Nat := 0
  /-- parameter keys (listed below): values that differ from the reset value (00 R9); reset every key at its reset value. -/
  kv : Tab (BitVec 64) := []
  /-- counts not yet folded, by key (02 R68); reset empty. -/
  acc : Tab Nat := []
  /-- writes that take effect at the next fold, by key (02 R68); reset empty. -/
  pendW : Tab (BitVec 64) := []
  /-- host attachment (14); reset see HostIf. -/
  hostIf : HostIf := {}
  /-- clocks and start-up (17); reset see Clk. -/
  clk : Clk := {}
  /-- power (17); reset see Pwr. -/
  pwr : Pwr := {}
  /-- Shade pins (18); reset see Pins. -/
  pins : Pins := {}
  /-- 224 active tiles (00, 01 R15); reset every tile at reset. -/
  tiles : Tab Tile := []
  /-- memory (10); reset see MemSys. -/
  mem : MemSys := {}
  /-- 4 Umber engines (08 R203); reset 4 idle engines. -/
  engines : List Engine := []
  /-- image, binding, steps, training state (07, 14, 15); reset see Job. -/
  job : Job := {}
  /-- Indigo (11); reset see Exch. -/
  exch : Exch := {}
  /-- 8 Flosin ports (12 R340); reset 8 ports OFF. -/
  ports : List Port := []
  /-- position, time, Livery (13); reset see Torus. -/
  torus : Torus := {}
  /-- fault records and events (20); reset see Flt. -/
  flt : Flt := {}
  /-- security and management (19); reset see Sec. -/
  sec : Sec := {}
deriving DecidableEq, Repr, Inhabited

/-- The model's stops that are faults. -/
inductive Fault where
  /-- Raised by a memory request whose device physical address lies in no Hue region (10 R287: "An access to it faults.").
  Safe: the model stops where the spec gives the access no effect. -/
  | unmapped (addr : Nat)
deriving DecidableEq, Repr, Inhabited

/-- The model's refusals. -/
inductive Refusal where
  /-- A command without a meaning, by its mnemonic. Safe: the model stops. No arm of `exec` uses it. -/
  | notModelled (mnemonic : String)
deriving DecidableEq, Repr, Inhabited

/-- Sixteen rings at their reset values; `vec` resets to the ring's number (14 R406). -/
def resetRings : List Ring := (List.range 16).map (fun r => { vec := r : Ring })

/-- The six Shade inputs at the levels of the board's pulls (18 R493; log 8). -/
def resetPins : List Pin :=
  [{}, {}, {}, {}, { level := false, evLevel := false : Pin }, {}]

/-- Undefined contents of the HBM4 and LPDDR5X at power-on: every device physical address (10 R287; log 2). -/
def resetDram : Mem := { cells := [], undef := [{ lo := 0, hi := 0x1000000000000, gen := 0 }] }

/-- The machine at power-on: VAON and VIO_AON are good, the strap phase begins (17 R480, R482; log 3). -/
def State.reset : State :=
  { hostIf := { rings := resetRings }
    pwr := { fns := List.replicate 15 {}, sensors := List.replicate 64 0, railMv := List.replicate 6 0 }
    pins := { inp := resetPins }
    mem := { dram := resetDram }
    engines := List.replicate 4 {}
    job := { swBins := List.replicate 16 0 }
    ports := List.replicate 8 {}
    torus := { shared := List.replicate 64 0 }
    sec := { serial := Config.serial, fuses := Config.fuses, conns := List.replicate 2 {}
             fwDigest := List.replicate 64 0, cfgDigest := List.replicate 64 0
             perPkgDigest := List.replicate 64 0, aliasKey := List.replicate 32 0
             snapshot := List.replicate 8 (List.replicate 64 0) } }

end Sys2Proof.Machine
end

