-- ==== Sys2Proof/Machine/Bytes.lean ====
section
/-! DEFINITION. Byte order, bit fields, two's complement (00 R2) and list helpers. -/

namespace Sys2Proof.Machine

/-- Bits [lo + w - 1 : lo] of a number. -/
def bits (v lo w : Nat) : Nat := (v >>> lo) % 2 ^ w

/-- One bit of a number. -/
def bitOf (v i : Nat) : Bool := v.testBit i

/-- The number of a little-endian byte string (00 R2). -/
def leNat : List Byte → Nat
  | [] => 0
  | b :: bs => b.toNat + 256 * leNat bs

/-- The `n` low bytes of a number, lowest first (00 R2). -/
def toLe : Nat → Nat → List Byte
  | 0, _ => []
  | n + 1, v => BitVec.ofNat 8 v :: toLe n (v / 256)

/-- The number of a big-endian byte string. -/
def beNat (bs : List Byte) : Nat := bs.foldl (fun a b => a * 256 + b.toNat) 0

/-- The `n` low bytes of a number, highest first. -/
def toBe (n v : Nat) : List Byte := (toLe n v).reverse

/-- A `w`-bit two's-complement code as an integer. -/
def signed (w v : Nat) : Int :=
  if v % 2 ^ w < 2 ^ (w - 1) then ((v % 2 ^ w : Nat) : Int) else ((v % 2 ^ w : Nat) : Int) - ((2 ^ w : Nat) : Int)

/-- The `w`-bit two's-complement code of an integer. -/
def unsigned (w : Nat) (v : Int) : Nat := (v % ((2 ^ w : Nat) : Int)).toNat

/-- A little-endian field of `n` bytes at an offset of a byte string. -/
def fieldLe (bs : List Byte) (off n : Nat) : Nat := leNat ((bs.drop off).take n)

/-- A signed little-endian field. -/
def fieldS (bs : List Byte) (off n : Nat) : Int := signed (8 * n) (fieldLe bs off n)

/-- Whether every byte of a range of a byte string is zero. -/
def zeroBytes (bs : List Byte) (off n : Nat) : Bool := ((bs.drop off).take n).all (fun b => decide (b = 0))

/-- `v` divided by `d`, rounded up. -/
def ceilDiv (v d : Nat) : Nat := (v + d - 1) / d

/-- `v` rounded up to a multiple of `d`. -/
def alignUp (v d : Nat) : Nat := ceilDiv v d * d

/-- The list with its `i`-th element replaced. -/
def setAt {α : Type} : List α → Nat → α → List α
  | [], _, _ => []
  | _ :: t, 0, v => v :: t
  | a :: t, i + 1, v => a :: setAt t i v

/-- The list with its `i`-th element changed. -/
def modAt {α : Type} (f : α → α) : List α → Nat → List α
  | [], _ => []
  | a :: t, 0 => f a :: t
  | a :: t, i + 1 => a :: modAt f t i

/-- The numbers `lo` to `lo + n - 1`. -/
def rangeFrom (lo n : Nat) : List Nat := (List.range n).map (fun i => lo + i)

/-- A list in order with one more element, before the first it does not come after. -/
def insertBy {α : Type} (le : α → α → Bool) (a : α) : List α → List α
  | [] => [a]
  | b :: t => if le a b then a :: b :: t else b :: insertBy le a t

/-- A list sorted; elements that come together keep their order. -/
def sortBy {α : Type} (le : α → α → Bool) : List α → List α
  | [] => []
  | a :: t => insertBy le a (sortBy le t)

/-- The product of a list of extents. -/
def prodL (l : List Nat) : Nat := l.foldl (fun a b => a * b) 1

/-- The first position of a list that satisfies a test. -/
def indexOf {α : Type} (p : α → Bool) : List α → Option Nat
  | [] => none
  | a :: t => if p a then some 0 else (indexOf p t).map (fun i => i + 1)

/-- A list cut into pieces of `n` (`fuel` pieces at most). -/
def pieces {α : Type} (n : Nat) : Nat → List α → List (List α)
  | 0, _ => []
  | fuel + 1, l => if l.isEmpty then [] else l.take n :: pieces n fuel (l.drop n)

/-- A count that stops at 2^64 - 1 (02 R67). -/
def satAdd (a b : Nat) : Nat := min (a + b) cntMax

/-- ceil(log2 n) for n at least 1. -/
def clog2 (n : Nat) : Nat := if n ≤ 1 then 0 else Nat.log2 (n - 1) + 1

/-- Machine coordinates as `src` lays them out: z [14:10], y [9:5], x [4:0] (13 R395). -/
def coordWord (x y z : Nat) : Nat := x % 32 + y % 32 * 32 + z % 32 * 1024

/-- Whether two half-open ranges of addresses meet. -/
def overlaps (lo hi lo' hi' : Nat) : Bool := decide (lo < hi') && decide (lo' < hi)

end Sys2Proof.Machine
end

