-- ==== Sys2Proof/Machine/Flags.lean ====
section
/-! DEFINITION. The five IEEE sticky flags (02 R42), and the counts and event bits that operations raise (02 R67 to R69,
07 R176): every flag computation of the model goes through an `Ev`. -/

namespace Sys2Proof.Machine

/-- `inexact`, bit 0 of `ieee_flags` (02 R42). -/
abbrev flInexact : BitVec 5 := 1
/-- `underflow`, bit 1 of `ieee_flags` (02 R42). -/
abbrev flUnderflow : BitVec 5 := 2
/-- `overflow`, bit 2 of `ieee_flags` (02 R42). -/
abbrev flOverflow : BitVec 5 := 4
/-- `div_zero`, bit 3 of `ieee_flags` (02 R42). -/
abbrev flDivZero : BitVec 5 := 8
/-- `invalid`, bit 4 of `ieee_flags` (02 R42). -/
abbrev flInvalid : BitVec 5 := 16

/-- A flag, or none of them. -/
def flIf (c : Bool) (f : BitVec 5) : BitVec 5 := if c then f else 0

/-- Two events together. -/
def Ev.join (a b : Ev) : Ev :=
  { fl := a.fl ||| b.fl, sat := a.sat + b.sat, van := a.van + b.van, nanOut := a.nanOut + b.nanOut
    nonfin := a.nonfin || b.nonfin, satEv := a.satEv || b.satEv }

/-- A list of events together. -/
def Ev.joinAll (l : List Ev) : Ev := l.foldl Ev.join {}

/-- The event of flags alone. -/
def Ev.ofFl (f : BitVec 5) : Ev := { fl := f }

/-- A unit's local flags, counts and event bits after an operation: a saturation in a forward entry raises the forward
bit, in a backward or optimizer entry the backward bit (02 R68, R69; 07 R176). -/
def UnitSt.raise (u : UnitSt) (d : Decl) (e : Ev) : UnitSt :=
  { u with flags := u.flags ||| e.fl
           sat := satAdd u.sat e.sat
           vanished := satAdd u.vanished e.van
           nanOut := satAdd u.nanOut e.nanOut
           evNonfinite := u.evNonfinite || e.nonfin
           evSatFwd := u.evSatFwd || (e.satEv && decide (d = .forward))
           evSatBwd := u.evSatBwd || (e.satEv && decide (d ≠ .forward)) }

end Sys2Proof.Machine
end

