-- ==== Sys2Proof/Machine/Dyadic.lean ====
section
/-! DEFINITION. Exact arithmetic on dyadic numbers and their one rounding (02 R52, R53, R59). -/

namespace Sys2Proof.Machine

/-- The dyadic number `m` * 2^`e`. -/
structure Dy where
  m : Int
  e : Int
deriving DecidableEq, Repr, Inhabited

/-- The mantissa of a dyadic number at a lower exponent. -/
def Dy.at (a : Dy) (e : Int) : Int := a.m * ((2 ^ (a.e - e).toNat : Nat) : Int)

/-- The exact sum. -/
def Dy.add (a b : Dy) : Dy :=
  let e := min a.e b.e
  { m := a.at e + b.at e, e := e }

/-- The exact product. -/
def Dy.mul (a b : Dy) : Dy := { m := a.m * b.m, e := a.e + b.e }

/-- The negative. -/
def Dy.neg (a : Dy) : Dy := { m := - a.m, e := a.e }

/-- The exact difference. -/
def Dy.sub (a b : Dy) : Dy := a.add b.neg

/-- Whether the first number is below the second. -/
def Dy.lt (a b : Dy) : Bool :=
  let e := min a.e b.e
  decide (a.at e < b.at e)

/-- An integer. -/
def Dy.ofInt (i : Int) : Dy := { m := i, e := 0 }

/-- A number that is a NaN, an infinity, a zero or finite, from a dyadic number (zero is +0). -/
def DVal.ofDy (d : Dy) : DVal :=
  if d.m = 0 then .zero false else .fin (decide (d.m < 0)) d.m.natAbs d.e

/-- The dyadic number of a finite value (0 of anything else). -/
def DVal.dy : DVal → Dy
  | .fin neg m e => { m := if neg then - (m : Int) else (m : Int), e := e }
  | _ => { m := 0, e := 0 }

/-- Whether a value is a NaN. -/
def DVal.isNan : DVal → Bool
  | .nan _ => true
  | _ => false

/-- Whether a value is a signalling NaN. -/
def DVal.isSig : DVal → Bool
  | .nan sg => sg
  | _ => false

/-- Whether a value is an infinity. -/
def DVal.isInf : DVal → Bool
  | .inf _ => true
  | _ => false

/-- Whether a value is a zero. -/
def DVal.isZero : DVal → Bool
  | .zero _ => true
  | _ => false

/-- Whether a value is finite, zero included. -/
def DVal.isFinite : DVal → Bool
  | .fin _ _ _ => true
  | .zero _ => true
  | _ => false

/-- The sign of a value. -/
def DVal.sign : DVal → Bool
  | .nan _ => false
  | .inf n => n
  | .zero n => n
  | .fin n _ _ => n

/-- The value with the opposite sign. -/
def DVal.negate : DVal → DVal
  | .nan g => .nan g
  | .inf n => .inf (!n)
  | .zero n => .zero (!n)
  | .fin n m e => .fin (!n) m e

/-- The value of a sign and a magnitude m * 2^e. -/
def DVal.mk (neg : Bool) (m : Nat) (e : Int) : DVal := if m = 0 then .zero neg else .fin neg m e

/-- floor(log2(m * 2^e)) for m > 0 (02 R53). -/
def flog2 (m : Nat) (e : Int) : Int := (Nat.log2 m : Int) + e

/-- A rounding: one of the five IEEE directions, or stochastic with 24 generator bits (02 R53, R59; 06 R154). -/
inductive Rnd where
  | dir (r : Rm)
  | sr (u : Nat)
deriving DecidableEq, Repr, Inhabited

/-- Roundings of `cvt`: nearest even, or stochastic with the generator word's upper 24 bits (02 R55, R59). -/
def Rnd.ofCvt (cvt word : Nat) : Rnd := if bitOf cvt 1 then .sr (bits word 40 24) else .dir .tiesToEven

/-- Whether a number cut to `n` steps of size 2^d with remainder `r` moves up by a step (02 R53, R59; 06 R154). -/
def roundsUp (mode : Rnd) (neg : Bool) (n r d : Nat) : Bool :=
  match mode with
  | .dir .tiesToEven => decide (2 ^ d < 2 * r) || (decide (2 * r = 2 ^ d) && bitOf n 0)
  | .dir .towardZero => false
  | .dir .towardPositive => !neg && decide (r ≠ 0)
  | .dir .towardNegative => neg && decide (r ≠ 0)
  | .dir .tiesToAway => decide (2 ^ d ≤ 2 * r)
  | .sr u => decide (2 ^ 24 ≤ r * 2 ^ 24 / 2 ^ d + u)

/-- m * 2^e placed on the grid of step 2^q: the multiple, and whether the value lay off the grid (02 R53, R59). -/
def roundGrid (mode : Rnd) (neg : Bool) (m : Nat) (e q : Int) : Nat × Bool :=
  if q ≤ e then (m * 2 ^ (e - q).toNat, false)
  else
    let d := (q - e).toNat
    let n := m / 2 ^ d
    let r := m % 2 ^ d
    (if roundsUp mode neg n r d then n + 1 else n, decide (r ≠ 0))

/-- m * 2^e rounded to an integer multiple of 2^q, with its sign. -/
def roundInt (mode : Rnd) (d : Dy) (q : Int) : Int × Bool :=
  let (n, x) := roundGrid mode (decide (d.m < 0)) d.m.natAbs d.e q
  (if d.m < 0 then - (n : Int) else (n : Int), x)

/-- The integer square root by bits, from bit `fuel` - 1 down. -/
def isqrtAux (v : Nat) : Nat → Nat → Nat
  | 0, r => r
  | fuel + 1, r => let c := r + 2 ^ fuel; if c * c ≤ v then isqrtAux v fuel c else isqrtAux v fuel r

/-- floor(sqrt(v)). -/
def isqrt (v : Nat) : Nat := isqrtAux v (Nat.log2 v / 2 + 1) 0

end Sys2Proof.Machine
end

