-- ==== Sys2Proof/Machine/Formats.lean ====
section
/-! DEFINITION. The sixteen formats: codes, decoding, conversion, stochastic rounding, block encoding and packing
(chapter 02). -/

namespace Sys2Proof.Machine

/-- The number of a format (02 R35). -/
def Fmt.num : Fmt → Nat
  | .fp64 => 1 | .fp32 => 2 | .fp16 => 3 | .bf16 => 4 | .pewter8 => 5 | .smoke8 => 6 | .fawn6 => 7 | .dove4 => 8
  | .pewter8b32 => 9 | .dove4b16 => 10 | .int4 => 11 | .int8 => 12 | .int16 => 13 | .int32 => 14 | .fx64 => 15
  | .fx192 => 16

/-- The format of a number; 0 and 17 to 255 name none (02 R35). -/
def Fmt.ofNum (n : Nat) : Option Fmt :=
  [Fmt.fp64, .fp32, .fp16, .bf16, .pewter8, .smoke8, .fawn6, .dove4, .pewter8b32, .dove4b16, .int4, .int8, .int16,
   .int32, .fx64, .fx192].find? (fun f => Fmt.num f == n)

/-- Bits of an element code (02 R35); a block-scaled format has the bits of its element format. -/
def Fmt.bits : Fmt → Nat
  | .fp64 | .fx64 => 64
  | .fp32 | .int32 => 32
  | .fp16 | .bf16 | .int16 => 16
  | .pewter8 | .smoke8 | .pewter8b32 | .int8 => 8
  | .fawn6 => 6
  | .dove4 | .dove4b16 | .int4 => 4
  | .fx192 => 192

/-- Elements of a block of a block-scaled format (02 R35), none for other formats. -/
def Fmt.block : Fmt → Option Nat
  | .pewter8b32 => some 32
  | .dove4b16 => some 16
  | _ => none

/-- Whether a format is block-scaled. -/
def Fmt.isBlock (f : Fmt) : Bool := (Fmt.block f).isSome

/-- The element format of a block-scaled format; other formats are their own (02 R35). -/
def Fmt.elem : Fmt → Fmt
  | .pewter8b32 => .pewter8
  | .dove4b16 => .dove4
  | f => f

/-- Whether a format is one of the integer formats (02 R43). -/
def Fmt.isInt : Fmt → Bool
  | .int4 | .int8 | .int16 | .int32 => true
  | _ => false

/-- Whether a format is FX64 or FX192 (02 R44, R45). -/
def Fmt.isFx : Fmt → Bool
  | .fx64 | .fx192 => true
  | _ => false

/-- Parameters of a floating format: exponent bits, mantissa bits, bias, and whether the all-ones exponent encodes
infinities and NaNs (02 R36, R37). -/
structure FpFmt where
  w : Nat
  p : Nat
  bias : Nat
  ieee : Bool
deriving DecidableEq, Repr, Inhabited

/-- FP64 (02 R36). -/
def f64 : FpFmt := ⟨11, 52, 1023, true⟩

/-- FP32 (02 R36). -/
def f32 : FpFmt := ⟨8, 23, 127, true⟩

/-- The parameters of the floating formats, block-scaled elements among them (02 R36). -/
def Fmt.fp : Fmt → Option FpFmt
  | .fp64 => some f64
  | .fp32 => some f32
  | .fp16 => some ⟨5, 10, 15, true⟩
  | .bf16 => some ⟨8, 7, 127, true⟩
  | .pewter8 | .pewter8b32 => some ⟨4, 3, 7, false⟩
  | .smoke8 => some ⟨5, 2, 15, false⟩
  | .fawn6 => some ⟨3, 2, 3, false⟩
  | .dove4 | .dove4b16 => some ⟨2, 1, 1, false⟩
  | _ => none

/-- The smallest normal exponent, 1 - bias. -/
def FpFmt.emin (F : FpFmt) : Int := 1 - (F.bias : Int)

/-- The largest exponent field of a finite code (02 R36, R37). -/
def FpFmt.emaxField (F : FpFmt) : Nat := if F.ieee then 2 ^ F.w - 2 else 2 ^ F.w - 1

/-- The code of a sign, exponent field and mantissa field. -/
def FpFmt.pack (F : FpFmt) (neg : Bool) (e m : Nat) : Nat := (if neg then 2 ^ (F.w + F.p) else 0) + e * 2 ^ F.p + m

/-- The canonical NaN, or the NaN code (02 R36, R41). -/
def FpFmt.nan (F : FpFmt) : Nat :=
  if F.ieee then F.pack false (2 ^ F.w - 1) (2 ^ (F.p - 1)) else 2 ^ (F.w + F.p)

/-- Infinity of a sign, for the formats that have one (02 R36). -/
def FpFmt.inf (F : FpFmt) (neg : Bool) : Nat := F.pack neg (2 ^ F.w - 1) 0

/-- The largest finite code of a sign (02 R36). -/
def FpFmt.maxFin (F : FpFmt) (neg : Bool) : Nat := F.pack neg F.emaxField (2 ^ F.p - 1)

/-- The code of zero: the short formats have one zero (02 R57). -/
def FpFmt.zero (F : FpFmt) (neg : Bool) : Nat := if F.ieee then F.pack neg 0 0 else 0

/-- The value of a code (02 R36, R37, R40). -/
def FpFmt.decode (F : FpFmt) (c : Nat) : DVal :=
  let neg := bitOf c (F.w + F.p)
  let e := bits c F.p F.w
  let m := c % 2 ^ F.p
  if F.ieee then
    if e = 2 ^ F.w - 1 then (if m = 0 then .inf neg else .nan (!bitOf m (F.p - 1)))
    else if e = 0 then DVal.mk neg m (F.emin - (F.p : Int))
    else .fin neg (2 ^ F.p + m) ((e : Int) - (F.bias : Int) - (F.p : Int))
  else if e = 0 then
    if m = 0 then (if neg then .nan false else .zero false) else .fin neg m (F.emin - (F.p : Int))
  else .fin neg (2 ^ F.p + m) ((e : Int) - (F.bias : Int) - (F.p : Int))

/-- The exponent field and mantissa field of n * 2^q, n at most 2^(p+1), or none when it is beyond the largest finite
value (02 R53). -/
def FpFmt.fields (F : FpFmt) (n : Nat) (q : Int) : Option (Nat × Nat) :=
  if n < 2 ^ F.p then some (0, n)
  else
    let (n', q') := if n = 2 ^ (F.p + 1) then (2 ^ F.p, q + 1) else (n, q)
    let e := (q' + (F.p : Int) + (F.bias : Int)).toNat
    if e ≤ F.emaxField then some (e, n' - 2 ^ F.p) else none

/-- The outcome of a rounding into a floating format: the code (none: beyond the largest finite value), whether the
value changed, whether the rounded value is below the smallest normal value, and whether it is tiny after rounding with
an unbounded exponent (02 R40, R53, R547). -/
structure FpRound where
  code : Option Nat
  inexact : Bool
  below : Bool
  tiny : Bool
deriving DecidableEq, Repr, Inhabited

/-- The one rounding of m * 2^e, m > 0, into a floating format (02 R53, R59). -/
def FpFmt.round (F : FpFmt) (mode : Rnd) (neg : Bool) (m : Nat) (e : Int) : FpRound :=
  let E := flog2 m e
  let q := max E F.emin - (F.p : Int)
  let (n, x) := roundGrid mode neg m e q
  let (nu, _) := roundGrid mode neg m e (E - (F.p : Int))
  let below := decide (n < 2 ^ F.p) && decide (q = F.emin - (F.p : Int))
  { code := (F.fields n q).map (fun f => if f.1 = 0 ∧ f.2 = 0 then F.zero neg else F.pack neg f.1 f.2)
    inexact := x
    below := below
    tiny := decide (E < F.emin) && !(decide (E + 1 = F.emin) && decide (nu = 2 ^ (F.p + 1))) }

/-- A finite nonzero value rounded into FP32 or FP64 with its IEEE flags; overflow gives an infinity or the largest
finite value by the direction (02 R40). -/
def FpFmt.roundIeee (F : FpFmt) (r : Rm) (neg : Bool) (m : Nat) (e : Int) : Nat × BitVec 5 :=
  let o := F.round (.dir r) neg m e
  match o.code with
  | some c => (c, flIf o.inexact flInexact ||| flIf (o.inexact && o.tiny) flUnderflow)
  | none =>
    let toInf := match r with
      | .tiesToEven | .tiesToAway => true
      | .towardZero => false
      | .towardPositive => !neg
      | .towardNegative => neg
    (if toInf then F.inf neg else F.maxFin neg, flOverflow ||| flInexact)

/-- Any value as an FP32 or FP64 result with its flags; a NaN is the canonical one, and a signalling one raises
`invalid` (02 R40, R41). -/
def FpFmt.result (F : FpFmt) (r : Rm) (v : DVal) : Nat × BitVec 5 :=
  match v with
  | .nan g => (F.nan, flIf g flInvalid)
  | .inf n => (F.inf n, 0)
  | .zero n => (F.zero n, 0)
  | .fin n m e => F.roundIeee r n m e

/-- The decoded value of an element code, with the scale code of a block-scaled element and the binary point of a fixed
point one (02 R36 to R49). -/
def decodeVal (f : Fmt) (code scale : Nat) (point : Int) : DVal :=
  match Fmt.fp f with
  | some F =>
    if Fmt.isBlock f then
      if scale = 0 then .zero false
      else if scale = 255 then .nan false
      else match F.decode code with
        | .fin n m e => .fin n m (e + (scale : Int) - 127)
        | v => v
    else F.decode code
  | none =>
    let i := signed (Fmt.bits f) code
    DVal.ofDy { m := i, e := if Fmt.isFx f then - point else 0 }

/-- The FP32 code an operand decodes to, and the flags that decoding raises (02 R50, R51): INT32 and wider values round
to nearest even, and a block-scaled value beyond FP32 gives an infinity and raises `overflow`. Decoding a signalling NaN
of FP16 or BF16 raises `invalid` by itself, which R51 does not say (DESIGN CHOICE, log 56). -/
def decode32 (f : Fmt) (code scale : Nat) (point : Int) : Nat × BitVec 5 :=
  if f = .fp32 then (code, 0)
  else
    match decodeVal f code scale point with
    | .nan g => (f32.nan, flIf g flInvalid)
    | .inf n => (f32.inf n, 0)
    | .zero n => (f32.zero n, 0)
    | .fin n m e =>
      match (f32.round (.dir .tiesToEven) n m e).code with
      | some c => (c, 0)
      | none => (f32.inf n, if Fmt.isBlock f then flOverflow else 0)

/-! ### Conversion (02 R52 to R61, R547) -/

/-- Conversion into FP32 or FP64 (02 R54, R547). -/
def cvtIeee (F : FpFmt) (r : Rm) (v : DVal) : Nat × Ev :=
  let (c, fl) := F.result r v
  (c, { fl := fl, nonfin := !(F.decode c).isFinite })

/-- Conversion into FP16, BF16 or a short format (02 R53 to R57, R59, R547). -/
def cvtShort (F : FpFmt) (cvt word : Nat) (v : DVal) : Nat × Ev :=
  let strict := bitOf cvt 0
  let ovf (neg : Bool) : Nat × Ev :=
    if strict then
      (if F.ieee then F.inf neg else F.nan, { nonfin := true, nanOut := if F.ieee then 0 else 1 })
    else (F.maxFin neg, { sat := 1, satEv := true })
  match v with
  | .nan g => (F.nan, { fl := flIf g flInvalid, nonfin := true })
  | .inf n => ovf n
  | .zero n => (F.zero n, {})
  | .fin n m e =>
    let o := F.round (Rnd.ofCvt cvt word) n m e
    match o.code with
    | some c => (c, { fl := flIf o.inexact flInexact ||| flIf (o.inexact && o.below) flUnderflow })
    | none => let (c, ev) := ovf n; (c, { ev with fl := flOverflow ||| flInexact })

/-- Conversion into an integer or fixed-point format of `w` bits whose step is 2^-`point`: a source value outside the
range saturates, also where it would round to the range's end (02 R54, R56, R547). -/
def cvtFixed (w : Nat) (point : Int) (r : Rm) (v : DVal) : Nat × Ev :=
  let lo : Int := - ((2 ^ (w - 1) : Nat) : Int)
  let hi : Int := ((2 ^ (w - 1) : Nat) : Int) - 1
  match v with
  | .nan _ => (0, { fl := flInvalid })
  | .inf n => (unsigned w (if n then lo else hi), { fl := flInvalid, sat := 1, satEv := true })
  | .zero _ => (0, {})
  | .fin n m e =>
    let (i, x) := roundInt (.dir r) { m := if n then - (m : Int) else (m : Int), e := e } (- point)
    let d : Dy := { m := if n then - (m : Int) else (m : Int), e := e + point }
    if d.lt (Dy.ofInt lo) || (Dy.ofInt hi).lt d then
      (unsigned w (if n then lo else hi), { fl := flInvalid ||| flInexact, sat := 1, satEv := true })
    else (unsigned w i, { fl := flIf x flInexact ||| flIf (x && decide (i = 0)) flUnderflow })

/-- One conversion into a format that is not block-scaled; `word` is the generator word (02 R52 to R61, R547). -/
def convert (dst : Fmt) (cvt word : Nat) (point : Int) (v : DVal) : Nat × Ev :=
  match dst with
  | .fp64 => cvtIeee f64 .tiesToEven v
  | .fp32 => cvtIeee f32 .tiesToEven v
  | .int4 | .int8 | .int16 | .int32 => cvtFixed (Fmt.bits dst) 0 .tiesToEven v
  | .fx64 | .fx192 => cvtFixed (Fmt.bits dst) point .tiesToEven v
  | _ => match Fmt.fp dst with
    | some F => cvtShort F cvt word v
    | none => (0, {})

/-! ### Stochastic rounding (02 R60) -/

/-- The mixing function of the generator (02 R60). -/
def srMix (z : BitVec 64) : BitVec 64 :=
  let z := (z ^^^ (z >>> 30)) * 0xBF58476D1CE4E5B9#64
  let z := (z ^^^ (z >>> 27)) * 0x94D049BB133111EB#64
  z ^^^ (z >>> 31)

/-- The generator word of an element (02 R60). -/
def srWord (seed step : BitVec 64) (tok e : Nat) : Nat :=
  let a := srMix (seed ^^^ step)
  let b := srMix (a ^^^ (BitVec.ofNat 64 tok + 0x9E3779B97F4A7C15#64))
  (srMix (b ^^^ BitVec.ofNat 64 e)).toNat

/-! ### Block-scaled encoding (02 R62 to R66) -/

/-- An encoded block: scale code, element codes, and what the encoding raised. -/
structure BlockEnc where
  scale : Nat
  codes : List Nat
  ev : Ev
deriving DecidableEq, Repr, Inhabited

/-- One element of a block against the scale 2^(c - 127) (02 R62, R64, R66, R547). -/
def encodeElem (F : FpFmt) (cvt word c : Nat) (v : DVal) : Nat × Ev :=
  match v with
  | .fin n m e =>
    let o := F.round (Rnd.ofCvt cvt word) n m (e + 127 - (c : Int))
    match o.code with
    | some k => (k, { fl := flIf o.inexact flInexact ||| flIf (o.inexact && o.below) flUnderflow
                      van := if k = 0 then 1 else 0 })
    | none => (F.maxFin n, { fl := flOverflow ||| flInexact, sat := 1, satEv := true })
  | _ => (0, {})

/-- floor(log2) of the largest magnitude of a block (02 R62); none when every element is zero. -/
def blockExp (xs : List DVal) : Option Int :=
  xs.foldl (fun a v => match v, a with
    | .fin _ m e, none => some (flog2 m e)
    | .fin _ m e, some b => some (max b (flog2 m e))
    | _, a => a) none

/-- A block encoded to Pewter8/B32 or Dove4/B16; `xs` holds value and generator word of each element, without padding
(02 R62 to R66, R547). In a NaN block every nonzero element that is a number vanishes, its code being zero; such a block
counts as written from non-NaN sources when none of them is a NaN, an infinity beside a NaN or not (R66, R67; DESIGN
CHOICE, log 56). -/
def encodeBlock (f : Fmt) (cvt : Nat) (xs : List (DVal × Nat)) : BlockEnc :=
  let len := (Fmt.block f).getD 0
  let F := (Fmt.fp f).getD f32
  let zeros := List.replicate len 0
  let vals := xs.map (fun x => x.1)
  let sig := flIf (vals.any DVal.isSig) flInvalid
  let emax : Int := if f = .pewter8b32 then 8 else 2
  let gone := (vals.filter (fun v => !v.isNan && !v.isZero)).length
  let nanBlock (ev : Ev) : BlockEnc := { scale := 255, codes := zeros, ev := { ev with nonfin := true, van := gone } }
  let finite := vals.all DVal.isFinite
  if !finite then
    nanBlock { fl := sig ||| flIf (vals.any (fun v => v.isFinite)) flInexact
               nanOut := if vals.any DVal.isNan then 0 else 1 }
  else
    match blockExp vals with
    | none => { scale := 0, codes := zeros, ev := {} }
    | some E =>
      let c := E - emax + 127
      let ovf := decide (254 < c)
      if ovf && bitOf cvt 0 then nanBlock { fl := flOverflow ||| flInexact, nanOut := 1 }
      else
        let sc : Nat := if ovf then 254 else if c < 1 then 1 else c.toNat
        let es := xs.map (fun x => encodeElem F cvt x.2 sc x.1)
        let codes := es.map (fun p => p.1)
        let ev := Ev.joinAll (es.map (fun p => p.2))
        let ev := { ev with fl := ev.fl ||| flIf ovf (flOverflow ||| flInexact) }
        if codes.all (fun k => k = 0) then { scale := 0, codes := zeros, ev := ev }
        else { scale := sc, codes := codes ++ List.replicate (len - codes.length) 0, ev := ev }

/-! ### Storage and packing (02 R46 to R48) -/

/-- Bytes of the element plane of `n` elements (02 R46 to R48); block-scaled planes hold whole blocks. -/
def planeBytes (f : Fmt) (n : Nat) : Nat :=
  match f with
  | .dove4 | .int4 => ceilDiv n 2
  | .fawn6 => 3 * ceilDiv n 4
  | .pewter8b32 => 32 * ceilDiv n 32
  | .dove4b16 => 8 * ceilDiv n 16
  | _ => n * (Fmt.bits f / 8)

/-- Byte offset and bit offset of element `i` of a plane (02 R46, R47). -/
def elemPlace (f : Fmt) (i : Nat) : Nat × Nat :=
  match f with
  | .dove4 | .int4 | .dove4b16 => (i / 2, 4 * (i % 2))
  | .fawn6 => (3 * (i / 4) + 6 * (i % 4) / 8, 6 * (i % 4) % 8)
  | _ => (i * (Fmt.bits f / 8), 0)

/-- Bytes an element code touches from its byte offset on. -/
def elemSpan (f : Fmt) (i : Nat) : Nat := ceilDiv ((elemPlace f i).2 + Fmt.bits f) 8

/-- The code of element `i` of a plane that starts at `base` of a memory. -/
def readElem (m : Mem) (f : Fmt) (base i : Nat) : Nat :=
  let (o, b) := elemPlace f i
  bits (leNat (m.readN (base + o) (elemSpan f i))) b (Fmt.bits f)

/-- The memory with the code of element `i` of a plane at `base` written; neighbouring codes in shared bytes stay. -/
def writeElem (m : Mem) (f : Fmt) (base i code : Nat) : Mem :=
  let (o, b) := elemPlace f i
  let n := elemSpan f i
  let old := leNat (m.readN (base + o) n)
  let w := Fmt.bits f
  let new := old - bits old b w * 2 ^ b + (code % 2 ^ w) * 2 ^ b
  m.writeN (base + o) (toLe n new)

end Sys2Proof.Machine
end

