-- ==== Sys2Proof/Machine/Ieee.lean ====
section
/-! DEFINITION. IEEE 754-2019 binary32 and binary64 operations on codes (02 R40, R41; 05 R129, R131; 06 R154): each
answers the result code and the flags it raises. -/

namespace Sys2Proof.Machine

/-- The exact sum of two values, with IEEE rules for specials and zero signs; a NaN result that neither operand was
comes from opposite infinities (02 R40, 03 R79). -/
def exactAdd (r : Rm) (a b : DVal) : DVal :=
  if a.isNan || b.isNan then .nan false
  else match a, b with
    | .inf n, .inf k => if n = k then .inf n else .nan true
    | .inf n, _ => .inf n
    | _, .inf k => .inf k
    | .zero n, .zero k => if n = k then .zero n else .zero (decide (r = .towardNegative))
    | .zero _, b => b
    | a, .zero _ => a
    | a, b =>
      let d := a.dy.add b.dy
      if d.m = 0 then .zero (decide (r = .towardNegative)) else DVal.ofDy d

/-- The exact product of two values; `nan true` marks 0 times infinity (02 R40). -/
def exactMul (a b : DVal) : DVal :=
  if a.isNan || b.isNan then .nan false
  else
    let n := xor a.sign b.sign
    match a, b with
    | .inf _, .zero _ => .nan true
    | .zero _, .inf _ => .nan true
    | .inf _, _ => .inf n
    | _, .inf _ => .inf n
    | .fin _ m e, .fin _ m' e' => .fin n (m * m') (e + e')
    | _, _ => .zero n

/-- Rounds an exact result; `nan true` is a NaN the operation made, which raises `invalid`. -/
def FpFmt.finish (F : FpFmt) (r : Rm) (sig : Bool) (v : DVal) : Nat × BitVec 5 :=
  let (c, fl) := F.result r v
  (c, fl ||| flIf sig flInvalid)

/-- Addition (02 R40). -/
def fAdd (F : FpFmt) (r : Rm) (a b : Nat) : Nat × BitVec 5 :=
  let x := F.decode a
  let y := F.decode b
  F.finish r (x.isSig || y.isSig) (exactAdd r x y)

/-- Subtraction (02 R40). -/
def fSub (F : FpFmt) (r : Rm) (a b : Nat) : Nat × BitVec 5 :=
  let x := F.decode a
  let y := F.decode b
  F.finish r (x.isSig || y.isSig) (exactAdd r x y.negate)

/-- Multiplication (02 R40). -/
def fMul (F : FpFmt) (r : Rm) (a b : Nat) : Nat × BitVec 5 :=
  let x := F.decode a
  let y := F.decode b
  F.finish r (x.isSig || y.isSig) (exactMul x y)

/-- fusedMultiplyAdd of values: `nz` says that 0 times infinity plus a quiet NaN raises `invalid` (02 R40; log 25). -/
def fmaVal (F : FpFmt) (r : Rm) (nz : Bool) (x y z : DVal) : Nat × BitVec 5 :=
  let sig := x.isSig || y.isSig || z.isSig
  let p := exactMul x y
  if z.isNan then
    F.finish r (sig || (p == .nan true && !x.isNan && !y.isNan && nz)) (.nan false)
  else if p.isNan then F.finish r (sig || p == .nan true) (.nan false)
  else F.finish r sig (exactAdd r p z)

/-- fusedMultiplyAdd of codes: a times b plus c, rounded once (02 R40; log 25). -/
def fFma (F : FpFmt) (r : Rm) (a b c : Nat) : Nat × BitVec 5 :=
  fmaVal F r Config.fmaZeroInfNan (F.decode a) (F.decode b) (F.decode c)

/-- The quotient of two positive dyadic magnitudes to 2 * p + 8 bits, with a sticky bit below (02 R40). -/
def quotient (F : FpFmt) (m : Nat) (e : Int) (m' : Nat) (e' : Int) : Nat × Int :=
  let k := 2 * F.p + 8 + Nat.log2 m' + 1
  let q := m * 2 ^ k / m'
  let r := m * 2 ^ k % m'
  (2 * q + (if r = 0 then 0 else 1), e - e' - (k : Int) - 1)

/-- Division (02 R40). -/
def fDiv (F : FpFmt) (r : Rm) (a b : Nat) : Nat × BitVec 5 :=
  let x := F.decode a
  let y := F.decode b
  let n := xor x.sign y.sign
  let sig := x.isSig || y.isSig
  if x.isNan || y.isNan then F.finish r sig (.nan false)
  else match x, y with
    | .inf _, .inf _ => F.finish r sig (.nan true)
    | .zero _, .zero _ => F.finish r sig (.nan true)
    | .inf _, _ => F.finish r sig (.inf n)
    | _, .inf _ => F.finish r sig (.zero n)
    | .zero _, _ => F.finish r sig (.zero n)
    | _, .zero _ => (F.inf n, flDivZero)
    | .fin _ m e, .fin _ m' e' => let (q, k) := quotient F m e m' e'; F.finish r sig (.fin n q k)
    | _, _ => F.finish r sig (.nan false)

/-- The square root of a positive dyadic magnitude to p + 8 bits or more, with a sticky bit below (02 R40). -/
def rootOf (F : FpFmt) (m : Nat) (e : Int) : Nat × Int :=
  let k := 2 * (F.p + 8) + (if e % 2 = 0 then 0 else 1)
  let v := m * 2 ^ k
  let s := isqrt v
  (2 * s + (if s * s = v then 0 else 1), (e - (k : Int)) / 2 - 1)

/-- Square root (02 R40). -/
def fSqrt (F : FpFmt) (r : Rm) (a : Nat) : Nat × BitVec 5 :=
  match F.decode a with
  | .nan g => F.finish r g (.nan false)
  | .zero n => (F.zero n, 0)
  | .inf false => (F.inf false, 0)
  | .fin false m e => let (s, k) := rootOf F m e; F.finish r false (.fin false s k)
  | _ => F.finish r false (.nan true)

/-- Whether the first value is below the second, neither a NaN; with `z`, -0 lies below +0 (05 R129). -/
def valLt (z : Bool) (a b : DVal) : Bool :=
  match a, b with
  | .inf n, .inf k => n && !k
  | .inf n, _ => n
  | _, .inf k => !k
  | .zero n, .zero k => z && n && !k
  | a, b => a.dy.lt b.dy

/-- minimum: a NaN when either operand is one, -0 below +0 (05 R129). -/
def fMin (F : FpFmt) (a b : Nat) : Nat × BitVec 5 :=
  let x := F.decode a
  let y := F.decode b
  if x.isNan || y.isNan then (F.nan, flIf (x.isSig || y.isSig) flInvalid)
  else (if valLt true y x then b else a, 0)

/-- maximum: a NaN when either operand is one, -0 below +0 (05 R129). -/
def fMax (F : FpFmt) (a b : Nat) : Nat × BitVec 5 :=
  let x := F.decode a
  let y := F.decode b
  if x.isNan || y.isNan then (F.nan, flIf (x.isSig || y.isSig) flInvalid)
  else (if valLt true x y then b else a, 0)

/-- A quiet comparison; NaNs make `NE` and `UNORD` true and the rest false; +0 equals -0 (05 R131). -/
def fCmp (F : FpFmt) (c : Cond) (a b : Nat) : Bool × BitVec 5 :=
  let x := F.decode a
  let y := F.decode b
  let un := x.isNan || y.isNan
  let lt := !un && valLt false x y
  let gt := !un && valLt false y x
  let eq := !un && !lt && !gt
  let res := match c with
    | .eq => eq
    | .ne => !eq
    | .lt => lt
    | .le => lt || eq
    | .gt => gt
    | .ge => gt || eq
    | .unord => un
    | .ord => !un
  (res, flIf (x.isSig || y.isSig) flInvalid)

/-- The condition of a three-bit code (05 R131). -/
def Cond.ofCode (n : Nat) : Cond :=
  match n % 8 with
  | 0 => .eq | 1 => .ne | 2 => .lt | 3 => .le | 4 => .gt | 5 => .ge | 6 => .unord | _ => .ord

/-- Whether an FP32 result is a NaN or an infinity: the event of 02 R69. -/
def notFinite (F : FpFmt) (c : Nat) : Bool := !(F.decode c).isFinite

/-- The event of one arithmetic operation of an FP32 or FP64 engine: its flags, and a NaN or infinity written (02 R42,
R69). -/
def Ev.arith (F : FpFmt) (r : Nat × BitVec 5) : Ev := { fl := r.2, nonfin := notFinite F r.1 }

end Sys2Proof.Machine
end

