-- ==== Sys2Proof/Machine/RefDot.lean ====
section
/-! DEFINITION. The reference order of dot products (chapter 03). -/

namespace Sys2Proof.Machine

/-- The row of a product: its accumulator, block length B and discard width F (03 R73). -/
inductive DotRow where
  | float (b f : Nat)
  | chain64
  | integer (b : Nat)
deriving DecidableEq, Repr, Inhabited

/-- The width class of a product operand: element bits of a float that pairs with the others (03 R72, R73). -/
def shortWidth : Fmt → Option Nat
  | .fp16 | .bf16 => some 16
  | .pewter8 | .smoke8 | .pewter8b32 => some 8
  | .fawn6 => some 6
  | .dove4 | .dove4b16 => some 4
  | _ => none

/-- The row of a pairing; none: refused (03 R72, R73). Every product operand that is block-scaled is blocked along k when
`ka`, `kb` say so (03 R74). -/
def dotRow (fa fb : Fmt) (ka kb : Bool) : Option DotRow :=
  match fa, fb with
  | .fp64, .fp64 => some .chain64
  | .fp32, .fp32 => some (.float 4 64)
  | .int4, .int4 => some (.integer 64)
  | .int4, .int8 | .int8, .int4 | .int8, .int8 => some (.integer 32)
  | _, _ =>
    match shortWidth fa, shortWidth fb with
    | some wa, some wb =>
      let w := max wa wb
      let (b, f) := if w = 16 then (16, 40) else if w = 8 then (32, 32) else (64, 28)
      let la := if ka then (Fmt.block fa).toList else []
      let lb := if kb then (Fmt.block fb).toList else []
      some (.float ((la ++ lb).foldl min (if la.isEmpty && lb.isEmpty then b else 64)) f)
    | _, _ => none

/-- The accumulator format of a row (03 R73, R84). -/
def DotRow.acc : DotRow → Fmt
  | .float _ _ => .fp32
  | .chain64 => .fp64
  | .integer _ => .int32

/-- The formats a c operand may have, by row (03 R85). -/
def DotRow.cOk (r : DotRow) (f : Fmt) : Bool :=
  match r with
  | .float _ _ => f == .fp32 || f == .fp16 || f == .bf16
  | .chain64 => f == .fp64
  | .integer _ => f == .int32 || f == .int16 || f == .int8

/-- floor(log2) of the largest nonzero product of a block; none when all are zero (03 R76, R77). -/
def blockTop (ps : List DVal) : Option Int := blockExp ps

/-- The exact sum of the products cut at the unit 2^u, toward minus infinity, and whether a bit was discarded
(03 R76). -/
def truncSum (u : Int) (ps : List DVal) : Int × Bool :=
  ps.foldl (fun a p =>
    let d := p.dy
    if u ≤ d.e then (a.1 + d.at u, a.2)
    else
      let w : Int := ((2 ^ (u - d.e).toNat : Nat) : Int)
      (a.1 + d.m / w, a.2 || decide (d.m % w ≠ 0))) (0, false)

/-- The block sum of exact products, with the flags it raises (03 R76, R77, R81, R90). `nan true` marks 0 times
infinity. -/
def blockSum (f : Nat) (ps : List DVal) : DVal × BitVec 5 :=
  let pinf := ps.any (fun p => p == .inf false)
  let ninf := ps.any (fun p => p == .inf true)
  let inv := flIf ((pinf && ninf) || ps.any (fun p => p == .nan true)) flInvalid
  if ps.any DVal.isNan || (pinf && ninf) then (.nan false, inv)
  else if pinf then (.inf false, inv)
  else if ninf then (.inf true, inv)
  else match blockTop ps with
    | none => (.zero false, 0)
    | some l =>
      let u := l - (f : Int)
      let (sm, disc) := truncSum u ps
      (DVal.ofDy { m := sm, e := u }, flIf disc flInexact)

/-- One reference block added to the FP32 accumulator: two roundings (03 R76, R78, R79). -/
def addBlock (f : Nat) (acc : Nat) (ab : List (DVal × DVal)) : Nat × BitVec 5 :=
  let sig := flIf (ab.any (fun p => p.1.isSig || p.2.isSig)) flInvalid
  let (sm, fl0) := blockSum f (ab.map (fun p => exactMul p.1 p.2))
  let (c, fl1) := f32.result .tiesToEven sm
  let (r, fl2) := fAdd f32 .tiesToEven acc c
  (r, sig ||| fl0 ||| fl1 ||| fl2)

/-- One step of the FP64 chain (03 R83); 0 times infinity raises `invalid` (03 R90). -/
def chainStep (acc : Nat) (p : DVal × DVal) : Nat × BitVec 5 :=
  fmaVal f64 .tiesToEven true p.1 p.2 (f64.decode acc)

/-- The integer value of a decoded integer operand. -/
def DVal.int (v : DVal) : Int := v.dy.at 0

/-- One reference block of an integer product: an exact block sum and one saturating addition (03 R84). -/
def addIntBlock (acc : Nat) (ab : List (DVal × DVal)) : Nat × Ev :=
  let sm := ab.foldl (fun a p => a + p.1.int * p.2.int) 0
  let v := signed 32 acc + sm
  if v < -2147483648 then (0x80000000, { sat := 1, satEv := true })
  else if 2147483647 < v then (0x7FFFFFFF, { sat := 1, satEv := true })
  else (unsigned 32 v, {})

/-- The dot product of the reference order from an initial accumulator (03 R76, R83, R84). -/
def refDot (row : DotRow) (acc : Nat) (ab : List (DVal × DVal)) : Nat × Ev :=
  match row with
  | .float b f =>
    (pieces b (ab.length + 1) ab).foldl (fun a blk => let (r, fl) := addBlock f a.1 blk; (r, a.2.join { fl := fl })) (acc, {})
  | .chain64 => ab.foldl (fun a p => let (r, fl) := chainStep a.1 p; (r, a.2.join { fl := fl })) (acc, {})
  | .integer b =>
    (pieces b (ab.length + 1) ab).foldl (fun a blk => let (r, ev) := addIntBlock a.1 blk; (r, a.2.join ev)) (acc, {})

/-- `init(c)`: c decoded exactly into the accumulator format, or +0; a c already in that format is kept as it is, and a
signalling NaN raises `invalid` (03 R85, R90). -/
def initAcc (row : DotRow) (c : Option (Fmt × Nat)) : Nat × BitVec 5 :=
  match c with
  | none => (0, 0)
  | some (f, code) =>
    if f = DotRow.acc row then (code, 0)
    else let v := decodeVal f code 0 0; ((convert (DotRow.acc row) 0 0 0 v).1, flIf v.isSig flInvalid)

end Sys2Proof.Machine
end

