-- ==== Sys2Proof/Machine/Keys.lean ====
section
/-! DEFINITION. The parameter keys: their tables as the spec's chapters list them, access rules, and the values that are
computed when read (00 R5 to R10, 14 R427). -/

namespace Sys2Proof.Machine

/-- Key scopes (00 R8, R9). -/
inductive KScope where
  | device | tile | field | port | channel
deriving DecidableEq, Repr, Inhabited

/-- Access codes (00 R7). -/
inductive KAcc where
  | ro | rw | w1c | rwl
deriving DecidableEq, Repr, Inhabited

/-- Ranges that are no interval (10 R311, 14 R430). -/
inductive KChk where
  | none | burst | tgctl | mul64 | winsize
deriving DecidableEq, Repr, Inhabited

/-- One row of a key table: `n` items from `item` on; `wide` 64 bits, else 32 (14 R427; log 24); `map` the bits a field
map names other than `rsvd`, `roBits` the `RO` bits among them; `fold` the key folds under 02 R68; `atBind` and
`atRestore` say when it is cleared. -/
structure KeyRow where
  item : Nat
  n : Nat := 1
  scope : KScope := .device
  acc : KAcc := .ro
  reset : Nat := 0
  wide : Bool := false
  sgn : Bool := false
  range : Option (Int × Int) := none
  map : Option Nat := none
  roBits : Nat := 0
  chk : KChk := .none
  fold : Bool := false
  atBind : Bool := false
  atRestore : Bool := false
deriving DecidableEq, Repr, Inhabited

/-- Keys of subsystem 0x01. -/
def keys01 : List KeyRow := [
  { item := 0x0001, acc := .rwl, reset := 0x3, map := some 0x3 },
  { item := 0x0010, reset := 0x18 },
  { item := 0x0011, reset := 0x2 },
  { item := 0x0012, reset := 0x20 },
  { item := 0x0013, reset := 0x80 },
  { item := 0x0014, reset := 0x40 },
  { item := 0x0020, reset := 0x80 },
  { item := 0x0100, scope := .tile, wide := true, fold := true, atBind := true },
  { item := 0x0101, scope := .tile, wide := true, fold := true, atBind := true },
  { item := 0x0102, scope := .tile, wide := true, fold := true, atBind := true },
  { item := 0x0110, scope := .tile, wide := true, fold := true, atBind := true },
  { item := 0x0120, scope := .tile, wide := true, fold := true, atBind := true } ]

/-- Keys of subsystem 0x02. -/
def keys02 : List KeyRow := [
  { item := 0x0010, reset := 0x28 },
  { item := 0x0011, reset := 0x190 },
  { item := 0x0012, reset := 0x200 },
  { item := 0x0013, reset := 0x100 },
  { item := 0x0014, reset := 0xc },
  { item := 0x0100, scope := .tile, wide := true, fold := true, atBind := true },
  { item := 0x0101, scope := .tile, wide := true, fold := true, atBind := true },
  { item := 0x0102, scope := .tile, wide := true, fold := true, atBind := true },
  { item := 0x0103, scope := .tile, wide := true, fold := true, atBind := true } ]

/-- Keys of subsystem 0x03. -/
def keys03 : List KeyRow := [
  { item := 0x0010, reset := 0x800 },
  { item := 0x0011, reset := 0x100 },
  { item := 0x0012, reset := 0x10 },
  { item := 0x0013, reset := 0x8 },
  { item := 0x0014, reset := 0x400 },
  { item := 0x0015, reset := 0x8 },
  { item := 0x0100, scope := .tile, wide := true, fold := true, atBind := true },
  { item := 0x0101, scope := .tile, wide := true, fold := true, atBind := true },
  { item := 0x0102, scope := .tile, wide := true, fold := true, atBind := true },
  { item := 0x0103, scope := .tile, wide := true, fold := true, atBind := true },
  { item := 0x0104, scope := .tile, wide := true, fold := true, atBind := true } ]

/-- Keys of subsystem 0x04. -/
def keys04 : List KeyRow := [
  { item := 0x0010, wide := true },
  { item := 0x0030, acc := .rw, wide := true, fold := true, atRestore := true },
  { item := 0x0031, acc := .rw, wide := true, fold := true, atRestore := true },
  { item := 0x0032, acc := .rw, wide := true, fold := true, atRestore := true },
  { item := 0x0040, acc := .w1c, map := some 0x1F, fold := true, atRestore := true },
  { item := 0x0050, acc := .rwl, reset := 0x10, sgn := true, range := some (-126, 127) },
  { item := 0x0051, acc := .rwl, reset := 0x1, range := some (1, 4) },
  { item := 0x0052, acc := .rwl, reset := 0x7d0, range := some (1, 65535) },
  { item := 0x0053, acc := .rwl, reset := 0xfffffffffffffff8, sgn := true, range := some (-126, 127) },
  { item := 0x0054, acc := .rwl, reset := 0x20, sgn := true, range := some (-126, 127) },
  { item := 0x0055, sgn := true },
  { item := 0x0056 },
  { item := 0x0057, acc := .rwl, reset := 0x40, range := some (1, 65535) },
  { item := 0x0058 },
  { item := 0x0060, acc := .rwl, reset := 0x7ff0000000000000, wide := true },
  { item := 0x0061, acc := .rwl, reset := 0x1, map := some 0x3 },
  { item := 0x0070, wide := true },
  { item := 0x0071, wide := true },
  { item := 0x0072 },
  { item := 0x0073, wide := true, atBind := true },
  { item := 0x0074, wide := true } ]

/-- Keys of subsystem 0x05. -/
def keys05 : List KeyRow := [
  { item := 0x0001, acc := .rwl, reset := 0xffffffffffffffd0, sgn := true },
  { item := 0x0002, acc := .rwl, reset := 0x8 },
  { item := 0x0003, acc := .rwl },
  { item := 0x0010, reset := 0x4b0 },
  { item := 0x0011, reset := 0x80 },
  { item := 0x0012, reset := 0x100000 },
  { item := 0x0100, scope := .field, wide := true, fold := true, atBind := true },
  { item := 0x0101, scope := .field, wide := true, fold := true, atBind := true },
  { item := 0x0102, scope := .field, wide := true, fold := true, atBind := true },
  { item := 0x0103, scope := .field, wide := true, fold := true, atBind := true },
  { item := 0x0104, scope := .field, wide := true, fold := true, atBind := true },
  { item := 0x0040, acc := .rwl, reset := 0xffffffffffffffd8, sgn := true },
  { item := 0x0041, acc := .rwl, reset := 0xffffffffffffffec, sgn := true },
  { item := 0x0042, reset := 0x78 },
  { item := 0x0043, reset := 0x3c },
  { item := 0x0044, reset := 0x4 },
  { item := 0x0045, reset := 0x4 },
  { item := 0x0046, reset := 0x200 },
  { item := 0x0047, reset := 0x10000 },
  { item := 0x0140, scope := .field, wide := true, fold := true, atBind := true },
  { item := 0x0141, scope := .field, wide := true, fold := true, atBind := true },
  { item := 0x0142, scope := .field, wide := true, fold := true, atBind := true },
  { item := 0x0143, scope := .field, wide := true, fold := true, atBind := true },
  { item := 0x0144, scope := .field, wide := true, fold := true, atBind := true } ]

/-- Keys of subsystem 0x06. -/
def keys06 : List KeyRow := [
  { item := 0x0001, acc := .rwl, reset := 0x20, range := some (0, 64) },
  { item := 0x0002, acc := .rwl, range := some (0, 12) },
  { item := 0x0003, acc := .rwl },
  { item := 0x0004, acc := .rwl, reset := 0x1 },
  { item := 0x0005, acc := .rwl, reset := 0x1c20, range := some (7200, 72000) },
  { item := 0x0006, acc := .rwl, reset := 0x100, range := some (0, 4096) },
  { item := 0x0007, acc := .rwl, reset := 0x3e8 },
  { item := 0x0008, acc := .rwl, reset := 0x10 },
  { item := 0x0009, acc := .rwl, reset := 0x200 },
  { item := 0x0010, acc := .rwl, reset := 0xc4848484 },
  { item := 0x0011, acc := .rwl, reset := 0x2101004, chk := .burst },
  { item := 0x0012, reset := 0x10 },
  { item := 0x0013, reset := 0x1000 },
  { item := 0x0020, reset := 0x6 },
  { item := 0x0021, reset := 0x5f },
  { item := 0x0022, reset := 0x19a },
  { item := 0x0023, reset := 0x5a },
  { item := 0x0024, reset := 0x26c },
  { item := 0x0030 },
  { item := 0x0110, scope := .field, wide := true, fold := true },
  { item := 0x0120, scope := .field, wide := true, fold := true },
  { item := 0x0121, scope := .field, wide := true, fold := true },
  { item := 0x0122, scope := .field, wide := true, fold := true },
  { item := 0x0130, scope := .field, wide := true, fold := true },
  { item := 0x0131, scope := .field, wide := true, fold := true },
  { item := 0x0132, scope := .field, wide := true, fold := true },
  { item := 0x0200, scope := .channel, acc := .rw, reset := 0x40800004, map := some 0xE0FF0F0F, roBits := 0x20000000, chk := .tgctl },
  { item := 0x0201, scope := .channel, acc := .rw, wide := true, chk := .mul64 },
  { item := 0x0202, scope := .channel, acc := .rw, wide := true, chk := .mul64 },
  { item := 0x0203, scope := .channel, acc := .rw, wide := true },
  { item := 0x0204, scope := .channel, acc := .rw, reset := 0x1 },
  { item := 0x0210, scope := .channel, acc := .rw, wide := true, fold := true },
  { item := 0x0211, scope := .channel, acc := .rw, wide := true, fold := true },
  { item := 0x0212, scope := .channel, wide := true },
  { item := 0x0213, scope := .channel, wide := true },
  { item := 0x0220, scope := .channel, wide := true, fold := true },
  { item := 0x0221, scope := .channel, wide := true, fold := true },
  { item := 0x0222, scope := .channel, wide := true, fold := true } ]

/-- Keys of subsystem 0x07. -/
def keys07 : List KeyRow := [
  { item := 0x0001, acc := .rwl, reset := 0xc8, range := some (10, 10000) },
  { item := 0x0002, acc := .rwl, reset := 0x3, range := some (1, 15) },
  { item := 0x0003, acc := .rwl, reset := 0x20, range := some (1, 255) },
  { item := 0x0010, reset := 0x6e },
  { item := 0x0011, reset := 0xe6 },
  { item := 0x0012, reset := 0x5a },
  { item := 0x0013, reset := 0x4000 },
  { item := 0x0014, reset := 0xff0 },
  { item := 0x0015 },
  { item := 0x0100, wide := true, fold := true, atBind := true },
  { item := 0x0101, wide := true, fold := true, atBind := true },
  { item := 0x0102, wide := true, fold := true, atBind := true },
  { item := 0x0103, wide := true, fold := true, atBind := true },
  { item := 0x0104, wide := true, fold := true, atBind := true },
  { item := 0x0105, wide := true, fold := true, atBind := true } ]

/-- Keys of subsystem 0x08. -/
def keys08 : List KeyRow := [
  { item := 0x0001, acc := .rwl, reset := 0xc4848484 },
  { item := 0x0002, acc := .rwl, reset := 0x2101004, chk := .burst },
  { item := 0x0003, acc := .rwl, reset := 0x8, range := some (2, 64) },
  { item := 0x0004, acc := .rwl, reset := 0x10, range := some (16, 64) },
  { item := 0x0005, acc := .rwl, reset := 0x40 },
  { item := 0x0010, reset := 0x46 },
  { item := 0x0011, reset := 0x10 },
  { item := 0x0100, scope := .port, acc := .rwl, reset := 0x1, map := some 0x7 },
  { item := 0x0101, scope := .port },
  { item := 0x0102, scope := .port },
  { item := 0x0103, scope := .port },
  { item := 0x0104, scope := .port },
  { item := 0x0110, scope := .port, wide := true, fold := true, atBind := true },
  { item := 0x0111, scope := .port, wide := true, fold := true, atBind := true },
  { item := 0x0112, scope := .port, wide := true, fold := true, atBind := true },
  { item := 0x0113, scope := .port, wide := true, fold := true, atBind := true },
  { item := 0x0114, scope := .port, wide := true, fold := true, atBind := true },
  { item := 0x0115, scope := .port, wide := true, fold := true, atBind := true },
  { item := 0x0116, scope := .port, wide := true, fold := true, atBind := true },
  { item := 0x0117, scope := .port, wide := true, fold := true, atBind := true } ]

/-- Keys of subsystem 0x09. -/
def keys09 : List KeyRow := [
  { item := 0x0001, wide := true },
  { item := 0x0002 },
  { item := 0x0003 },
  { item := 0x0004, wide := true },
  { item := 0x0010, wide := true },
  { item := 0x0011 },
  { item := 0x0012, acc := .rwl, reset := 0x40, range := some (8, 4096) },
  { item := 0x0013, acc := .rwl },
  { item := 0x0014, sgn := true },
  { item := 0x0015, wide := true, fold := true },
  { item := 0x0016, wide := true, fold := true },
  { item := 0x0020, wide := true },
  { item := 0x0021, wide := true, fold := true },
  { item := 0x0100, scope := .port } ]

/-- Keys of subsystem 0x0A. -/
def keys0A : List KeyRow := [
  { item := 0x0001, acc := .rw, reset := 0x3e8, range := some (100, 100000) },
  { item := 0x0002, acc := .rwl, wide := true },
  { item := 0x0003, acc := .rwl, wide := true, chk := .winsize },
  { item := 0x0010 },
  { item := 0x0020, wide := true },
  { item := 0x0021 },
  { item := 0x0030, wide := true },
  { item := 0x0031, wide := true },
  { item := 0x0032, wide := true },
  { item := 0x0033, wide := true },
  { item := 0x0034, wide := true } ]

/-- Keys of subsystem 0x0B. -/
def keys0B : List KeyRow := [
  { item := 0x0001, acc := .rw, range := some (0, 3) },
  { item := 0x0002 },
  { item := 0x0003 },
  { item := 0x0004, acc := .rwl, reset := 0x1 },
  { item := 0x0005, reset := 0x8ca0 },
  { item := 0x0010 },
  { item := 0x0011 },
  { item := 0x0012 },
  { item := 0x0013 },
  { item := 0x0014 } ]

/-- Keys of subsystem 0x0C. -/
def keys0C : List KeyRow := [
  { item := 0x0001, reset := 0x1 },
  { item := 0x0002, acc := .w1c, map := some 0x3F3F, roBits := 0x3F00 },
  { item := 0x0003 },
  { item := 0x0004 },
  { item := 0x0010, acc := .rw, reset := 0x15, range := some (0, 63) },
  { item := 0x0011, wide := true } ]

/-- Keys of subsystem 0x0D. -/
def keys0D : List KeyRow := [
  { item := 0x0001 },
  { item := 0x0002 },
  { item := 0x0003 },
  { item := 0x0004 },
  { item := 0x0010, acc := .rwl, range := some (0, 0) },
  { item := 0x0011, wide := true },
  { item := 0x0020 },
  { item := 0x0021, wide := true } ]

/-- Keys of subsystem 0x0E. -/
def keys0E : List KeyRow := [
  { item := 0x0001, acc := .rwl, reset := 0x1, range := some (0, 2) },
  { item := 0x0002, acc := .rwl, reset := 0x8, range := some (1, 65535) },
  { item := 0x0003, acc := .rw, reset := 0x1 },
  { item := 0x0004, wide := true },
  { item := 0x0010, wide := true },
  { item := 0x0011, wide := true },
  { item := 0x0012, wide := true },
  { item := 0x0013, wide := true },
  { item := 0x0014, wide := true, atBind := true },
  { item := 0x0020, wide := true },
  { item := 0x0021, acc := .rw, wide := true },
  { item := 0x0028, n := 8, wide := true },
  { item := 0x0400, wide := true, atRestore := true },
  { item := 0x0401, wide := true, atRestore := true },
  { item := 0x0402, wide := true, atRestore := true },
  { item := 0x0403, wide := true, atRestore := true },
  { item := 0x0404, wide := true, atRestore := true },
  { item := 0x0405, wide := true, atRestore := true },
  { item := 0x0406, atRestore := true },
  { item := 0x0407, wide := true, atRestore := true },
  { item := 0x0408, wide := true, atRestore := true },
  { item := 0x0409, wide := true, atRestore := true },
  { item := 0x0410, acc := .rw, wide := true, fold := true, atRestore := true },
  { item := 0x0411, acc := .rw, wide := true, fold := true, atRestore := true },
  { item := 0x0412, wide := true, atRestore := true } ]

/-- Keys of subsystem 0x0F. -/
def keys0F : List KeyRow := [
  { item := 0x0001, acc := .rwl, reset := 0x10c, map := some 0x11F },
  { item := 0x0002, acc := .rwl, reset := 0xa, range := some (1, 15) },
  { item := 0x0003, acc := .rwl, reset := 0x40 },
  { item := 0x0004, reset := 0xa0 },
  { item := 0x0010, n := 16, wide := true },
  { item := 0x0020, wide := true },
  { item := 0x0021, wide := true } ]

/-- The rows of a subsystem (00 R10). -/
def keyRows (sub : Nat) : List KeyRow :=
  match sub with
  | 0x01 => keys01
  | 0x02 => keys02
  | 0x03 => keys03
  | 0x04 => keys04
  | 0x05 => keys05
  | 0x06 => keys06
  | 0x07 => keys07
  | 0x08 => keys08
  | 0x09 => keys09
  | 0x0A => keys0A
  | 0x0B => keys0B
  | 0x0C => keys0C
  | 0x0D => keys0D
  | 0x0E => keys0E
  | 0x0F => keys0F
  | _ => []

/-- The number of instances of a scope; channel items of 0x0200 are HBM4 and of 0x0300 LPDDR5X (04 R113, 10 R311, 12
R340). -/
def KScope.count (s : KScope) (lp : Bool) : Nat :=
  match s with
  | .device => 1
  | .tile => 224
  | .field => 4
  | .port => 8
  | .channel => if lp then 64 else 256

/-- The row of a key, or none when the value names no key on TK1 (00 R9, R10). -/
def keyRow (k : Nat) : Option KeyRow :=
  if 2 ^ 32 ≤ k then none
  else
    let sub := k / 2 ^ 24
    let inst := bits k 16 8
    let item := k % 65536
    let lp := decide (sub = 6) && decide (0x300 ≤ item) && decide (item < 0x400)
    let it := if lp then item - 0x100 else item
    match (keyRows sub).find? (fun r => decide (r.item ≤ it) && decide (it < r.item + r.n) &&
        (!lp || decide (r.scope = .channel))) with
    | some r => if inst < KScope.count r.scope lp then some r else none
    | none => none

/-- The reset value of a key (0 for a value that names none). -/
def keyReset (k : Nat) : BitVec 64 :=
  match keyRow k with
  | some r => BitVec.ofNat 64 r.reset
  | none => 0

/-- The key of a memory channel: HBM4 channel c at item `it`, LPDDR5X channel l = c - 256 at `it` + 0x100 (10 R311). -/
def chanKey (it c : Nat) : Nat :=
  if c < 256 then 0x06000000 + it + c * 65536 else 0x06000000 + it + 0x100 + (c - 256) * 65536

/-- Key `K:01.00.0001` (04 R114). -/
abbrev kArrCtl : Nat := 0x01000001

/-- Key `K:01.00.0010` (04 R114). -/
abbrev kTFill : Nat := 0x01000010

/-- Key `K:01.00.0011` (04 R114). -/
abbrev kTSw : Nat := 0x01000011

/-- Key `K:01.00.0012` (04 R114). -/
abbrev kTTf : Nat := 0x01000012

/-- Key `K:01.00.0013` (04 R114). -/
abbrev kDW : Nat := 0x01000013

/-- Key `K:01.00.0014` (04 R114). -/
abbrev kTSd : Nat := 0x01000014

/-- Key `K:01.00.0020` (04 R114). -/
abbrev kTintRankMax : Nat := 0x01000020

/-- Key `K:01.ii.0100` of tile `ii` (04 R115). -/
def kOchreBusy (ii : Nat) : Nat := 0x01000100 + ii * 65536

/-- Key `K:01.ii.0101` of tile `ii` (04 R115). -/
def kSienna0Busy (ii : Nat) : Nat := 0x01000101 + ii * 65536

/-- Key `K:01.ii.0102` of tile `ii` (04 R115). -/
def kSienna1Busy (ii : Nat) : Nat := 0x01000102 + ii * 65536

/-- Key `K:01.ii.0110` of tile `ii` (04 R115). -/
def kPadCc (ii : Nat) : Nat := 0x01000110 + ii * 65536

/-- Key `K:01.ii.0120` of tile `ii` (04 R115). -/
def kTilesDone (ii : Nat) : Nat := 0x01000120 + ii * 65536

/-- Key `K:02.00.0010` (05 R144). -/
abbrev kTCfg : Nat := 0x02000010

/-- Key `K:02.00.0011` (05 R144). -/
abbrev kTSplit : Nat := 0x02000011

/-- Key `K:02.00.0012` (05 R144). -/
abbrev kBRd : Nat := 0x02000012

/-- Key `K:02.00.0013` (05 R144). -/
abbrev kBWr : Nat := 0x02000013

/-- Key `K:02.00.0014` (05 R144). -/
abbrev kRpMax : Nat := 0x02000014

/-- Key `K:02.ii.0100` of tile `ii` (05 R144). -/
def kChrBusy (ii : Nat) : Nat := 0x02000100 + ii * 65536

/-- Key `K:02.ii.0101` of tile `ii` (05 R144). -/
def kChrElems (ii : Nat) : Nat := 0x02000101 + ii * 65536

/-- Key `K:02.ii.0102` of tile `ii` (05 R144). -/
def kChrRpWait (ii : Nat) : Nat := 0x02000102 + ii * 65536

/-- Key `K:02.ii.0103` of tile `ii` (05 R144). -/
def kChrSplit (ii : Nat) : Nat := 0x02000103 + ii * 65536

/-- Key `K:03.00.0010` (06 R169). -/
abbrev kVlen : Nat := 0x03000010

/-- Key `K:03.00.0011` (06 R169). -/
abbrev kBLn : Nat := 0x03000011

/-- Key `K:03.00.0012` (06 R169). -/
abbrev kGxLines : Nat := 0x03000012

/-- Key `K:03.00.0013` (06 R169). -/
abbrev kGxTs : Nat := 0x03000013

/-- Key `K:03.00.0014` (06 R169). -/
abbrev kGxOutstanding : Nat := 0x03000014

/-- Key `K:03.00.0015` (06 R169). -/
abbrev kTEntry : Nat := 0x03000015

/-- Key `K:03.ii.0100` of tile `ii` (06 R169). -/
def kSlBusy (ii : Nat) : Nat := 0x03000100 + ii * 65536

/-- Key `K:03.ii.0101` of tile `ii` (06 R169). -/
def kSlLines (ii : Nat) : Nat := 0x03000101 + ii * 65536

/-- Key `K:03.ii.0102` of tile `ii` (06 R169). -/
def kSlMemStall (ii : Nat) : Nat := 0x03000102 + ii * 65536

/-- Key `K:03.ii.0103` of tile `ii` (06 R169). -/
def kSlSpecMasked (ii : Nat) : Nat := 0x03000103 + ii * 65536

/-- Key `K:03.ii.0104` of tile `ii` (06 R169). -/
def kSlIdle (ii : Nat) : Nat := 0x03000104 + ii * 65536

/-- Key `K:04.00.0010` (02 R67, 07 R201). -/
abbrev kJobSeed : Nat := 0x04000010

/-- Key `K:04.00.0030` (02 R67, 07 R201). -/
abbrev kCvtSaturated : Nat := 0x04000030

/-- Key `K:04.00.0031` (02 R67, 07 R201). -/
abbrev kCvtVanished : Nat := 0x04000031

/-- Key `K:04.00.0032` (02 R67, 07 R201). -/
abbrev kCvtNanOut : Nat := 0x04000032

/-- Key `K:04.00.0040` (02 R67, 07 R201). -/
abbrev kIeeeFlags : Nat := 0x04000040

/-- Key `K:04.00.0050` (02 R67, 07 R201). -/
abbrev kLsStartExp : Nat := 0x04000050

/-- Key `K:04.00.0051` (02 R67, 07 R201). -/
abbrev kLsStep : Nat := 0x04000051

/-- Key `K:04.00.0052` (02 R67, 07 R201). -/
abbrev kLsGrowth : Nat := 0x04000052

/-- Key `K:04.00.0053` (02 R67, 07 R201). -/
abbrev kLsMinExp : Nat := 0x04000053

/-- Key `K:04.00.0054` (02 R67, 07 R201). -/
abbrev kLsMaxExp : Nat := 0x04000054

/-- Key `K:04.00.0055` (02 R67, 07 R201). -/
abbrev kLsExp : Nat := 0x04000055

/-- Key `K:04.00.0056` (02 R67, 07 R201). -/
abbrev kLsClean : Nat := 0x04000056

/-- Key `K:04.00.0057` (02 R67, 07 R201). -/
abbrev kSkipLimit : Nat := 0x04000057

/-- Key `K:04.00.0058` (02 R67, 07 R201). -/
abbrev kSkipRun : Nat := 0x04000058

/-- Key `K:04.00.0060` (02 R67, 07 R201). -/
abbrev kClip : Nat := 0x04000060

/-- Key `K:04.00.0061` (02 R67, 07 R201). -/
abbrev kVdCtl : Nat := 0x04000061

/-- Key `K:04.00.0070` (02 R67, 07 R201). -/
abbrev kLastNorm : Nat := 0x04000070

/-- Key `K:04.00.0071` (02 R67, 07 R201). -/
abbrev kLastClip : Nat := 0x04000071

/-- Key `K:04.00.0072` (02 R67, 07 R201). -/
abbrev kLastFlags : Nat := 0x04000072

/-- Key `K:04.00.0073` (02 R67, 07 R201). -/
abbrev kStepsSkipped : Nat := 0x04000073

/-- Key `K:04.00.0074` (02 R67, 07 R201). -/
abbrev kOptStep : Nat := 0x04000074

/-- Key `K:05.00.0001` (08 R242). -/
abbrev kUsPivLog2 : Nat := 0x05000001

/-- Key `K:05.00.0002` (08 R242). -/
abbrev kUsDirLog2 : Nat := 0x05000002

/-- Key `K:05.00.0003` (08 R242). -/
abbrev kUsWarmDimOnly : Nat := 0x05000003

/-- Key `K:05.00.0010` (08 R242). -/
abbrev kTCfgsw : Nat := 0x05000010

/-- Key `K:05.00.0011` (08 R242). -/
abbrev kUsLanes : Nat := 0x05000011

/-- Key `K:05.00.0012` (08 R242). -/
abbrev kUsXwin : Nat := 0x05000012

/-- Key `K:05.ii.0100` of field `ii` (08 R242). -/
def kUsSolves (ii : Nat) : Nat := 0x05000100 + ii * 65536

/-- Key `K:05.ii.0101` of field `ii` (08 R242). -/
def kUsIters (ii : Nat) : Nat := 0x05000101 + ii * 65536

/-- Key `K:05.ii.0102` of field `ii` (08 R242). -/
def kUsPivFloored (ii : Nat) : Nat := 0x05000102 + ii * 65536

/-- Key `K:05.ii.0103` of field `ii` (08 R242). -/
def kUsSat (ii : Nat) : Nat := 0x05000103 + ii * 65536

/-- Key `K:05.ii.0104` of field `ii` (08 R242). -/
def kUsWarmRejected (ii : Nat) : Nat := 0x05000104 + ii * 65536

/-- Key `K:05.00.0040` (09 R271). -/
abbrev kUjSingLog2 : Nat := 0x05000040

/-- Key `K:05.00.0041` (09 R271). -/
abbrev kUjQuatTol : Nat := 0x05000041

/-- Key `K:05.00.0042` (09 R271). -/
abbrev kTSetup : Nat := 0x05000042

/-- Key `K:05.00.0043` (09 R271). -/
abbrev kTOut : Nat := 0x05000043

/-- Key `K:05.00.0044` (09 R271). -/
abbrev kTGap : Nat := 0x05000044

/-- Key `K:05.00.0045` (09 R271). -/
abbrev kUjGroup : Nat := 0x05000045

/-- Key `K:05.00.0046` (09 R271). -/
abbrev kUjJointsMax : Nat := 0x05000046

/-- Key `K:05.00.0047` (09 R271). -/
abbrev kUjTreesMax : Nat := 0x05000047

/-- Key `K:05.ii.0140` of field `ii` (09 R271). -/
def kUjCmds (ii : Nat) : Nat := 0x05000140 + ii * 65536

/-- Key `K:05.ii.0141` of field `ii` (09 R271). -/
def kUjTrees (ii : Nat) : Nat := 0x05000141 + ii * 65536

/-- Key `K:05.ii.0142` of field `ii` (09 R271). -/
def kUjLocked (ii : Nat) : Nat := 0x05000142 + ii * 65536

/-- Key `K:05.ii.0143` of field `ii` (09 R271). -/
def kUjSat (ii : Nat) : Nat := 0x05000143 + ii * 65536

/-- Key `K:05.ii.0144` of field `ii` (09 R271). -/
def kUjQuatFix (ii : Nat) : Nat := 0x05000144 + ii * 65536

/-- Key `K:06.00.0001` (10 R311). -/
abbrev kHueDieGib : Nat := 0x06000001

/-- Key `K:06.00.0002` (10 R311). -/
abbrev kPearlPinWays : Nat := 0x06000002

/-- Key `K:06.00.0003` (10 R311). -/
abbrev kRefMode : Nat := 0x06000003

/-- Key `K:06.00.0004` (10 R311). -/
abbrev kHostHold : Nat := 0x06000004

/-- Key `K:06.00.0005` (10 R311). -/
abbrev kSableLen : Nat := 0x06000005

/-- Key `K:06.00.0006` (10 R311). -/
abbrev kScrubLines : Nat := 0x06000006

/-- Key `K:06.00.0007` (10 R311). -/
abbrev kRtPeriod : Nat := 0x06000007

/-- Key `K:06.00.0008` (10 R311). -/
abbrev kRtCeThresh : Nat := 0x06000008

/-- Key `K:06.00.0009` (10 R311). -/
abbrev kPfDepth : Nat := 0x06000009

/-- Key `K:06.00.0010` (10 R311). -/
abbrev kArbWheel : Nat := 0x06000010

/-- Key `K:06.00.0011` (10 R311). -/
abbrev kBurstMax : Nat := 0x06000011

/-- Key `K:06.00.0012` (10 R311). -/
abbrev kPendDepth : Nat := 0x06000012

/-- Key `K:06.00.0013` (10 R311). -/
abbrev kStitchBw : Nat := 0x06000013

/-- Key `K:06.00.0020` (10 R311). -/
abbrev kLatTs : Nat := 0x06000020

/-- Key `K:06.00.0021` (10 R311). -/
abbrev kLatPearl : Nat := 0x06000021

/-- Key `K:06.00.0022` (10 R311). -/
abbrev kLatHbm : Nat := 0x06000022

/-- Key `K:06.00.0023` (10 R311). -/
abbrev kLatStitch : Nat := 0x06000023

/-- Key `K:06.00.0024` (10 R311). -/
abbrev kLatLp : Nat := 0x06000024

/-- Key `K:06.00.0030` (10 R311). -/
abbrev kLpGib : Nat := 0x06000030

/-- Key `K:06.ii.0110` of field `ii` (10 R311). -/
def kTsCe (ii : Nat) : Nat := 0x06000110 + ii * 65536

/-- Key `K:06.ii.0120` of field `ii` (10 R311). -/
def kPearlHits (ii : Nat) : Nat := 0x06000120 + ii * 65536

/-- Key `K:06.ii.0121` of field `ii` (10 R311). -/
def kPearlMisses (ii : Nat) : Nat := 0x06000121 + ii * 65536

/-- Key `K:06.ii.0122` of field `ii` (10 R311). -/
def kPfCancelled (ii : Nat) : Nat := 0x06000122 + ii * 65536

/-- Key `K:06.ii.0130` of field `ii` (10 R311). -/
def kRefForced (ii : Nat) : Nat := 0x06000130 + ii * 65536

/-- Key `K:06.ii.0131` of field `ii` (10 R311). -/
def kRtUnsched (ii : Nat) : Nat := 0x06000131 + ii * 65536

/-- Key `K:06.ii.0132` of field `ii` (10 R311). -/
def kRtFenceMax (ii : Nat) : Nat := 0x06000132 + ii * 65536

/-- Key of a memory channel, item 0x0200 for HBM4 and 0x0300 for LPDDR5X (10 R311). -/
def kTgCtl (c : Nat) : Nat := chanKey 0x0200 c

/-- Key of a memory channel, item 0x0201 for HBM4 and 0x0301 for LPDDR5X (10 R311). -/
def kTgBase (c : Nat) : Nat := chanKey 0x0201 c

/-- Key of a memory channel, item 0x0202 for HBM4 and 0x0302 for LPDDR5X (10 R311). -/
def kTgLen (c : Nat) : Nat := chanKey 0x0202 c

/-- Key of a memory channel, item 0x0203 for HBM4 and 0x0303 for LPDDR5X (10 R311). -/
def kTgSeed (c : Nat) : Nat := chanKey 0x0203 c

/-- Key of a memory channel, item 0x0204 for HBM4 and 0x0304 for LPDDR5X (10 R311). -/
def kTgPasses (c : Nat) : Nat := chanKey 0x0204 c

/-- Key of a memory channel, item 0x0210 for HBM4 and 0x0310 for LPDDR5X (10 R311). -/
def kTcLines (c : Nat) : Nat := chanKey 0x0210 c

/-- Key of a memory channel, item 0x0211 for HBM4 and 0x0311 for LPDDR5X (10 R311). -/
def kTcErrs (c : Nat) : Nat := chanKey 0x0211 c

/-- Key of a memory channel, item 0x0212 for HBM4 and 0x0312 for LPDDR5X (10 R311). -/
def kTcFirstAddr (c : Nat) : Nat := chanKey 0x0212 c

/-- Key of a memory channel, item 0x0213 for HBM4 and 0x0313 for LPDDR5X (10 R311). -/
def kTcFirstMask (c : Nat) : Nat := chanKey 0x0213 c

/-- Key of a memory channel, item 0x0220 for HBM4 and 0x0320 for LPDDR5X (10 R311). -/
def kCeCount (c : Nat) : Nat := chanKey 0x0220 c

/-- Key of a memory channel, item 0x0221 for HBM4 and 0x0321 for LPDDR5X (10 R311). -/
def kUeCount (c : Nat) : Nat := chanKey 0x0221 c

/-- Key of a memory channel, item 0x0222 for HBM4 and 0x0322 for LPDDR5X (10 R311). -/
def kRtCount (c : Nat) : Nat := chanKey 0x0222 c

/-- Key `K:07.00.0001` (11 R339). -/
abbrev kAckTimeout : Nat := 0x07000001

/-- Key `K:07.00.0002` (11 R339). -/
abbrev kAckRetries : Nat := 0x07000002

/-- Key `K:07.00.0003` (11 R339). -/
abbrev kCredDefault : Nat := 0x07000003

/-- Key `K:07.00.0010` (11 R339). -/
abbrev kTInj : Nat := 0x07000010

/-- Key `K:07.00.0011` (11 R339). -/
abbrev kTHop : Nat := 0x07000011

/-- Key `K:07.00.0012` (11 R339). -/
abbrev kTEj : Nat := 0x07000012

/-- Key `K:07.00.0013` (11 R339). -/
abbrev kMsgMax : Nat := 0x07000013

/-- Key `K:07.00.0014` (11 R339). -/
abbrev kCtxImage : Nat := 0x07000014

/-- Key `K:07.00.0015` (11 R339). -/
abbrev kEpoch : Nat := 0x07000015

/-- Key `K:07.00.0100` (11 R339). -/
abbrev kIxMsgs : Nat := 0x07000100

/-- Key `K:07.00.0101` (11 R339). -/
abbrev kIxResent : Nat := 0x07000101

/-- Key `K:07.00.0102` (11 R339). -/
abbrev kIxDup : Nat := 0x07000102

/-- Key `K:07.00.0103` (11 R339). -/
abbrev kIxStale : Nat := 0x07000103

/-- Key `K:07.00.0104` (11 R339). -/
abbrev kIxDropped : Nat := 0x07000104

/-- Key `K:07.00.0105` (11 R339). -/
abbrev kIxRerouted : Nat := 0x07000105

/-- Key `K:08.00.0001` (12 R377). -/
abbrev kFlWheel : Nat := 0x08000001

/-- Key `K:08.00.0002` (12 R377). -/
abbrev kFlBurst : Nat := 0x08000002

/-- Key `K:08.00.0003` (12 R377). -/
abbrev kRetryMax : Nat := 0x08000003

/-- Key `K:08.00.0004` (12 R377). -/
abbrev kAlMargin : Nat := 0x08000004

/-- Key `K:08.00.0005` (12 R377). -/
abbrev kFecUeThresh : Nat := 0x08000005

/-- Key `K:08.00.0010` (12 R377). -/
abbrev kTRouter : Nat := 0x08000010

/-- Key `K:08.00.0011` (12 R377). -/
abbrev kTRewind : Nat := 0x08000011

/-- Key `K:08.ii.0100` of port `ii` (12 R377). -/
def kFlMode (ii : Nat) : Nat := 0x08000100 + ii * 65536

/-- Key `K:08.ii.0101` of port `ii` (12 R377). -/
def kFlState (ii : Nat) : Nat := 0x08000101 + ii * 65536

/-- Key `K:08.ii.0102` of port `ii` (12 R377). -/
def kLinkLat (ii : Nat) : Nat := 0x08000102 + ii * 65536

/-- Key `K:08.ii.0103` of port `ii` (12 R377). -/
def kFlReason (ii : Nat) : Nat := 0x08000103 + ii * 65536

/-- Key `K:08.ii.0104` of port `ii` (12 R377). -/
def kLaneMap (ii : Nat) : Nat := 0x08000104 + ii * 65536

/-- Key `K:08.ii.0110` of port `ii` (12 R377). -/
def kFecCorrSym (ii : Nat) : Nat := 0x08000110 + ii * 65536

/-- Key `K:08.ii.0111` of port `ii` (12 R377). -/
def kFecUncorr (ii : Nat) : Nat := 0x08000111 + ii * 65536

/-- Key `K:08.ii.0112` of port `ii` (12 R377). -/
def kCrcErr (ii : Nat) : Nat := 0x08000112 + ii * 65536

/-- Key `K:08.ii.0113` of port `ii` (12 R377). -/
def kNaks (ii : Nat) : Nat := 0x08000113 + ii * 65536

/-- Key `K:08.ii.0114` of port `ii` (12 R377). -/
def kRetries (ii : Nat) : Nat := 0x08000114 + ii * 65536

/-- Key `K:08.ii.0115` of port `ii` (12 R377). -/
def kRetrains (ii : Nat) : Nat := 0x08000115 + ii * 65536

/-- Key `K:08.ii.0116` of port `ii` (12 R377). -/
def kSyncLost (ii : Nat) : Nat := 0x08000116 + ii * 65536

/-- Key `K:08.ii.0117` of port `ii` (12 R377). -/
def kMsgBad (ii : Nat) : Nat := 0x08000117 + ii * 65536

/-- Key `K:09.00.0001` (13 R402, R384). -/
abbrev kStrap : Nat := 0x09000001

/-- Key `K:09.00.0002` (13 R402, R384). -/
abbrev kCoord : Nat := 0x09000002

/-- Key `K:09.00.0003` (13 R402, R384). -/
abbrev kMapGen : Nat := 0x09000003

/-- Key `K:09.00.0004` (13 R402, R384). -/
abbrev kBlock : Nat := 0x09000004

/-- Key `K:09.00.0010` (13 R402, R384). -/
abbrev kCobalt : Nat := 0x09000010

/-- Key `K:09.00.0011` (13 R402, R384). -/
abbrev kCobDepth : Nat := 0x09000011

/-- Key `K:09.00.0012` (13 R402, R384). -/
abbrev kCobMax : Nat := 0x09000012

/-- Key `K:09.00.0013` (13 R402, R384). -/
abbrev kCobPps : Nat := 0x09000013

/-- Key `K:09.00.0014` (13 R402, R384). -/
abbrev kCobLastCorr : Nat := 0x09000014

/-- Key `K:09.00.0015` (13 R402, R384). -/
abbrev kCobLost : Nat := 0x09000015

/-- Key `K:09.00.0016` (13 R402, R384). -/
abbrev kCobSkews : Nat := 0x09000016

/-- Key `K:09.00.0020` (13 R402, R384). -/
abbrev kLivery : Nat := 0x09000020

/-- Key `K:09.00.0021` (13 R402, R384). -/
abbrev kLiverySkews : Nat := 0x09000021

/-- Key `K:09.ii.0100` of port `ii` (13 R402, R384). -/
def kCabState (ii : Nat) : Nat := 0x09000100 + ii * 65536

/-- Key `K:0A.00.0001` (14 R430). -/
abbrev kRingPoll : Nat := 0x0A000001

/-- Key `K:0A.00.0002` (14 R430). -/
abbrev kWinBase : Nat := 0x0A000002

/-- Key `K:0A.00.0003` (14 R430). -/
abbrev kWinSize : Nat := 0x0A000003

/-- Key `K:0A.00.0010` (14 R430). -/
abbrev kCxlLink : Nat := 0x0A000010

/-- Key `K:0A.00.0020` (14 R430). -/
abbrev kJrnWm : Nat := 0x0A000020

/-- Key `K:0A.00.0021` (14 R430). -/
abbrev kJrnUsed : Nat := 0x0A000021

/-- Key `K:0A.00.0030` (14 R430). -/
abbrev kCmdAccepted : Nat := 0x0A000030

/-- Key `K:0A.00.0031` (14 R430). -/
abbrev kCmdDup : Nat := 0x0A000031

/-- Key `K:0A.00.0032` (14 R430). -/
abbrev kCmdRefused : Nat := 0x0A000032

/-- Key `K:0A.00.0033` (14 R430). -/
abbrev kSnoopWake : Nat := 0x0A000033

/-- Key `K:0A.00.0034` (14 R430). -/
abbrev kPollWake : Nat := 0x0A000034

/-- Key `K:0B.00.0001` (17 R486). -/
abbrev kOpReq : Nat := 0x0B000001

/-- Key `K:0B.00.0002` (17 R486). -/
abbrev kOpNow : Nat := 0x0B000002

/-- Key `K:0B.00.0003` (17 R486). -/
abbrev kOpCause : Nat := 0x0B000003

/-- Key `K:0B.00.0004` (17 R486). -/
abbrev kSscEn : Nat := 0x0B000004

/-- Key `K:0B.00.0005` (17 R486). -/
abbrev kTOpChange : Nat := 0x0B000005

/-- Key `K:0B.00.0010` (17 R486). -/
abbrev kPwrStep : Nat := 0x0B000010

/-- Key `K:0B.00.0011` (17 R486). -/
abbrev kTjMax : Nat := 0x0B000011

/-- Key `K:0B.00.0012` (17 R486). -/
abbrev kVinCoreMa : Nat := 0x0B000012

/-- Key `K:0B.00.0013` (17 R486). -/
abbrev kTrips : Nat := 0x0B000013

/-- Key `K:0B.00.0014` (17 R486). -/
abbrev kBootMsKey : Nat := 0x0B000014

/-- Key `K:0C.00.0001` (18 R508). -/
abbrev kPinPhase : Nat := 0x0C000001

/-- Key `K:0C.00.0002` (18 R508). -/
abbrev kPinStatus : Nat := 0x0C000002

/-- Key `K:0C.00.0003` (18 R508). -/
abbrev kPinLevel : Nat := 0x0C000003

/-- Key `K:0C.00.0004` (18 R508). -/
abbrev kStrapBits : Nat := 0x0C000004

/-- Key `K:0C.00.0010` (18 R508). -/
abbrev kSlewSel : Nat := 0x0C000010

/-- Key `K:0C.00.0011` (18 R508). -/
abbrev kPinEvents : Nat := 0x0C000011

/-- Key `K:0D.00.0001` (19 R530). -/
abbrev kSecBoot : Nat := 0x0D000001

/-- Key `K:0D.00.0002` (19 R530). -/
abbrev kSvFw : Nat := 0x0D000002

/-- Key `K:0D.00.0003` (19 R530). -/
abbrev kSvCfg : Nat := 0x0D000003

/-- Key `K:0D.00.0004` (19 R530). -/
abbrev kKeySlots : Nat := 0x0D000004

/-- Key `K:0D.00.0010` (19 R530). -/
abbrev kDbgState : Nat := 0x0D000010

/-- Key `K:0D.00.0011` (19 R530). -/
abbrev kDbgNonce : Nat := 0x0D000011

/-- Key `K:0D.00.0020` (19 R530). -/
abbrev kSpdmSessions : Nat := 0x0D000020

/-- Key `K:0D.00.0021` (19 R530). -/
abbrev kAuthFail : Nat := 0x0D000021

/-- Key `K:0E.00.0001` (20 R546). -/
abbrev kFltnAct : Nat := 0x0E000001

/-- Key `K:0E.00.0002` (20 R546). -/
abbrev kWithholdLimit : Nat := 0x0E000002

/-- Key `K:0E.00.0003` (20 R546). -/
abbrev kFltIrq : Nat := 0x0E000003

/-- Key `K:0E.00.0004` (20 R546). -/
abbrev kFltRun : Nat := 0x0E000004

/-- Key `K:0E.00.0010` (20 R546). -/
abbrev kFltCe : Nat := 0x0E000010

/-- Key `K:0E.00.0011` (20 R546). -/
abbrev kFltContained : Nat := 0x0E000011

/-- Key `K:0E.00.0012` (20 R546). -/
abbrev kFltJob : Nat := 0x0E000012

/-- Key `K:0E.00.0013` (20 R546). -/
abbrev kFltDevice : Nat := 0x0E000013

/-- Key `K:0E.00.0014` (20 R546). -/
abbrev kFltWithheld : Nat := 0x0E000014

/-- Key `K:0E.00.0020` (20 R546). -/
abbrev kFltHead : Nat := 0x0E000020

/-- Key `K:0E.00.0021` (20 R546). -/
abbrev kFltSel : Nat := 0x0E000021

/-- Key `K:0E.00.0028` (20 R546). -/
abbrev kFltWord0 : Nat := 0x0E000028

/-- Key `K:0E.00.0400` (16 R461). -/
abbrev kTmPlanLen : Nat := 0x0E000400

/-- Key `K:0E.00.0401` (16 R461). -/
abbrev kTmPlanPeriod : Nat := 0x0E000401

/-- Key `K:0E.00.0402` (16 R461). -/
abbrev kTmRecStep : Nat := 0x0E000402

/-- Key `K:0E.00.0403` (16 R461). -/
abbrev kTmLastLen : Nat := 0x0E000403

/-- Key `K:0E.00.0404` (16 R461). -/
abbrev kTmLastSlip : Nat := 0x0E000404

/-- Key `K:0E.00.0405` (16 R461). -/
abbrev kTmLastBdelay : Nat := 0x0E000405

/-- Key `K:0E.00.0406` (16 R461). -/
abbrev kTmLastEvents : Nat := 0x0E000406

/-- Key `K:0E.00.0407` (16 R461). -/
abbrev kTmEvRef : Nat := 0x0E000407

/-- Key `K:0E.00.0408` (16 R461). -/
abbrev kTmEvLink : Nat := 0x0E000408

/-- Key `K:0E.00.0409` (16 R461). -/
abbrev kTmLatExcess : Nat := 0x0E000409

/-- Key `K:0E.00.0410` (16 R461). -/
abbrev kTmMaxSlip : Nat := 0x0E000410

/-- Key `K:0E.00.0411` (16 R461). -/
abbrev kTmExact : Nat := 0x0E000411

/-- Key `K:0E.00.0412` (16 R461). -/
abbrev kTmSteps : Nat := 0x0E000412

/-- Key `K:0F.00.0001` (07 R202). -/
abbrev kSwCtl : Nat := 0x0F000001

/-- Key `K:0F.00.0002` (07 R202). -/
abbrev kSwAlarmBin : Nat := 0x0F000002

/-- Key `K:0F.00.0003` (07 R202). -/
abbrev kSwAlarmMax : Nat := 0x0F000003

/-- Key `K:0F.00.0004` (07 R202). -/
abbrev kSwTFix : Nat := 0x0F000004

/-- Key `K:0F.00.0010` (07 R202). -/
abbrev kSwHist0 : Nat := 0x0F000010

/-- Key `K:0F.00.0020` (07 R202). -/
abbrev kSwTiles : Nat := 0x0F000020

/-- Key `K:0F.00.0021` (07 R202). -/
abbrev kSwAlarmSteps : Nat := 0x0F000021

/-- The stored value of a key: what was last written, or the reset value. -/
def State.kvGet (s : State) (k : Nat) : BitVec 64 := Tab.get (keyReset k) k s.kv

/-- The state with a key's stored value replaced. -/
def State.kvSet (s : State) (k : Nat) (v : BitVec 64) : State := { s with kv := Tab.set (keyReset k) k v s.kv }

/-- The stored value of a key as a number. -/
def State.kvNat (s : State) (k : Nat) : Nat := (s.kvGet k).toNat

/-- The stored value of a signed key. -/
def State.kvInt (s : State) (k : Nat) : Int := (s.kvGet k).toInt

/-- A value without the bits that a key's row reserves, which read as 0 (00 R6). -/
def KeyRow.unreserved (r : KeyRow) (v : BitVec 64) : BitVec 64 :=
  match r.map with
  | some m => v &&& BitVec.ofNat 64 m
  | none => v

/-- The value of a key as a command with profile `prof` takes it: current, reset, or from the configuration image
(14 R429). -/
def State.profVal (s : State) (prof k : Nat) : BitVec 64 :=
  if prof = 0 then s.kvGet k
  else if prof = 1 then keyReset k
  else match s.sec.policy.profiles.find? (fun p => decide (p.1 = prof)) with
    | none => s.kvGet k
    | some p => match p.2.find? (fun x => decide (x.1 = k)) with
      | some x => match keyRow k with
        | some r => r.unreserved (BitVec.ofNat 64 x.2)
        | none => s.kvGet k
      | none => s.kvGet k

/-- A job runs steps: a `RUN_STEPS` has started and not retired, or a step is in progress (02 R68, 14 R419). -/
def State.imageRuns (s : State) : Bool :=
  s.job.inStep || s.hostIf.cmds.any (fun c => c.started && (match c.op with | .runSteps _ => true | _ => false))

/-- Adds to a 64-bit counter at once; it stops at 2^64 - 1 (02 R67). -/
def State.countNow (s : State) (k n : Nat) : State := s.kvSet k (BitVec.ofNat 64 (satAdd (s.kvNat k) n))

/-- Adds to a counter that folds: gathered until the next fold while an image runs, at once otherwise (02 R68). -/
def State.count (s : State) (k n : Nat) : State :=
  if s.imageRuns then { s with acc := Tab.set 0 k (satAdd (Tab.get 0 k s.acc) n) s.acc } else s.countNow k n

end Sys2Proof.Machine
end

