-- ==== Sys2Proof/Machine/Ops.lean ====
section
/-! DEFINITION. The named operations over the parts of State: tiles, ports, rings, memories, management events and fault
records. Every other file changes these parts through them. -/

namespace Sys2Proof.Machine

/-! ### Parts -/

/-- A tile by its logical unit number (01 R15). -/
def State.tile (s : State) (u : Nat) : Tile := Tab.get {} u s.tiles

/-- The state with a tile replaced. -/
def State.setTile (s : State) (u : Nat) (t : Tile) : State := { s with tiles := Tab.set {} u t s.tiles }

/-- The state with a tile's Slate lanes replaced. -/
def State.setSlate (s : State) (u : Nat) (l : Slate) : State := s.setTile u { s.tile u with slate := l }

/-- A Flosin port (12 R340). -/
def State.port (s : State) (p : Nat) : Port := s.ports.getD p {}

/-- The state with a port replaced. -/
def State.setPort (s : State) (p : Nat) (x : Port) : State := { s with ports := setAt s.ports p x }

/-- A ring (14 R406). -/
def State.ring (s : State) (r : Nat) : Ring := s.hostIf.rings.getD r {}

/-- The state with a ring replaced. -/
def State.setRing (s : State) (r : Nat) (x : Ring) : State :=
  { s with hostIf := { s.hostIf with rings := setAt s.hostIf.rings r x } }

/-- An Umber engine (08 R203). -/
def State.engine (s : State) (f : Nat) : Engine := s.engines.getD f {}

/-- The state with an engine replaced. -/
def State.setEngine (s : State) (f : Nat) (x : Engine) : State := { s with engines := setAt s.engines f x }

/-- A function of `POWER_CTL` (17 R483). -/
def State.fn (s : State) (f : Nat) : Fn := s.pwr.fns.getD f {}

/-- The state with a function replaced. -/
def State.setFn (s : State) (f : Nat) (x : Fn) : State := { s with pwr := { s.pwr with fns := setAt s.pwr.fns f x } }

/-- Whether a function is ON (17 R484). -/
def State.fnOn (s : State) (f : Nat) : Bool := (s.fn f).state == .on

/-- A Shade input (18 R493). -/
def State.pin (s : State) (n : Nat) : Pin := s.pins.inp.getD n {}

/-- The state with a Shade input replaced. -/
def State.setPin (s : State) (n : Nat) (x : Pin) : State := { s with pins := { s.pins with inp := setAt s.pins.inp n x } }

/-- An exchange context (11 R312). -/
def State.ctx (s : State) (c : Nat) : CtxSt := Tab.get {} c s.exch.ctxs

/-- The state with an exchange context replaced. -/
def State.setCtx (s : State) (c : Nat) (x : CtxSt) : State :=
  { s with exch := { s.exch with ctxs := Tab.set {} c x s.exch.ctxs } }

/-- A memory channel (10 R286). -/
def State.chan (s : State) (c : Nat) : Chan := Tab.get {} c s.mem.chans

/-- The state with a memory channel replaced. -/
def State.setChan (s : State) (c : Nat) (x : Chan) : State :=
  { s with mem := { s.mem with chans := Tab.set {} c x s.mem.chans } }

/-- An arbiter port (10 R293). -/
def State.arb (s : State) (p : Nat) : ArbPort := Tab.get {} p s.mem.ports

/-- The state with an arbiter port replaced. -/
def State.setArb (s : State) (p : Nat) (x : ArbPort) : State :=
  { s with mem := { s.mem with ports := Tab.set {} p x s.mem.ports } }

/-- Cobalt time as a number (13 R393). -/
def State.now (s : State) : Nat := s.clk.cobalt.toNat

/-- The next free value's number, and the state with the counter advanced (log 1). -/
def State.draw (s : State) : Nat × State := (s.fresh, { s with fresh := s.fresh + 1 })

/-- Tags of free values: `vwmul` integer results outside the format, `dbg_nonce`, `vin_core_ma`, row scalars of a row split
over packages (log 1, log 57). -/
abbrev freeWide : Nat := 0
abbrev freeNonce : Nat := 1
abbrev freeAmps : Nat := 2
abbrev freeRow : Nat := 7

/-! ### Unit counts (02 R68, R69; 07 R176) -/

/-- An operation's flags, counts and event bits added to a unit (02 R42, R68). -/
def State.raise (s : State) (u : Nat) (d : Decl) (e : Ev) : State :=
  s.setTile u { s.tile u with u := (s.tile u).u.raise d e }

/-! ### Memories -/

/-- Bytes of a tile store (04 before R94). -/
def tileBytes : Nat := 3145728

/-- The address that the byte at `a` of unit `u`'s tile store has in the unit's memory; `a` counts modulo `tileSpan`,
so that a base may lie below the store where only bytes inside it are used. -/
def tileAddr (u a : Nat) : Nat := tileSpan * u + a % tileSpan

/-- The group of whole bytes that holds element `i` of a plane: its byte offset, and the element's number in it (02 R46,
R47). -/
def elemGroup (f : Fmt) (i : Nat) : Nat × Nat :=
  match f with
  | .dove4 | .int4 | .dove4b16 => (i / 2, i % 2)
  | .fawn6 => (3 * (i / 4), i % 4)
  | _ => (i * (Fmt.bits f / 8), 0)

/-- The tile store of unit `u`: its byte `a` has the address `tileAddr u a` (10 R273). -/
def State.tileMem (s : State) (u : Nat) : Mem := Tab.get (freshTile u 1) u s.mem.tile

/-- The state with a unit's tile store replaced. -/
def State.setTileMem (s : State) (u : Nat) (m : Mem) : State :=
  { s with mem := { s.mem with tile := Tab.set (freshTile u 1) u m s.mem.tile } }

/-- `n` bytes of a tile store. -/
def State.tileRd (s : State) (u a n : Nat) : List Byte := (s.tileMem u).readN (tileAddr u a) n

/-- The state with bytes of a tile store written. -/
def State.tileWr (s : State) (u a : Nat) (bs : List Byte) : State :=
  s.setTileMem u ((s.tileMem u).writeN (tileAddr u a) bs)

/-- The code of element `i` of a plane in a tile store (02 R46, R47). -/
def State.tileElem (s : State) (u : Nat) (f : Fmt) (base i : Nat) : Nat :=
  readElem (s.tileMem u) f (tileAddr u (base + (elemGroup f i).1)) (elemGroup f i).2

/-- The tile store of unit `u` with the code of element `i` of a plane written. -/
def tileElemWr (m : Mem) (u : Nat) (f : Fmt) (base i code : Nat) : Mem :=
  writeElem m f (tileAddr u (base + (elemGroup f i).1)) (elemGroup f i).2 code

/-- The state with an element's code written in a tile store. -/
def State.setTileElem (s : State) (u : Nat) (f : Fmt) (base i code : Nat) : State :=
  s.setTileMem u (tileElemWr (s.tileMem u) u f base i code)

/-- `n` bytes of HBM4 or LPDDR5X by device physical address (10 R287). -/
def State.dramRd (s : State) (a n : Nat) : List Byte := s.mem.dram.readN a n

/-- The state with bytes of HBM4 or LPDDR5X written; a line written whole is no longer poisoned (10 R286). -/
def State.dramWr (s : State) (a : Nat) (bs : List Byte) : State :=
  { s with mem := { s.mem with
      dram := s.mem.dram.writeN a bs
      poison := s.mem.poison.filter (fun l => !(decide (a ≤ l) && decide (l + 64 ≤ a + bs.length))) } }

/-- The code of element `i` of a plane in device memory. -/
def State.dramElem (s : State) (f : Fmt) (base i : Nat) : Nat := readElem s.mem.dram f base i

/-- The state with an element's code written in device memory. -/
def State.setDramElem (s : State) (f : Fmt) (base i code : Nat) : State :=
  { s with mem := { s.mem with dram := writeElem s.mem.dram f base i code } }

/-- `n` bytes of host memory. -/
def State.hostRd (s : State) (a n : Nat) : List Byte := s.mem.host.readN a n

/-- The state with bytes of host memory written. -/
def State.hostWr (s : State) (a : Nat) (bs : List Byte) : State :=
  { s with mem := { s.mem with host := s.mem.host.writeN a bs } }

/-- The state with the contents of a range of device memory undefined (10 R310, 15 R434). -/
def State.dramForget (s : State) (lo hi : Nat) : State :=
  { s with mem := { s.mem with dram := s.mem.dram.forget lo hi (s.mem.memGen + 1), memGen := s.mem.memGen + 1 } }

/-- The state with the contents of a range of a tile store undefined (20 R533). -/
def State.tileForget (s : State) (u lo hi : Nat) : State :=
  let s1 := s.setTileMem u ((s.tileMem u).forget (tileAddr u lo) (tileAddr u lo + (hi - lo)) (s.mem.memGen + 1))
  { s1 with mem := { s1.mem with memGen := s.mem.memGen + 1 } }

/-- An address parameter: host physical (bit 63 set) or device physical; none when a bit that must be zero is set
(14 R416). -/
def addrParam (a : Nat) : Option (Bool × Nat) :=
  if bitOf a 63 then (if bits a 52 11 = 0 then some (true, a % 2 ^ 52) else none)
  else if a < 2 ^ 48 then some (false, a) else none

/-- `n` bytes at an address parameter (14 R416). -/
def State.rdAt (s : State) (a : Bool × Nat) (n : Nat) : List Byte := if a.1 then s.hostRd a.2 n else s.dramRd a.2 n

/-- The state with bytes written at an address parameter (14 R416). -/
def State.wrAt (s : State) (a : Bool × Nat) (bs : List Byte) : State := if a.1 then s.hostWr a.2 bs else s.dramWr a.2 bs

/-- Whether a byte range holds a poisoned line (10 R286). -/
def State.poisoned (s : State) (a n : Nat) : Bool := s.mem.poison.any (fun l => overlaps a (a + n) l (l + 64))

/-! ### Status codes (00 R12) -/

abbrev stOk : Nat := 0x00
abbrev stAccepted : Nat := 0x01
abbrev stDuplicate : Nat := 0x02
abbrev stRefusedFit : Nat := 0x10
abbrev stRefusedStrict : Nat := 0x11
abbrev stRefusedSignature : Nat := 0x12
abbrev stRefusedRange : Nat := 0x13
abbrev stRefusedShape : Nat := 0x14
abbrev stDeadline : Nat := 0x20
abbrev stCapReached : Nat := 0x21
abbrev stSingular : Nat := 0x22
abbrev stWarmRejected : Nat := 0x23
abbrev stRange : Nat := 0x24
abbrev stStepSkipped : Nat := 0x30
abbrev stQueuedEnable : Nat := 0x31
abbrev stFaultContained : Nat := 0x40
abbrev stFaultJob : Nat := 0x41
abbrev stFaultDevice : Nat := 0x42

/-! ### Events and fault records (19 R525, 20 R532) -/

/-- MSI-X vector `v` signalled to the host (14 R403, R413). -/
def State.msix (s : State) (v : Nat) : State := { s with hostIf := { s.hostIf with msix := s.hostIf.msix ++ [v] } }

/-- `ALERT_N` driven low or released (18 R493). -/
def State.alert (s : State) (b : Bool) : State := { s with pins := { s.pins with alert := b } }

/-- A management event enters the queue of 256 and the event log; a full queue loses its oldest event and marks the next
one delivered; `ALERT_N` is low while the queue is not empty (19 R525). -/
def State.event (s : State) (e : Event) : State :=
  let full := decide (256 ≤ s.flt.queue.length)
  { s.alert true with
    flt := { s.flt with
      queue := (if full then s.flt.queue.drop 1 else s.flt.queue) ++ [e]
      overflow := s.flt.overflow || full
      log := e :: s.flt.log } }

/-- The class counter of a fault record (20 R546). -/
def fltCounter (cls : Nat) : Nat := if cls = 1 then kFltContained else if cls = 2 then kFltJob else kFltDevice

/-- A fault record with its number, time and step filled in (20 R532). -/
def State.stamp (s : State) (r : FaultRec) : FaultRec :=
  { r with time := s.clk.cobalt, num := s.flt.num
           step := if s.job.inStep then s.job.step else 0xFFFFFFFFFFFFFFFF
           status := if r.cls = 1 then stFaultContained else if r.cls = 2 then stFaultJob else stFaultDevice }

/-- Writes a fault record: the ring of 64 in Ivory's memory, the event queue, MSI-X vector 16 when `flt_irq` is 1, and
the class counter (20 R531, R532, R546). -/
def State.record (s : State) (r : FaultRec) : State :=
  let s1 := (s.countNow (fltCounter r.cls) 1).event (.fault s.flt.num)
  let s2 := { s1 with flt := { s1.flt with ring := (s1.flt.ring ++ [s.stamp r]).drop (s1.flt.ring.length + 1 - 64)
                                           num := s1.flt.num + 1 } }
  if s.kvNat kFltIrq = 1 then s2.msix 16 else s2

/-- Writes a device-class record in Ash's own store of 16 (20 R541). -/
def State.recordAsh (s : State) (r : FaultRec) : State :=
  let s1 := (s.countNow kFltDevice 1).event (.fault s.flt.num)
  { s1 with flt := { s1.flt with ashStore := (s1.flt.ashStore ++ [s.stamp r]).drop (s1.flt.ashStore.length + 1 - 16)
                                 num := s1.flt.num + 1 } }

/-- A contained fault: its record, and in a step the mark that makes the step withheld (20 R531, R533). -/
def State.contained (s : State) (r : FaultRec) : State :=
  let s1 := s.record { r with cls := 1 }
  if s.job.inStep then { s1 with job := { s1.job with fault := true } } else s1

/-- A class 0 event: counted only (20 R531). -/
def State.corrected (s : State) : State := s.countNow kFltCe 1

/-- A timing event of the step in progress (16 R461). -/
def State.timing (s : State) (bit : Nat) : State :=
  if s.job.inStep then { s with job := { s.job with events := s.job.events ||| BitVec.ofNat 32 (2 ^ bit) } } else s

/-! ### The schedule in force -/

/-- The loaded image's entry. -/
def State.entryOf (s : State) (e : Nat) : Entry :=
  match s.job.img with
  | some i => i.parts.entries.getD e {}
  | none => {}

/-- The declared kind of an entry (07 R176). -/
def State.declOf (s : State) (e : Nat) : Decl := (s.entryOf e).decl

/-- Whether an entry is running in the step in progress (16 R450). -/
def State.running (s : State) (e : Nat) : Bool :=
  s.job.inStep && (match s.job.ents.getD e .waiting with | .running _ => true | _ => false)

/-- Whether a Sable window is in progress: `sable_len` cycles from the end of a step (10 R301). -/
def State.sable (s : State) : Bool := s.job.inSable && decide (s.now < s.job.stepEnd + s.kvNat kSableLen)

/-- A token declaration of the loaded image (15 R436). -/
def Image.tok (i : Image) (t : Nat) : TokDecl := (i.toks.find? (fun d => d.tok = t)).getD {}

/-- A token declaration of the loaded image. -/
def State.tokDecl (s : State) (t : Nat) : TokDecl :=
  match s.job.img with
  | some i => i.tok t
  | none => {}

/-- A token's placement (15 R445). -/
def State.placed (s : State) (t : Nat) : Placed :=
  match s.job.bound with
  | some b => (b.placed.find? (fun p => p.tok = t)).getD {}
  | none => {}

/-- Whether a token is versioned (15 R436). -/
def TokDecl.versioned (d : TokDecl) : Bool := bitOf d.flags 0

/-- The slot an access to a token uses: reads the active one, writes of a versioned token the inactive one (07 R188). -/
def State.slotOf (s : State) (t : Nat) (write : Bool) : Bool :=
  let a := Tab.get false t s.job.active
  if write && (s.tokDecl t).versioned then !a else a

/-- How far the slot in use lies above slot 0 (07 R187, R188; 15 R445). -/
def State.slotShift (s : State) (t : Nat) (write : Bool) : Nat :=
  let p := s.placed t
  if s.slotOf t write then p.addr1 - p.addr0 else 0

/-- The tile-store address that byte 0 of a unit-home token has in unit `u`: the place of the unit's part less the lowest
byte it covers, modulo `tileSpan` (15 R445, R553). -/
def State.unitBase (s : State) (t u : Nat) (slot : Bool) : Nat :=
  let p := (s.placed t).units.getD u {}
  (if slot then p.a1 else p.a0) + (0x4000000000000000 - p.low)

/-- The seed and step that stochastic rounding takes (02 R60). -/
def State.srOf (s : State) (tok e : Nat) : Nat :=
  srWord (match s.job.img with | some i => i.jobSeed | none => 0) s.job.step tok e

end Sys2Proof.Machine
end

