-- ==== Sys2Proof/Machine/Operands.lean ====
section
/-! DEFINITION. Operand forms: where the elements of a product's operands and outputs lie (04 R94 to R97, R549), and how
threads are spread over units (01 R16, R32, R33). -/

namespace Sys2Proof.Machine

/-! ### Distribution (01 R16, R32, R33) -/

/-- Nodes of a bound block (13 R385). -/
def Bound.nodes (b : Bound) : Nat := b.sx * b.sy * b.sz

/-- Nodes of the bound block; 1 while none is bound. -/
def State.nodes (s : State) : Nat := match s.job.bound with | some b => b.nodes | none => 1

/-- The machine size on an axis, at least 1 (13 R382). -/
def topSize (t : TopTable) : Nat × Nat × Nat := (max t.xm 1, max t.ym 1, max t.zm 1)

/-- The job-relative coordinate of a machine coordinate on an axis of size `m` (13 R385). -/
def relCoord (c o m : Nat) : Nat := (c + m - o % m) % m

/-- This package's job-relative coordinates (13 R385). -/
def State.rel (s : State) : Nat × Nat × Nat :=
  let (mx, my, mz) := topSize s.torus.table
  match s.job.bound with
  | some b => (relCoord s.torus.x b.ox mx, relCoord s.torus.y b.oy my, relCoord s.torus.z b.oz mz)
  | none => (0, 0, 0)

/-- The linear node index of job-relative coordinates (01 R16). -/
def Bound.index (b : Bound) (r : Nat × Nat × Nat) : Nat := r.1 + b.sx * (r.2.1 + b.sy * r.2.2)

/-- The job-relative coordinates of a linear node index (01 R16). -/
def Bound.coord (b : Bound) (n : Nat) : Nat × Nat × Nat := (n % b.sx, n / b.sx % b.sy, n / (b.sx * b.sy))

/-- This package's linear node index (01 R16). -/
def State.nodeIndex (s : State) : Nat := match s.job.bound with | some b => b.index s.rel | none => 0

/-- The global unit of a thread: by the explicit map, or by blocks of ceil(T / U) threads (01 R32, R33). -/
def unitOfThread (e : Entry) (nodes t : Nat) : Nat :=
  match e.map with
  | [] => t / max 1 (ceilDiv (prodL e.space) (nodes * 224))
  | m => match m.find? (fun x => decide (x.first ≤ t) && decide (t < x.first + x.count)) with
    | some x => x.g
    | none => 0

/-- Whether logical unit `u` of this node runs thread `t` of an entry (01 R32, R33). -/
def State.owns (s : State) (e : Entry) (u t : Nat) : Bool :=
  decide (u < 224) && decide (t < prodL e.space) && decide (unitOfThread e s.nodes t = s.nodeIndex * 224 + u)

/-- The threads of an entry that global unit `g` runs, as ranges of first and next thread, in ascending order (01 R32,
R33). -/
def gRanges (e : Entry) (nodes g : Nat) : List (Nat × Nat) :=
  match e.map with
  | [] =>
    let total := prodL e.space
    let q := max 1 (ceilDiv total (nodes * 224))
    if g * q < total then [(g * q, min ((g + 1) * q) total)] else []
  | m => sortBy (fun a b => decide (a.1 ≤ b.1)) ((m.filter (fun x => decide (x.g = g) && decide (0 < x.count))).map
      (fun x => (x.first, x.first + x.count)))

/-- The global units that run threads of an entry (01 R32, R33). -/
def gUnits (e : Entry) (nodes : Nat) : List Nat :=
  match e.map with
  | [] => List.range (ceilDiv (prodL e.space) (max 1 (ceilDiv (prodL e.space) (nodes * 224))))
  | m => ((m.filter (fun x => decide (0 < x.count))).map (fun x => x.g)).eraseDups

/-- Threads in some ranges. -/
def rangesLen (rs : List (Nat × Nat)) : Nat := rs.foldl (fun a r => a + (r.2 - r.1)) 0

/-- The thread that global unit `g` runs before thread `t`, of its threads in ascending order (05 R124). -/
def prevThread (e : Entry) (nodes g t : Nat) : Option Nat :=
  (gRanges e nodes g).foldl (fun a r => if t ≤ r.1 then a else if t ≤ r.2 then some (t - 1) else some (r.2 - 1)) none

/-- How many threads of global unit `g` lie from thread `lo` up to, not including, thread `hi`. -/
def threadsIn (e : Entry) (nodes g lo hi : Nat) : Nat :=
  ((gRanges e nodes g).map (fun r => min r.2 hi - max r.1 lo)).foldl (fun a b => a + b) 0

/-- The logical units of this node that run at least one thread of an entry (01 R32, R33). -/
def State.unitsOf (s : State) (e : Entry) : List Nat :=
  let total := prodL e.space
  let base := s.nodeIndex * 224
  match e.map with
  | [] =>
    let q := max 1 (ceilDiv total (s.nodes * 224))
    (List.range 224).filter (fun u => decide ((base + u) * q < total))
  | m => (List.range 224).filter (fun u => m.any (fun x => decide (x.g = base + u) && decide (0 < x.count)))

/-- How many threads of an entry logical unit `u` runs (01 R32, R33). -/
def State.threadsOf (s : State) (e : Entry) (u : Nat) : Nat :=
  let g := s.nodeIndex * 224 + u
  let total := prodL e.space
  match e.map with
  | [] => let q := max 1 (ceilDiv total (s.nodes * 224)); min ((g + 1) * q) total - min (g * q) total
  | m => (m.filter (fun x => decide (x.g = g))).foldl (fun a x => a + x.count) 0

/-! ### Positions in a plane (02 R46, R47; 05 R121, R123) -/

/-- The loop indices of an iteration index (05 R123). -/
def loopIdx : List Nat → Nat → List Nat
  | [], _ => []
  | e :: es, i => i % max e 1 :: loopIdx es (i / max e 1)

/-- The elements and the bytes of the smallest group of whole bytes of a plane (02 R46, R47). -/
def byteGroup (f : Fmt) : Nat × Nat :=
  match f with
  | .dove4 | .int4 | .dove4b16 => (2, 1)
  | .fawn6 => (4, 3)
  | _ => (1, Fmt.bits f / 8)

/-- The element at offset `o` of the plane at `base`, as the byte address of its group and its number in the group; the
offset may be negative (05 R121). -/
def planeBase (f : Fmt) (base : Nat) (o : Int) : Nat × Nat :=
  let g := byteGroup f
  (((base : Int) + o / (g.1 : Int) * (g.2 : Int)).toNat, (o % (g.1 : Int)).toNat)

/-- The byte address of the scale code of the element at offset `o` (05 R121). -/
def scaleByte (f : Fmt) (sbase : Nat) (o : Int) : Nat := ((sbase : Int) + o / (((Fmt.block f).getD 1 : Nat) : Int)).toNat

/-- The first bit of element `i` of the plane at `base` in a tile store, and its bits. -/
def elemBits (f : Fmt) (base i : Nat) : Nat × Nat :=
  (8 * ((base + (elemPlace f i).1) % tileSpan) + (elemPlace f i).2, Fmt.bits f)

/-! ### Product operands (04 R94 to R97, R549) -/

/-- A product operand with its token's format and extents, and the tile-store addresses of its planes. -/
structure OpView where
  fmt : Fmt
  layout : Nat
  pitch : Nat
  ext0 : Nat
  base : Nat
  sbase : Nat
deriving DecidableEq, Repr, Inhabited

/-- Where an operand stands in unit `u`: a unit-home token's planes lie relative to the token's address there, in the slot
in use; other homes' landing areas lie at the descriptor's addresses (15 R553, 07 R188). -/
def State.opView (s : State) (u : Nat) (d : OperandDesc) (write : Bool) : OpView :=
  let t := s.tokDecl d.tok
  let off := if t.home = 0 then s.unitBase d.tok u (s.slotOf d.tok write) else 0
  { fmt := (Fmt.ofNum t.fmt).getD .fp32, layout := d.layout, pitch := d.pitch, ext0 := t.ext.getD 0 1
    base := off + d.base, sbase := off + d.sbase }

/-- The position of stored element (p, q) in its layout, in elements (04 R94). -/
def layoutPos (layout kp pitch p q : Nat) : Nat :=
  match layout with
  | 0 => ((p / 32) * kp + q) * 32 + p % 32
  | 1 => ((q / 64) * kp + p) * 64 + q % 64
  | _ => p * pitch + q

/-- The position of stored element (p, q) in the element plane (04 R94, R95). -/
def OpView.pos (v : OpView) (p q : Nat) : Nat := layoutPos v.layout (alignUp v.ext0 32) v.pitch p q

/-- The position of the scale of stored element (p, q) in the scale plane (04 R96; log 26). -/
def OpView.scalePos (v : OpView) (p q : Nat) : Nat :=
  let b := (Fmt.block v.fmt).getD 1
  let kp := alignUp (ceilDiv v.ext0 b) 32
  match v.layout with
  | 1 => layoutPos 1 kp 0 (p / b) q
  | l => layoutPos l kp (ceilDiv v.pitch b) p (q / b)

/-- The decoded value of stored element (p, q) (04 R549, 02 R49). -/
def State.opElem (s : State) (u : Nat) (v : OpView) (p q : Nat) : DVal :=
  let scale := if Fmt.isBlock v.fmt then ((s.tileRd u (v.sbase + v.scalePos p q) 1).headD 0).toNat else 0
  decodeVal v.fmt (s.tileElem u v.fmt v.base (v.pos p q)) scale 0

/-- Element (i, k) of an A operand, or (k, j) of a B operand: transposed use swaps the stored indices (04 R549). -/
def State.opVal (s : State) (u : Nat) (d : OperandDesc) (v : OpView) (a b : Nat) : DVal :=
  if d.trans then s.opElem u v b a else s.opElem u v a b

/-- Whether an operand's block dimension lies along the product's k (03 R74, 04 R96). -/
def blockedAlongK (isA : Bool) (d : OperandDesc) : Bool :=
  -- stored block index: q for LA and LR, p for LB
  let blockIsQ := decide (d.layout ≠ 1)
  let kIsQ := if isA then !d.trans else d.trans
  blockIsQ == kIsQ

/-- Whether an operand enters through the transpose feed (04 R97). -/
def turned (isA : Bool) (d : OperandDesc) : Bool := !(decide (d.layout = if isA then 0 else 1) && !d.trans)

/-- Whether a product has a turned operand (04 R97, R100). -/
def prodTurned (d : ProdDesc) : Bool := turned true d.a || turned false d.b

/-- The format an operand enters the arrays with: inside a Tint group FP16 and BF16 become FP32 (04 R110). -/
def tintFmt (tint : Bool) (f : Fmt) : Fmt := if tint && (f == .fp16 || f == .bf16) then .fp32 else f

/-- The reference-order row of a product (03 R72 to R74, 04 R110). -/
def prodRow (d : ProdDesc) (fa fb : Fmt) : Option DotRow :=
  dotRow (tintFmt d.tint fa) (tintFmt d.tint fb) (blockedAlongK true d.a && Fmt.isBlock fa)
    (blockedAlongK false d.b && Fmt.isBlock fb)

/-- Cycles per k position times 16 (04 R92). -/
def cycles16 (row : DotRow) : Nat :=
  match row with
  | .chain64 => 256
  | .integer b => if b = 64 then 4 else 8
  | .float _ f => if f = 64 then 64 else if f = 40 then 16 else if f = 32 then 8 else 4

/-- k positions streamed: padded to 32 when an operand is turned (04 R104). -/
def prodKStream (d : ProdDesc) : Nat := if prodTurned d then alignUp d.k 32 else d.k

/-- Cycles of one output tile's k stream, `c_tile` (04 R104). -/
def prodCTile (d : ProdDesc) (row : DotRow) : Nat := ceilDiv (prodKStream d * cycles16 row) 16

/-- Bytes of 2,048 output elements, scales counted (04 R104). -/
def outBytes2048 (f : Fmt) : Nat :=
  match f with
  | .pewter8b32 => 2048 * 33 / 32
  | .dove4b16 => 2048 * 9 / 16
  | f => 2048 * Fmt.bits f / 8

/-- The drain time `t_dr` (04 R104). -/
def tDrain (f : Fmt) : Nat := ceilDiv (outBytes2048 f) 128

/-- The output tiles of a product: rows and columns of tiles (04 R101). -/
def prodTiles (d : ProdDesc) : Nat × Nat := (ceilDiv d.m 32, ceilDiv d.n 64)

end Sys2Proof.Machine
end

