-- ==== Sys2Proof/Machine/Landing.lean ====
section
/-! DEFINITION. Prefetch streams and their landing areas: where the elements lie, what has landed, and what a consumer
still waits for (10 R279, R280, R282). -/

namespace Sys2Proof.Machine

/-- The landing area of a stream in the tile store: first and next byte (10 R279). -/
def landSpan (d : StreamDesc) : Nat × Nat :=
  (d.land, d.land + ceilDiv (prodL d.ext * Fmt.bits ((Fmt.ofNum d.fmt).getD .fp32)) 8)

/-- Whether two landing areas share a byte. -/
def landsMeet (a b : StreamDesc) : Bool := overlaps (landSpan a).1 (landSpan a).2 (landSpan b).1 (landSpan b).2

/-- The stream references of an entry on this node: the unit of the node, and the reference (10 R279). -/
def State.streamsOf (s : State) (e : Nat) : List (Nat × StreamRef × StreamDesc) :=
  match s.job.img with
  | none => []
  | some i => (i.streams.filter (fun x => decide (x.1.entry = e) && decide (x.1.unit / 224 = s.nodeIndex))).map
      (fun x => (x.1.unit % 224, x.1, x.2))

/-- A stream slot of a tile. -/
def State.slot (s : State) (u k : Nat) : StreamSlot := Tab.get {} k (s.tile u).streams

/-- The state with a stream slot replaced. -/
def State.setSlot (s : State) (u k : Nat) (x : StreamSlot) : State :=
  s.setTile u { s.tile u with streams := Tab.set {} k x (s.tile u).streams }

/-- Whether a slot follows a stream reference's descriptor for its entry; the slot's copy holds the address of the version
in use. -/
def StreamSlot.follows (x : StreamSlot) (d : StreamDesc) (e : Nat) : Bool :=
  match x.desc with
  | some y => decide (y.entry = e) && decide ({ y with entry := 0, mbase := 0 } = { d with entry := 0, mbase := 0 })
  | none => false

/-- The 64 B lines that a byte range touches. -/
def linesOf (a n : Nat) : List Nat := rangeFrom (a / 64) (ceilDiv (a % 64 + n) 64) |>.map (fun l => 64 * l)

/-- The plane base and position of element `i` of a stream in memory (05 R121; 10 R279). -/
def streamPos (d : StreamDesc) (i : Nat) : Nat × Nat :=
  let f := (Fmt.ofNum d.fmt).getD .fp32
  let off := ((loopIdx d.ext i).zip d.str).foldl (fun (a : Int) x => a + (x.1 : Int) * x.2) 0
  planeBase f d.mbase off

/-- The byte address and length of element `i` of a stream in memory (05 R121, 10 R279). -/
def streamElem (d : StreamDesc) (i : Nat) : Nat × Nat :=
  let f := (Fmt.ofNum d.fmt).getD .fp32
  let (b, k) := streamPos d i
  (b + (elemPlace f k).1, elemSpan f k)

/-- Whether element `i` of a stream touches the line at an address. -/
def touches (d : StreamDesc) (i line : Nat) : Bool :=
  let x := streamElem d i
  overlaps x.1 (x.1 + x.2) line (line + 64)

/-- Whether the elements of a stream cover the line at an address whole. -/
def wholeLine (d : StreamDesc) (line : Nat) : Bool :=
  (List.range 64).all (fun b => (List.range (prodL d.ext)).any (fun i =>
    let e := streamElem d i
    decide (e.1 ≤ line + b) && decide (line + b < e.1 + e.2)))

/-- Whether every line that element `i` of a stream touches satisfies a test. -/
def elemLines (d : StreamDesc) (i : Nat) (ok : Nat → Bool) : Bool :=
  let x := streamElem d i
  (linesOf x.1 x.2).all ok

/-- Whether a line of a stream is done, by the indices done. -/
def StreamSlot.lineDone (x : StreamSlot) (idxs : List Nat) (line : Nat) : Bool :=
  idxs.any (fun j => decide (x.lines[j]? = some line))

/-- The landed prefix: the largest iota below which every element has landed (10 R280). -/
def StreamSlot.prefix (x : StreamSlot) : Nat :=
  match x.desc with
  | none => 0
  | some d => ((List.range (prodL d.ext)).takeWhile (fun i => elemLines d i (x.lineDone x.landed))).length

/-- The bits of landing areas of unit `u` that streams of entry `e` have not landed: from the landed prefix to the end of
the area. A cancelled stream lands nothing more, so nobody waits for it (10 R280, R282). -/
def State.unlanded (s : State) (u e : Nat) : List (Nat × Nat) :=
  (s.streamsOf e).filterMap (fun r =>
    let d := r.2.2
    let x := s.slot u r.2.1.slot
    let n := if x.follows d e then x.prefix else 0
    if decide (r.1 = u) && !d.write && decide (n < prodL d.ext) && !(s.tile u).cancelled.contains (e, r.2.1.slot) then
      let f := (Fmt.ofNum d.fmt).getD .fp32
      some ((elemBits f d.land n).1, 8 * (d.land + planeBytes f (prodL d.ext)))
    else none)

/-- Whether a range of bits, from the first one on, holds no bit that has yet to land. -/
def landedBits (un : List (Nat × Nat)) (x : Nat × Nat) : Bool := un.all (fun r => !overlaps x.1 (x.1 + x.2) r.1 r.2)

/-- Whether bytes of a tile store, from `a` on, hold none that has yet to land. -/
def landedBytes (un : List (Nat × Nat)) (a n : Nat) : Bool := landedBits un (8 * (a % tileSpan), 8 * n)

end Sys2Proof.Machine
end

