-- ==== Sys2Proof/Machine/Arrays.lean ====
section
/-! DEFINITION. The Ochre and Sienna arrays: one output tile of a product (chapter 04), and the Swatch recompute of a
sampled tile (07 R192 to R197). -/

namespace Sys2Proof.Machine

/-! ### One output element -/

/-- The accumulator of output element (i, j) after its last block, and what the reference order raised (03 R76, 04
R110). -/
def prodAcc (s : State) (u : Nat) (d : ProdDesc) (row : DotRow) (i j : Nat) : Nat × Ev :=
  let va := s.opView u d.a false
  let vb := s.opView u d.b false
  let ab := (List.range d.k).map (fun k => (s.opVal u d.a va i k, s.opVal u d.b vb k j))
  let c := d.c.map (fun c => let v := s.opView u c false; (v.fmt, s.tileElem u v.fmt v.base (v.pos i j)))
  let (a0, fl) := initAcc row c
  let (a, ev) := refDot row a0 ab
  (a, ev.join { fl := fl })

/-- The output token's linear index of output element (i, j) (04 R549, 02 R60). -/
def outIndex (v : OpView) (i j : Nat) : Nat := if v.layout = 1 then i + j * v.ext0 else j + i * v.ext0

/-- An accumulator as a value (03 R87). -/
def accVal (row : DotRow) (a : Nat) : DVal := decodeVal (DotRow.acc row) a 0 0

/-- The output code of an accumulator: unchanged in the accumulator format, else one conversion (03 R87). An FX64 or FX192
output takes the binary point 0: no descriptor of a product holds one (DESIGN CHOICE, log 56). -/
def outCode (s : State) (d : ProdDesc) (row : DotRow) (f : Fmt) (e a : Nat) : Nat × Ev :=
  if f = DotRow.acc row then
    (a, { nonfin := (Fmt.fp f).isSome && !(accVal row a).isFinite })
  else convert f d.cvt (s.srOf d.out.tok e) 0 (accVal row a)

/-! ### One output tile -/

/-- The output positions of tile (ti, tj) inside the product's extents, row by row (04 R91, R101). -/
def tilePositions (d : ProdDesc) (ti tj : Nat) : List (Nat × Nat) :=
  (rangeFrom (ti * 32) (min 32 (d.m - ti * 32))).flatMap (fun i =>
    (rangeFrom (tj * 64) (min 64 (d.n - tj * 64))).map (fun j => (i, j)))

/-- The accumulators of a tile with the events of their sums, in the order of `tilePositions`. -/
def tileAccs (s : State) (u : Nat) (d : ProdDesc) (row : DotRow) (ti tj : Nat) : List ((Nat × Nat) × Nat) × Ev :=
  let l := (tilePositions d ti tj).map (fun p => (p, prodAcc s u d row p.1 p.2))
  (l.map (fun x => (x.1, x.2.1)), Ev.joinAll (l.map (fun x => x.2.2)))

/-- A drained element written to the output plane. -/
def drainElem (s : State) (u : Nat) (d : ProdDesc) (row : DotRow) (v : OpView) (m : Mem × Ev)
    (x : (Nat × Nat) × Nat) : Mem × Ev :=
  let (c, ev) := outCode s d row v.fmt (outIndex v x.1.1 x.1.2) x.2
  (tileElemWr m.1 u v.fmt v.base (v.pos x.1.1 x.1.2) c, m.2.join ev)

/-- The block number along the block dimension and the other index of an output position (04 R96). -/
def blockOf (v : OpView) (p : Nat × Nat) : Nat × Nat :=
  let b := (Fmt.block v.fmt).getD 1
  if v.layout = 1 then (p.1 / b, p.2) else (p.2 / b, p.1)

/-- The blocks that a list of output positions touches, each once, in order. -/
def blocksOf (v : OpView) (ps : List (Nat × Nat)) : List (Nat × Nat) :=
  ps.foldl (fun a p => let k := blockOf v p; if a.contains k then a else a ++ [k]) []

/-- One block of a block-scaled output encoded and written: its codes and its scale (02 R48, R62, R548). -/
def drainBlock (s : State) (u : Nat) (d : ProdDesc) (row : DotRow) (v : OpView) (accs : List ((Nat × Nat) × Nat))
    (m : Mem × Ev) (k : Nat × Nat) : Mem × Ev :=
  let xs := accs.filter (fun x => decide (blockOf v x.1 = k))
  let enc := encodeBlock v.fmt d.cvt
    (xs.map (fun x => (accVal row x.2, s.srOf d.out.tok (outIndex v x.1.1 x.1.2))))
  let codes := xs.zip enc.codes
  let m1 := codes.foldl (fun m x => tileElemWr m u v.fmt v.base (v.pos x.1.1.1 x.1.1.2) x.2) m.1
  let sp := match xs with | x :: _ => v.scalePos x.1.1 x.1.2 | [] => 0
  (m1.write (tileAddr u (v.sbase + sp)) (BitVec.ofNat 8 enc.scale), m.2.join enc.ev)

/-- The extents that an output's layout pads its m rows and n columns to: whole panels in LA and LB, whole blocks in LR
(02 R48; 04 R95). -/
def padExt (v : OpView) (m n : Nat) : Nat × Nat :=
  match v.layout with
  | 0 => (alignUp m 32, alignUp n 32)
  | 1 => (alignUp m 32, alignUp n 64)
  | _ => (m, alignUp n ((Fmt.block v.fmt).getD 1))

/-- The padding positions of tile (ti, tj); the last row of a Fawn6 token in LR is padded to a whole group (02 R47, R48; 04
R95). -/
def padPositions (v : OpView) (d : ProdDesc) (ti tj : Nat) : List (Nat × Nat) :=
  let e := padExt v d.m d.n
  let ps := (rangeFrom (ti * 32) (min 32 (e.1 - ti * 32))).flatMap (fun i =>
    (rangeFrom (tj * 64) (min 64 (e.2 - tj * 64))).map (fun j => (i, j)))
  let last := if v.fmt = .fawn6 ∧ v.layout = 2 ∧ ti = (d.m - 1) / 32 ∧ tj = (d.n - 1) / 64 then
    (rangeFrom d.n (alignUp d.n 4 - d.n)).map (fun j => (d.m - 1, j)) else []
  ps.filter (fun p => decide (d.m ≤ p.1) || decide (d.n ≤ p.2)) ++ last

/-- The padding positions of tile (ti, tj) in the scale plane of an LA or LB output, whose block dimension counts blocks
there (04 R95, R96). -/
def padScales (v : OpView) (d : ProdDesc) (ti tj : Nat) : List Nat :=
  let b := (Fmt.block v.fmt).getD 1
  let kp := alignUp (ceilDiv v.ext0 b) 32
  match v.layout with
  | 0 =>
    let n := ceilDiv d.n b
    let hi := if tj + 1 = (prodTiles d).2 then kp else (tj + 1) * 64 / b
    ((rangeFrom (ti * 32) 32).flatMap (fun i => (rangeFrom (tj * 64 / b) (hi - tj * 64 / b)).map (fun k => (i, k)))).filterMap
      (fun p => if d.m ≤ p.1 ∨ n ≤ p.2 then some (layoutPos 0 kp 0 p.1 p.2) else none)
  | 1 =>
    let m := ceilDiv d.m b
    let hi := if ti + 1 = (prodTiles d).1 then kp else (ti + 1) * 32 / b
    ((rangeFrom (ti * 32 / b) (hi - ti * 32 / b)).flatMap (fun k => (rangeFrom (tj * 64) 64).map (fun j => (k, j)))).filterMap
      (fun p => if m ≤ p.1 ∨ d.n ≤ p.2 then some (layoutPos 1 kp 0 p.1 p.2) else none)
  | _ => []

/-- The padding of a tile written: zero codes, and zero scale codes where a block is padding only (02 R47, R48; 04 R95). -/
def drainPad (u : Nat) (d : ProdDesc) (v : OpView) (ti tj : Nat) (m : Mem) : Mem :=
  let m1 := (padPositions v d ti tj).foldl (fun m p => tileElemWr m u v.fmt v.base (v.pos p.1 p.2) 0) m
  if Fmt.isBlock v.fmt then (padScales v d ti tj).foldl (fun m k => m.write (tileAddr u (v.sbase + k)) 0) m1 else m1

/-- A tile drained to the output token, with the layout's padding (03 R87; 04 R95, R107). -/
def drainTile (s : State) (u : Nat) (d : ProdDesc) (row : DotRow) (ti tj : Nat) (accs : List ((Nat × Nat) × Nat)) :
    Mem × Ev :=
  let v := s.opView u d.out true
  let out := if Fmt.isBlock v.fmt then
      (blocksOf v (accs.map (fun x => x.1))).foldl (drainBlock s u d row v accs) (s.tileMem u, {})
    else accs.foldl (drainElem s u d row v) (s.tileMem u, {})
  (drainPad u d v ti tj out.1, out.2)

/-- The 2,048 accumulators of an array after a tile: idle edge cells hold 0 (04 R91). -/
def cellsOf (accs : List ((Nat × Nat) × Nat)) : List Nat :=
  accs.foldl (fun l x => setAt l (x.1.1 % 32 * 64 + x.1.2 % 64) x.2) (List.replicate 2048 0)

/-- The bank that accumulated takes the tile's accumulators, and the banks swap (04 R91, R107). -/
def ArrSt.swap (a : ArrSt) (cells : List Nat) : ArrSt :=
  if a.bank then { a with bank := false, acc1 := cells } else { a with bank := true, acc0 := cells }

/-- The tile with one array's banks swapped: 0 Ochre, 1 Sienna 0, 2 Sienna 1. -/
def Tile.swapArr (t : Tile) (arr : Nat) (cells : List Nat) : Tile :=
  match arr with
  | 0 => { t with ochre := t.ochre.swap cells }
  | 1 => { t with sienna0 := t.sienna0.swap cells }
  | _ => { t with sienna1 := t.sienna1.swap cells }

/-- The busy counter of an array (04 R115). -/
def arrBusyKey (arr u : Nat) : Nat :=
  match arr with
  | 0 => kOchreBusy u
  | 1 => kSienna0Busy u
  | _ => kSienna1Busy u

/-! ### Swatch sampling (07 R192) -/

/-- `sw_n`, or none while Swatch is off (07 R192, R202). -/
def State.swN (s : State) : Option Nat :=
  let c := s.kvNat kSwCtl
  if bitOf c 8 then some (2 ^ bits c 0 5) else none

/-- Whether a row of the reference order is sampled (07 R192). -/
def DotRow.sampled : DotRow → Bool
  | .float _ _ => true
  | _ => false

/-- Whether tile (ti, tj) of a product is sampled in this step (07 R192). -/
def State.swSampled (s : State) (d : ProdDesc) (row : DotRow) (ti tj : Nat) : Bool :=
  match s.swN with
  | none => false
  | some n =>
    let t := ti * ceilDiv d.n 64 + tj
    let o := s.srOf (d.out.tok ^^^ 0x53570000) 0 % n
    DotRow.sampled row && decide ((t + o) % n = 0)

/-- Counters of one finished output tile (04 R115; log 27 for fractional padding). -/
def State.countTile (s : State) (u : Nat) (d : ProdDesc) (row : DotRow) : State :=
  let c := prodCTile d row
  let pad := if d.arr = 0 then 0 else c - ceilDiv (d.k * cycles16 row) 16
  ((s.count (arrBusyKey d.arr u) c).count (kPadCc u) pad).count (kTilesDone u) 1

/-- An output tile of a product finishes: its accumulators by the reference order, the bank swap, the converted drain,
the Swatch drain when the tile is sampled, the counters and events (04 R91, R101, R107, R115). -/
def finishTile (s : State) (u entry ti tj : Nat) (d : ProdDesc) (row : DotRow) : State :=
  let (accs, ev) := tileAccs s u d row ti tj
  let (m, ev') := drainTile s u d row ti tj accs
  let t := (s.tile u).swapArr d.arr (cellsOf accs)
  let t1 := { t with u := t.u.raise (s.declOf entry) (ev.join ev'), work := (entry, tj + (prodTiles d).2 * ti) :: t.work }
  let s1 := (s.setTile u t1).setTileMem u m
  let s2 := s1.countTile u d row
  if s.swSampled d row ti tj then
    { s2 with job := { s2.job with
        swBufs := s2.job.swBufs ++ [{ unit := u, entry := entry, ti := ti, tj := tj, acc := cellsOf accs : SwTile }]
        swTiles := s2.job.swTiles + 1 } }
  else s2

/-- The product of an entry and its row, when the entry is a product of an allowed pairing (03 R72). -/
def State.prodOf (s : State) (entry : Nat) : Option (ProdDesc × DotRow) :=
  match (s.entryOf entry).kind with
  | .product d =>
    let fa := (Fmt.ofNum (s.tokDecl d.a.tok).fmt).getD .fx192
    let fb := (Fmt.ofNum (s.tokDecl d.b.tok).fmt).getD .fx192
    (prodRow d fa fb).map (fun r => (d, r))
  | _ => none

/-- An uncorrectable error in an operand read: the array's product stops, and the step is contained (04 R103, 20
R533). -/
def stopProduct (s : State) (u entry arr : Nat) : State :=
  let s1 := s.setTile u { s.tile u with stopped := (entry, arr) :: (s.tile u).stopped }
  s1.contained { sub := 1, inst := u, opId := (s.entryOf entry).opId, cause := Config.faultCause 1 }

/-- The bits that stored element (p, q) of an operand takes in the tile store, and those of its scale (04 R94, R96). -/
def OpView.bitsAt (v : OpView) (p q : Nat) : List (Nat × Nat) :=
  elemBits v.fmt v.base (v.pos p q) ::
    (if Fmt.isBlock v.fmt then [(8 * ((v.sbase + v.scalePos p q) % tileSpan), 8)] else [])

/-- Whether no operand element that tile (ti, tj) reads in the unit takes a bit of some ranges. -/
def State.tileAvoids (s : State) (u : Nat) (d : ProdDesc) (ti tj : Nat) (rs : List (Nat × Nat)) : Bool :=
  match rs with
  | [] => true
  | un =>
    let ps := tilePositions d ti tj
    let here (o : OperandDesc) (x : Nat × Nat) : Bool := ((s.opView u o false).bitsAt x.1 x.2).all (landedBits un)
    let at' (o : OperandDesc) (a b : Nat) : Bool := here o (if o.trans then (b, a) else (a, b))
    (ps.map (fun p => p.1)).eraseDups.all (fun i => (List.range d.k).all (fun k => at' d.a i k)) &&
      (ps.map (fun p => p.2)).eraseDups.all (fun j => (List.range d.k).all (fun k => at' d.b k j)) &&
      (match d.c with | some c => ps.all (here c) | none => true)

/-- `PRODUCT_OUTPUT_TILE`: array of unit `unit` finishes tile (ti, tj) of entry `entry`. It has no effect while the entry
does not run, for a tile the unit does not own or has finished, after the product stopped there, and while a stream has not
landed what the tile reads; it stops at an uncorrectable error, met here or landed (04 R101, R103; 10 R280, R286). -/
def doProductTile (s : State) (unit entry ti tj : Nat) (ue : Bool) : State :=
  match s.prodOf entry with
  | none => s
  | some (d, row) =>
    let (tm, tn) := prodTiles d
    if s.running entry && decide (ti < tm) && decide (tj < tn) && s.owns (s.entryOf entry) unit (tj + tn * ti) &&
        !(s.tile unit).stopped.contains (entry, d.arr) && !(s.tile unit).work.contains (entry, tj + tn * ti) &&
        s.tileAvoids unit d ti tj (s.unlanded unit entry) then
      if ue || !s.tileAvoids unit d ti tj (s.tile unit).bad then stopProduct s unit entry d.arr else finishTile s unit entry ti tj d row
    else s

/-- `PRODUCT_OUTPUT_TILE` (04 R104). -/
def execProductOutputTile (unit entry ti tj : Nat) (ue : Bool) (s : State) : Host.Outcome State Fault Refusal :=
  .next (doProductTile s unit entry ti tj ue)

/-! ### Swatch recompute (07 R193, R194, R197) -/

/-- The wider format of the reference: FP32 for the short rows, FP64 for the FP32 row (07 R193). -/
def swWide (row : DotRow) : FpFmt :=
  match row with
  | .float _ 64 => f64
  | _ => f32

/-- A value in the wider format's code (02 R51). -/
def toWide (F : FpFmt) (v : DVal) : Nat := (F.result .tiesToEven v).1

/-- The reference value of output element (i, j): a fused chain in the wider format in ascending k (07 R193). -/
def swRef (s : State) (u : Nat) (d : ProdDesc) (row : DotRow) (i j : Nat) : DVal :=
  let F := swWide row
  let va := s.opView u d.a false
  let vb := s.opView u d.b false
  let c := d.c.map (fun c => let v := s.opView u c false; (v.fmt, s.tileElem u v.fmt v.base (v.pos i j)))
  let a0 := toWide F (accVal row (initAcc row c).1)
  let r := (List.range d.k).foldl (fun a k =>
    (fmaVal F .tiesToEven true (F.decode (toWide F (s.opVal u d.a va i k)))
      (F.decode (toWide F (s.opVal u d.b vb k j))) (F.decode a)).1) a0
  F.decode r

/-- The bin of a finite distance d = |a - ref| / 2^(max(floor(log2 |ref|), -126) - 23) (07 R194). -/
def swBinFinite (a r : DVal) : Nat :=
  let q : Int := match r with
    | .fin _ m e => max (flog2 m e) (-126) - 23
    | _ => -149
  let x := a.dy.sub r.dy
  let d : Dy := { m := (x.m.natAbs : Int), e := x.e - q }
  if d.m = 0 then 0
  else match (rangeFrom 1 14).find? (fun (k : Nat) => !(({ m := 1, e := (k : Int) - 1 } : Dy).lt d)) with
    | some k => k
    | none => 15

/-- The bin of one element (07 R194). -/
def swBinOf (a r : DVal) : Nat :=
  if a.isNan && r.isNan then 0
  else if a.isInf && r.isInf && a.sign == r.sign then 0
  else if a.isFinite && r.isFinite then swBinFinite a r
  else 15

/-- One element's bin counted in the step's bins, which stop at 2^48 - 1 (07 R194, R177). -/
def binAdd (l : List Nat) (k : Nat) : List Nat := modAt (fun v => min (v + 1) (2 ^ 48 - 1)) l k

/-- `SWATCH_RECOMPUTE`: the lanes of the unit recompute a sampled tile whose accumulators wait in a Swatch buffer, add its
distances to the bins, and free the buffer. Nothing else changes (07 R193 to R197). -/
def doSwatch (s : State) (unit entry ti tj : Nat) : State :=
  match s.job.swBufs.find? (fun b => decide (b.unit = unit ∧ b.entry = entry ∧ b.ti = ti ∧ b.tj = tj)), s.prodOf entry with
  | some b, some (d, row) =>
    let bins := (tilePositions d ti tj).foldl (fun l p =>
      binAdd l (swBinOf (f32.decode (b.acc.getD (p.1 % 32 * 64 + p.2 % 64) 0)) (swRef s unit d row p.1 p.2))) s.job.swBins
    { s with job := { s.job with
        swBins := bins
        swBufs := s.job.swBufs.filter (fun x => !decide (x.unit = unit ∧ x.entry = entry ∧ x.ti = ti ∧ x.tj = tj)) } }
  | _, _ => s

/-- `SWATCH_RECOMPUTE` (07 R197). -/
def execSwatchRecompute (unit entry ti tj : Nat) (s : State) : Host.Outcome State Fault Refusal :=
  .next (doSwatch s unit entry ti tj)

end Sys2Proof.Machine
end

