-- ==== Sys2Proof/Machine/Layers.lean ====
section
/-! DEFINITION. The order and the arrays of an image's products: dependencies between entries, the intervals of a layer's
and of a Tint group's micro-batches, and the loader's placement under `arr_ctl` (01 R23; 04 R100, R108 to R114). -/

namespace Sys2Proof.Machine

/-- `passthrough` of `arr_ctl` (04 R114). -/
def State.passthrough (s : State) : Bool := bitOf (s.kvNat kArrCtl) 1

/-- `overlap` of `arr_ctl` (04 R114). -/
def State.overlapBit (s : State) : Bool := bitOf (s.kvNat kArrCtl) 0

/-! ### Dependencies (01 R23) -/

/-- Entries that depend on others: (from, to) for every token that one writes and another reads, versioned tokens and
constants apart (01 R23). -/
def Image.edges (i : Image) : List (Nat × Nat) :=
  i.parts.entries.zipIdx.flatMap (fun e =>
    e.1.reads.filterMap (fun t =>
      let d := i.tok t
      if bitOf d.flags 0 || bitOf d.flags 5 then none else some (d.producer, e.2)))

/-- The entries left when those without a predecessor among them are taken out, over and over. -/
def peel (edges : List (Nat × Nat)) : Nat → List Nat → List Nat
  | 0, l => l
  | n + 1, l => peel edges n (l.filter (fun e => edges.any (fun x => decide (x.2 = e) && l.contains x.1)))

/-! ### Micro-batches (04 R108, R111, R112) -/

/-- A micro-batch's entries: its forward products, and those that run in the interval of its backward products. -/
abbrev Pass := List Nat × List Nat

/-- A layer's micro-batches (04 R108). -/
def layerPasses (l : List MicroBatch) : List Pass := l.map (fun b => ([b.fwd], [b.dX, b.dW]))

/-- A Tint group's micro-batches: its products follow R108 (04 R111, R112). -/
def tintPasses (g : Tint) : List Pass := g.batches.map (fun b => ([b.p0, b.h, b.y], [b.d0, b.g, b.dv, b.du, b.dx]))

/-- The micro-batches of an image, one list for each layer or Tint group (04 R108, R112). -/
def Image.passes (i : Image) : List (List Pass) := i.parts.layers.map layerPasses ++ i.parts.tints.map tintPasses

/-- The intervals of some micro-batches, in order: with `overlap` 1 the forward products of one beside the backward products
of the one before, else each set alone (04 R108). -/
def intervals (lap : Bool) (ps : List Pass) : List (List Nat) :=
  if lap then
    (List.range (ps.length + 1)).map (fun k =>
      (match ps[k]? with | some p => p.1 | none => []) ++
        (match k with | 0 => [] | j + 1 => match ps[j]? with | some p => p.2 | none => []))
  else ps.flatMap (fun p => [p.1, p.2])

/-- Every entry of an interval comes before every entry of the next one (04 R108). -/
def chainSets : List (List Nat) → List (Nat × Nat)
  | a :: b :: rest => a.flatMap (fun x => b.map (fun y => (x, y))) ++ chainSets (b :: rest)
  | _ => []

/-- The order that the intervals give the entries (04 R108). -/
def Image.laps (i : Image) (lap : Bool) : List (Nat × Nat) := i.passes.flatMap (fun ps => chainSets (intervals lap ps))

/-- The order of the micro-batches' products, where the tokens' own order admits it (04 R108; log 59). -/
def Image.order (i : Image) (lap : Bool) : List (Nat × Nat) :=
  let n := i.parts.entries.length
  let o := i.laps lap
  if (peel (i.edges ++ o) n (List.range n)).isEmpty then o else []

/-- Whether an entry is a product of a layer or of a Tint group: its start follows the intervals alone (04 R108). -/
def Image.inLayer (i : Image) (e : Nat) : Bool := i.passes.any (fun ps => ps.any (fun p => p.1.contains e || p.2.contains e))

/-- Whether an entry is a layer's weight-gradient product (04 R112). -/
def Image.isWeightGrad (i : Image) (e : Nat) : Bool := i.parts.layers.any (fun l => l.any (fun b => decide (b.dW = e)))

/-- The adapter products that Sienna 1 runs in the interval of a micro-batch (04 R111). -/
def TintBatch.sienna1 (b : TintBatch) : List Nat := [b.g, b.dv, b.du, b.dx]

/-- The micro-batches of an image's Tint groups. -/
def Image.batches (i : Image) : List TintBatch := i.parts.tints.flatMap (fun g => g.batches)

/-- Whether an entry is an adapter product of a Tint group: its FP16 and BF16 operands enter as FP32 (04 R110, R111). -/
def Image.isAdapter (i : Image) (e : Nat) : Bool :=
  i.batches.any (fun b => [b.h, b.y, b.g, b.dv, b.du, b.dx].contains e)

/-! ### Arrays (04 R100, R108, R111) -/

/-- The array that a role gives an entry: 0 Ochre, 1 Sienna 0, 2 Sienna 1 (04 R108, R111). -/
def Image.roleOf (i : Image) (e : Nat) : Option Nat :=
  if i.batches.any (fun b => [b.p0, b.h, b.y].contains e) then some 0
  else if i.batches.any (fun b => decide (b.d0 = e)) then some 1
  else if i.batches.any (fun b => (TintBatch.sienna1 b).contains e) then some 2
  else if i.parts.layers.any (fun l => l.any (fun b => decide (b.fwd = e))) then some 0
  else if i.parts.layers.any (fun l => l.any (fun b => decide (b.dX = e))) then some 1
  else if i.isWeightGrad e then some 2
  else none

/-- The array of a product: a turned one never runs on Ochre, and an untransposed one on a Sienna array only with
`passthrough` 1. Where neither decides, the product's role or else the schedule does (04 R100; log 59). -/
def Image.arrayOf (i : Image) (pass : Bool) (e : Nat) (d : ProdDesc) : Nat :=
  let want := (i.roleOf e).getD d.arr
  if prodTurned d then (if want = 0 then 1 else want) else if pass then want else 0

/-- The image with every product on the array that the loader gives it at `BIND` (04 R100, R114). -/
def Image.placeArrays (i : Image) (pass : Bool) : Image :=
  let es := i.parts.entries.zipIdx.map (fun x => match x.1.kind with
    | .product d => { x.1 with kind := .product { d with arr := i.arrayOf pass x.2 d } }
    | _ => x.1)
  { i with parts := { i.parts with entries := es } }

/-! ### The start of an entry (04 R108, R112) -/

/-- Whether a Tint group's adapter products of one micro-batch hold Sienna 1: some have started, and some have not ended.
`started` and `ended` speak of entries (04 R112). -/
def TintBatch.holds (b : TintBatch) (started ended : Nat → Bool) : Bool :=
  (TintBatch.sienna1 b).any started && !(TintBatch.sienna1 b).all ended

/-- Whether the micro-batches let an entry start: what the intervals put before it has ended, and a weight-gradient product
waits while adapter products hold Sienna 1 (04 R108, R112). -/
def Image.turnOf (i : Image) (lap : Bool) (started ended : Nat → Bool) (e : Nat) : Bool :=
  (i.order lap).all (fun x => decide (x.2 ≠ e) || ended x.1) &&
    !(i.isWeightGrad e && i.batches.any (fun b => TintBatch.holds b started ended))

end Sys2Proof.Machine
end

