-- ==== Sys2Proof/Machine/Hue.lean ====
section
/-! DEFINITION. The Hue map: regions of the device physical address, channels, token placement addresses, the reserved
areas, and memory errors (10 R284 to R290; 14 R424; 15 R434, R553). -/

namespace Sys2Proof.Machine

/-- One GiB. -/
abbrev gib : Nat := 1073741824

/-- D of R287: `hue_die_gib`, at most 64. -/
def State.hueD (s : State) : Nat := min 64 (s.kvNat kHueDieGib)

/-- P of R287: the usable capacity of one LPDDR5X package in GiB, 15/16 of its density (10 R285, R309). -/
def State.hueP (s : State) : Nat := s.kvNat kLpGib * 15 / 16

/-- Size of the die-interleaved region (10 R287). -/
def State.dieSize (s : State) : Nat := gib * (8 * s.hueD)

/-- Base of field f's field-interleaved region (10 R287). -/
def fieldBase (f : Nat) : Nat := 0x008000000000 + 0x002000000000 * f

/-- Size of a field-interleaved region (10 R287). -/
def State.fieldSize (s : State) : Nat := gib * (2 * (64 - s.hueD))

/-- Base of field f's capacity region (10 R287). -/
def capBase (f : Nat) : Nat := 0x010000000000 + 0x008000000000 * f

/-- Size of a capacity region (10 R287). -/
def State.capSize (s : State) : Nat := gib * (4 * s.hueP)

/-- 64 MiB. -/
abbrev mib64 : Nat := 67108864

/-- Base of the journal: the last 64 MiB of field 0's capacity region, which has 64 times 64 MiB for each GiB of a package
(10 R290). -/
def State.journalBase (s : State) : Nat := capBase 0 + mib64 * (64 * s.hueP - 1)

/-- End of field 0's capacity region. -/
def State.journalEnd (s : State) : Nat := capBase 0 + s.capSize

/-- Base of the image area: the 4 GiB directly below the journal (15 R434). -/
def State.imageBase (s : State) : Nat := capBase 0 + mib64 * (64 * s.hueP - 65)

/-- The Hue regions: an address's region with the field, and its offset there (10 R287). -/
inductive HueReg where
  | die (off : Nat)
  | field (f off : Nat)
  | cap (f off : Nat)
deriving DecidableEq, Repr, Inhabited

/-- The region a device physical address lies in; none when it is unmapped (10 R287). -/
def State.hueReg (s : State) (a : Nat) : Option HueReg :=
  if a < s.dieSize then some (.die a)
  else if 0x008000000000 ≤ a ∧ a < 0x010000000000 then
    let f := (a - 0x008000000000) / 0x002000000000
    let off := (a - 0x008000000000) % 0x002000000000
    if off < s.fieldSize then some (.field f off) else none
  else if 0x010000000000 ≤ a ∧ a < 0x030000000000 then
    let f := (a - 0x010000000000) / 0x008000000000
    let off := (a - 0x010000000000) % 0x008000000000
    if off < s.capSize then some (.cap f off) else none
  else none

/-- The channel and channel-local address of a device physical address: HBM c at c, LPDDR5X l at 256 + l (10 R288 to
R290). -/
def State.hueMap (s : State) (a : Nat) : Option (Nat × Nat) :=
  match s.hueReg a with
  | none => none
  | some (.die o) =>
    let t := o / 256
    some ((t ^^^ (t >>> 8) ^^^ (t >>> 16)) % 256, t / 256 * 256 + o % 256)
  | some (.field f o) =>
    let t := o / 256
    some (64 * f + (t ^^^ (t >>> 6) ^^^ (t >>> 12)) % 64, s.hueD * 33554432 + t / 64 * 256 + o % 256)
  | some (.cap f o) =>
    let t := o / 256
    some (256 + 16 * f + (t ^^^ (t >>> 4) ^^^ (t >>> 8)) % 16, t / 16 * 256 + o % 256)

/-- Bytes of a channel: 2 GiB of HBM, or a quarter of an LPDDR5X package (10 R284, R285). -/
def State.chanSize (s : State) (c : Nat) : Nat := if c < 256 then 2 * gib else s.hueP * gib / 4

/-- The device physical address of a channel-local address: the inverse of R288 to R290. -/
def State.chanAddr (s : State) (c ca : Nat) : Nat :=
  if c < 256 then
    if ca < s.hueD * 33554432 then
      let h := ca / 256
      (h * 256 + (c ^^^ h ^^^ (h >>> 8)) % 256) * 256 + ca % 256
    else
      let o := ca - s.hueD * 33554432
      let h := o / 256
      fieldBase (c / 64) + (h * 64 + (c % 64 ^^^ h ^^^ (h >>> 6)) % 64) * 256 + o % 256
  else
    let h := ca / 256
    capBase ((c - 256) / 16) + (h * 16 + ((c - 256) % 16 ^^^ h ^^^ (h >>> 4)) % 16) * 256 + ca % 256

/-- Whether every byte of a range is mapped (10 R287): a region holds both ends. -/
def State.mapped (s : State) (a n : Nat) : Bool :=
  decide (n = 0) || (match s.hueReg a, s.hueReg (a + n - 1) with
    | some (.die _), some (.die _) => true
    | some (.field f _), some (.field g _) => decide (f = g)
    | some (.cap f _), some (.cap g _) => decide (f = g)
    | _, _ => false)

/-- The field a channel belongs to (10 R284, R285). -/
def chanField (c : Nat) : Nat := if c < 256 then c / 64 else (c - 256) / 16

/-- The Pearl slice that caches a channel (10 R275). -/
def chanSlice (c : Nat) : Nat := if c < 256 then c / 4 else c - 256

/-- Device addresses of one slot of a placed token: one range per field for cluster and capacity homes (15 R553). -/
def Placed.ranges (p : Placed) (slot : Bool) : List (Nat × Nat) :=
  let a := if slot then p.addr1 else p.addr0
  match p.home with
  | 1 => (List.range 4).map (fun f => (fieldBase f + a, fieldBase f + a + p.bytes))
  | 2 => [(a, a + p.bytes)]
  | 3 => (List.range 4).map (fun f => (capBase f + a, capBase f + a + p.bytes))
  | _ => []

/-- The lowest device address of slot 0 of a token that lies in Hue, its copy in field 0 where it has four (15 R445). -/
def Placed.hueBase (p : Placed) : Nat := ((p.ranges false).headD (p.addr0, 0)).1

/-- Whether a byte range lies inside one of some ranges. -/
def within (a n : Nat) (rs : List (Nat × Nat)) : Bool := rs.any (fun r => decide (r.1 ≤ a) && decide (a + n ≤ r.2))

/-- The number under which the `verdict` token's placement is kept: no identifier of an image (07 R181; log 46). -/
abbrev verdictTok : Nat := 0x100000000

/-- Whether a byte range lies in a token bound to an entry; every entry reads the `verdict` token (06 R166, 07 R181). -/
def State.inTokens (s : State) (e a n : Nat) : Bool :=
  (verdictTok :: ((s.entryOf e).reads ++ (s.entryOf e).writes)).any (fun t =>
    within a n ((s.placed t).ranges false) || within a n ((s.placed t).ranges true))

/-- Whether a byte range meets any bound token (10 R306, 14 R422). -/
def State.meetsToken (s : State) (a n : Nat) : Bool :=
  match s.job.bound with
  | none => false
  | some b => b.placed.any (fun p =>
      (p.ranges false ++ p.ranges true).any (fun r => overlaps a (a + n) r.1 r.2))

/-- The CXL.mem window: base and end (14 R405, R430). -/
def State.window (s : State) : Nat × Nat := (s.kvNat kWinBase, s.kvNat kWinBase + s.kvNat kWinSize)

/-- An uncorrectable error met in memory: the line is marked poisoned and its channel counts it (10 R286). -/
def State.memUe (s : State) (a : Nat) : State :=
  let line := a / 64 * 64
  let s1 := { s with mem := { s.mem with poison := if s.mem.poison.contains line then s.mem.poison
                                                   else line :: s.mem.poison } }
  match s.hueMap line with
  | some (c, _) => s1.count (kUeCount c) 1
  | none => s1

/-- The window of R303 in cc. -/
abbrev ceWindow : Nat := 1048576

/-- A corrected error met in memory: the channel counts it, its tick is kept for R303, and it is a class 0 event (10 R286,
R303; 20 R531). -/
def State.memCe (s : State) (c : Nat) : State :=
  let x := s.chan c
  let ticks := s.now :: x.ceTicks.filter (fun t => decide (s.now < ceWindow + t))
  ((s.setChan c { x with ceTicks := ticks }).count (kCeCount c) 1).corrected

/-- The state with the poison marks cleared of lines that writes of some byte ranges, first and next byte, cover whole
(10 R286). -/
def State.clearPoison (s : State) (spans : List (Nat × Nat)) : State :=
  let whole (l : Nat) : Bool := (List.range 64).all (fun b =>
    spans.any (fun r => decide (r.1 ≤ l + b) && decide (l + b < r.2)))
  { s with mem := { s.mem with poison := s.mem.poison.filter (fun l => !whole l) } }

/-! ### Requests at the ports (10 R293, R294, R297) -/

/-- The requester indices of Umber engine 0, Indigo, a channel's generator, scrub and CXL.mem; a tile has its number, and
Umber engine f the one of engine 0 plus f (10 R303). -/
abbrev reqUmber : Nat := 224
abbrev reqIndigo : Nat := 228
abbrev reqTg : Nat := 229
abbrev reqScrub : Nat := 230
abbrev reqCxl : Nat := 231

/-- Whether a requester holds fewer than `pend_depth` parked requests at a port (10 R297). -/
def State.room (s : State) (p req : Nat) : Bool :=
  decide ((s.arb p).pend.countP (fun q => decide (q.req = req)) < s.kvNat kPendDepth)

/-- A request parked at its port with the time of its arrival (10 R294, R297). -/
def State.park (s : State) (r : MemReq) : State :=
  let a := s.arb r.port
  s.setArb r.port { a with pend := a.pend ++ [{ r with beats := max 1 r.beats, stamp := s.now, rest := 0 }] }

/-- A request parked where its requester has room; without room its requester stalls, which moves timing only (10 R297). -/
def State.post (s : State) (r : MemReq) : State := if s.room r.port r.req then s.park r else s

/-- The slice port of an address (10 R275, R293). -/
def State.slicePort (s : State) (a : Nat) : Nat := match s.hueMap a with | some (c, _) => 320 + chanSlice c | none => 320

/-- Whether a channel grants: it is neither fenced nor failed (10 R303, R304). -/
def State.chanUp (s : State) (c : Nat) : Bool := !(s.chan c).fenced && !(s.chan c).failed

/-! ### Pearl (10 R275 to R278) -/

/-- The set of the slice that may hold the line at a channel-local address (10 R275, R276). -/
def State.pearlSet (s : State) (slice set : Nat) : PearlSet :=
  (s.mem.pearl.find? (fun p => decide (p.slice = slice) && decide (p.set = set))).getD { slice := slice, set := set }

/-- The state with a set of a slice replaced. -/
def State.setPearl (s : State) (p : PearlSet) : State :=
  let others := s.mem.pearl.filter (fun q => !(decide (q.slice = p.slice) && decide (q.set = p.set)))
  { s with mem := { s.mem with pearl := p :: others } }

/-- Whether a line is one Pearl may hold: the journal's are not (10 R278). -/
def State.cacheable (s : State) (line : Nat) : Bool := !(decide (s.journalBase ≤ line) && decide (line < s.journalEnd))

/-- Whether Pearl holds the line at an address (10 R275, R276). -/
def State.inPearl (s : State) (a : Nat) : Bool :=
  match s.hueMap (a / 64 * 64) with
  | none => false
  | some (c, ca) => (s.pearlSet (chanSlice c) (bits ca 6 12)).lines.any (fun l => decide (l.addr = a / 64 * 64))

/-- A line put into ways `lo` to `hi` - 1 of a set: into an empty one, or in place of the least recently used line there,
which leaves (10 R276, R277). -/
def pearlFill (lo hi : Nat) (lines : List PearlLine) (l : PearlLine) : List PearlLine × Option PearlLine :=
  let empty := (rangeFrom lo (hi - lo)).find? (fun k => !lines.any (fun x => decide (x.way = k)))
  match empty, (lines.filter (fun x => decide (lo ≤ x.way) && decide (x.way < hi))).getLast? with
  | some k, _ => ({ l with way := k } :: lines, none)
  | none, some v => ({ l with way := v.way } :: lines.erase v, some v)
  | none, none => (lines, none)

/-- A request of a slice at the input of a line's channel, one line long: a fetch, or the write back of a dirty line
(10 R276, R293). -/
def State.toChannel (s : State) (r : MemReq) (line cls : Nat) (store : Bool) : State :=
  match s.hueMap line with
  | none => s
  | some (c, _) => s.post { port := c, cls := cls, req := r.req, addr := line, store := store, ue := r.ue, ce := r.ce }

/-- The access of a request at Pearl. A hit counts and becomes the most recently used line; a write makes it dirty. A miss
counts, fetches the line from its channel unless a write covers it whole, and allocates; a dirty line that leaves is written
back. A class 3 access changes neither the allocation nor the order (10 R276 to R278). -/
def State.pearlAccess (s : State) (r : MemReq) : State :=
  let line := r.addr / 64 * 64
  let st := r.store || r.write.isSome
  match s.hueMap line with
  | none => s
  | some (c, ca) =>
    if !s.cacheable line then s.toChannel r line r.cls st
    else
      let sl := chanSlice c
      let p := s.pearlSet sl (bits ca 6 12)
      match p.lines.find? (fun l => decide (l.addr = line)) with
      | some l =>
        let l' := { l with dirty := l.dirty || st }
        let lines := if r.cls = 3 then p.lines.map (fun x => if x = l then l' else x) else l' :: p.lines.erase l
        (s.setPearl { p with lines := lines }).count (kPearlHits (sl / 16)) 1
      | none =>
        let s1 := s.count (kPearlMisses (sl / 16)) 1
        if r.cls = 3 then s1.toChannel r line 3 st
        else
          let (lines, gone) := pearlFill (s.kvNat kPearlPinWays) 16 p.lines { addr := line, dirty := st }
          let s2 := s1.setPearl { p with lines := lines }
          let s3 := if st && !r.part then s2 else s2.toChannel r line r.cls false
          match gone with
          | some g => if g.dirty then s3.toChannel { r with ue := false, ce := false } g.addr 2 true else s3
          | none => s3

/-- Whether a requester can have the line at an address now: it has room at the slice port, and the line is in Pearl or its
channel grants (10 R297, R303). -/
def State.lineReady (s : State) (req a : Nat) : Bool :=
  match s.hueMap (a / 64 * 64) with
  | none => true
  | some (c, _) => s.room (s.slicePort a) req && (s.inPearl a || s.chanUp c)

/-- The requests for some lines, one each, at the slice ports; a `cls` 2 request is a write of part of a line (10 R293). -/
def State.askLines (s : State) (req cls : Nat) (ls : List Nat) : State :=
  ls.foldl (fun s l => s.post { port := s.slicePort l, cls := cls, req := req, addr := l, store := decide (cls = 2)
                                part := decide (cls = 2) }) s

/-- The lines that the bytes from `a` lie in. -/
def rangeLines (a n : Nat) : List Nat := (List.range (ceilDiv (a % 64 + n) 64)).map (fun i => a / 64 * 64 + 64 * i)

/-- The parts of a byte range in each line that it touches: address and length. -/
def lineParts (a n : Nat) : List (Nat × Nat) :=
  (rangeLines a n).map (fun l => (max a l, min (a + n) (l + 64) - max a l))

/-- The requests of an engine that reads or writes a range of bytes: one for each line, a write partial where the range does
not cover the line (10 R276, R293). -/
def State.askRange (s : State) (req cls a n : Nat) : State :=
  (if n = 0 then [] else rangeLines a n).foldl (fun s l =>
    s.post { port := s.slicePort l, cls := cls, req := req, addr := l, store := decide (cls = 2)
             part := decide (cls = 2) && !(decide (a ≤ l) && decide (l + 64 ≤ a + n)) }) s

/-- The requests of some ranges (10 R293). -/
def State.askAll (s : State) (req cls : Nat) (rs : List (Nat × Nat)) : State :=
  rs.foldl (fun x r => x.askRange req cls r.1 r.2) s

end Sys2Proof.Machine
end

