-- ==== Sys2Proof/Machine/Host.lean ====
section
/-! DEFINITION. The host attachment: ring registers, ring lines, replies, the journal and retirement (14 R403 to R426). -/

namespace Sys2Proof.Machine

/-! ### Replies (14 R413, R415) -/

/-- The 32 bytes of a reply with its phase bit (14 R415). -/
def ReplyRec.encode (r : ReplyRec) (phase : Bool) : List Byte :=
  toLe 2 ((if phase then 1 else 0) + r.ring % 16 * 2 + (if r.interim then 128 else 0) + r.status % 256 * 256) ++
  toLe 2 r.opcode ++ toLe 4 r.resBytes ++ toLe 4 r.detail ++ toLe 4 r.tag ++ toLe 8 r.result ++ toLe 8 r.seq

/-- Slots of a ring from its latched log2: 2^(n + 4), n at most 12 (14 R406, R408). -/
def ringSlots (log2 : Nat) : Nat := 2 ^ (min log2 12 + 4)

/-- The difference of two free-running 32-bit counts (14 R408). -/
def cntDiff (a b : Nat) : Nat := (2 ^ 32 - b % 2 ^ 32 + a % 2 ^ 32) % 2 ^ 32

/-- The host physical address a register field gives (14 R406, R416). -/
def hostAddr (v : BitVec 64) : Nat := v.toNat % 2 ^ 52

/-- The status line's counts written to host memory (14 R408). -/
def State.statusLine (s : State) (r : Nat) : State :=
  let g := s.ring r
  s.hostWr (hostAddr g.lSl) (toLe 4 g.cons ++ toLe 4 g.cplProd ++ toLe 4 g.errcode)

/-- Whether the completion ring has room (14 R413). -/
def Ring.room (g : Ring) : Bool := decide (cntDiff g.cplProd g.cplCons < ringSlots g.lCqLog2)

/-- The journal with the entry of a number changed (14 R424). -/
def State.modJournal (s : State) (seq : Nat) (f : JEntry → JEntry) : State :=
  let j := s.hostIf.journal.map (fun e => if e.hdr.seq = seq then f e else e)
  { s with hostIf := { s.hostIf with journal := j } }

/-- The journal entry of a number (14 R424, R425). -/
def State.jentry (s : State) (seq : Nat) : Option JEntry := s.hostIf.journal.find? (fun e => decide (e.hdr.seq = seq))

/-- A reply written to the completion ring: the 32 bytes with the phase of the pass, then `cpl_prod`, then the vector
when the packet set `irq`; a journaled reply's entry goes to state 3 (14 R413, R426). -/
def State.postReply (s : State) (r : Nat) (x : ReplyRec) : State :=
  let g := s.ring r
  let slots := ringSlots g.lCqLog2
  let phase := decide (g.cplProd / slots % 2 = 0)
  let s1 := s.hostWr (hostAddr g.lCq + 32 * (g.cplProd % slots)) (x.encode phase)
  let s2 := (s1.setRing r { g with cplProd := (g.cplProd + 1) % 2 ^ 32 }).statusLine r
  let s3 := if x.irq && !x.interim then s2.msix (min g.lVec 16) else s2
  if x.seq ≠ 0 && !x.interim then
    s3.modJournal x.seq (fun e => if e.state = 2 ∧ e.reply = x then { e with state := 3 } else e)
  else s3

/-- A reply given to its ring: posted when no earlier reply is held and there is room, else held (14 R413). -/
def State.queueReply (s : State) (r : Nat) (x : ReplyRec) : State :=
  let g := s.ring r
  if g.held.isEmpty && g.room then s.postReply r x else s.setRing r { g with held := g.held ++ [x] }

/-- `REPLY_POST`: the oldest held reply is posted once there is room (14 R413). -/
def State.postHeld (s : State) (r : Nat) : State :=
  let g := s.ring r
  match g.held with
  | [] => s
  | x :: rest => if g.room then (s.setRing r { g with held := rest }).postReply r x else s

/-! ### Watermark and retirement (14 R424, R426) -/

/-- The watermark raised over the entries in state 2 or 3 (14 R424): `fuel` bounds the entries passed. -/
def raiseWm (j : List JEntry) : Nat → Nat → Nat
  | 0, w => w
  | fuel + 1, w =>
    if j.any (fun e => decide (e.hdr.seq = w + 1) && decide (2 ≤ e.state)) then raiseWm j fuel (w + 1) else w

/-- The state with W raised (14 R424). -/
def State.raiseW (s : State) : State :=
  match s.hostIf.wm with
  | none => s
  | some w => { s with hostIf := { s.hostIf with wm := some (raiseWm s.hostIf.journal s.hostIf.journal.length w) } }

/-- W raised to a record's `retired_seq` when it is lower or undefined (14 R423). -/
def State.liftW (s : State) (v : Nat) : State :=
  let w := match s.hostIf.wm with | some w => max w v | none => v
  { s with hostIf := { s.hostIf with wm := some w } }.raiseW

/-- The first command of a list with a header taken out. -/
def dropCmd (h : Hdr) : List Cmd → List Cmd
  | [] => []
  | c :: t => if c.hdr = h then t else c :: dropCmd h t

/-- What a command ends with: status, `result`, `detail`, and the bytes for `res_addr` (14 R415, R418). -/
structure Answer where
  status : Nat := 0
  result : Nat := 0
  detail : Nat := 0
  bytes : List Byte := []
deriving DecidableEq, Repr, Inhabited

/-- A refusal: status and reason, with a list index (14 R415, R417). -/
def refuse (status reason : Nat) (index : Nat := 0) : Answer :=
  { status := status, detail := index % 256 * 16777216 + reason }

/-- The final reply to a packet (14 R415). -/
def answerReply (h : Hdr) (a : Answer) : ReplyRec :=
  { seq := h.seq, result := a.result % 2 ^ 64, tag := h.tag, detail := a.detail
    resBytes := if h.resAddr = 0 then 0 else a.bytes.length
    opcode := h.opcode, status := a.status, ring := h.ring, irq := h.irq }

/-- A final reply's counts: `cmd_refused` for class 0x1, `cmd_dup` for `DUPLICATE` (14 R430). -/
def State.countReply (s : State) (status : Nat) : State :=
  if status / 16 = 1 then s.countNow kCmdRefused 1 else if status = stDuplicate then s.countNow kCmdDup 1 else s

/-- The result bytes written at `res_addr`; a packet with `res_addr` 0 has none (14 R414; log 36). -/
def State.writeResult (s : State) (h : Hdr) (bs : List Byte) : State :=
  if h.resAddr = 0 then s
  else match addrParam h.resAddr with
    | some a => s.wrAt a bs
    | none => s

/-- A command retires: result bytes, its journal entry's reply and state 2, W, the counts, the reply (14 R426). -/
def State.retire (s : State) (h : Hdr) (a : Answer) : State :=
  let x := answerReply h a
  let s1 := (s.writeResult h a.bytes).countReply a.status
  let s2 := { s1 with hostIf := { s1.hostIf with cmds := dropCmd h s1.hostIf.cmds } }
  let s3 := if h.seq = 0 then s2
    else (s2.modJournal h.seq (fun e => if e.state = 1 ∧ e.hdr = h then { e with state := 2, reply := x } else e)).raiseW
  s3.queueReply h.ring x

/-- A packet answered without being accepted (14 R417, R425). -/
def State.answer (s : State) (h : Hdr) (a : Answer) : State :=
  (s.countReply a.status).queueReply h.ring (answerReply h a)

/-- The interim `ACCEPTED` reply (14 R415). -/
def State.interim (s : State) (h : Hdr) : State :=
  s.queueReply h.ring { seq := h.seq, tag := h.tag, opcode := h.opcode, status := stAccepted, interim := true
                        ring := h.ring }

/-! ### The journal's room (14 R424) -/

/-- Entries the journal holds. -/
abbrev journalMax : Nat := 131072

/-- Entries in state 3 with `seq` at most W are freed (14 R424; log 36). -/
def freeEntries (w : Option Nat) (j : List JEntry) : List JEntry :=
  j.filter (fun e => !(decide (e.state = 3) && (match w with | some w => decide (e.hdr.seq ≤ w) | none => false)))

/-- The journal after a check for room: a full one frees entries, and `jfull` says whether it stays full (14 R424). -/
def State.checkJournal (s : State) : State :=
  if s.hostIf.journal.length < journalMax then { s with hostIf := { s.hostIf with jfull := false } }
  else
    let j := freeEntries s.hostIf.wm s.hostIf.journal
    { s with hostIf := { s.hostIf with journal := j, jfull := decide (journalMax ≤ j.length) } }

/-- The lowest free entry of the journal (14 R424; log 36). -/
def State.freeSlot (s : State) : Nat :=
  let j := s.hostIf.journal
  ((List.range (j.length + 1)).find? (fun k => j.all (fun e => decide (e.slot ≠ k)))).getD 0

/-- A packet header's 32 bytes (14 R414). -/
def packetBytes (h : Hdr) : List Byte :=
  toLe 2 h.opcode ++ toLe 2 (h.rsvdLo % 512 + h.fence.toNat * 512 + h.early.toNat * 1024 + h.irq.toNat * 2048 + h.prof % 16 * 4096) ++
  toLe 1 h.plen ++ toLe 3 h.rsvdHi ++ toLe 4 h.tag ++ toLe 4 h.resLen ++ toLe 8 h.resAddr ++ toLe 8 h.seq

/-- A command's parameter bytes (14 R418). -/
def paramBytes : HostOp → List Byte
  | .echo d => d
  | .identify | .unload | .stepStatus => []
  | .attest a n _ => toLe 8 a ++ toLe 4 n
  | .loadImage a n strict _ => toLe 8 a ++ toLe 8 n ++ toLe 1 strict
  | .bind ox oy oz sx sy sz epoch => [ox, oy, oz, sx, sy, sz].map (BitVec.ofNat 8) ++ toLe 2 epoch
  | .runSteps n | .haltAtStep n | .solve n | .dynamics n => toLe 8 n
  | .checkpoint d n => toLe 8 d ++ toLe 8 n
  | .restore a epoch => toLe 8 a ++ toLe 2 epoch
  | .getParam n ks => toLe 4 n ++ ks.flatMap (toLe 4)
  | .setParam n ps => toLe 4 n ++ ps.flatMap (fun x => toLe 4 x.1 ++ toLe 8 x.2)
  | .memCopy a b n | .memFill a b n => toLe 8 a ++ toLe 8 b ++ toLe 8 n
  | .portCtl p act pat rate => toLe 1 p ++ toLe 1 act ++ toLe 2 pat ++ toLe 4 rate
  | .powerCtl f act point => toLe 1 f ++ toLe 1 act ++ toLe 1 point
  | .testTraffic kind first count ctl base len seed passes =>
    toLe 1 kind ++ toLe 2 first ++ toLe 2 count ++ toLe 3 0 ++ toLe 4 ctl ++ toLe 4 0 ++ toLe 8 base ++ toLe 8 len ++
      toLe 8 seed ++ toLe 4 passes
  | .resetFunction k => toLe 1 k

/-- Bytes filled with zeros to a length. -/
def fillTo (n : Nat) (bs : List Byte) : List Byte := (bs ++ List.replicate n 0).take n

/-- The 512 bytes of a journal entry: header, parameters, the final reply once retired, state, ring (14 R424). -/
def JEntry.encode (e : JEntry) : List Byte :=
  fillTo 512 (fillTo 32 (packetBytes e.hdr) ++ fillTo 224 (paramBytes e.op) ++
    (if 2 ≤ e.state then fillTo 32 (e.reply.encode false) else List.replicate 32 0) ++ toLe 1 e.state ++ toLe 1 e.hdr.ring)

/-- A byte of the journal region: the entries stand there, and a free entry's state is 0 (14 R424; log 36). -/
def State.journalByte (s : State) (off : Nat) : Byte :=
  match s.hostIf.journal.find? (fun e => decide (e.slot = off / 512)) with
  | some e => e.encode.getD (off % 512) 0
  | none => 0

/-- Device memory as a command reads it: the journal's region shows the journal (14 R418, R424). -/
def State.devRd (s : State) (a : Bool × Nat) (n : Nat) : List Byte :=
  if !a.1 && decide (s.journalBase < a.2 + n) && decide (a.2 < s.journalEnd) then
    (s.rdAt a n).zipIdx.map (fun x =>
      let b := a.2 + x.2
      if s.journalBase ≤ b ∧ b < s.journalEnd then s.journalByte (b - s.journalBase) else x.1)
  else s.rdAt a n

/-! ### Rings (14 R407 to R412) -/

/-- A ring stopped with an error code (14 R412). -/
def State.stopRing (s : State) (r code : Nat) : State :=
  (s.setRing r { s.ring r with rErr := true, errAt := some s.now, errcode := code, rRun := false }).statusLine r

/-- A ring's registers latched, its counts and lines cleared, `r_run` set (14 R407). -/
def State.latchRing (s : State) (r : Nat) : State :=
  let g := s.ring r
  let s1 := s.setRing r
    { g with lCr := g.crBase, lCq := g.cqBase, lRl := g.rlAddr, lSl := g.slAddr, lCrLog2 := g.crLog2
             lCqLog2 := g.cqLog2, lVec := g.vec, enWait := false, prodSeen := 0, cons := 0, cplProd := 0
             cplCons := 0, errcode := 0, lastSeq := 0, rRun := true }
  (s1.hostWr (hostAddr g.rlAddr) (List.replicate 8 0)).hostWr (hostAddr g.slAddr) (List.replicate 64 0)

/-- Whether `r_err` stays set over a write: one of 1 clears it, unless Ivory set it in the same cycle (00 R7; 14 R406). -/
def Ring.errAfter (g : Ring) (now : Nat) (clear : Bool) : Bool := g.rErr && (!clear || decide (g.errAt = some now))

/-- A write of a ring's control register: fields, `r_err` cleared by 1, then the enable or disable (14 R406, R407). -/
def State.writeCtl (s : State) (r : Nat) (v : BitVec 32) : State :=
  let g := s.ring r
  let n := v.toNat
  let en := bitOf n 31
  let g1 := { g with en := en, rErr := g.errAfter s.now (bitOf n 29), cqLog2 := bits n 20 4, crLog2 := bits n 16 4
                     vec := bits n 0 5 }
  if !en then s.setRing r { g1 with rRun := false, enWait := false }
  else if !g.en && !g1.rErr then
    if s.hostIf.ready then (s.setRing r g1).latchRing r else s.setRing r { g1 with enWait := true }
  else s.setRing r g1

/-- Every enabled ring without an error latched: the rings that waited for `ready`, and the rings that restart after a
reset (14 R407, R428). -/
def State.latchWaiting (s : State) : State :=
  (List.range 16).foldl (fun x r => if (x.ring r).en && !(x.ring r).rErr then x.latchRing r else x) s

/-- A ring line read again: counts taken; an overrun stops the ring (14 R410, R412). -/
def State.rereadLine (s : State) (r prod cplCons : Nat) : State :=
  let g := s.ring r
  let s1 := s.setRing r { g with prodSeen := prod % 2 ^ 32, cplCons := cplCons % 2 ^ 32 }
  if ringSlots g.lCrLog2 < cntDiff (prod % 2 ^ 32) g.cons then s1.stopRing r 1 else s1

/-- Whether a ring has a packet to read. -/
def Ring.work (g : Ring) : Bool := g.rRun && decide (g.prodSeen ≠ g.cons)

/-- The ring Ivory serves next: the first with work after the ring served last (14 R411). -/
def State.nextRing (s : State) : Option Nat :=
  ((List.range 16).map (fun k => (s.hostIf.rrNext + k) % 16)).find? (fun r => (s.ring r).work)

/-- Whether Ivory reads packets: ready, running, not retired, and the journal has room (14 R406, R424; 20 R540). -/
def State.reads (s : State) : Bool :=
  s.hostIf.ready && !s.hostIf.jfull && !s.flt.retired && !s.flt.ivoryStopped && decide (s.clk.phase = .run)

/-- A packet taken from its slot: `cmd_cons` moves on (14 R409, R411). -/
def State.takePacket (s : State) (r : Nat) : State :=
  let g := s.ring r
  let s1 := (s.setRing r { g with cons := (g.cons + 1) % 2 ^ 32 }).statusLine r
  { s1 with hostIf := { s1.hostIf with rrNext := (r + 1) % 16 } }

/-! ### Events of the rings -/

/-- `RING_ENABLE`: a write of `en` from 0 to 1 (14 R407). -/
def execRingEnable (ring : Nat) (value : BitVec 32) (s : State) : Host.Outcome State Fault Refusal :=
  .next (if bitOf value.toNat 31 && !(s.ring ring).en then s.writeCtl ring value else s)

/-- `RING_DISABLE`: a write of `en` = 0 (14 R407). -/
def execRingDisable (ring : Nat) (value : BitVec 32) (s : State) : Host.Outcome State Fault Refusal :=
  .next (if bitOf value.toNat 31 then s else s.writeCtl ring value)

/-- `RING_LINE_SNOOP`: the host writes a ring line; Ivory reads it again (14 R408, R410). -/
def execRingLineSnoop (ring cmdProd cplCons : Nat) (s : State) : Host.Outcome State Fault Refusal :=
  .next (if (s.ring ring).rRun then
    ((s.hostWr (hostAddr (s.ring ring).lRl) (toLe 4 cmdProd ++ toLe 4 cplCons)).countNow kSnoopWake 1).rereadLine ring
      cmdProd cplCons
  else s)

/-- One ring line of a poll: counted when it found new work (14 R410, R430). -/
def State.pollLine (s : State) (l : Nat × Nat × Nat) : State :=
  if (s.ring l.1).rRun then
    let s1 := if l.2.1 % 2 ^ 32 ≠ (s.ring l.1).prodSeen then s.countNow kPollWake 1 else s
    s1.rereadLine l.1 l.2.1 l.2.2
  else s

/-- Cycles of a microsecond. -/
abbrev usCc : Nat := 1800

/-- `RING_POLL`: Ivory reads every ring line again, once `ring_poll` microseconds have passed since it last did (14 R410,
R430). -/
def execRingPoll (lines : List (Nat × Nat × Nat)) (s : State) : Host.Outcome State Fault Refusal :=
  .next (if usCc * s.kvNat kRingPoll + s.hostIf.lastPoll ≤ s.now then
    lines.foldl State.pollLine { s with hostIf := { s.hostIf with lastPoll := s.now } }
  else s)

/-- `JOURNAL_RESUME`: a full journal frees entries, and Ivory reads packets again (14 R424). -/
def execJournalResume (s : State) : Host.Outcome State Fault Refusal :=
  .next (if s.hostIf.jfull then s.checkJournal else s)

/-- `REPLY_POST`: a held reply is written; a completion write that fails stops the ring (14 R408, R412, R413). -/
def execReplyPost (post : RingPost) (s : State) : Host.Outcome State Fault Refusal :=
  .next (
    let r := s.ring post.ring
    if post.failed && r.rRun && !r.held.isEmpty && r.room then s.stopRing post.ring 3 else s.postHeld post.ring)

end Sys2Proof.Machine
end

