-- ==== Sys2Proof/Machine/Route.lean ====
section
/-! DEFINITION. Row maps, machine hops, link paths and routes (12 R362, R363; 13 R378, R379, R385 to R392). -/

namespace Sys2Proof.Machine

/-- The machine size (13 R378). -/
def Torus.size (t : Torus) : Nat × Nat × Nat := topSize t.table

/-- Positions in a row: one more than X_m in a machine with spares (13 R378). -/
def Torus.rowLen (t : Torus) : Nat := t.size.1 + (if t.table.spares then 1 else 0)

/-- The hole of a row: the failed slot of a row whose spare is in use, or the spare's slot when it was lost (13 R389,
R390). -/
def Torus.hole (t : Torus) (y z : Nat) : Option Nat := (t.holes.find? (fun h => decide (h.1 = y * 32 + z))).map (fun h => h.2)

/-- The row map: the slot that holds machine x (13 R379, R389). -/
def Torus.slotAt (t : Torus) (x y z : Nat) : Nat :=
  let m := t.size.1
  match t.hole y z with
  | none => x
  | some f =>
    if m ≤ f then x
    else if m - 1 - f ≤ f then (if x < f then x else x + 1)
    else if x = 0 then m else if x ≤ f then x - 1 else x

/-- The machine x of a slot, or none for a hole or an unused spare (13 R379, R389). -/
def Torus.xAt (t : Torus) (slot y z : Nat) : Option Nat :=
  (List.range t.size.1).find? (fun x => decide (t.slotAt x y z = slot) && decide (t.hole y z ≠ some slot))

/-- X-direction links: port and slot distance, + before - (12 R340, 13 R378, R391). -/
def Torus.xLinks (t : Torus) : List (Nat × Int) :=
  if t.table.spares then [(0, 1), (6, 2), (1, -1), (7, -2)] else [(0, 1), (1, -1)]

/-- The slot a distance away in a row (13 R378). -/
def Torus.slotMove (t : Torus) (a : Nat) (d : Int) : Nat := (((a : Int) + d) % (t.rowLen : Int)).toNat

/-- The port of a machine hop along x: X± or, across a hole or the spare, S0 or S1 (13 R379, R391). -/
def Torus.xHop (t : Torus) (x y z : Nat) (plus : Bool) : Option Nat :=
  let m := t.size.1
  let a := t.slotAt x y z
  let b := t.slotAt (if plus then (x + 1) % m else (x + m - 1) % m) y z
  let cand : List (Nat × Int) := if plus then [(0, 1), (6, 2)] else [(1, -1), (7, -2)]
  (cand.find? (fun l => (t.xLinks.contains l) && decide (t.slotMove a l.2 = b))).map (fun l => l.1)

/-- A coordinate a step away on an axis of size `m`. -/
def axisMove (m c : Nat) (plus : Bool) : Nat := if plus then (c + 1) % m else (c + m - 1) % m

/-- Where a link leads from a position (slot, y, z) (12 R340, 13 R378). -/
def Torus.linkTo (t : Torus) (p : Nat × Nat × Nat) (port : Nat) : Nat × Nat × Nat :=
  let my := t.size.2.1
  let mz := t.size.2.2
  match port with
  | 0 => (t.slotMove p.1 1, p.2.1, p.2.2)
  | 1 => (t.slotMove p.1 (-1), p.2.1, p.2.2)
  | 2 => (p.1, axisMove my p.2.1 true, p.2.2)
  | 3 => (p.1, axisMove my p.2.1 false, p.2.2)
  | 4 => (p.1, p.2.1, axisMove mz p.2.2 true)
  | 5 => (p.1, p.2.1, axisMove mz p.2.2 false)
  | 6 => (t.slotMove p.1 2, p.2.1, p.2.2)
  | _ => (t.slotMove p.1 (-2), p.2.1, p.2.2)

/-- Whether a position holds a live package that is no unused spare (13 R391). -/
def Torus.live (t : Torus) (p : Nat × Nat × Nat) : Bool := (t.xAt p.1 p.2.1 p.2.2).isSome

/-- Whether a link path leads to a position over live packages. -/
def Torus.leads (t : Torus) (goal : Nat × Nat × Nat) : List Nat → Nat × Nat × Nat → Bool
  | [], p => decide (p = goal)
  | l :: ls, p => t.live (t.linkTo p l) && t.leads goal ls (t.linkTo p l)

/-- The link paths of at most three links with the Y or Z link `yl`, in order of preference (13 R391). -/
def Torus.paths (t : Torus) (yl : Nat) : List (List Nat) :=
  let m := t.xLinks.map (fun l => l.1)
  [[yl]] ++ m.map (fun a => [yl, a]) ++ m.map (fun a => [a, yl]) ++
    m.flatMap (fun a => m.map (fun b => [yl, a, b])) ++ m.flatMap (fun a => m.map (fun b => [a, yl, b])) ++
    m.flatMap (fun a => m.map (fun b => [a, b, yl]))

/-- The link path from a position to the machine coordinates one Y or Z hop away (13 R391). -/
def Torus.linkPath (t : Torus) (p : Nat × Nat × Nat) (yl : Nat) (x y z : Nat) : Option (List Nat) :=
  (t.paths yl).find? (fun l => t.leads (t.slotAt x y z, y, z) l p)

/-- The direction of the shorter way round an axis: + on a tie; without the wrap, toward the destination in block order
(12 R362). -/
def axisDir (m o size cur dst : Nat) : Bool :=
  let fwd := (dst + m - cur % m) % m
  if size = m then decide (fwd ≤ m - fwd) else decide (relCoord cur o m ≤ relCoord dst o m)

/-- The block in force: origin and size on each axis; the whole machine while none is bound (13 R385, R386). -/
def State.blockOf (s : State) : Bound :=
  match s.job.bound with
  | some b => b
  | none => { sx := s.torus.size.1, sy := s.torus.size.2.1, sz := s.torus.size.2.2 }

/-- A hop of a message: the port, and whether it is an X-direction link of a Y path (6) or Z path (7) (13 R392). -/
structure HopOut where
  port : Nat
  vcPath : Option Nat := none
  wrap : Bool := false
  axis : Nat := 0
deriving DecidableEq, Repr, Inhabited

/-- The first link of a path, with the virtual channel of R392 when it is an X-direction link. -/
def hopOfPath (axis vc : Nat) (wrap : Bool) : Option (List Nat) → Option HopOut
  | some (l :: _) => some { port := l, vcPath := if l = 0 ∨ l = 1 ∨ l = 6 ∨ l = 7 then some vc else none, wrap := wrap
                            axis := axis }
  | _ => none

/-- Whether the step from a coordinate crosses the axis's wrap link (12 R363). -/
def crosses (m c : Nat) (plus : Bool) : Bool := if plus then decide (c + 1 = m) else decide (c = 0)

/-- The next link of a message at this package toward machine coordinates (dx, dy, dz). `via` is 6 or 7 when it arrived
over an X-direction link of a Y or Z path, 2 or 3 when it arrived over a Y port, 4 or 5 over a Z port (12 R362; 13
R391, R392). -/
def State.nextHop (s : State) (dx dy dz via : Nat) : Option HopOut :=
  let t := s.torus
  let b := s.blockOf
  let (mx, my, mz) := t.size
  let pos := (t.slot, t.y, t.z)
  let yHop :=
    let plus := axisDir my b.oy b.sy t.y dy
    hopOfPath 1 6 (crosses my t.y plus)
      (t.linkPath pos (if plus then 2 else 3) dx (axisMove my t.y plus) t.z)
  let zHop :=
    let plus := axisDir mz b.oz b.sz t.z dz
    hopOfPath 2 7 (crosses mz t.z plus)
      (t.linkPath pos (if plus then 4 else 5) dx t.y (axisMove mz t.z plus))
  if via = 6 ∧ t.y ≠ dy then yHop
  else if via = 7 ∧ t.z ≠ dz then zHop
  else if t.x ≠ dx then
    let plus := axisDir mx b.ox b.sx t.x dx
    (t.xHop t.x t.y t.z plus).map (fun p =>
      { port := p, vcPath := if via = 2 ∨ via = 3 ∨ via = 6 then some 6 else if via = 4 ∨ via = 5 ∨ via = 7 then some 7
          else none, wrap := crosses mx t.x plus })
  else if t.y ≠ dy then yHop
  else if t.z ≠ dz then zHop
  else none

/-- The machine hops of this package inside its block: axis and direction (13 R385, R386). -/
def State.blockHops (s : State) : List (Nat × Bool) :=
  let b := s.blockOf
  let (mx, my, mz) := s.torus.size
  let ax (a m o size c : Nat) : List (Nat × Bool) :=
    let r := relCoord c o m
    (if 1 < m ∧ (size = m ∨ r + 1 < size) then [(a, true)] else []) ++
    (if 1 < m ∧ (size = m ∨ 0 < r) then [(a, false)] else [])
  ax 0 mx b.ox b.sx s.torus.x ++ ax 1 my b.oy b.sy s.torus.y ++ ax 2 mz b.oz b.sz s.torus.z

/-- The link path of a machine hop of this package (13 R391). -/
def State.hopPath (s : State) (h : Nat × Bool) : Option (List Nat) :=
  let t := s.torus
  let (_, my, mz) := t.size
  match h.1 with
  | 0 => (t.xHop t.x t.y t.z h.2).map (fun p => [p])
  | 1 => t.linkPath (t.slot, t.y, t.z) (if h.2 then 2 else 3) t.x (axisMove my t.y h.2) t.z
  | _ => t.linkPath (t.slot, t.y, t.z) (if h.2 then 4 else 5) t.x t.y (axisMove mz t.z h.2)

/-- The ports that serve a machine hop of the bound block: first links of the hops' paths (13 R386, R387). -/
def State.hopPorts (s : State) : List Nat :=
  match s.job.bound with
  | none => []
  | some _ => (s.blockHops.filterMap (fun h => (s.hopPath h).bind (fun p => p.head?))).eraseDups

/-- Whether this package has machine coordinates and lies in a block (13 R385). -/
def State.inBlock (s : State) (b : Bound) : Bool :=
  let (mx, my, mz) := s.torus.size
  s.torus.hasCoord && decide (relCoord s.torus.x b.ox mx < b.sx) && decide (relCoord s.torus.y b.oy my < b.sy) &&
    decide (relCoord s.torus.z b.oz mz < b.sz)

/-- Whether machine coordinates lie in a block (13 R385). -/
def State.coordInBlock (s : State) (b : Bound) (x y z : Nat) : Bool :=
  let (mx, my, mz) := s.torus.size
  decide (relCoord x b.ox mx < b.sx) && decide (relCoord y b.oy my < b.sy) && decide (relCoord z b.oz mz < b.sz)

/-- The machine coordinates of a job-relative triple (13 R385). -/
def State.machineCoord (s : State) (r : Nat × Nat × Nat) : Nat × Nat × Nat :=
  let (mx, my, mz) := s.torus.size
  match s.job.bound with
  | some b => ((b.ox + r.1) % mx, (b.oy + r.2.1) % my, (b.oz + r.2.2) % mz)
  | none => r

/-- The links of the route between machine coordinates, counted hop by hop: `fuel` bounds the hops (12 R362, 13 R391). -/
def State.routeLen (s : State) : Nat → Nat × Nat × Nat → Nat × Nat × Nat → Nat
  | 0, _, _ => 0
  | fuel + 1, c, d =>
    let t := s.torus
    let b := s.blockOf
    let (mx, my, mz) := t.size
    if c.1 ≠ d.1 then
      1 + State.routeLen s fuel (axisMove mx c.1 (axisDir mx b.ox b.sx c.1 d.1), c.2.1, c.2.2) d
    else if c.2.1 ≠ d.2.1 then
      let plus := axisDir my b.oy b.sy c.2.1 d.2.1
      let y := axisMove my c.2.1 plus
      (match t.linkPath (t.slotAt c.1 c.2.1 c.2.2, c.2.1, c.2.2) (if plus then 2 else 3) c.1 y c.2.2 with
        | some p => p.length | none => 1) + State.routeLen s fuel (c.1, y, c.2.2) d
    else if c.2.2 ≠ d.2.2 then
      let plus := axisDir mz b.oz b.sz c.2.2 d.2.2
      let z := axisMove mz c.2.2 plus
      (match t.linkPath (t.slotAt c.1 c.2.1 c.2.2, c.2.1, c.2.2) (if plus then 4 else 5) c.1 c.2.1 z with
        | some p => p.length | none => 1) + State.routeLen s fuel (c.1, c.2.1, z) d
    else 0

end Sys2Proof.Machine
end

