-- ==== Sys2Proof/Machine/Link.lean ====
section
/-! DEFINITION. What every event of a Flosin port uses: CRC-32C, messages as bytes, leaving and entering `RUN`, and the
abort of messages in transit (12 R349, R358 to R364, R373 to R375). -/

namespace Sys2Proof.Machine

/-- One bit of CRC-32C, reflected (12 R349). -/
def crcBit (c : Nat) : Nat := if c % 2 = 1 then (c / 2) ^^^ 0x82F63B78 else c / 2

/-- CRC-32C of a byte string (12 R349). -/
def crc32c (bs : List Byte) : Nat :=
  bs.foldl (fun c b => crcBit (crcBit (crcBit (crcBit (crcBit (crcBit (crcBit (crcBit (c ^^^ b.toNat))))))))) 0xFFFFFFFF
    ^^^ 0xFFFFFFFF

/-- The 32 bytes of a message header with a given `mcrc` (12 R360). -/
def hdrBytes (h : MsgHdr) (crc : Nat) : List Byte :=
  toLe 8 0 ++ toLe 4 crc ++
  toLe 20 (h.cls % 4 * 2 ^ 2 + h.mkind % 16 * 2 ^ 4 + h.lenM1 % 2 ^ 14 * 2 ^ 8 + h.ctx % 2 ^ 12 * 2 ^ 22 +
    coordWord h.dstX h.dstY h.dstZ * 2 ^ 34 + h.src % 2 ^ 15 * 2 ^ 49 + h.segment % 2 ^ 32 * 2 ^ 64 +
    h.epoch % 2 ^ 16 * 2 ^ 96 + h.seq % 2 ^ 48 * 2 ^ 112)
/-- A message's bytes on the wire, its CRC computed (12 R360). -/
def msgBytes (m : Msg) : List Byte := hdrBytes m.hdr (crc32c (hdrBytes m.hdr 0 ++ m.body)) ++ m.body

/-- The virtual channel of a class and dateline bit (12 R358). -/
def vcOf (cls dl : Nat) : Nat := 2 * cls + dl

/-- Receive buffer flits of each virtual channel (12 R358). -/
def vcAlloc : List Nat := [256, 256, 768, 768, 256, 256, 256, 256]

/-- Flits the retry buffer holds (12 R351). -/
abbrev retryMaxFlits : Nat := 8192

/-- The arbiter port of a Flosin output port (10 R293). -/
def flArb (p : Nat) : Nat := 384 + p

/-- A port with the link state of a fresh entry to `RUN`: numbers, credits, buffers; no flit received, so the number before
0 is acknowledged (12 R352, R359, R374; log 40). -/
def Port.fresh (x : Port) : Port :=
  { x with fseqNext := 0, retry := [], rxAck := 65535, rxAckV := true, nakOut := false, rxEpisode := false, nakTwice := false
           replayFrom := none, replayLeft := [], replaySeq := 0, replayRun := 0, credit := vcAlloc
           freedSeen := List.replicate 8 0, rxFreed := List.replicate 8 0, rxBuf := [], rxMsg := [], txMsg := []
           crossing := [], codewordBad := 0, cwWindow := 0, cwPeriods := 0, rxSlot := 0, slot := 0 }

/-- A port with its link state discarded: retry and receive buffers, crossing, messages, credits (12 R374). -/
def Port.discard (x : Port) : Port :=
  { x with retry := [], rxBuf := [], crossing := [], rxMsg := [], txMsg := [], replayFrom := none, replayLeft := []
           nakOut := false, rxEpisode := false, credit := List.replicate 8 0, dMax := none, probes := 0, stage := 0
           loopback := false, test := none, partnerWord := none }

/-- Whether a port carries traffic of a bring-up that ended: `RUN` or `ISOLATED` (12 R373). -/
def Port.up (x : Port) : Bool := x.state == .run || x.state == .isolated

/-- The flit that ends an aborted message (12 R364). -/
def abortFlit (vc : Nat) : Flit := 
  { body := .data (List.replicate 240 0), vc := vc, eom := true, abort := true, len := 1 }

/-- A request of a message in transit that will not be whole: one that has begun ends with an `abort` flit, the request's
`ue`; one that has not leaves (12 R364). -/
def MemReq.aborted (r : MemReq) : Option MemReq := if r.ce then some { r with beats := 1, rest := 0, ue := true } else none

/-- Messages in transit from a port end with `abort` at their output ports (12 R364). A transit's virtual channels are one
number, the output's plus 16 times the input's. -/
def State.abortTransit (s : State) (p : Nat) : State :=
  let gone := s.exch.inflight.filter (fun t => decide (t.1 = p))
  let s1 := gone.foldl (fun x t =>
    let a := x.arb (flArb t.2.1)
    let hit (r : MemReq) : Bool := decide (r.req = 4096 + p) && decide (r.addr = t.2.2)
    let fix (r : MemReq) : Option MemReq := if hit r then MemReq.aborted r else some r
    x.setArb (flArb t.2.1) { a with pend := a.pend.filterMap fix, cur := a.cur.bind fix }) s
  { s1 with exch := { s1.exch with inflight := s1.exch.inflight.filter (fun t => !decide (t.1 = p)) } }

/-- A port leaves `RUN` or `ISOLATED` for another state: the reason, the count, the buffers, the transit messages, and
the time (12 R373 to R375; 16 R454). -/
def State.leaveRun (s : State) (p : Nat) (reason : Nat) (st : PortState) : State :=
  let x := s.port p
  let s1 := (s.kvSet (kFlReason p) (BitVec.ofNat 64 reason)).kvSet (kLinkLat p) 0
  let s2 := if x.state = .run then s1.count (kRetrains p) 1 else s1
  let s3 := if x.state = .run && s.hopPorts.contains p then s2.timing 4 else s2
  let s4 := s3.abortTransit p
  s4.setPort p { (s4.port p).discard with
    state := st, leftRunAt := some s.now, enteredAt := s.now
    retrainTicks := if st = .retrain then s.now :: x.retrainTicks else x.retrainTicks }

/-- A port in `RUN` or `ISOLATED` retrains (12 R374). -/
def State.retrain (s : State) (p reason : Nat) : State :=
  if (s.port p).up then s.leaveRun p reason .retrain else s

/-- A port enters `RUN`, or `ISOLATED` at a block edge or on an unused spare (12 R373, 13 R386). -/
def State.enterRun (s : State) (p : Nat) : State :=
  let x := s.port p
  s.setPort p { x.fresh with
    state := if x.isolate || !s.torus.hasCoord then .isolated else .run, enteredAt := s.now, leftRunAt := none }

/-- A port goes to `OFF` with nothing buffered. -/
def State.portOff (s : State) (p reason : Nat) : State :=
  if (s.port p).up then s.leaveRun p reason .off
  else (s.kvSet (kLinkLat p) 0).setPort p { (s.port p).discard with state := .off, enteredAt := s.now }

/-- A flit put on the wire (12 R346). -/
def State.sendFlit (s : State) (p : Nat) (f : Flit) : State :=
  s.setPort p { s.port p with txQueue := (s.port p).txQueue ++ [f] }

/-- The retire record sent on every port in `RUN` or `ISOLATED`; each such port then goes to `OFF` (20 R540). -/
def State.sendRetire (s : State) : State :=
  (List.range 8).foldl (fun x p =>
    if (x.port p).up then (x.sendFlit p { body := .train .retire }).portOff p 0 else x) s

end Sys2Proof.Machine
end

