-- ==== Sys2Proof/Machine/Traffic.lean ====
section
/-! DEFINITION. Traffic generators and checkers of the memory channels (10 R305 to R307, R311). -/

namespace Sys2Proof.Machine

/-- A generator's settings as its keys hold them (10 R311). -/
structure TgCfg where
  ctl : Nat
  base : Nat
  len : Nat
  seed : BitVec 64
  passes : Nat
deriving DecidableEq, Repr, Inhabited

/-- The settings of a channel's generator. -/
def State.tgCfg (s : State) (c : Nat) : TgCfg :=
  { ctl := s.kvNat (kTgCtl c), base := s.kvNat (kTgBase c), len := s.kvNat (kTgLen c), seed := s.kvGet (kTgSeed c)
    passes := s.kvNat (kTgPasses c) }

/-- `dir`: 0 write then read, 1 read only, 2 write only (10 R311). -/
def TgCfg.dir (g : TgCfg) : Nat := bits g.ctl 10 2

/-- `order` (10 R305, R311). -/
def TgCfg.order (g : TgCfg) : Nat := bits g.ctl 8 2

/-- `pattern` (10 R311). -/
def TgCfg.pattern (g : TgCfg) : Nat := bits g.ctl 0 4

/-- Lines in the range (10 R305). -/
def TgCfg.lines (g : TgCfg) : Nat := g.len / 64

/-- The function g of the visit order of `order` 1 (10 R305). -/
def tgMix (seed : BitVec 64) (w x : Nat) : Nat :=
  let p := 2 ^ w
  let a1 := ((srMix seed).toNat % p) ||| 1
  let c1 := (srMix (seed ^^^ 1)).toNat % p
  let a2 := ((srMix (seed ^^^ 2)).toNat % p) ||| 1
  let c2 := (srMix (seed ^^^ 3)).toNat % p
  let y := (a1 * x + c1) % p
  let z := y ^^^ (y >>> ((w + 1) / 2))
  (a2 * z + c2) % p

/-- g repeated until it falls below n; `fuel` bounds the repeats (10 R305). -/
def tgWalk (seed : BitVec 64) (w n : Nat) : Nat → Nat → Nat
  | 0, x => x
  | fuel + 1, x => if n ≤ x then tgWalk seed w n fuel (tgMix seed w x) else x

/-- Lines a pass visits: every line, or in `order` 2 one for each address bit of the range (10 R305; log 37). -/
def TgCfg.passLen (g : TgCfg) : Nat := if g.order = 2 then clog2 g.lines else g.lines

/-- The line a pass visits as its i-th, relative to `tg_base` (10 R305; log 37). -/
def TgCfg.visit (g : TgCfg) (i : Nat) : Nat :=
  match g.order with
  | 0 => i
  | 1 => let w := max 1 (clog2 g.lines); tgWalk g.seed w g.lines (2 ^ w) (tgMix g.seed w i)
  | _ => 2 ^ i

/-- One bit of PRBS31 (x^31 + x^28 + 1): the state after it; the new bit is the state's lowest (10 R305). -/
def prbsNext (v : Nat) : Nat := (2 * v + (bits v 30 1 + bits v 27 1) % 2) % 2 ^ 31

/-- The next 16 bits of PRBS31, the first in the lowest place, and the state after them. -/
def prbsWord (v : Nat) : Nat × Nat :=
  (List.range 16).foldl (fun a k => let n := prbsNext a.2; (a.1 + n % 2 * 2 ^ k, n)) (0, v)

/-- `n` words of PRBS31 from a state. -/
def prbsWords : Nat → Nat → List Nat
  | 0, _ => []
  | n + 1, v => let w := prbsWord v; w.1 :: prbsWords n w.2

/-- The 64 bytes of the line at a channel-local address: zeros, ones, a one that walks through the bits of a 16-bit lane from
word to word, each 64-bit word's channel-local address, PRBS31 along the words of a 16-bit lane, or the mix (10 R305, R311;
log 37). -/
def TgCfg.data (g : TgCfg) (la : Nat) : List Byte :=
  match g.pattern with
  | 0 => List.replicate 64 0x00
  | 1 => List.replicate 64 0xFF
  | 2 => (List.range 32).flatMap (fun j => toLe 2 (2 ^ (j % 16)))
  | 3 => (List.range 8).flatMap (fun j => toLe 8 (la + 8 * j))
  | 5 => (List.range 8).flatMap (fun j => toLe 8 (srMix (g.seed ^^^ BitVec.ofNat 64 la ^^^ BitVec.ofNat 64 j)).toNat)
  | _ => (prbsWords 32 (Config.prbsSeed g.seed la).toNat).flatMap (toLe 2)

/-- Whether a line of the range lies on a byte of a bound token, of the journal, of the image area or of the CXL.mem
window (10 R306, 15 R434). -/
def State.tgLineTaken (s : State) (c la : Nat) : Bool :=
  let a := s.chanAddr c la
  s.meetsToken a 64 || overlaps a (a + 64) s.imageBase s.journalEnd || overlaps a (a + 64) s.window.1 s.window.2

/-- Whether a range of device addresses, cut into the channel's 256 B stripes, is taken: the stripes are tested one by
one. -/
def State.tgTaken (s : State) (c : Nat) (g : TgCfg) : Bool :=
  (List.range g.lines).any (fun i => s.tgLineTaken c (g.base + 64 * i))

/-- Whether a generator may start: its range lies in the channel, and a writing one touches nothing reserved (10 R305,
R306). -/
def State.tgAllowed (s : State) (c : Nat) (g : TgCfg) : Bool :=
  decide (g.base + g.len ≤ s.chanSize c) && (decide (g.dir = 1) || !s.tgTaken c g)

/-- A generator started at its first line (10 R305). -/
def State.tgRunNow (s : State) (c : Nat) : State :=
  let g := s.tgCfg c
  s.setChan c { s.chan c with tgRun := decide (0 < g.passLen), tgPass := 0, tgIdx := 0, tgRead := decide (g.dir = 1)
                              tgStop := false }

/-- A write of `tg_go`: 1 starts the generator where R306 allows it, 0 stops it at the next line (10 R305, R306, R311). -/
def State.tgGo (s : State) (c : Nat) (go : Bool) : State :=
  if go then (if !(s.chan c).tgRun && s.tgAllowed c (s.tgCfg c) then s.tgRunNow c else s)
  else if (s.chan c).tgRun then s.setChan c { s.chan c with tgStop := true } else s

/-- `rate`: lines in 256 cc; 0 sets no limit (10 R305, R311). -/
def TgCfg.rate (g : TgCfg) : Nat := bits g.ctl 16 8

/-- The ticks of a generator's lines in the last 256 cc. -/
def State.tgRecent (s : State) (c : Nat) : List Nat := (s.chan c).tgTicks.filter (fun t => decide (s.now < 256 + t))

/-- Whether the generator may issue a line now: in a step never, while an image runs or with `sable_only` in Sable windows;
within its rate; and where the channel grants and has room for its request (10 R297, R299, R303, R305, R306, R311). -/
def State.tgMay (s : State) (c : Nat) : Bool :=
  let g := s.tgCfg c
  (if s.job.inStep then false else if s.imageRuns || bitOf g.ctl 30 then s.sable else true) &&
    (decide (g.rate = 0) || decide ((s.tgRecent c).length < g.rate)) && s.chanUp c && s.room c reqTg

/-- The channels of a `TEST_TRAFFIC` (14 R418). -/
def testChans (kind first count : Nat) : List Nat :=
  rangeFrom (if kind = 0 then first else 256 + first) count

/-- The answer of a `TEST_TRAFFIC` whose generators have ended (14 R418). -/
def State.testAnswer (s : State) (cs : List Nat) : Answer :=
  { result := (cs.map (fun c => s.kvNat (kTcLines c))).foldl (fun a b => a + b) 0
    bytes := cs.flatMap (fun c => toLe 8 (s.kvNat (kTcLines c)) ++ toLe 8 (s.kvNat (kTcErrs c)) ++
      toLe 8 (s.kvNat (kTcFirstAddr c)) ++ toLe 8 (s.kvNat (kTcFirstMask c))) }

/-- A started `TEST_TRAFFIC` all of whose generators have ended retires (14 R418). -/
def State.testDone (s : State) (c : Cmd) : State :=
  match c.op with
  | .testTraffic kind first count _ _ _ _ _ =>
    let cs := testChans kind first count
    if c.started && cs.all (fun k => !(s.chan k).tgRun) then s.retire c.hdr (s.testAnswer cs) else s
  | _ => s

/-- Every `TEST_TRAFFIC` that has ended retires. -/
def State.testsDone (s : State) : State := s.hostIf.cmds.foldl State.testDone s

/-- The checker: the line compared with the pattern; counts, and the first mismatch (10 R307). -/
def State.tgCheck (s : State) (c la : Nat) (g : TgCfg) : State :=
  let a := s.chanAddr c la
  let want := g.data la
  let got := s.dramRd a 64
  let diff := (want.zip got).map (fun p => decide (p.1 ≠ p.2))
  let mask := if s.poisoned a 64 then 2 ^ 64 - 1
    else (diff.zip (List.range 64)).foldl (fun m p => if p.1 then m + 2 ^ p.2 else m) 0
  let s1 := s.count (kTcLines c) 1
  if mask = 0 then s1
  else
    let s2 := s1.count (kTcErrs c) 1
    if s2.kvNat (kTcFirstMask c) = 0 then
      (s2.kvSet (kTcFirstAddr c) (BitVec.ofNat 64 la)).kvSet (kTcFirstMask c) (BitVec.ofNat 64 mask)
    else s2

/-- The generator's place after a line: the next line, the read half, the next pass, or the end (10 R305). -/
def tgNext (g : TgCfg) (x : Chan) : Chan :=
  if x.tgIdx + 1 < g.passLen then { x with tgIdx := x.tgIdx + 1 }
  else if g.dir = 0 ∧ !x.tgRead then { x with tgIdx := 0, tgRead := true }
  else if g.passes = 0 ∨ x.tgPass + 1 < g.passes then
    { x with tgIdx := 0, tgPass := x.tgPass + 1, tgRead := decide (g.dir = 1) }
  else { x with tgRun := false }

/-- One line of a generator: a class 3 request at the channel's input, and what it writes or checks; the errors that the
access meets count (10 R286, R293, R305, R307). -/
def State.tgStep (s : State) (c : Nat) (ce poisoned : Bool) : State :=
  let g := s.tgCfg c
  let x := s.chan c
  let la := g.base + 64 * g.visit x.tgIdx
  let a := s.chanAddr c la
  let s1 := s.post { port := c, cls := 3, req := reqTg, addr := a, store := !x.tgRead }
  let s2 := if ce then s1.memCe c else s1
  let s3 := if x.tgRead then
      let s0 := if poisoned && !s2.poisoned a 64 then s2.memUe a else s2
      s0.tgCheck c la g
    else s2.dramWr a (g.data la)
  s3.setChan c { tgNext g (s3.chan c) with tgTicks := s.now :: s.tgRecent c }

/-- `TG_LINE`: the generator issues its next line, or stops; `ecc` says whether its access meets a corrected or
an uncorrectable error (10 R286, R305). -/
def execTgLine (chan : Nat) (ecc : LineEcc) (s : State) : Host.Outcome State Fault Refusal :=
  .next (if (s.chan chan).tgRun && s.tgMay chan then
    (if (s.chan chan).tgStop then s.setChan chan { s.chan chan with tgRun := false, tgStop := false }
     else s.tgStep chan ecc.ce ecc.ue).testsDone
  else s)

/-- `tg_ctl` with its `tg_go` bit written (10 R311). -/
def State.writeGo (s : State) (c : Nat) (go : Bool) : State :=
  s.kvSet (kTgCtl c) (BitVec.ofNat 64 (bits (s.kvNat (kTgCtl c)) 0 31 + (if go then 2 ^ 31 else 0)))

/-- `TG_START`: `tg_go` written 1 starts the generator, or the start is refused and nothing changes (10 R306). -/
def execTgStart (chan : Nat) (s : State) : Host.Outcome State Fault Refusal :=
  .next (if s.tgAllowed chan (s.tgCfg chan) then (s.writeGo chan true).tgGo chan true else s)

/-- `TG_STOP`: `tg_go` written 0 stops the generator at the next line (10 R305). -/
def execTgStop (chan : Nat) (s : State) : Host.Outcome State Fault Refusal :=
  .next ((s.writeGo chan false).tgGo chan false)

end Sys2Proof.Machine
end

