-- ==== Sys2Proof/Machine/Params.lean ====
section
/-! DEFINITION. Parameter keys as commands and registers read and write them, the fold of counts, and the Livery digest
(00 R5 to R10, 02 R67, R68, 13 R400, 14 R427). -/

namespace Sys2Proof.Machine

/-! ### The Livery digest (13 R400) -/

/-- The parameter list: device-scope `RWL` keys in ascending order, 4 B key and 8 B value each (13 R400). -/
def State.paramList (s : State) : List Byte :=
  (rangeFrom 1 15).flatMap (fun sub =>
    (sortBy (fun a b => decide (a.item ≤ b.item))
      ((keyRows sub).filter (fun r => decide (r.acc = .rwl) && decide (r.scope = .device)))).flatMap (fun r =>
      (rangeFrom r.item r.n).flatMap (fun it =>
        let k := sub * 2 ^ 24 + it
        toLe 4 k ++ toLe 8 (s.kvNat k))))

/-- The effective configuration record: four digests of 64 bytes (13 R400). -/
def State.configRecord (s : State) : List Byte :=
  s.sec.fwDigest ++ s.torus.shared ++
    (match s.job.bound, s.job.img with | some _, some i => i.digest | _, _ => List.replicate 64 0) ++
    sha512 s.paramList

/-- The Livery digest: bytes 0 to 7 of the record's SHA-512, little-endian (13 R400). -/
def State.livery (s : State) : Nat := leNat ((sha512 s.configRecord).take 8)

/-! ### Reading a key (14 R427) -/

/-- Codes of `fl_state` (12 R373). -/
def PortState.code : PortState → Nat
  | .off => 0
  | .pmdTrain => 1
  | .blockLock => 2
  | .ident => 3
  | .align => 4
  | .run => 5
  | .isolated => 6
  | .retrain => 7
  | .failed => 8

/-- The 64 bytes of a fault record (20 R532). -/
def FaultRec.encode (r : FaultRec) : List Byte :=
  toLe 8 0 ++ toLe 8 r.num ++ toLe 1 r.cls ++ toLe 1 r.status ++ toLe 1 r.cause ++ toLe 1 r.sub ++ toLe 2 r.inst ++
  toLe 2 r.elem ++ toLe 4 r.pc ++ toLe 4 r.opId ++ toLe 8 r.seq.toNat ++ toLe 8 r.addr.toNat ++ toLe 8 r.step.toNat ++
  toLe 8 r.time.toNat

/-- Word i of the record that `flt_sel` selects; a record no longer in the ring reads as zero (20 R546). -/
def State.fltWord (s : State) (i : Nat) : Nat :=
  match s.flt.ring.find? (fun r => decide (r.num = s.kvNat kFltSel)) with
  | some r => fieldLe r.encode (8 * i) 8
  | none => 0

/-- A bit as a number. -/
def b2n (b : Bool) : Nat := if b then 1 else 0

/-- The usable slots of a set of key hashes: written and not revoked (19 R509). -/
def usableSlots (keys : List (List Byte)) (revoke : BitVec 4) : Nat :=
  (List.range 4).foldl (fun a i => a + (if !(keys.getD i []).isEmpty && !revoke.getLsbD i then 2 ^ i else 0)) 0

/-- The Shade phase: 1 strap, 2 run, 3 sleep (18 R492, R508). -/
def State.pinPhase (s : State) : Nat := if s.clk.phase = .sleep then 3 else if s.clk.ashOut then 2 else 1

/-- The hottest sensor (17 R486). -/
def State.tjMax (s : State) : Int := s.pwr.sensors.foldl max (s.pwr.sensors.headD 0)

/-- The values that the machine computes when a key is read; none for a key whose value is stored. `n` numbers the free
value of a read of `vin_core_ma` (17 R486). -/
def State.liveKey (s : State) (n k : Nat) : Option (BitVec 64) :=
  let nat (v : Nat) : Option (BitVec 64) := some (BitVec.ofNat 64 v)
  if k = kJobSeed then some (match s.job.bound, s.job.img with | some _, some i => i.jobSeed | _, _ => 0)
  else if k = kLsExp then some (BitVec.ofInt 64 s.job.lsE)
  else if k = kLsClean then nat s.job.lsC
  else if k = kSkipRun then nat s.job.lsK
  else if k = kOptStep then some s.job.optStep
  else if k = kEpoch then nat s.job.epoch
  else if k = kStrap then some s.pins.strapWord
  else if k = kCoord then nat (coordWord s.torus.x s.torus.y s.torus.z + s.torus.slot % 64 * 32768 +
      s.torus.role % 16 * 2 ^ 24)
  else if k = kMapGen then nat s.torus.mapGen
  else if k = kBlock then
    nat (match s.job.bound with
      | some b => coordWord b.ox b.oy b.oz + coordWord (b.sx - 1) (b.sy - 1) (b.sz - 1) * 2 ^ 32
      | none => 0)
  else if k = kCobalt then some s.clk.cobalt
  else if k = kLivery then nat s.livery
  else if k = kJrnWm then nat (s.hostIf.wm.getD 0)
  else if k = kJrnUsed then nat s.hostIf.journal.length
  else if k = kTjMax then some (BitVec.ofInt 64 s.tjMax)
  else if k = kVinCoreMa then nat ((Config.freeWord freeAmps n).toNat % 2 ^ 32)
  else if k = kPinPhase then nat s.pinPhase
  else if k = kPinLevel then
    nat ((List.range 6).foldl (fun a i => a + b2n (s.pin i).level * 2 ^ i) 0)
  else if k = kSecBoot then nat (s.sec.fwSlot % 2 + s.sec.cfgSlot % 2 * 2 + b2n s.sec.fallback * 4)
  else if k = kSvFw then nat s.sec.fuses.svFw
  else if k = kSvCfg then nat s.sec.fuses.svCfg
  else if k = kKeySlots then
    nat (usableSlots s.sec.fuses.nisel s.sec.fuses.niselRevoke +
      usableSlots s.sec.fuses.owner s.sec.fuses.ownerRevoke * 16)
  else if k = kDbgNonce then some (Config.freeWord freeNonce s.sec.nonceCtr)
  else if k = kSpdmSessions then nat s.sec.sessions.length
  else if k = kFltHead then nat s.flt.num
  else if kFltWord0 ≤ k ∧ k < kFltWord0 + 8 then nat (s.fltWord (k - kFltWord0))
  else if k = kTmPlanLen then nat (match s.job.bound with | some b => b.planLen | none => 0)
  else if k = kTmPlanPeriod then
    nat (match s.job.bound with | some b => b.planLen + s.kvNat kSableLen | none => 0)
  else if k / 2 ^ 24 = 8 ∧ k % 65536 = 0x0101 then nat (s.port (bits k 16 8)).state.code
  else none

/-- Bit 29 of `tg_ctl`, `tg_busy` (10 R311). -/
def State.tgBusy (s : State) (k : Nat) : Nat :=
  if k / 2 ^ 24 = 6 ∧ (k % 65536 = 0x0200 ∨ k % 65536 = 0x0300) then
    let i := bits k 16 8
    b2n (s.chan (if k % 65536 = 0x0200 then i else 256 + i)).tgRun * 2 ^ 29
  else 0

/-- The 64-bit value a read of a key returns (14 R427): a computed one, else the stored one with its live bits. -/
def State.readKey (s : State) (n k : Nat) : BitVec 64 :=
  match s.liveKey n k with
  | some v => v
  | none => s.kvGet k ||| BitVec.ofNat 64 (s.tgBusy k)

/-! ### Writing a key (00 R6, R7; 14 R427) -/

/-- Whether a value's fields hold codes that a key's table admits where the table states no interval (10 R311, 14
R430). -/
def chkCodes (c : KChk) (v : Nat) : Bool :=
  match c with
  | .none => true
  | .burst => (List.range 4).all (fun i => decide (1 ≤ bits v (8 * i) 8) && decide (bits v (8 * i) 8 ≤ 64))
  | .tgctl => decide (bits v 10 2 ≠ 3) && decide (bits v 8 2 ≠ 3) && decide (bits v 0 4 ≤ 5)
  | .mul64 => decide (v % 64 = 0)
  | .winsize => decide (v % (256 * 1048576) = 0) && decide (v ≤ 64 * gib)

/-- Whether a value fits a key's width; a signed 32-bit key takes copies of bit 31 (14 R427). -/
def KeyRow.fits (r : KeyRow) (v : BitVec 64) : Bool :=
  r.wide || (if r.sgn then decide ((v.truncate 32).signExtend 64 = v) else decide (v.toNat < 2 ^ 32))

/-- Whether a value lies in the range a key's row states (14 R427). -/
def KeyRow.inRange (r : KeyRow) (v : BitVec 64) : Bool :=
  match r.range with
  | none => true
  | some (lo, hi) => let x : Int := if r.sgn then v.toInt else (v.toNat : Int); decide (lo ≤ x) && decide (x ≤ hi)

/-- Why a write of a key is refused: the status and reason, or none (14 R417, R427). -/
def State.writeRefusal (s : State) (k : Nat) (v : BitVec 64) : Option (Nat × Nat) :=
  match keyRow k with
  | none => some (stRefusedShape, 0x0103)
  | some r =>
    if r.acc = .ro then some (stRefusedShape, 0x0101)
    else if r.acc = .rwl ∧ s.job.locked then some (stRefusedShape, 0x0102)
    else if !r.fits v || !r.inRange v then some (stRefusedShape, 0x0104)
    else match r.map with
      | some m =>
        if v.toNat &&& (2 ^ 64 - 1 - m) ≠ 0 then some (stRefusedShape, 0x0003)
        else if !chkCodes r.chk v.toNat then some (stRefusedShape, 0x0104) else none
      | none => if !chkCodes r.chk v.toNat then some (stRefusedShape, 0x0104) else none

/-- The value a key holds after a write of `v` over `old`: `W1C` bits are cleared, `RO` bits keep (00 R7). -/
def KeyRow.newValue (r : KeyRow) (old v : BitVec 64) : BitVec 64 :=
  let ro := BitVec.ofNat 64 r.roBits
  match r.acc with
  | .w1c => old &&& ~~~(v &&& ~~~ro)
  | .ro => old
  | _ => (v &&& ~~~ro) ||| (old &&& ro)

/-- The channel of a channel-scope key (10 R311). -/
def keyChan (k : Nat) : Nat := if k % 65536 < 0x0300 then bits k 16 8 else 256 + bits k 16 8

/-- Whether a key is the channel item `it` (given for HBM4). -/
def isChanItem (k it : Nat) : Bool := decide (k / 2 ^ 24 = 6) && (decide (k % 65536 = it) || decide (k % 65536 = it + 0x100))

/-- What a write of a key does beside the key's own value, when it takes effect: a change of `hue_die_gib` leaves the HBM4
contents undefined (10 R287), a write of `tc_errs` forgets the first mismatch (10 R311). -/
def State.keyEffect (s : State) (k : Nat) (old : BitVec 64) : State :=
  if k = kHueDieGib then (if s.kvGet k = old then s else s.dramForget 0 0x010000000000)
  else if isChanItem k 0x0211 then
    (s.kvSet (kTcFirstAddr (keyChan k)) 0).kvSet (kTcFirstMask (keyChan k)) 0
  else s

/-- The `W1C` bits of a key that hardware has set in this cycle: the `CHATTER` bits (00 R7; 18 R496). -/
def State.setNow (s : State) (k : Nat) : BitVec 64 :=
  if k = kPinStatus then
    BitVec.ofNat 64 ((List.range 6).foldl (fun a n => a + (if (s.pin n).chatAt = some s.now then 2 ^ n else 0)) 0)
  else 0

/-- The value a key holds after a write: a `W1C` bit that hardware sets in the same cycle ends set (00 R7). -/
def State.valueAfter (s : State) (r : KeyRow) (k : Nat) (v : BitVec 64) : BitVec 64 :=
  r.newValue (s.kvGet k) v ||| (s.setNow k &&& s.kvGet k)

/-- A write of a key that R427 admits: while an image runs, a key that folds takes it at the next fold (02 R68). -/
def State.writeKey (s : State) (k : Nat) (v : BitVec 64) : State :=
  match keyRow k with
  | none => s
  | some r =>
    let old := s.kvGet k
    let s2 := if r.fold && s.imageRuns then { s with pendW := Tab.insert k v s.pendW }
      else (s.kvSet k (s.valueAfter r k v)).keyEffect k old
    if isChanItem k 0x0200 then s2.tgGo (keyChan k) (bitOf v.toNat 31) else s2

/-- A write of a channel's `tg_ctl` that would start a generator where R306 refuses the start (10 R306; log 37). -/
def State.startRefused (s : State) (k : Nat) (v : BitVec 64) : Bool :=
  isChanItem k 0x0200 && bitOf v.toNat 31 && !(s.chan (keyChan k)).tgRun &&
    !s.tgAllowed (keyChan k) { s.tgCfg (keyChan k) with ctl := v.toNat }

/-! ### The fold (02 R68) -/

/-- A pending write applied after the fold's additions (02 R68). -/
def State.foldWrite (s : State) (p : Nat × BitVec 64) : State :=
  match keyRow p.1 with
  | some r => (s.kvSet p.1 (s.valueAfter r p.1 p.2)).keyEffect p.1 (s.kvGet p.1)
  | none => s

/-- The fold: every unit's counts and flags into the device keys, then the gathered counts, then the pending writes
(02 R68). -/
def State.fold (s : State) : State :=
  let us := s.tiles.map (fun t => t.2.u)
  let sat := us.foldl (fun a u => satAdd a u.sat) 0
  let van := us.foldl (fun a u => satAdd a u.vanished) 0
  let nan := us.foldl (fun a u => satAdd a u.nanOut) 0
  let fl := us.foldl (fun a u => a ||| u.flags) (0 : BitVec 5)
  let s1 := ((s.countNow kCvtSaturated sat).countNow kCvtVanished van).countNow kCvtNanOut nan
  let s2 := s1.kvSet kIeeeFlags (s1.kvGet kIeeeFlags ||| fl.zeroExtend 64)
  let s3 := s.acc.foldl (fun x p => x.countNow p.1 p.2) s2
  let s4 := s.pendW.foldl State.foldWrite s3
  let units := s.tiles.map (fun t => (t.1, { t.2 with u := { t.2.u with flags := 0, sat := 0, vanished := 0, nanOut := 0 } }))
  { s4 with acc := [], pendW := [], tiles := units.filter (fun t => decide (t.2 ≠ {})) }

/-! ### Registers (14 R406) -/

/-- The ring and offset of a BAR0 address (14 R406). -/
def barRing (off : Nat) : Option (Nat × Nat) := if off < 0x1000 then some (off / 0x100, off % 0x100) else none

/-- A ring's control register as it reads (14 R406). -/
def Ring.ctlWord (g : Ring) : Nat :=
  b2n g.en * 2 ^ 31 + b2n g.rRun * 2 ^ 30 + b2n g.rErr * 2 ^ 29 + g.cqLog2 % 16 * 2 ^ 20 + g.crLog2 % 16 * 2 ^ 16 + g.vec % 32

/-- `dev_status` (14 R406). -/
def State.devStatus (s : State) : Nat :=
  b2n s.hostIf.ready * 2 ^ 31 + b2n s.hostIf.jfull * 2 ^ 30 + b2n s.hostIf.inReset * 2 ^ 29

/-- What a host read of BAR0 returns: reserved bits and every other offset read 0 (00 R6, R7; 14 R406). -/
def State.readBar (s : State) (off : Nat) : BitVec 64 :=
  match barRing off with
  | none => if off = 0x1000 then BitVec.ofNat 64 s.devStatus else 0
  | some (r, o) =>
    let g := s.ring r
    if o = 0x00 then g.crBase
    else if o = 0x08 then g.cqBase
    else if o = 0x10 then g.rlAddr
    else if o = 0x18 then g.slAddr
    else if o = 0x20 then BitVec.ofNat 64 g.ctlWord
    else 0

/-- A host write of a BAR0 register: reserved bits stay 0, other offsets take no effect (00 R6, 14 R406). -/
def State.writeBar (s : State) (off : Nat) (v : BitVec 64) : State :=
  match barRing off with
  | none => s
  | some (r, o) =>
    let g := s.ring r
    if o = 0x00 then s.setRing r { g with crBase := v &&& 0xFFFFFFFFFFFFF000 }
    else if o = 0x08 then s.setRing r { g with cqBase := v &&& 0xFFFFFFFFFFFFF000 }
    else if o = 0x10 then s.setRing r { g with rlAddr := v &&& 0xFFFFFFFFFFFFFFC0 }
    else if o = 0x18 then s.setRing r { g with slAddr := v &&& 0xFFFFFFFFFFFFFFC0 }
    else if o = 0x20 then s.writeCtl r (v.truncate 32)
    else s

/-- `REGISTER_WRITE`: a register write acts under its access code; a key write that R427 would refuse has no effect
(00 R6, R7). -/
def execRegisterWrite (target : RegTarget) (s : State) : Host.Outcome State Fault Refusal :=
  .next (match target with
    | .bar off v => s.writeBar off v
    | .key k v => if (s.writeRefusal k v).isSome || s.startRefused k v then s else s.writeKey k v)

end Sys2Proof.Machine
end

