-- ==== Sys2Proof/Machine/Faults.lean ====
section
/-! DEFINITION. Stopping a job, job faults, lost members and the retirement of the package (20 R533 to R542). -/

namespace Sys2Proof.Machine

/-! ### Stopping -/

/-- A tile with its running work stopped (14 R428, 20 R540). -/
def Tile.stop (t : Tile) : Tile :=
  { t with stopped := [], chain := {}, slate := { t.slate with run := .idle }, streams := [], work := [] }

/-- Every entry stopped at once; the step in progress is neither committed nor counted (14 R428, 20 R539). -/
def State.stopEntries (s : State) : State :=
  let keep (src : UmberSrc) : Bool := match src with | .cmd _ => true | .entry _ => false
  { s with
    tiles := (s.tiles.map (fun t => (t.1, t.2.stop))).filter (fun t => decide (t.2 ≠ {}))
    engines := s.engines.map (fun e =>
      { e with solve := e.solve.bind (fun x => if keep x.src then some x else none)
               dyn := e.dyn.bind (fun x => if keep x.src then some x else none) })
    job := { s.job with inStep := false, inSable := false, ents := [], sent := false, part := none, vGot := 0, vFwd := false
                        combined := none, fault := false, written := [], swBufs := [] } }

/-- Every engine, stream and generator stopped (20 R540). -/
def State.stopAll (s : State) : State :=
  let s1 := s.stopEntries
  { s1 with
    engines := s1.engines.map (fun e => { e with solve := none, dyn := none })
    mem := { s1.mem with chans := (s1.mem.chans.map (fun c => (c.1, { c.2 with tgRun := false, tgStop := false }))).filter
                           (fun c => decide (c.2 ≠ {})) } }

/-- The running `RUN_STEPS` (14 R421). -/
def State.runCmd (s : State) : Option Cmd :=
  s.hostIf.cmds.find? (fun c => c.started && (match c.op with | .runSteps _ => true | _ => false))

/-- The running `RUN_STEPS` retires; its result is the last step run (14 R418, R421). -/
def State.endRun (s : State) (status detail : Nat) : State :=
  match s.runCmd with
  | some c => s.retire c.hdr { status := status, result := s.job.lastRun.toNat, detail := detail }
  | none => s

/-! ### Job faults (20 R539) -/

/-- A job fault recorded: the record of class 2 and the reason (20 R531, R539). -/
def State.jobFaulted (s : State) (reason : Nat) (r : FaultRec) : State :=
  let s1 := s.record { r with cls := 2 }
  { s1 with job := { s1.job with jobFault := some reason } }

/-- A job fault that stops the job at once (20 R539): it acts while an image is bound and the job has not stopped. -/
def State.jobFaultNow (s : State) (reason : Nat) (r : FaultRec) : State :=
  if s.job.bound.isSome && s.job.jobFault.isNone then
    ((s.jobFaulted reason r).stopEntries).endRun stFaultJob reason
  else s

/-- A member of the block is lost (20 R542). -/
def State.memberLost (s : State) (x y z : Nat) : State :=
  s.jobFaultNow 0x0601 { sub := 0x08, cause := Config.faultCause 1 % 256, addr := BitVec.ofNat 64 (coordWord x y z) }

/-! ### Retirement (20 R540, R541) -/

/-- Every accepted command answered `FAULT_DEVICE` (20 R540). -/
def State.failCmds (s : State) : State :=
  s.hostIf.cmds.foldl (fun x c => x.retire c.hdr { status := stFaultDevice }) s

/-- The package marked retired, `ALERT_N` and the event `RETIRED` (20 R540). -/
def State.markRetired (s : State) : State :=
  let s1 := s.event .retired
  { s1 with flt := { s1.flt with retired := true } }

/-- A package retires with Ivory running: engines stop, the record, the retire records, the replies, the event, in this
order (20 R540). -/
def State.retirePackage (s : State) (r : FaultRec) : State :=
  if s.flt.retired then s
  else (((s.stopAll.record { r with cls := 3 }).sendRetire).failCmds).markRetired

/-- A package retires with Ivory stopped: Ash writes the record to its own store and holds the CXL controller in reset;
the ports send retire records where they are powered (20 R541). -/
def State.retireByAsh (s : State) (r : FaultRec) (ports : Bool) : State :=
  if s.flt.retired then s
  else
    let s1 := s.stopAll.recordAsh { r with cls := 3 }
    let s2 := if ports then s1.sendRetire
      else (List.range 8).foldl (fun x p => x.portOff p 0) s1
    let s3 := s2.markRetired
    { s3 with flt := { s3.flt with ivoryStopped := true }
              hostIf := { s3.hostIf with ready := false, cxlHeld := true, cxlUp := false, cmds := [] } }

end Sys2Proof.Machine
end

