-- ==== Sys2Proof/Machine/UmberS.lean ====
section
/-! DEFINITION. Umber-S: range analysis, matrix formats, preconditioners, the three methods, stopping, distributed solves,
charged time and results (chapter 08). The order of the FP64 scalar operations within a method, which 08 leaves to the
method's usual form, is log 21. -/

namespace Sys2Proof.Machine

/-! ### The descriptor (08 R207, R208) -/

/-- A signed byte of a header word. -/
def sbyte (w lo : Nat) : Int := signed 8 (bits w lo 8)

/-- A solve descriptor read from its 192 bytes (08 R207). -/
def parseSolve (bs : List Byte) : SolveDesc :=
  let w := fieldLe bs 0 64
  { deadline := bits w 448 64, rtol := bits w 384 64, atol := bits w 320 64, n := bits w 280 40 + 1
    nnz := bits w 240 40 + 1, nCap := bits w 224 16, fxA := sbyte w 216, fxM := sbyte w 208, fxB := sbyte w 200
    fxX := sbyte w 192, fxR := sbyte w 184, fxZ := sbyte w 176, fxP := sbyte w 168, fxQ := sbyte w 160
    pivLog2 := sbyte w 152, dirLog2 := bits w 144 8, method := bits w 140 4, pc := bits w 136 4, mfmt := bits w 134 2
    mfPar := bits w 130 4, restart := bits w 125 5 + 1, cheb := bits w 121 4 + 1, engLog2 := bits w 119 2
    transpose := bitOf w 118, warm := bitOf w 117, pcReuse := bitOf w 116, dlMode := bitOf w 115, dist := bitOf w 114
    fmtB := bits w 106 8, fmtX := bits w 98 8, rsvd := bits w 32 66, opId := bits w 0 32
    slots := (List.range 16).map (fun i => fieldLe bs (64 + 8 * i) 8) }

/-- The eight FP64 codes of a declared-bounds block (08 R208). -/
def parseBounds (bs : List Byte) : List Nat := (List.range 8).map (fun i => fieldLe bs (8 * i) 8)

/-- A descriptor with the key's defaults for 0x80 in `piv_log2` and 0xFF in `dir_log2` (08 R242). -/
def SolveDesc.defaults (d : SolveDesc) (piv : Int) (dir : Nat) : SolveDesc :=
  { d with pivLog2 := if d.pivLog2 = -128 then piv else d.pivLog2, dirLog2 := if d.dirLog2 = 255 then dir else d.dirLog2 }

/-- Whether a descriptor's fields hold codes that R207 admits. -/
def SolveDesc.shapeOk (d : SolveDesc) : Bool :=
  let ioFmt (n : Nat) : Bool := n == 1 || n == 2 || n == 15
  decide (d.method ≤ 2) && decide (d.pc ≤ 5) && decide (d.mfmt ≤ 2) && decide (d.engLog2 ≤ 2) && decide (d.rsvd = 0) &&
  decide (d.slots.getD 15 0 = 0) && ioFmt d.fmtB && ioFmt d.fmtX && decide (d.dirLog2 ≤ 32) &&
  (match d.mfmt with
    | 1 => [1, 2, 3, 4, 6, 8].contains d.mfPar
    | 2 => decide (3 ≤ d.mfPar) && decide (d.mfPar ≤ 6)
    | _ => true)

/-! ### Range analysis (08 R217 to R219) -/

/-- The exact value of an FP64 code; none for an infinity or a NaN. -/
def f64Rat (c : Nat) : Option Rat :=
  match f64.decode c with
  | .zero _ => some 0
  | .fin n m e =>
    let v : Rat := if 0 ≤ e then ((m * 2 ^ e.toNat : Nat) : Rat) else (m : Rat) / ((2 ^ (-e).toNat : Nat) : Rat)
    some (if n then - v else v)
  | _ => none

/-- A rational 2^k. -/
def pow2 (k : Int) : Rat := if 0 ≤ k then ((2 ^ k.toNat : Nat) : Rat) else 1 / ((2 ^ (-k).toNat : Nat) : Rat)

/-- ceil(log2 v) of a positive rational. -/
def clog2Rat (v : Rat) : Int :=
  let k : Int := (Nat.log2 v.num.natAbs : Int) - (Nat.log2 v.den : Int)
  if v ≤ pow2 (k - 1) then k - 1 else if v ≤ pow2 k then k else k + 1

/-- The point of a class of bound M (08 R217). -/
def pointOf (m : Rat) : Int := if m = 0 then 127 else 61 - clog2Rat m

/-- The coefficients, in ascending powers of A, of the polynomial that d steps of the Chebyshev iteration on [lo, hi]
apply to r from a zero start (08 R223; log 21). Each step answers (z, direction, rho) as polynomials. On an interval of one
point the step's factors are their limits, 0 and 1 / lo. -/
def chebPoly (lo hi : Rat) (d : Nat) : List Rat :=
  let th := (hi + lo) / 2
  let de := (hi - lo) / 2
  let sg := th / de
  let add (a b : List Rat) : List Rat :=
    (List.range (max a.length b.length)).map (fun i => a.getD i 0 + b.getD i 0)
  let scale (c : Rat) (a : List Rat) : List Rat := a.map (fun x => c * x)
  let step (t : List Rat × List Rat × Rat) : List Rat × List Rat × Rat :=
    let rho := if de = 0 then 0 else 1 / (2 * sg - t.2.2)
    let res := add [1] (scale (-1) (0 :: t.1))
    let dir := add (scale (rho * t.2.2) t.2.1) (scale (if de = 0 then 1 / th else 2 * rho / de) res)
    (add t.1 dir, dir, rho)
  ((List.range (d - 1)).foldl (fun t _ => step t) ([1 / th], [1 / th], if de = 0 then 0 else 1 / sg)).1

/-- The bound the preconditioner places on the norm of M⁻¹ (08 R218). -/
def mnormOf (d : SolveDesc) (diagMin lo hi dir : Rat) : Rat :=
  match d.pc with
  | 0 => 1
  | 1 => 1 / diagMin
  | 2 => 3 * dir / diagMin
  | 3 => 6 * dir / diagMin
  | 4 => (if d.mfmt = 1 then (d.mfPar : Rat) else 1) * dir / diagMin
  | _ => ((chebPoly lo hi d.cheb).map abs).foldl (fun a b => a + b) 0

/-- The classes a range refusal names, in the order of R218: 1 `fx_a`, 2 `fx_b`, 3 `fx_x`, 4 `fx_r`, 5 `fx_m`, 6 `fx_z`,
7 `fx_p`, 8 `fx_q`. -/
abbrev RangeClass := Nat

/-- The point of a class, or that class where its bound is missing or its point lies outside -128 to 127 (08 R217, R219). -/
def classPoint (c : RangeClass) (m : Option Rat) : Except RangeClass Int :=
  match m with
  | none => .error c
  | some v => if -128 ≤ pointOf v ∧ pointOf v ≤ 127 then .ok (pointOf v) else .error c

/-- A declared bound: its FP64 code is not +0, and its value is finite and not negative (08 R208, R219; log 61). -/
def declared (bounds : List Nat) (i : Nat) : Option Rat :=
  if bounds.getD i 0 = 0 then none
  else match f64Rat (bounds.getD i 0) with
    | some v => if 0 ≤ v then some v else none
    | none => none

/-- Whether a tolerance lies below 2^k: a NaN and an infinity above it do not (08 R219). -/
def tolBelow (c : Nat) (k : Int) : Bool :=
  match f64.decode c with
  | .inf neg => neg
  | _ => match f64Rat c with
    | some v => decide (v < pow2 k)
    | none => false

/-- The range analysis: the descriptor with its points and the bounds they rest on, or the first class that has no bound
or no point (08 R217 to R219). The target's distance from the residual grid is a matter of `fx_r`, and the interval of
Chebyshev one of `fx_z` (log 61). -/
def analyse (d : SolveDesc) (bounds : List Nat) : Except RangeClass SolveDesc := do
  let pos (v : Option Rat) : Option Rat := v.filter (fun x => decide (0 < x))
  let aMax := declared bounds 2
  let bMax := declared bounds 0
  let rowMax := declared bounds 3
  let diag := pos (declared bounds 4)
  let dir := pow2 d.dirLog2
  let x : Option Rat := if bounds.getD 1 0 ≠ 0 then declared bounds 1
    else do return (← bMax) / (← pos (declared bounds 5))
  let fxA ← classPoint 1 aMax
  let fxB ← classPoint 2 bMax
  let fxX ← classPoint 3 x
  let r : Option Rat := do return (← bMax) + (← rowMax) * (← x)
  let fxR ← classPoint 4 r
  if tolBelow d.atol (8 - fxR) && tolBelow d.rtol (-48) then .error 4
  let m : Option Rat := match d.pc with
    | 1 => do return 1 / (← diag)
    | 2 | 3 | 4 => do return dir * max (← aMax) 1 / (← diag)
    | _ => some 0
  let fxM ← classPoint 5 m
  let mn : Option Rat := match d.pc with
    | 0 => some 1
    | 5 => do
      let hi ← if bounds.getD 7 0 = 0 then rowMax else declared bounds 7
      return mnormOf d 1 (← pos (declared bounds 6)) hi dir
    | _ => do return mnormOf d (← diag) 1 1 dir
  let z : Option Rat := do return (← mn) * (← r)
  let p : Option Rat := if d.method = 2 then some 1 else do return dir * max (← r) (← z)
  let zc : Option Rat := match d.method with
    | 0 => z
    | 1 => do return (← mn) * max (← r) (← p)
    | _ => mn
  let fxZ ← classPoint 6 zc
  let fxP ← classPoint 7 p
  let fxQ ← classPoint 8 (do return (← rowMax) * (← if d.method = 0 then p else zc))
  return { d with bnd := bounds, fxA := fxA, fxB := fxB, fxX := fxX, fxR := fxR, fxM := fxM, fxZ := fxZ, fxP := fxP
                  fxQ := fxQ }

/-! ### Rows and engines (08 R204, R206, R211 to R213) -/

/-- The rows of node `k` of `nodes`, first row and count: those the image declares (08 R205), or, where it declares none,
equal contiguous shares (log 42). A solve that is not distributed has them all on its node. -/
def nodeRows (d : SolveDesc) (k nodes : Nat) : Nat × Nat :=
  if !d.dist then (0, d.n)
  else match d.own with
    | [] => (let q := ceilDiv d.n nodes; (min (k * q) d.n, min ((k + 1) * q) d.n - min (k * q) d.n))
    | own => match own.find? (fun r => decide (r.1 = k)) with
      | some r => r.2
      | none => (0, 0)

/-- The block edge an engine boundary is a multiple of (08 R204). -/
def SolveDesc.edge (d : SolveDesc) : Nat :=
  let e := if d.mfmt = 1 then max 1 d.mfPar else 1
  let b := if d.pc = 2 then 3 else if d.pc = 3 then 6 else 1
  Nat.lcm e b

/-- First row of engine slot `e` of a node of `n` rows (08 R204). -/
def engStart (d : SolveDesc) (n e : Nat) : Nat :=
  let eng := 2 ^ d.engLog2
  if eng ≤ e then n else e * n / eng / d.edge * d.edge

/-- The row ranges of the engine slots. -/
def engRanges (d : SolveDesc) (n : Nat) : List (Nat × Nat) :=
  (List.range (2 ^ d.engLog2)).map (fun e => (engStart d n e, engStart d n (e + 1)))

/-- What reads bytes at an address: device memory, or the constants of an image. -/
abbrev ByteRd := Nat → Nat → List Byte

/-- A signed integer element read from memory. -/
def rdInt (rd : ByteRd) (a n : Nat) : Int := signed (8 * n) (leNat (rd a n))

/-- The stored entries of stored row `k` of a node of `n` rows, padding included: position in `a_val` and column, -1 for
padding. A SELL row is numbered as it is stored; stored rows from `n` on are the padding rows of the last slice or block
row (08 R211, R212). -/
def SolveDesc.places (d : SolveDesc) (rd : ByteRd) (k : Nat) : List (Nat × Int) :=
  let ptr (j : Nat) : Nat := (rdInt rd (d.slots.getD 2 0 + 8 * j) 8).toNat
  let col (j : Nat) : Int := rdInt rd (d.slots.getD 1 0 + 4 * j) 4
  match d.mfmt with
  | 0 => (rangeFrom (ptr k) (ptr (k + 1) - ptr k)).map (fun j => (j, col j))
  | 1 =>
    let be := max 1 d.mfPar
    let w := ptr 0
    (List.range w).flatMap (fun (b : Nat) =>
      let blk := k / be * w + b
      (List.range be).map (fun (j : Nat) =>
        (blk * be * be + k % be * be + j, if col blk < 0 then -1 else col blk * (be : Int) + (j : Int))))
  | _ =>
    let cc := 2 ^ d.mfPar
    let base := ptr (k / cc)
    let w := (ptr (k / cc + 1) - base) / cc
    (List.range w).map (fun j => (base + j * cc + k % cc, col (base + j * cc + k % cc)))

/-- The stored row that holds row `i` of a node of `n` rows (08 R212). -/
def SolveDesc.storedRow (d : SolveDesc) (rd : ByteRd) (n i : Nat) : Option Nat :=
  if d.mfmt = 2 then (List.range n).find? (fun k => decide ((rdInt rd (d.slots.getD 3 0 + 4 * k) 4).toNat = i)) else some i

/-- The stored entries of row `i` of the node, padding included (08 R211, R212). -/
def SolveDesc.rowPlaces (d : SolveDesc) (rd : ByteRd) (n i : Nat) : List (Nat × Int) :=
  match d.storedRow rd n i with
  | some k => d.places rd k
  | none => []

/-- The stored rows of a node of `n` rows: whole blocks, or whole slices (08 R212). -/
def SolveDesc.storedRows (d : SolveDesc) (n : Nat) : Nat :=
  match d.mfmt with
  | 0 => n
  | 1 => alignUp n (max 1 d.mfPar)
  | _ => alignUp n (2 ^ d.mfPar)

/-- The positions of the padding rows after a node's own rows (08 R212, R235). -/
def SolveDesc.padPlaces (d : SolveDesc) (rd : ByteRd) (n : Nat) : List Nat :=
  (rangeFrom n (d.storedRows n - n)).flatMap (fun k => (d.places rd k).map (fun p => p.1))

/-- The stored entries of a node of `n` rows, padding included (08 R206, R213). -/
def SolveDesc.stored (d : SolveDesc) (rd : ByteRd) (n : Nat) : Nat :=
  let ptr (j : Nat) : Nat := (rdInt rd (d.slots.getD 2 0 + 8 * j) 8).toNat
  match d.mfmt with
  | 0 => ptr n
  | 1 => ptr 0 * max 1 d.mfPar * d.storedRows n
  | _ => ptr (d.storedRows n / 2 ^ d.mfPar)

/-- Whether a node's share, or a whole solve, is larger than R206 admits: rows and stored entries of each node. -/
def tooLarge (shares : List (Nat × Nat)) : Bool :=
  shares.any (fun x => decide (2 ^ 31 < x.1) || decide (2 ^ 35 < x.2)) ||
    decide (2 ^ 40 < (shares.map (fun x => x.1)).foldl (fun a b => a + b) 0) ||
    decide (2 ^ 40 < (shares.map (fun x => x.2)).foldl (fun a b => a + b) 0)

/-- The node's rows without padding, and the stored entries of each stored row (08 R211 to R213). -/
def SolveDesc.readRows (d : SolveDesc) (rd : ByteRd) (n : Nat) : List (List (Nat × Int)) × List Nat :=
  let rows := (List.range n).map (d.rowPlaces rd n)
  (rows.map (fun r => r.filterMap (fun e =>
    if e.2 < 0 then none else some (e.2.toNat, rdInt rd (d.slots.getD 0 0 + 8 * e.1) 8))),
    rows.map List.length ++ (rangeFrom n (d.storedRows n - n)).map (fun k => (d.places rd k).length))

/-! ### Exact arithmetic and write-back (08 R214, R215, R220) -/

/-- A solve while a command of it runs: its record, the unread part of what other nodes sent, and what it waits for. -/
structure Run where
  st : SolveSt
  inp : List (List Int) := []
  ask : Option NetAsk := none
deriving DecidableEq, Repr, Inhabited

/-- A part of a solve. -/
abbrev RunM (α : Type) := StateM Run α

/-- What the other nodes add: nothing on one node; else the next input, or the solve waits for it (08 R232). -/
def askNet (a : NetAsk) (own : List Int) : RunM (List Int) := fun r =>
  if !r.st.desc.dist || r.ask.isSome then (own, r)
  else match r.inp with
    | x :: t => (x, { r with inp := t })
    | [] => (own, { r with ask := some a })

/-- The solve's record changed. -/
def modSt (f : SolveSt → SolveSt) : RunM Unit := modify (fun r => { r with st := f r.st })

/-- The solve's record. -/
def getSt : RunM SolveSt := do return (← get).st

/-- A scalar operation's result, its flags kept (08 R215, 02 R42). -/
def scalarOp (x : Nat × BitVec 5) : RunM Nat := do
  modSt (fun t => { t with ev := t.ev.join (Ev.ofFl x.2) })
  return x.1

/-- An exact value written back at a point: nearest even, saturated at ±(2^63 - 1) steps; true when it saturated (08 R214;
02 R45 has -2^63 as the lower limit, and no ruling decides: DESIGN CHOICE, log 56). -/
def writeBack (fx : Int) (d : Dy) : Int × Bool :=
  let i := (roundInt (.dir .tiesToEven) d (-fx)).1
  let lim : Int := 2 ^ 63 - 1
  if lim < i then (lim, true) else if i < -lim then (-lim, true) else (i, false)

/-- A vector written back: saturations are counted and taint the solve (08 R214, R220). -/
def putVec (fx : Int) (ds : List Dy) : RunM (List Int) := do
  let ws := ds.map (writeBack fx)
  let n := (ws.filter (fun w => w.2)).length
  modSt (fun t => { t with
    sat := t.sat + n, tainted := t.tainted || decide (0 < n), rangeHit := t.rangeHit || decide (0 < n)
    ev := t.ev.join { sat := n, satEv := decide (0 < n) } })
  return ws.map (fun w => w.1)

/-- A vector's exact values. -/
def exactVec (fx : Int) (v : List Int) : List Dy := v.map (fun i => { m := i, e := -fx })

/-- The exact value of an FP64 code. -/
def coef (c : Nat) : Dy := (f64.decode c).dy

/-- u + c v, element by element, exactly (08 R215). -/
def axpy (u : List Dy) (c : Dy) (v : List Dy) : List Dy := u.zipWith (fun a b => a.add (c.mul b)) v

/-- An exact dot product of two vectors, in units of 2^-(point + point) (08 R214). -/
def dotInt (a b : List Int) : Int := (a.zipWith (fun x y => x * y) b).foldl (fun s t => s + t) 0

/-- The exact sums of a synchronisation, combined over the nodes (08 R214, R232). -/
def syncSums (parts : List Int) : RunM (List Int) := askNet (.sums parts) parts

/-- An exact sum at a point as the scalar unit takes it: one conversion to FP64 (08 R215). -/
def toScalar (n : Int) (pt : Int) : RunM Nat := scalarOp (f64.result .tiesToEven (DVal.ofDy { m := n, e := -pt }))

/-- Whether an FP64 code is zero, an infinity or a NaN: as a denominator or a coefficient, a breakdown (08 R216). -/
def badScalar (c : Nat) (zeroBad : Bool) : Bool :=
  let v := f64.decode c
  !v.isFinite || (zeroBad && v.isZero)

/-- What the rows of the other nodes add to row `i` of a distributed transposed product. R234 sums it, and no rule says how
it comes to this node: a free value for each product (log 42). -/
def SolveSt.othersPart (t : SolveSt) (i : Nat) : Int :=
  if t.desc.dist then Config.freeInt (4 * t.startTick + t.fields.headD 0) (t.prods * 2 ^ 31 + i) else 0

/-- The exact product of A, or of its transpose, with a vector, as the node's rows take it (08 R211, R214, R232, R234). -/
def productDy (fv : Int) (v : List Int) : RunM (List Dy) := do
  modSt (fun t => { t with prods := t.prods + 1 })
  let t ← getSt
  let halo ← askNet (.halo v) []
  let e := -(t.desc.fxA + fv)
  if t.desc.transpose then
    let y := (t.rows.zip v).foldl (fun (acc : List Int) rv =>
      rv.1.foldl (fun acc c => modAt (fun a => a + c.2 * rv.2) acc c.1) acc) (List.replicate t.rows.length 0)
    return y.zipIdx.map (fun i => { m := i.1 + t.othersPart i.2, e := e })
  else
    let full := v ++ halo
    return t.rows.map (fun row => { m := row.foldl (fun a c => a + c.2 * full.getD c.1 0) 0, e := e })

/-- The product class vector A v (08 R214, R218). -/
def product (fv : Int) (v : List Int) : RunM (List Int) := do
  let y ← productDy fv v
  putVec (← getSt).desc.fxQ y

/-! ### Preconditioners (08 R223 to R225, R234) -/

/-- A number of engine-local bookkeeping: the engine range a row lies in. -/
def rangeOf (d : SolveDesc) (n i : Nat) : Nat × Nat :=
  ((engRanges d n).find? (fun r => decide (r.1 ≤ i) && decide (i < r.2))).getD (0, n)

/-- The largest magnitude of a row (08 R224). -/
def rowTop (row : List (Nat × Int)) : Nat := row.foldl (fun a c => max a c.2.natAbs) 0

/-- A row's entry, 0 where none is stored. -/
def rowGet (row : List (Nat × Int)) (j : Nat) : Int := ((row.find? (fun c => decide (c.1 = j))).map (fun c => c.2)).getD 0

/-- The floor of a row in steps of `fx_m`: 2^`piv_log2` times its largest magnitude, at least one step (08 R224). -/
def pivFloor (d : SolveDesc) (row : List (Nat × Int)) : Int :=
  max 1 (writeBack d.fxM { m := (rowTop row : Int), e := d.pivLog2 - d.fxA }).1

/-- A pivot against its floor: replaced by sign times floor when below it in magnitude; true when replaced (08 R224). -/
def floorPivot (f p : Int) : Int × Bool :=
  if (p.natAbs : Int) < f then (if p < 0 then -f else f, true) else (p, false)

/-- a / b (b not zero) rounded to nearest even at a point and saturated (08 R214): the quotient is cut far below the
grid, with a sticky bit. -/
def divDy (a b : Dy) (fx : Int) : Int × Bool :=
  let k := Nat.log2 b.m.natAbs + 70 + (fx + a.e - b.e).natAbs
  let q := a.m.natAbs * 2 ^ k / b.m.natAbs
  let m : Nat := 2 * q + (if a.m.natAbs * 2 ^ k % b.m.natAbs = 0 then 0 else 1)
  let neg := decide ((a.m < 0) ≠ (b.m < 0))
  writeBack fx { m := if neg then -(m : Int) else (m : Int), e := a.e - b.e - (k : Int) - 1 }

/-- An integer at a point as an exact value. -/
def atPt (fx i : Int) : Dy := { m := i, e := -fx }

/-- A value taken from `fx_a` to `fx_m`. -/
def aToM (d : SolveDesc) (v : Int) : Int × Bool := writeBack d.fxM { m := v, e := -d.fxA }

/-- a - b c of values at `fx_m`, exactly, written back at `fx_m`. -/
def mulSubM (d : SolveDesc) (a b c : Int) : Int × Bool :=
  writeBack d.fxM ((atPt d.fxM a).sub ((atPt d.fxM b).mul (atPt d.fxM c)))

/-- Factoring's tally: saturations and pivots replaced. -/
abbrev Tally := Nat × Nat

/-- A tally with a write-back's saturation. -/
def tallySat (t : Tally) (w : Int × Bool) : Tally := (t.1 + b2n w.2, t.2)

/-- Row `i` below pivot row `k` with that row's multiple taken out, on the columns above `k` (08 R223). -/
def elimRow (d : SolveDesc) (k : Nat) (pr ri : List Int) : List Int × Tally :=
  let l := divDy (atPt d.fxM (ri.getD k 0)) (atPt d.fxM (pr.getD k 1)) d.fxM
  let ws := ri.zipIdx.map (fun c => if c.2 ≤ k then ((0 : Int), false) else mulSubM d c.1 l.1 (pr.getD c.2 0))
  (ws.map (fun w => w.1), ws.foldl tallySat (tallySat (0, 0) l))

/-- Step `k` of the elimination of a block with its unit columns beside it. -/
def elimStep (d : SolveDesc) (floors : List Int) (acc : List (List Int) × Tally) (k : Nat) : List (List Int) × Tally :=
  let pr := acc.1.getD k []
  let (p, rep) := floorPivot (floors.getD k 1) (pr.getD k 0)
  let pr := setAt pr k p
  let out := acc.1.zipIdx.map (fun r =>
    if r.2 < k then (r.1, ((0, 0) : Tally)) else if r.2 = k then (pr, (0, b2n rep)) else elimRow d k pr r.1)
  (out.map (fun r => r.1), out.foldl (fun t r => (t.1 + r.2.1, t.2 + r.2.2)) acc.2)

/-- The inverse of a dense block by LU without row exchange, with floored pivots: rows at `fx_m` (08 R223, R224; log
41). -/
def invertBlock (d : SolveDesc) (floors : List Int) (blk : List (List Int)) : List (List Int) × Tally :=
  let b := blk.length
  let one := (writeBack d.fxM { m := 1, e := 0 }).1
  let aug := blk.zipIdx.map (fun r => r.1 ++ (List.range b).map (fun j => if j = r.2 then one else 0))
  let fwd := (List.range b).foldl (elimStep d floors) (aug, (0, 0))
  (List.range b).reverse.foldl (fun (acc : List (List Int) × Tally) i =>
    let ri := fwd.1.getD i []
    let ws := (List.range b).map (fun j =>
      let num := (rangeFrom (i + 1) (b - i - 1)).foldl (fun (a : Dy) k =>
        a.sub ((atPt d.fxM (ri.getD k 0)).mul (atPt d.fxM ((acc.1.getD k []).getD j 0)))) (atPt d.fxM (ri.getD (b + j) 0))
      divDy num (atPt d.fxM (ri.getD i 1)) d.fxM)
    (setAt acc.1 i (ws.map (fun w => w.1)), ws.foldl tallySat acc.2)) (List.replicate b [], fwd.2)

/-- The diagonal blocks of an engine's rows: first row and edge (08 R223). -/
def diagBlocks (d : SolveDesc) (n : Nat) : List (Nat × Nat) :=
  let b := if d.pc = 2 then 3 else 6
  (engRanges d n).flatMap (fun r =>
    (List.range (ceilDiv (r.2 - r.1) b)).map (fun k => (r.1 + k * b, min b (r.2 - r.1 - k * b))))

/-- One row of the incomplete factors: the rows above it taken out on its own pattern, in ascending order (08 R223). -/
def iluRow (d : SolveDesc) (lo : Nat) (done : List (List (Nat × Int))) (row : List (Nat × Int)) :
    List (Nat × Int) × Tally :=
  (done.zipIdx.foldl (fun (acc : List (Nat × Int) × Tally) u =>
    let k := lo + u.2
    if (acc.1.find? (fun c => decide (c.1 = k))).isNone then acc
    else
      let l := divDy (atPt d.fxM (rowGet acc.1 k)) (atPt d.fxM (rowGet u.1 k)) d.fxM
      let ws := acc.1.map (fun c =>
        if c.1 = k then (c.1, l) else if k < c.1 then (c.1, mulSubM d c.2 l.1 (rowGet u.1 c.1)) else (c.1, (c.2, false)))
      (ws.map (fun w => (w.1, w.2.1)), ws.foldl (fun t w => tallySat t w.2) acc.2)) (row, (0, 0)))

/-- The incomplete factors of one engine's rows, in ascending row order, with floored pivots (08 R205, R223, R224). -/
def iluEngine (d : SolveDesc) (rows : List (List (Nat × Int))) (r : Nat × Nat) : List (List (Nat × Int)) × Tally :=
  (rangeFrom r.1 (r.2 - r.1)).foldl (fun (acc : List (List (Nat × Int)) × Tally) i =>
    let raw := rows.getD i []
    let own := sortBy (fun a b => decide (a.1 ≤ b.1)) (raw.filter (fun c => decide (r.1 ≤ c.1) && decide (c.1 < r.2)))
    let conv := own.map (fun c => (c.1, aToM d c.2))
    let (row, tl) := iluRow d r.1 acc.1 (conv.map (fun c => (c.1, c.2.1)))
    let (p, rep) := floorPivot (pivFloor d raw) (rowGet row i)
    let row := if (row.find? (fun c => decide (c.1 = i))).isSome then row.map (fun c => if c.1 = i then (i, p) else c)
      else (row.filter (fun c => decide (c.1 < i))) ++ [(i, p)] ++ (row.filter (fun c => decide (i < c.1)))
    let t := conv.foldl (fun t c => tallySat t c.2) acc.2
    (acc.1 ++ [row], (t.1 + tl.1, t.2 + tl.2 + b2n rep))) ([], (0, 0))

/-- The factors of a preconditioner over the node's rows (08 R205, R223, R224). -/
def factor (d : SolveDesc) (rows : List (List (Nat × Int))) : PcData × Tally :=
  let n := rows.length
  match d.pc with
  | 1 =>
    let out := rows.zipIdx.map (fun r =>
      let a := rowGet r.1 r.2
      let f := pivFloor d r.1
      let low := (atPt d.fxA (a.natAbs : Int)).lt (atPt d.fxM f)
      let w := divDy { m := 1, e := 0 } (if low then atPt d.fxM (if a < 0 then -f else f) else atPt d.fxA a) d.fxM
      (w.1, (b2n w.2, b2n low)))
    ({ diag := out.map (fun o => o.1) }, out.foldl (fun t o => (t.1 + o.2.1, t.2 + o.2.2)) (0, 0))
  | 2 | 3 =>
    let out := (diagBlocks d n).map (fun k =>
      let conv := (List.range k.2).map (fun i => (List.range k.2).map (fun j =>
        aToM d (rowGet (rows.getD (k.1 + i) []) (k.1 + j))))
      let (inv, t) := invertBlock d ((List.range k.2).map (fun i => pivFloor d (rows.getD (k.1 + i) [])))
        (conv.map (fun r => r.map (fun w => w.1)))
      ((k.1, k.2, inv.flatten), conv.flatten.foldl tallySat t))
    ({ blocks := out.map (fun o => o.1) }, out.foldl (fun t o => (t.1 + o.2.1, t.2 + o.2.2)) (0, 0))
  | 4 =>
    let out := (engRanges d n).map (iluEngine d rows)
    ({ ilu := out.flatMap (fun o => o.1) }, out.foldl (fun t o => (t.1 + o.2.1, t.2 + o.2.2)) (0, 0))
  | _ => ({}, (0, 0))

/-- A triangular solve over the incomplete factors in one direction: `order` gives the rows, `sees i` the rows already
solved that row i's equation names, with their coefficients, `piv` the divisor of a row (08 R223, R234). -/
def triSolve (fz : Int) (order : List Nat) (coefs : Nat → List (Nat × Int)) (fm : Int) (piv : Nat → Option Int)
    (v : List Dy) : List Int × Nat :=
  order.foldl (fun (acc : List Int × Nat) i =>
    let num := (coefs i).foldl (fun (a : Dy) c => a.sub ((atPt fm c.2).mul (atPt fz (acc.1.getD c.1 0)))) (v.getD i {m := 0, e := 0})
    let w := match piv i with
      | some p => divDy num (atPt fm p) fz
      | none => writeBack fz num
    (setAt acc.1 i w.1, acc.2 + b2n w.2)) (List.replicate v.length 0, 0)

/-- The incomplete factors applied: L then U, or for an adjoint Uᵀ then Lᵀ (08 R223, R234). -/
def iluApply (d : SolveDesc) (ilu : List (List (Nat × Int))) (v : List Dy) : List Int × Nat :=
  let n := ilu.length
  let up := List.range n
  let row (i : Nat) : List (Nat × Int) := ilu.getD i []
  let col (i : Nat) : List (Nat × Int) := ilu.zipIdx.filterMap (fun r =>
    (r.1.find? (fun c => decide (c.1 = i))).map (fun c => (r.2, c.2)))
  let below (l : List (Nat × Int)) (i : Nat) := l.filter (fun c => decide (c.1 < i))
  let above (l : List (Nat × Int)) (i : Nat) := l.filter (fun c => decide (i < c.1))
  let dg (i : Nat) : Option Int := some (rowGet (row i) i)
  if d.transpose then
    let (y, s1) := triSolve d.fxZ up (fun i => below (col i) i) d.fxM dg v
    let (z, s2) := triSolve d.fxZ up.reverse (fun i => above (col i) i) d.fxM (fun _ => none) (exactVec d.fxZ y)
    (z, s1 + s2)
  else
    let (y, s1) := triSolve d.fxZ up (fun i => below (row i) i) d.fxM (fun _ => none) v
    let (z, s2) := triSolve d.fxZ up.reverse (fun i => above (row i) i) d.fxM dg (exactVec d.fxZ y)
    (z, s1 + s2)

/-- Saturations met outside `putVec`. -/
def noteSat (n : Nat) : RunM Unit :=
  modSt (fun t => { t with
    sat := t.sat + n, tainted := t.tainted || decide (0 < n), rangeHit := t.rangeHit || decide (0 < n)
    ev := t.ev.join { sat := n, satEv := decide (0 < n) } })

/-- The Chebyshev interval of a solve, from its bounds (08 R208). -/
def chebInterval (bounds : List Nat) : Nat × Nat :=
  let hi := bounds.getD 7 0
  (bounds.getD 6 0, if (f64.decode hi).isZero then bounds.getD 3 0 else hi)

/-- The Chebyshev polynomial applied (08 R223; log 21): d steps of the Chebyshev iteration from zero, with binary64
coefficients and vectors at `fx_z`. -/
def chebApply (lohi : Nat × Nat) (fv : Int) (v : List Int) : RunM (List Int) := do
  let d := (← getSt).desc
  let r := Rm.tiesToEven
  let half := 0x3FE0000000000000
  let two := 0x4000000000000000
  let th ← scalarOp (fMul f64 r half (← scalarOp (fAdd f64 r lohi.2 lohi.1)))
  let de ← scalarOp (fMul f64 r half (← scalarOp (fSub f64 r lohi.2 lohi.1)))
  let sg ← if (f64.decode de).isZero then pure 0 else scalarOp (fDiv f64 r th de)
  let inv ← scalarOp (fDiv f64 r 0x3FF0000000000000 th)
  let point := (f64.decode de).isZero
  let rhs := exactVec fv v
  let dir0 ← putVec d.fxZ (rhs.map (fun a => (coef inv).mul a))
  let rho0 ← if point then pure 0 else scalarOp (fDiv f64 r 0x3FF0000000000000 sg)
  let mut z := dir0
  let mut dir := dir0
  let mut rho := rho0
  for _ in List.range (d.cheb - 1) do
    let den ← scalarOp (fSub f64 r (← scalarOp (fMul f64 r two sg)) rho)
    let rho' ← if point then pure 0 else scalarOp (fDiv f64 r 0x3FF0000000000000 den)
    let az ← productDy d.fxZ z
    let c1 ← scalarOp (fMul f64 r rho' rho)
    let c2 ← if point then pure inv else scalarOp (fDiv f64 r (← scalarOp (fMul f64 r two rho')) de)
    let res := rhs.zipWith (fun a b => a.sub b) az
    let dir' ← putVec d.fxZ ((exactVec d.fxZ dir).zipWith (fun a b => ((coef c1).mul a).add ((coef c2).mul b)) res)
    let z' ← putVec d.fxZ ((exactVec d.fxZ z).zipWith (fun a b => a.add b) (exactVec d.fxZ dir'))
    z := z'
    dir := dir'
    rho := rho'
  return z

/-- A preconditioner applied to a vector at a point: the result at `fx_z` (08 R218, R222, R223, R234). -/
def precond (bounds : List Nat) (fv : Int) (v : List Int) : RunM (List Int) := do
  let t ← getSt
  let d := t.desc
  match d.pc with
  | 0 => putVec d.fxZ (exactVec fv v)
  | 1 => putVec d.fxZ (t.pcd.diag.zipWith (fun m x => (atPt d.fxM m).mul (atPt fv x)) v)
  | 2 | 3 =>
    putVec d.fxZ (t.pcd.blocks.flatMap (fun k =>
      (List.range k.2.1).map (fun i =>
        (List.range k.2.1).foldl (fun (a : Dy) j =>
          let m := k.2.2.getD (if d.transpose then j * k.2.1 + i else i * k.2.1 + j) 0
          a.add ((atPt d.fxM m).mul (atPt fv (v.getD (k.1 + j) 0)))) { m := 0, e := 0 })))
  | 4 =>
    let (z, n) := iluApply d t.pcd.ilu (exactVec fv v)
    noteSat n
    return z
  | _ => chebApply (chebInterval bounds) fv v

/-! ### Stopping tests (08 R226 to R229) -/

/-- Whether a norm whose square is `rr` at point `pr` passes against ‖b‖² = `bb` at point `pb`, exactly (08 R226). A
tolerance that is negative or a NaN passes nothing; an infinite one passes everything. -/
def passes (d : SolveDesc) (rr : Dy) (bb : Dy) : Bool :=
  let side (t : Nat) (sq : Dy) : Bool :=
    match f64.decode t with
    | .inf false => true
    | .fin false m e => !((({ m := (m * m : Nat), e := 2 * e } : Dy).mul sq).lt rr)
    | .zero _ => decide (rr.m = 0)
    | _ => false
  side d.rtol bb || side d.atol { m := 1, e := 0 }

/-- ‖b - A x‖² of the true residual, and that residual at `fx_r` (08 R227). -/
def trueResidual (x : List Int) : RunM (List Int × Int) := do
  let t ← getSt
  let ax ← productDy t.desc.fxX x
  let r ← putVec t.desc.fxR ((exactVec t.desc.fxB t.b).zipWith (fun a b => a.sub b) ax)
  let sums ← syncSums [dotInt r r]
  return (r, sums.getD 0 0)

/-- The iterate's tested norm enters the choice of the best (08 R228): `key` orders norms. Iterate 0 is tainted by its own
conversion alone. -/
def trackBest (key : Nat) (x : List Int) : RunM Unit :=
  modSt (fun t =>
    let better := match t.bestNorm with | none => true | some b => decide (key < b)
    let bad := if t.iters = 0 then t.x0Sat else t.tainted
    let t1 := { t with lastX := x, lastIdx := t.iters }
    if !bad && better then { t1 with bestNorm := some key, bestX := x, bestIter := t.iters, bestSet := true } else t1)

/-! ### Charged time (08 R229, R239, R240) -/

/-- The entries of a row outside the column window (08 R239). -/
def farOf (i : Nat) (row : List (Nat × Int)) : Nat :=
  row.countP (fun c => decide (1048576 < (if c.1 < i then i - c.1 else c.1 - i)))

/-- Stored entries, rows and entries outside the column window of the engine slots (08 R213, R239): the last slot that has
rows also holds the padding rows after them. -/
def SolveSt.loads (t : SolveSt) : List (Nat × Nat × Nat) :=
  let n := t.rows.length
  let far := t.rows.zipIdx.map (fun r => farOf r.2 r.1)
  let sum (l : List Nat) : Nat := l.foldl (fun a b => a + b) 0
  (engRanges t.desc n).map (fun r =>
    let own := t.rowStored.drop r.1
    (sum (if r.1 < n ∧ r.2 = n then own else own.take (r.2 - r.1)), r.2 - r.1, sum ((far.drop r.1).take (r.2 - r.1))))

/-- A sync's time t_s (08 R239). -/
def SolveSt.tSync (t : SolveSt) : Nat := 40 + (if 0 < t.desc.engLog2 then 240 else 0) + (if t.desc.dist then t.tar else 0)

/-- The largest over the engines of max(compute, bytes / beta, serial) and the passes' latency, plus the syncs; `prods` of
the pass's products read x (08 R239, R240). -/
def SolveSt.passTime (t : SolveSt) (k perNnz perRow ser prods passes syncs : Nat) : Nat :=
  (t.loads.zipIdx.map (fun l =>
    let rate := t.rates.getD l.2 (1024, 0)
    max (max (ceilDiv (k * l.1.1) 128) (ceilDiv (perNnz * l.1.1 + perRow * l.1.2.1 + 64 * prods * l.1.2.2) rate.1))
      (ser * l.1.2.1) + passes * rate.2)).foldl max 0 + syncs * t.tSync

/-- The per-iteration time T_it; for GMRES of step `j` (08 R239). -/
def SolveSt.tIter (t : SolveSt) : Nat :=
  let d := t.desc
  let j := t.basis.length
  let (k, v, p, s, apps) := match d.method with
    | 0 => (1, 116, 3, 2, 1)
    | 1 => (2, 184, 4, 3, 2)
    | _ => (1, 44 + 16 * j, 2, 2, 1)
  let g := d.cheb - 1
  match d.pc with
  | 0 => t.passTime k (12 * k) (v - 8 * apps) 0 k p s
  | 2 => t.passTime k (12 * k) (v + 16 * apps) 0 k p s
  | 3 => t.passTime k (12 * k) (v + 40 * apps) 0 k p s
  | 4 => t.passTime (k + apps) (12 * (k + apps)) (v + 8 * apps) (2 * apps) (k + apps) (p + 2 * apps) s
  | 5 => t.passTime (k + g * apps) (12 * (k + g * apps)) (v + 28 * g * apps) 0 (k + g * apps) (p + g * apps) s
  | _ => t.passTime k (12 * k) v 0 k p s

/-- The time of a GMRES restart pass (08 R239). -/
def SolveSt.tRestart (t : SolveSt) : Nat := t.passTime 1 12 (60 + 8 * t.desc.restart) 0 1 2 1

/-- Pre-pass, initialisation, true residual and output times (08 R240). -/
def SolveSt.tPre (t : SolveSt) : Nat := t.passTime 1 12 12 0 0 1 0
def SolveSt.tInit (t : SolveSt) : Nat := t.passTime 1 12 68 0 1 1 1
def SolveSt.tTrue (t : SolveSt) : Nat := t.passTime 1 12 28 0 1 1 1
def SolveSt.tOut (t : SolveSt) : Nat := t.passTime 0 0 16 0 0 1 0

/-- Time charged. -/
def charge (f : SolveSt → Nat) : RunM Unit := modSt (fun t => { t with charged := t.charged + f t })

/-! ### Ends (08 R216, R227, R228) -/

/-- Whether a solve writes a matrix gradient (08 R235). -/
def SolveDesc.gradient (d : SolveDesc) : Bool := d.transpose && decide (d.slots.getD 10 0 ≠ 0)

/-- The solve ends with an iterate whose true residual's square is known. The gradient pass of a distributed solve has the
halo entries of x exchanged as a product has (08 R235; log 42). -/
def endWith (x : List Int) (idx : Nat) (rr : Int) : RunM Unit := do
  charge SolveSt.tOut
  let t ← getSt
  let halo ← if t.desc.gradient then askNet (.halo t.xf) [] else pure []
  modSt (fun t => { t with x := x, bestIter := idx, rr := rr, phase := .ended, haloF := halo })

/-- The stop of a cap, a deadline or a breakdown: the best iterate, or the last one, with its true residual (08 R228). -/
def endBest : RunM Unit := do
  let t ← getSt
  let (x, idx) := if t.bestSet then (t.bestX, t.bestIter) else (t.lastX, t.lastIdx)
  let (_, rr) ← trueResidual x
  charge SolveSt.tTrue
  endWith x idx rr

/-- A breakdown (08 R216). -/
def breakdown : RunM Unit := do
  modSt (fun t => { t with breakdown := true })
  endBest

/-- The deadline's decision as all nodes take it: on live time, that of slot 0 of node 0, which a sync carries (08 R229;
log 42). -/
def decideLate (own : Bool) : RunM Bool := do
  let t ← getSt
  if t.desc.dlMode && t.desc.dist then
    let v ← syncSums [if own && t.lead then 1 else 0]
    return decide (v.getD 0 0 ≠ 0)
  else return own

/-- The end conditions at an iteration boundary after the confirmation: the cap, then the deadline; `now` is live Cobalt
time (08 R228, R229). -/
def boundary (now : Nat) : RunM Unit := do
  let t ← getSt
  if t.phase = .ended then return ()
  if t.iters = t.desc.nCap then
    modSt (fun t => { t with capHit := true })
    endBest
  else
    let spent := if t.desc.dlMode then now - t.startTick else t.charged
    if t.desc.deadline ≠ 0 then
      if ← decideLate (decide (t.desc.deadline < spent + t.tIter + t.tTrue + t.tOut)) then
        modSt (fun t => { t with deadlineHit := true })
        endBest

/-- A recurrence test that passed is confirmed on the true residual: true when it ends the solve; else r is replaced
(08 R227, R229). -/
def confirm : RunM Bool := do
  let t ← getSt
  let (r, rr) ← trueResidual t.x
  charge SolveSt.tTrue
  if passes t.desc { m := rr, e := -2 * t.desc.fxR } { m := t.bb, e := -2 * t.desc.fxB } then
    endWith t.x t.iters rr
    return true
  else
    modSt (fun t => { t with r := r, confirmFail := true })
    return false

/-! ### The methods (08 R222; log 21) -/

/-- One iteration of conjugate gradients. -/
def iterCg (bounds : List Nat) : RunM Unit := do
  let t ← getSt
  let d := t.desc
  let q ← product d.fxP t.p
  let pq ← toScalar ((← syncSums [dotInt t.p q]).getD 0 0) (d.fxP + d.fxQ)
  let alpha ← scalarOp (fDiv f64 .tiesToEven t.rho pq)
  if badScalar pq true || badScalar alpha false then breakdown
  else
    let x ← putVec d.fxX (axpy (exactVec d.fxX t.x) (coef alpha) (exactVec d.fxP t.p))
    let r ← putVec d.fxR (axpy (exactVec d.fxR t.r) (coef alpha).neg (exactVec d.fxQ q))
    let z ← precond bounds d.fxR r
    let sums ← syncSums [dotInt r r, dotInt r z]
    modSt (fun t => { t with x := x, r := r, z := z, q := q, iters := t.iters + 1 })
    trackBest (sums.getD 0 0).toNat x
    let ok := passes d { m := sums.getD 0 0, e := -2 * d.fxR } { m := t.bb, e := -2 * d.fxB }
    let stop ← if ok then confirm else pure false
    if stop then return ()
    let t1 ← getSt
    let (z, rzInt) ← if ok then do
        let z ← precond bounds d.fxR t1.r
        let s ← syncSums [dotInt t1.r z]
        pure (z, s.getD 0 0)
      else pure (z, sums.getD 1 0)
    let rho ← toScalar rzInt (d.fxR + d.fxZ)
    let beta ← scalarOp (fDiv f64 .tiesToEven rho t.rho)
    if badScalar t.rho true || badScalar beta false then breakdown
    else
      let p ← putVec d.fxP (axpy (exactVec d.fxZ z) (coef beta) (exactVec d.fxP t.p))
      modSt (fun t => { t with z := z, p := p, rho := rho, alpha := alpha })

/-- One iteration of BiCGSTAB with right preconditioning. -/
def iterBicg (bounds : List Nat) : RunM Unit := do
  let t ← getSt
  let d := t.desc
  let r0 := Rm.tiesToEven
  let ph ← precond bounds d.fxP t.p
  let v ← product d.fxZ ph
  let rv ← toScalar ((← syncSums [dotInt t.rhat v]).getD 0 0) (d.fxR + d.fxQ)
  let alpha ← scalarOp (fDiv f64 r0 t.rho rv)
  if badScalar rv true || badScalar alpha false then breakdown
  else
    let s ← putVec d.fxR (axpy (exactVec d.fxR t.r) (coef alpha).neg (exactVec d.fxQ v))
    let sh ← precond bounds d.fxR s
    let tv ← product d.fxZ sh
    let sums ← syncSums [dotInt tv s, dotInt tv tv]
    let ts ← toScalar (sums.getD 0 0) (d.fxQ + d.fxR)
    let tt ← toScalar (sums.getD 1 0) (2 * d.fxQ)
    let omega ← scalarOp (fDiv f64 r0 ts tt)
    if badScalar tt true || badScalar omega false then breakdown
    else
      let x ← putVec d.fxX (axpy (axpy (exactVec d.fxX t.x) (coef alpha) (exactVec d.fxZ ph)) (coef omega)
        (exactVec d.fxZ sh))
      let r ← putVec d.fxR (axpy (exactVec d.fxR s) (coef omega).neg (exactVec d.fxQ tv))
      let sm ← syncSums [dotInt r r, dotInt t.rhat r]
      modSt (fun t => { t with x := x, r := r, iters := t.iters + 1 })
      trackBest (sm.getD 0 0).toNat x
      let ok := passes d { m := sm.getD 0 0, e := -2 * d.fxR } { m := t.bb, e := -2 * d.fxB }
      let stop ← if ok then confirm else pure false
      if stop then return ()
      let t1 ← getSt
      let rhoInt ← if ok then do
          let s ← syncSums [dotInt t.rhat t1.r]
          pure (s.getD 0 0)
        else pure (sm.getD 1 0)
      let rho ← toScalar rhoInt (2 * d.fxR)
      let b1 ← scalarOp (fDiv f64 r0 rho t.rho)
      let b2 ← scalarOp (fDiv f64 r0 alpha omega)
      let beta ← scalarOp (fMul f64 r0 b1 b2)
      let bo ← scalarOp (fMul f64 r0 beta omega)
      if badScalar t.rho true || badScalar omega true || badScalar beta false then breakdown
      else
        let p ← putVec d.fxP (axpy (axpy (exactVec d.fxR t1.r) (coef beta) (exactVec d.fxP t.p)) (coef bo).neg
          (exactVec d.fxQ v))
        modSt (fun t => { t with p := p, rho := rho, alpha := alpha, omega := omega })

/-- The norm of an exact sum of squares: the square root, rounded once, of the FP64-rounded sum (08 R237). -/
def normOf (sq pt : Int) : RunM Nat := do scalarOp (fSqrt f64 .tiesToEven (← toScalar sq pt))

/-- Back substitution for the small least-squares problem: coefficients y of the first `k` columns (08 R215). -/
def gmresY (hess : List (List Nat)) (g : List Nat) (k : Nat) : RunM (List Nat) := do
  let mut y : List Nat := List.replicate k 0
  for i in (List.range k).reverse do
    let mut acc := g.getD i 0
    for j in rangeFrom (i + 1) (k - i - 1) do
      acc ← scalarOp (fSub f64 .tiesToEven acc (← scalarOp (fMul f64 .tiesToEven ((hess.getD j []).getD i 0) (y.getD j 0))))
    y := setAt y i (← scalarOp (fDiv f64 .tiesToEven acc ((hess.getD i []).getD i 0)))
  return y

/-- The iterate of the first `k` directions of a GMRES cycle, exactly before its one write-back. -/
def gmresX (t : SolveSt) (y : List Nat) : List Dy :=
  (y.zip t.zbasis).foldl (fun u c => axpy u (coef c.1) (exactVec t.desc.fxZ c.2)) (exactVec t.desc.fxX t.x)

/-- A GMRES cycle begins: the first basis vector from the residual, whose norm as a denominator may break down (08 R216,
R222). The first cycle's norm is iterate 0's. -/
def gmresBegin (first : Bool) : RunM Unit := do
  let t ← getSt
  let sums ← syncSums [dotInt t.r t.r]
  let beta ← normOf (sums.getD 0 0) (2 * t.desc.fxR)
  if first then trackBest beta t.x
  if badScalar beta true then breakdown
  else
    let inv ← scalarOp (fDiv f64 .tiesToEven 0x3FF0000000000000 beta)
    if badScalar inv false then breakdown
    else
      let v ← putVec t.desc.fxP ((exactVec t.desc.fxR t.r).map (fun a => (coef inv).mul a))
      modSt (fun t => { t with basis := [v], zbasis := [], hess := [], giv := [], gvec := [beta] })

/-- The restart pass of GMRES: the iterate formed, its true residual tested, a new cycle (08 R222, R227). `tested` says
that the rotation residual passed. -/
def gmresRestart (tested : Bool) : RunM Unit := do
  let t ← getSt
  let y ← gmresY t.hess t.gvec t.zbasis.length
  if y.any (fun c => badScalar c false) then breakdown
  else
    let x ← putVec t.desc.fxX (gmresX t y)
    modSt (fun t => { t with x := x })
    let (r, rr) ← trueResidual x
    charge SolveSt.tRestart
    if passes t.desc { m := rr, e := -2 * t.desc.fxR } { m := t.bb, e := -2 * t.desc.fxB } then
      endWith x t.iters rr
    else
      modSt (fun t => { t with r := r, confirmFail := t.confirmFail || tested })
      gmresBegin false

/-- One Arnoldi step of GMRES: classical Gram-Schmidt with the dots in one exact pass, a new rotation, the test of the
rotation residual (08 R222, R226). -/
def iterGmres (bounds : List Nat) : RunM Unit := do
  let t ← getSt
  let d := t.desc
  let r0 := Rm.tiesToEven
  let v := t.basis.getLastD []
  let zh ← precond bounds d.fxP v
  let w ← product d.fxZ zh
  let dots ← syncSums (t.basis.map (fun b => dotInt b w))
  let mut h : List Nat := []
  for n in dots do
    h := h ++ [← toScalar n (d.fxP + d.fxQ)]
  let w' ← putVec d.fxQ ((h.zip t.basis).foldl (fun u c => axpy u (coef c.1).neg (exactVec d.fxP c.2)) (exactVec d.fxQ w))
  let nn ← syncSums [dotInt w' w']
  let hn ← normOf (nn.getD 0 0) (2 * d.fxQ)
  -- earlier rotations on the new column
  let mut col := h
  for k in List.range t.giv.length do
    let (c, s) := t.giv.getD k (0, 0)
    let a := col.getD k 0
    let b := col.getD (k + 1) 0
    let a' ← scalarOp (fAdd f64 r0 (← scalarOp (fMul f64 r0 c a)) (← scalarOp (fMul f64 r0 s b)))
    let b' ← scalarOp (fSub f64 r0 (← scalarOp (fMul f64 r0 c b)) (← scalarOp (fMul f64 r0 s a)))
    col := setAt (setAt col k a') (k + 1) b'
  let j := t.zbasis.length
  let a := col.getD j 0
  let nrm ← scalarOp (fSqrt f64 r0 (← scalarOp (fAdd f64 r0 (← scalarOp (fMul f64 r0 a a)) (← scalarOp (fMul f64 r0 hn hn)))))
  if badScalar nrm true then
    modSt (fun t => { t with iters := t.iters + 1 })
    breakdown
  else
    let c ← scalarOp (fDiv f64 r0 a nrm)
    let s ← scalarOp (fDiv f64 r0 hn nrm)
    let g := t.gvec.getD j 0
    let g0 ← scalarOp (fMul f64 r0 c g)
    let g1 ← scalarOp (fMul f64 r0 s g)
    let gnext := g1 ^^^ 0x8000000000000000
    let happy := (f64.decode hn).isZero
    let inv ← if happy then pure 0 else scalarOp (fDiv f64 r0 0x3FF0000000000000 hn)
    let vn ← if happy then pure [] else putVec d.fxP ((exactVec d.fxQ w').map (fun y => (coef inv).mul y))
    modSt (fun t => { t with
      zbasis := t.zbasis ++ [zh], hess := t.hess ++ [setAt col j nrm], giv := t.giv ++ [(c, s)]
      gvec := setAt t.gvec j g0 ++ [gnext], basis := t.basis ++ [vn], iters := t.iters + 1 })
    let t1 ← getSt
    let y ← gmresY t1.hess t1.gvec t1.zbasis.length
    if (g0 :: g1 :: inv :: y).any (fun k => badScalar k false) then breakdown
    else
      let x ← putVec d.fxX (gmresX t1 y)
      trackBest (g1 % 2 ^ 63) x
      let res := coef g1
      let ok := passes d (res.mul res) { m := t.bb, e := -2 * d.fxB }
      if ok || happy || decide (t1.zbasis.length = d.restart) then gmresRestart ok

/-- One iteration of the solve's method, its charge, and the boundary (08 R222, R228, R229). -/
def iterate (bounds : List Nat) (now : Nat) : RunM Unit := do
  charge SolveSt.tIter
  match (← getSt).desc.method with
  | 0 => iterCg bounds
  | 1 => iterBicg bounds
  | _ => iterGmres bounds
  boundary now

/-- Initialisation: the residual of x₀, the first direction, iterate 0, and the boundary (08 R228, R240). -/
def initialise (bounds : List Nat) (now : Nat) : RunM Unit := do
  let t ← getSt
  let d := t.desc
  let ax ← productDy d.fxX t.x
  let r ← putVec d.fxR ((exactVec d.fxB t.b).zipWith (fun a b => a.sub b) ax)
  modSt (fun t => { t with r := r, phase := .iterate })
  charge SolveSt.tInit
  match d.method with
  | 0 =>
    let z ← precond bounds d.fxR r
    let s ← syncSums [dotInt t.b t.b, dotInt r r, dotInt r z]
    let rho ← toScalar (s.getD 2 0) (d.fxR + d.fxZ)
    let p ← putVec d.fxP (exactVec d.fxZ z)
    modSt (fun t => { t with bb := s.getD 0 0, z := z, p := p, rho := rho })
    trackBest (s.getD 1 0).toNat t.x
  | 1 =>
    let s ← syncSums [dotInt t.b t.b, dotInt r r]
    let rho ← toScalar (s.getD 1 0) (2 * d.fxR)
    let p ← putVec d.fxP (exactVec d.fxR r)
    modSt (fun t => { t with bb := s.getD 0 0, rhat := r, p := p, rho := rho })
    trackBest (s.getD 1 0).toNat t.x
  | _ =>
    let s ← syncSums [dotInt t.b t.b]
    modSt (fun t => { t with bb := s.getD 0 0 })
    gmresBegin true
  boundary now

/-! ### The pre-pass (08 R221, R230, R231) -/

/-- The structure hash of the node's rows. The global number of a halo column is a row of another node, which no rule
brings here: a free word for each halo position of the solve's contexts (08 R230; log 42). -/
def sigOf (d : SolveDesc) (start : Nat) (rows : List (List (Nat × Int))) : BitVec 64 :=
  let n := rows.length
  rows.zipIdx.foldl (fun h r => r.1.foldl (fun h c =>
    let j : BitVec 64 := if c.1 < n then BitVec.ofNat 64 (start + c.1)
      else Config.freeWord 3 (d.slots.getD 14 0 * 2 ^ 32 + (c.1 - n))
    h ^^^ srMix (srMix (BitVec.ofNat 64 (start + r.2)) + j)) h) 0

/-- The exclusive or of the nodes' hashes, combined at a synchronisation as the parities of the sums of their bits (08 R230,
R232; log 42). -/
def combineSig (h : BitVec 64) : RunM (BitVec 64) := do
  let v ← syncSums ((List.range 64).map (fun k => if h.getLsbD k then 1 else 0))
  return BitVec.ofNat 64 (v.zipIdx.foldl (fun a x => a + (x.1 % 2).toNat * 2 ^ x.2) 0)

/-- Whether the declared bounds hold of the actual values (08 R221). -/
def boundsHold (d : SolveDesc) (bounds : List Nat) (rows : List (List (Nat × Int))) : Bool :=
  let top := rows.foldl (fun a r => max a (rowTop r)) 0
  let sums := rows.map (fun r => r.foldl (fun (a : Nat) c => a + c.2.natAbs) 0)
  let diag := rows.zipIdx.map (fun r => (rowGet r.1 r.2).natAbs)
  let gersh := (rows.zipIdx.zip sums).map (fun r => 2 * ((rowGet r.1.1 r.1.2).natAbs : Int) - (r.2 : Int))
  let at' (n : Int) : Rat := (n : Rat) * pow2 (-d.fxA)
  let val (i : Nat) : Rat := (f64Rat (bounds.getD i 0)).getD 0
  decide (at' (top : Int) ≤ val 2) && sums.all (fun x => decide (at' (x : Int) ≤ val 3)) &&
    (decide (val 4 = 0) || diag.all (fun x => decide (val 4 ≤ at' (x : Int)))) &&
    (decide (val 5 ≤ 0) || gersh.all (fun x => decide (val 5 ≤ at' x)))

/-- The pre-pass on a solve whose rows, b and warm vector have been read: factors, signature, bounds; then
initialisation (08 R221, R225, R231, R240). `store` holds the factors at `pc_store`; `warmMatches` says that the warm
record's signature matches. What the conversion of the warm vector raises counts when the vector is accepted. -/
def prepass (bounds : List Nat) (start : Nat) (store : PcData) (warmX : List Int) (warmEv : Ev)
    (warmMatches : BitVec 64 → Bool) (now : Nat) : RunM Unit := do
  let t ← getSt
  let d := t.desc
  let (pcd, tl) := if d.pcReuse then (store, ((0, store.piv) : Tally)) else factor d t.rows
  noteSat tl.1
  let h ← combineSig (sigOf d start t.rows)
  let warmOk := d.warm && warmMatches h
  modSt (fun t => { t with
    pcd := { pcd with piv := tl.2 }, piv := tl.2, sigHash := h, sigN := d.n - 1, rangeInput := !boundsHold d bounds t.rows
    warmRejected := d.warm && !warmOk, x := if warmOk then warmX else List.replicate t.rows.length 0 })
  if warmOk then
    modSt (fun t => { t with x0Sat := decide (0 < warmEv.sat), ev := t.ev.join { warmEv with sat := 0, satEv := false } })
    noteSat warmEv.sat
  charge SolveSt.tPre
  initialise bounds now

/-! ### Engines, starts and results (08 R203, R207, R237, R238, R241) -/

/-- The model's unit number for the counts and flags of Umber engine `f` (log 43). -/
abbrev umberUnit (f : Nat) : Nat := 225 + f

/-- Whether an engine works on an operation that holds its field (08 R203). -/
def State.engineBusy (s : State) (f : Nat) : Bool :=
  s.engines.any (fun e => (match e.solve with | some x => x.fields.contains f | none => false) ||
    (match e.dyn with | some x => x.fields.contains f | none => false))

/-- The engines an operation of `n` engines takes: the free ones of lowest field number. -/
def State.freeEngines (s : State) (n : Nat) : Option (List Nat) :=
  let l := ((List.range 4).filter (fun f => !s.engineBusy f)).take n
  if l.length = n then some l else none

/-- The stream rate and level latency of the class that holds a solve's values, for an engine of field `f` (08 R239; 10
R272, R291; log 42). -/
def State.dataClass (s : State) (f a : Nat) : Nat × Nat :=
  let dist (g : Nat) : Nat := ((f % 2 + g % 2) % 2) + ((f / 2 + g / 2) % 2)
  let pearl := match s.job.bound with
    | some b => b.placed.any (fun p => bitOf (s.tokDecl p.tok).flags 4 && within a 1 (p.ranges false ++ p.ranges true))
    | none => false
  let st := s.kvNat kLatStitch
  match s.hueReg a with
  | some (.field g _) =>
    if pearl then (2048, s.kvNat kLatPearl + st * dist g)
    else if g = f then (1536, s.kvNat kLatHbm) else (1024, s.kvNat kLatHbm + st * dist g)
  | some (.cap g _) => if pearl then (2048, s.kvNat kLatPearl + st * dist g) else (160, s.kvNat kLatLp + st * dist g)
  | _ => if pearl then (2048, s.kvNat kLatPearl + 2 * st) else (1024, s.kvNat kLatHbm + 2 * st)

/-- Nanoseconds as cycles of 5/9 ns, rounded up (00 R3). -/
def nsCc (ns : Nat) : Nat := ceilDiv (ns * 9) 5

/-- The payload rate of a port direction in 0.1 GB/s: 375 GB/s, or an elastic port's (12 R371, R372). -/
def State.portRate (s : State) (p : Nat) : Nat :=
  if (s.port p).native then 3750 else if bitOf (s.kvNat (kFlMode p)) 2 then 1868 else 3735

/-- The payload rate that the loader charges serialization at: that of the slowest hop port of this package (12 R371, R372;
log 18). -/
def State.payRate (s : State) : Nat := s.hopPorts.foldl (fun a p => min a (s.portRate p)) 3750

/-- The bytes of V over twice the nodes of an axis, at the rate of its ring, in whole ns; `rate` is a port's payload rate in
0.1 GB/s (11 R338; 12 R372). -/
def ringBytesNs (rate b : Nat) (full : Bool) : Nat := ceilDiv ((if full then 10 else 20) * b) rate

/-- The time in ns of an all-reduce of `v` bytes over a block, `fold` by axis, `ax` giving (nodes, wrapped) (11 R338). -/
def allReduceNs (rate : Nat) : List (Nat × Bool) → List Bool → Nat → Nat
  | [], _, _ => 0
  | (n, w) :: rest, fold, v =>
    let folded := fold.headD false
    let h := if folded then 2 else if w then 1 else n - 1
    let b := ceilDiv v (2 * n)
    (if n ≤ 1 then 0 else 2 * (n - 1) * (110 + h * 230 + ringBytesNs rate b (w && !folded) + 90)) +
      allReduceNs rate rest (fold.drop 1) (ceilDiv v n)

/-- The axes of a block: nodes and whether the block wraps the axis (13 R386). -/
def State.blockAxes (s : State) (b : Bound) : List (Nat × Bool) :=
  let (mx, my, mz) := s.torus.size
  [(b.sx, decide (b.sx = mx)), (b.sy, decide (b.sy = my)), (b.sz, decide (b.sz = mz))]

/-- The all-reduce latency of a sync's sums on the bound block: one FX192 value (08 R239; log 42). -/
def State.syncLatency (s : State) : Nat :=
  match s.job.bound with
  | some b => nsCc (allReduceNs s.payRate (s.blockAxes b) [] 24)
  | none => 0

/-- A solve put on its engines (08 R203). -/
def State.startSolve (s : State) (src : UmberSrc) (d : SolveDesc) (fields : List Nat) : State :=
  let f := fields.headD 0
  let st : SolveSt := { desc := d, src := src, fields := fields, startTick := s.now
                        rates := fields.map (fun g => s.dataClass g (d.slots.getD 0 0))
                        tar := s.syncLatency, lead := decide (s.nodeIndex = 0)
                        dimOnly := decide ((s.profVal src.prof kUsWarmDimOnly).toNat = 1) }
  let s1 := fields.foldl (fun x g => x.setEngine g { x.engine g with cfgJ := false }) s
  s1.setEngine f { s1.engine f with solve := some st }

/-- The declared bounds of a solve: its bounds block in memory (08 R208). -/
def State.solveBounds (s : State) (d : SolveDesc) : List Nat := parseBounds (s.dramRd (d.slots.getD 13 0) 64)

/-- The bytes of the matrix on a node of `n` rows: values, columns, pointers and permutation (08 R211, R212). -/
def SolveDesc.matrixAt (d : SolveDesc) (rd : ByteRd) (n : Nat) : List (Nat × Nat) :=
  let m := d.stored rd n
  let cols := if d.mfmt = 1 then m / (max 1 d.mfPar * max 1 d.mfPar) else m
  let ptrs := match d.mfmt with | 0 => n + 1 | 1 => 1 | _ => d.storedRows n / 2 ^ d.mfPar + 1
  [(d.slots.getD 0 0, 8 * m), (d.slots.getD 1 0, 4 * cols), (d.slots.getD 2 0, 8 * ptrs)] ++
    (if d.mfmt = 2 then [(d.slots.getD 3 0, 4 * n)] else [])

/-- The bytes of the stored factors of a node of `n` rows: those that R239 counts for them (08 R225; log 41). -/
def SolveDesc.factorBytes (d : SolveDesc) (rd : ByteRd) (n : Nat) : Nat :=
  match d.pc with
  | 1 => 8 * n
  | 2 => 24 * n
  | 3 => 48 * n
  | 4 => 12 * d.stored rd n + 8 * n
  | _ => 0

/-- The bytes a solve's pre-pass reads: the matrix, the bounds, b, the warm vector with its record, stored factors, and the
forward solution that a gradient takes (08 R207, R221). -/
def SolveDesc.inputs (d : SolveDesc) (rd : ByteRd) (n : Nat) : List (Nat × Nat) :=
  let fb := (Fmt.ofNum d.fmtB).getD .fp64
  let fx := (Fmt.ofNum d.fmtX).getD .fp64
  d.matrixAt rd n ++ [(d.slots.getD 13 0, 64), (d.slots.getD 4 0, planeBytes fb n)] ++
    (if d.warm then [(d.slots.getD 6 0, planeBytes fx n), (d.slots.getD 12 0, 64)] else []) ++
    (if d.pcReuse then [(d.slots.getD 7 0, d.factorBytes rd n)] else []) ++
    (if d.gradient then [(d.slots.getD 11 0, planeBytes fx n)] else [])

/-- What a pass of a solve reads: its inputs in the pre-pass, the matrix in every later pass (08 R221, R239). -/
def State.passReads (s : State) (t : SolveSt) : List (Nat × Nat) :=
  let n := (nodeRows t.desc s.nodeIndex s.nodes).2
  if t.phase = .prepass then t.desc.inputs s.dramRd n else t.desc.matrixAt s.dramRd n

/-- The first range of a pass's reads that holds an uncorrectable line (10 R286, 08 R233). -/
def State.solvePoisoned (s : State) (t : SolveSt) : Option Nat :=
  ((s.passReads t).find? (fun r => s.poisoned r.1 r.2)).map (fun r => r.1)

/-- The requests of a pass of a solve, class 0 at the slices of what it reads, by the requester of its first engine (10
R293; log 62). -/
def State.askPass (s : State) (f : Nat) (t : SolveSt) : State := s.askAll (reqUmber + f) 0 (s.passReads t)

/-- The declaration a solve's saturations count under: forward, or backward for an adjoint (08 R220). -/
def SolveSt.decl (t : SolveSt) : Decl := if t.desc.transpose then .backward else .forward

/-- `qual` of a result (08 R237). -/
def SolveSt.qual (t : SolveSt) : Nat :=
  b2n t.rangeHit + 2 * b2n t.deadlineHit + 4 * b2n t.capHit + 8 * b2n t.warmRejected + 16 * b2n t.breakdown +
    32 * b2n t.rangeInput + 64 * b2n t.confirmFail

/-- The status of a solve that ended without a fault (08 R238). -/
def SolveSt.status (t : SolveSt) : Nat :=
  if t.rangeHit || t.rangeInput then stRange
  else if t.deadlineHit then stDeadline
  else if t.capHit || t.breakdown then stCapReached
  else if t.warmRejected then stWarmRejected
  else stOk

/-- The 64 B result record (08 R237). -/
def SolveSt.record (t : SolveSt) (status : Nat) : List Byte :=
  let nrm (sq pt : Int) : Nat :=
    (fSqrt f64 .tiesToEven (f64.result .tiesToEven (DVal.ofDy { m := sq, e := -pt })).1).1
  toLe 4 t.desc.opId ++ toLe 1 status ++ toLe 1 t.qual ++ toLe 9 0 ++ toLe 5 t.sigN ++ toLe 2 t.bestIter ++
    toLe 2 t.iters ++ toLe 4 (min t.piv (2 ^ 32 - 1)) ++ toLe 4 (min t.sat (2 ^ 32 - 1)) ++
    toLe 8 (nrm t.bb (2 * t.desc.fxB)) ++ toLe 8 (nrm t.rr (2 * t.desc.fxR)) ++ toLe 8 t.sigHash.toNat ++ toLe 8 t.charged

/-- Elements written in a format of a solve's outputs, with what the conversions raise (08 R210). -/
def State.writeFx (s : State) (fmt : Nat) (base : Nat) (point : Int) (vals : List (Nat × Dy)) : State × Ev :=
  let f := (Fmt.ofNum fmt).getD .fp64
  vals.foldl (fun acc v =>
    let c := convert f 0 0 point (DVal.ofDy v.2)
    (acc.1.setDramElem f base v.1 c.1, acc.2.join c.2)) (s, {})

/-- The matrix gradient: -λ_i x_j for every stored entry, +0 for padding entries, those of padding rows among them (08
R235). -/
def State.matrixGrad (s : State) (t : SolveSt) : List (Nat × Dy) :=
  let d := t.desc
  let n := t.rows.length
  let x := t.xf ++ t.haloF
  (List.range n).flatMap (fun i => (d.rowPlaces s.dramRd n i).map (fun p =>
    (p.1, if p.2 < 0 then ({ m := 0, e := 0 } : Dy)
      else ((atPt d.fxX (t.x.getD i 0)).mul (atPt d.fxX (x.getD p.2.toNat 0))).neg))) ++
    (d.padPlaces s.dramRd n).map (fun p => (p, ({ m := 0, e := 0 } : Dy)))

/-- Counts that a command raised fold at its end while no image runs (02 R68). -/
def State.foldIfIdle (s : State) : State := if s.imageRuns then s else s.fold

/-- An ended solve's answer: its command retires; a schedule entry's solve leaves its engine idle (08 R238, R241). -/
def State.umberAnswer (s : State) (src : UmberSrc) (status result : Nat) : State :=
  match src with
  | .cmd h => s.foldIfIdle.retire h { status := status, result := result }
  | .entry _ => s

/-- The counters of an ended solve, on the field of engine slot 0 (08 R242; log 43): a solve that reused stored factors
replaced no pivot. -/
def State.countSolve (s : State) (f : Nat) (t : SolveSt) : State :=
  ((((s.count (kUsSolves f) 1).count (kUsIters f) t.iters).count (kUsPivFloored f) (if t.desc.pcReuse then 0 else t.piv)).count (kUsSat f) t.sat).count
    (kUsWarmRejected f) (b2n t.warmRejected)

/-- A vector read in a format and converted into FX64 at a point (08 R210). -/
def State.readFx (s : State) (fmt base : Nat) (pt : Int) (n : Nat) : List (Nat × Ev) :=
  let f := (Fmt.ofNum fmt).getD .fp64
  (List.range n).map (fun i => convert .fx64 0 0 pt (decodeVal f (s.dramElem f base i) 0 pt))

/-- The forward solution that a solve's gradient takes, as it stands in memory, with what each conversion raises (08 R210,
R235). -/
def State.forwardX (s : State) (d : SolveDesc) : List (Nat × Ev) :=
  if d.gradient then s.readFx d.fmtX (d.slots.getD 11 0) d.fxX (nodeRows d s.nodeIndex s.nodes).2 else []

/-- A solve with the forward solution its last pass may read. -/
def State.withForward (s : State) (t : SolveSt) : SolveSt :=
  { t with xf := (s.forwardX t.desc).map (fun x => signed 64 x.1) }

/-- An ended solve with the saturations of the conversion of its forward solution (08 R210, R220). -/
def SolveSt.withSat (t : SolveSt) (n : Nat) : SolveSt :=
  { t with sat := t.sat + n, rangeHit := t.rangeHit || decide (0 < n) }

/-- What remains on the engine of an ended solve: nothing for a command; a schedule entry's solve holds its engines until
its charge ends (08 R241). -/
def SolveSt.after (t : SolveSt) : Option SolveSt :=
  match t.src with
  | .cmd _ => none
  | .entry _ => some { t with phase := .ended }

/-- A solve ended: x, dA and the record written, the counters, the engines of a command free, the answer (08 R210, R235,
R237, R238, R241). -/
def State.finishSolve (s : State) (f : Nat) (ended : SolveSt) : State :=
  let d := ended.desc
  let e0 := Ev.joinAll ((s.forwardX d).map (fun x => x.2))
  let t := ended.withSat e0.sat
  let (s1, e1) := s.writeFx d.fmtX (d.slots.getD 5 0) d.fxX (t.x.zipIdx.map (fun v => (v.2, atPt d.fxX v.1)))
  let (s2, e2) := if d.gradient then s1.writeFx d.fmtX (d.slots.getD 10 0) d.fxX (s1.matrixGrad t) else (s1, {})
  let s3 := (s2.raise (umberUnit f) t.decl ((e0.join e1).join e2)).dramWr (d.slots.getD 9 0) (t.record t.status)
  let s4 := (s3.askRange (reqUmber + f) 2 (d.slots.getD 5 0)
    (planeBytes ((Fmt.ofNum d.fmtX).getD .fp64) t.x.length)).askRange (reqUmber + f) 2 (d.slots.getD 9 0) 64
  let s5 := (s4.setEngine f { s4.engine f with solve := t.after }).countSolve f t
  s5.umberAnswer t.src t.status t.iters

/-- The outputs of a schedule entry's solve that stopped: x and dA undefined (20 R533). -/
def State.solveLost (s : State) (d : SolveDesc) : State :=
  let n := (nodeRows d s.nodeIndex s.nodes).2
  let f := (Fmt.ofNum d.fmtX).getD .fp64
  let s1 := s.dramForget (d.slots.getD 5 0) (d.slots.getD 5 0 + planeBytes f n)
  if d.gradient then s1.dramForget (d.slots.getD 10 0) (d.slots.getD 10 0 + planeBytes f (d.stored s.dramRd n)) else s1

/-- An uncorrectable input line at `a`: the engine stops, the fault is contained, or fails only its command; a distributed
solve ends as a job fault (08 R233, R242; 20 R533, R536, R539). -/
def State.faultSolve (s : State) (f : Nat) (t : SolveSt) (a : Nat) : State :=
  let rec' : FaultRec := { sub := 5, inst := f, opId := t.desc.opId, elem := t.iters, cause := Config.faultCause 5 % 256
                           addr := BitVec.ofNat 64 a, seq := BitVec.ofNat 64 t.src.seq }
  let s1 := (s.setEngine f { s.engine f with solve := t.after }).countSolve f t
  let s2 := s1.dramWr (t.desc.slots.getD 9 0) (t.record (if t.desc.dist then stFaultJob else stFaultContained))
  if t.desc.dist then (s2.umberAnswer t.src stFaultJob t.iters).jobFaultNow 0x0607 rec'
  else match t.src with
    | .cmd _ => (s2.record { rec' with cls := 1 }).umberAnswer t.src stFaultContained t.iters
    | .entry _ => (s2.solveLost t.desc).contained rec'

/-- The result of running a part of a solve: kept when nothing was missing from the other nodes; else only what it waits
for is noted (08 R232). -/
def State.commitRun (s : State) (f : Nat) (t : SolveSt) (r : Run) : State :=
  match r.ask with
  | some a => s.setEngine f { s.engine f with solve := some { t with asked := some a } }
  | none =>
    let t1 := { r.st with netIn := r.inp, asked := none, ev := {} }
    let s1 := (s.raise (umberUnit f) t.decl r.st.ev).askPass f t
    let s2 := if t1.desc.pcReuse || t.phase ≠ .prepass then s1
      else { s1 with mem := { s1.mem with pcStore := Tab.insert (t1.desc.slots.getD 7 0) t1.pcd s1.mem.pcStore } }
    if t1.phase = .ended then s2.finishSolve f t1
    else s2.setEngine f { s2.engine f with solve := some t1 }

/-- The pre-pass of a solve: inputs read and converted, then the pass (08 R210, R220, R221). -/
def State.prepassRun (s : State) (t : SolveSt) : Run :=
  let d := t.desc
  let (start, n) := nodeRows d s.nodeIndex s.nodes
  let (rows, stored) := d.readRows s.dramRd n
  let bs := s.readFx d.fmtB (d.slots.getD 4 0) d.fxB n
  let ws := if d.warm then s.readFx d.fmtX (d.slots.getD 6 0) d.fxX n else []
  let nSig := fieldLe (s.dramRd (d.slots.getD 12 0) 64) 15 5
  let hSig := fieldLe (s.dramRd (d.slots.getD 12 0) 64) 48 8
  let bEv := Ev.joinAll (bs.map (fun b => b.2))
  let t1 := { t with rows := rows, rowStored := stored, b := bs.map (fun b => signed 64 b.1)
                     ev := t.ev.join { bEv with sat := 0, satEv := false } }
  let go : RunM Unit := do
    noteSat bEv.sat
    prepass d.bnd start (Tab.get {} (d.slots.getD 7 0) s.mem.pcStore) (ws.map (fun w => signed 64 w.1))
      (Ev.joinAll (ws.map (fun w => w.2)))
      (fun h => decide (nSig = d.n - 1) && (t.dimOnly || decide (hSig = h.toNat))) s.now
  (go.run { st := t1, inp := t.netIn }).2

/-- A pass of the solve on engine `f`: it stops at an uncorrectable line (08 R221, R228, R233). -/
def State.runPass (s : State) (f : Nat) (t : SolveSt) : State :=
  match s.solvePoisoned t with
  | some a => s.faultSolve f t a
  | none =>
    let t1 := s.withForward t
    s.commitRun f t1 (if t.phase = .prepass then s.prepassRun t1
      else ((iterate t.desc.bnd s.now).run { st := t1, inp := t1.netIn }).2)

/-- `UMBER_S_PREPASS`: the pre-pass and initialisation of the solve whose engine slot 0 is field `field` (08 R221). -/
def execUmberSPrepass (field : Nat) (s : State) : Host.Outcome State Fault Refusal :=
  .next (match (s.engine field).solve with
    | some t => if t.phase = .prepass then s.runPass field t else s
    | none => s)

/-- `UMBER_S_ITERATION`: one iteration, its test, confirmation, best iterate and end conditions (08 R228). -/
def execUmberSIteration (field : Nat) (s : State) : Host.Outcome State Fault Refusal :=
  .next (match (s.engine field).solve with
    | some t => if t.phase = .iterate then s.runPass field t else s
    | none => s)

end Sys2Proof.Machine
end

