-- ==== Sys2Proof/Machine/UmberJ.lean ====
section
/-! DEFINITION. Umber-J: models, quantity classes, the listings of kinematics and dynamics with one write-back per
quantity, derivatives, groups of trees, results (chapter 09). What a stored quantity is where the chapter does not say is
log 44. -/

namespace Sys2Proof.Machine

/-! ### Descriptors and models (09 R244 to R247, R262, R263) -/

/-- A dynamics descriptor read from its 128 bytes (09 R262). -/
def parseDyn (bs : List Byte) : DynDesc :=
  let w := fieldLe bs 0 64
  { frames := (List.range 16).map (fun f => bits w (368 + 9 * f) 9), nTree := bits w 77 16 + 1, nJ := bits w 68 9 + 1
    op := bits w 64 4, nFrame := bits w 60 4 + 1, nFrameM1 := bits w 60 4, engLog2 := bits w 58 2, jdot := bitOf w 57
    fext := bitOf w 56, fmtIn := bits w 48 8, fmtOut := bits w 40 8, singLog2 := sbyte w 32, rsvd := bits w 93 275
    opId := bits w 0 32, slots := (List.range 8).map (fun i => fieldLe bs (64 + 8 * i) 8) }

/-- A joint record (09 R245). -/
def parseJoint (bs : List Byte) : Joint :=
  { parent := fieldS bs 0 2, jtype := fieldLe bs 2 1, pitch := fieldLe bs 8 8
    rot := (List.range 4).map (fun i => fieldLe bs (16 + 8 * i) 8)
    trans := (List.range 3).map (fun i => fieldLe bs (48 + 8 * i) 8), mass := fieldLe bs 72 8
    com := (List.range 3).map (fun i => fieldLe bs (80 + 8 * i) 8)
    inertia := (List.range 6).map (fun i => fieldLe bs (104 + 8 * i) 8) }

/-- A model read from its header and joint records (09 R244). -/
def parseModel (bs : List Byte) : Model :=
  let n := fieldLe bs 0 2
  { nJ := n, nq := fieldLe bs 2 2, nv := fieldLe bs 4 2
    grav := (List.range 3).map (fun i => fieldLe bs (8 + 8 * i) 8)
    joints := (List.range n).map (fun i => parseJoint ((bs.drop (64 + 160 * i)).take 160)) }

/-- Position and velocity coordinates of a joint type (09 R246). -/
def jointNq (t : Nat) : Nat := [0, 1, 1, 1, 3, 4, 7].getD t 0
def jointNv (t : Nat) : Nat := [0, 1, 1, 1, 3, 3, 6].getD t 0

/-- The exact value of a finite FP64 code. -/
def f64Dy (c : Nat) : Dy := (f64.decode c).dy

/-- Whether the bytes that a model reserves are zero (09 R244, R245). -/
def modelRsvd (bs : List Byte) : Bool :=
  zeroBytes bs 6 2 && zeroBytes bs 32 32 && (List.range (fieldLe bs 0 2)).all (fun i =>
    zeroBytes bs (64 + 160 * i + 3) 5 && zeroBytes bs (64 + 160 * i + 152) 8)

/-- Whether a model's values meet R247. -/
def Model.ok (m : Model) : Bool :=
  let fin (c : Nat) : Bool := (f64.decode c).isFinite
  let neg (c : Nat) : Bool := decide ((f64Dy c).m < 0)
  decide (1 ≤ m.nJ) && decide (m.nJ ≤ 512) &&
  decide (m.nq = (m.joints.map (fun j => jointNq j.jtype)).foldl (fun a b => a + b) 0) &&
  decide (m.nv = (m.joints.map (fun j => jointNv j.jtype)).foldl (fun a b => a + b) 0) && m.grav.all fin &&
  m.joints.zipIdx.all (fun x =>
    let j := x.1
    let n2 := (j.rot.map f64Dy).foldl (fun (a : Dy) q => a.add (q.mul q)) { m := 0, e := 0 }
    let lo := Dy.sub { m := 1, e := 0 } { m := 1, e := -40 }
    let hi := Dy.add { m := 1, e := 0 } { m := 1, e := -40 }
    decide (j.jtype ≤ 6) &&
    (if x.2 = 0 then decide (j.parent = -1) else decide (0 ≤ j.parent) && decide (j.parent < (x.2 : Int))) &&
    ([j.pitch, j.mass] ++ j.rot ++ j.trans ++ j.com ++ j.inertia).all fin && !neg j.mass &&
    (j.inertia.take 3).all (fun c => !neg c) && !(n2.lt (lo.mul lo)) && !((hi.mul hi).lt n2))

/-- Whether a descriptor's fields are ones that R243, R262 and R263 admit for a model of `nJ` joints. -/
def DynDesc.shapeOk (d : DynDesc) (nJ : Nat) : Bool :=
  let ioFmt (n : Nat) : Bool := n == 1 || n == 2
  decide (d.op ≤ 5) && decide (d.engLog2 ≤ 2) && decide (d.rsvd = 0) && decide (d.slots.getD 7 0 = 0) && ioFmt d.fmtIn &&
  ioFmt d.fmtOut && decide (d.nJ = nJ) &&
  (decide (d.op = 3) || (!d.jdot && decide (d.nFrameM1 = 0))) &&
  (decide (d.op ≠ 3) || (d.frames.take d.nFrame).all (fun f => decide (f < nJ))) &&
  !(d.fext && (decide (d.op = 0) || decide (d.op = 3)))

/-! ### Quantity classes (09 R250 to R252) -/

/-- The Euclidean norm of a vector where it is a fraction of that size, else a rational above it within 2^-100 (09 R251). -/
def normUp (v : List Dy) : Rat :=
  let sq := v.foldl (fun (a : Dy) x => a.add (x.mul x)) { m := 0, e := 0 }
  if sq.m = 0 then 0
  else
    let k := 2 * (sq.e.natAbs + 100)
    let n := (sq.at (-(k : Int) - sq.e.natAbs * 2)).natAbs
    let r := isqrt n
    ((if r * r = n then r else r + 1 : Nat) : Rat) * pow2 (-((k / 2 + sq.e.natAbs : Nat) : Int))

/-- The exact rational of a dyadic number. -/
def Dy.rat (d : Dy) : Rat := (d.m : Rat) * pow2 d.e

/-- The linear coordinates of a joint type. -/
def jointLin (t : Nat) : Nat := [0, 0, 1, 0, 2, 0, 3].getD t 0

/-- What R251 derives from a model: total mass, largest inertia entry, h, ρ, a, k. -/
structure ModelScale where
  m : Rat
  iMax : Rat
  h : Rat
  rho : Rat
  a : Nat
  k : Nat
deriving DecidableEq, Inhabited

/-- The path sums of a model: for each joint, path length to its origin and velocity coordinates (09 R251). -/
def pathSums (m : Model) (qlin : Rat) : List (Rat × Nat) :=
  m.joints.zipIdx.foldl (fun acc x =>
    let j := x.1
    let p := if j.parent < 0 then ((0 : Rat), 0) else acc.getD j.parent.toNat (0, 0)
    let free0 := decide (x.2 = 0) && (decide (j.jtype = 6) || decide (j.jtype = 4))
    let lin := if free0 then 0 else (jointLin j.jtype : Rat) * qlin
    acc ++ [(p.1 + normUp (j.trans.map f64Dy) + lin, p.2 + jointNv j.jtype)]) []

/-- The scale of a model (09 R251). -/
def modelScale (m : Model) (qlin : Rat) : ModelScale :=
  let sums := pathSums m qlin
  { m := (m.joints.map (fun j => (f64Dy j.mass).rat)).foldl (fun a b => a + b) 0
    iMax := (m.joints.flatMap (fun j => j.inertia.map (fun c => abs (f64Dy c).rat))).foldl max 0
    h := (m.joints.map (fun j => abs (f64Dy j.pitch).rat)).foldl max 1
    rho := ((m.joints.zip sums).map (fun x => x.2.1 + normUp (x.1.com.map f64Dy))).foldl max 0
    a := (sums.map (fun x => x.2)).foldl max 0
    k := match m.joints with | j :: _ => jointLin j.jtype | [] => 0 }

/-- Points of the classes, in the order of R251's table; then the tangents of v, a, I·v, f and τ. -/
abbrev clUnit : Nat := 0
abbrev clAng : Nat := 1
abbrev clLin : Nat := 2
abbrev clLen : Nat := 3
abbrev clPos : Nat := 4
abbrev clV : Nat := 5
abbrev clAcc : Nat := 6
abbrev clQdd : Nat := 7
abbrev clI : Nat := 8
abbrev clIx : Nat := 9
abbrev clH : Nat := 10
abbrev clF : Nat := 11
abbrev clTauIn : Nat := 12
abbrev clTau : Nat := 13
abbrev clJac : Nat := 14
abbrev clM : Nat := 15
abbrev clDV : Nat := 16
abbrev clDAcc : Nat := 17
abbrev clDH : Nat := 18
abbrev clDF : Nat := 19
abbrev clDTau : Nat := 20

/-- The numbers, from 1 in the order of R251's table, of the classes whose points stand in the model's order. -/
def dynClassNo : List Nat := [1, 2, 3, 4, 5, 6, 7, 8, 9, 10, 11, 12, 13, 13, 14, 16, 15, 15, 15, 15, 15]

/-- The range analysis of a command: the class points, or the number of the first failing class in the order of R251's
table (09 R250 to R252). A class fails that needs a bound the operation reads and has not, or that has no point. -/
def dynPoints (d : DynDesc) (m : Model) (bounds : List Nat) : Except RangeClass (List Int) :=
  let decl (i : Nat) : Option Rat := (declared bounds i).filter (fun v => decide (0 < v))
  let lacks (i : Nat) (on : Bool) : Bool := on && (decl i).isNone
  let id := decide (d.op ≠ 0)
  let fd := decide (d.op = 2) || decide (d.op = 5)
  let jac := decide (d.op = 3)
  let noQd := lacks 1 (id && (!jac || d.jdot))
  let noQdd := lacks 2 (id && !jac)
  let g (i : Nat) : Rat := (decl i).getD 0
  let qlin := g 0
  let sc := modelScale m qlin
  let lam := max 1 sc.rho
  let a : Rat := (sc.a : Rat)
  let qd := g 1
  let v := a * lam * qd
  let acc := a * lam * (g 2 + a * qd * qd) + normUp (m.grav.map f64Dy)
  let i := sc.m * lam * lam + (m.nJ : Rat) * sc.iMax
  let f := 36 * i * (acc + v * v) + (m.nJ : Rat) * g 4 * lam
  let h := 6 * i * v
  let fac := a * (1 + lam) * (if qd = 0 then 1 else max 1 (1 / qd))
  let ms : List (Rat × Bool) :=
    [(1, false), ((decl 5).getD 1024, decide (bounds.getD 5 0 ≠ 0) && (decl 5).isNone), (qlin, lacks 0 true), (lam, false),
      (lam + (sc.k : Rat) * qlin, false), (v, noQd), (acc, noQdd), (g 2, noQdd), (i, false), (6 * lam * i, false),
      (h, noQd), (f, lacks 4 d.fext), (g 3, lacks 3 fd), (max (g 3) (sc.h * f), false), (2 * sc.h * lam, false),
      (g 6, lacks 6 (decide (d.op = 5))), (v * fac, false), (acc * fac, false), (h * fac, false), (f * fac, false),
      (max (g 3) (sc.h * f) * fac, false)]
  let bad := (dynClassNo.zip ms).filter (fun x =>
    x.2.2 || decide (pointOf x.2.1 < -128) || decide (127 < pointOf x.2.1))
  match bad with
  | [] => .ok (ms.map (fun x => pointOf x.1))
  | x :: rest => .error (rest.foldl (fun c y => min c y.1) x.1)

/-! ### One tree's arithmetic (09 R249, R253, R254) -/

/-- What a tree gathers: saturations, a renormalised or replaced quaternion, locked joints, flags. -/
structure JTally where
  sat : Nat := 0
  quatFix : Bool := false
  locked : List Nat := []
  fixes : Nat := 0
  ev : Ev := {}
deriving DecidableEq, Repr, Inhabited

/-- A part of a tree's evaluation, with the class points at hand. -/
abbrev JM (α : Type) := StateM JTally α

/-- An exact value written back at a point: nearest even, saturated to -2^63 and 2^63 - 1; a saturation counts (02 R45,
09 R261). -/
def wj (pt : Int) (d : Dy) : JM Dy := do
  let i := (roundInt (.dir .tiesToEven) d (-pt)).1
  let lo : Int := -(2 ^ 63)
  let hi : Int := 2 ^ 63 - 1
  if i < lo ∨ hi < i then
    modify (fun t => { t with sat := t.sat + 1, ev := t.ev.join { sat := 1, satEv := true } })
  return { m := max lo (min hi i), e := -pt }

/-- A vector written back. -/
def wv (pt : Int) (v : List Dy) : JM (List Dy) := v.mapM (wj pt)

/-- A matrix written back. -/
def wm (pt : Int) (v : List (List Dy)) : JM (List (List Dy)) := v.mapM (wv pt)

/-- Zero, a zero vector, element access. -/
def dz : Dy := { m := 0, e := 0 }
def vz (n : Nat) : List Dy := List.replicate n dz
def gx (v : List Dy) (i : Nat) : Dy := v.getD i dz

/-- Exact vector arithmetic. -/
def vadd (a b : List Dy) : List Dy := a.zipWith Dy.add b
def vsub (a b : List Dy) : List Dy := a.zipWith Dy.sub b
def vneg (a : List Dy) : List Dy := a.map Dy.neg
def vscale (c : Dy) (a : List Dy) : List Dy := a.map (Dy.mul c)
def vdot (a b : List Dy) : Dy := (a.zipWith Dy.mul b).foldl Dy.add dz

/-- The cross product of 3-vectors. -/
def cross (a b : List Dy) : List Dy :=
  [((gx a 1).mul (gx b 2)).sub ((gx a 2).mul (gx b 1)), ((gx a 2).mul (gx b 0)).sub ((gx a 0).mul (gx b 2)),
    ((gx a 0).mul (gx b 1)).sub ((gx a 1).mul (gx b 0))]

/-- A matrix times a vector, a transpose, a product of matrices (rows). -/
def mv (m : List (List Dy)) (v : List Dy) : List Dy := m.map (fun r => vdot r v)
def mT (m : List (List Dy)) : List (List Dy) :=
  (List.range ((m.headD []).length)).map (fun j => m.map (fun r => gx r j))
def mm (a b : List (List Dy)) : List (List Dy) := let bt := mT b; a.map (fun r => bt.map (vdot r))
def madd (a b : List (List Dy)) : List (List Dy) := a.zipWith vadd b
def msub (a b : List (List Dy)) : List (List Dy) := a.zipWith vsub b

/-- The motion and force cross products (09 R248). -/
def crossM (v m : List Dy) : List Dy :=
  let (w, u) := (v.take 3, v.drop 3)
  let (a, b) := (m.take 3, m.drop 3)
  cross w a ++ vadd (cross w b) (cross u a)
def crossF (v f : List Dy) : List Dy :=
  let (w, u) := (v.take 3, v.drop 3)
  let (a, b) := (f.take 3, f.drop 3)
  vadd (cross w a) (cross u b) ++ cross w b

/-- A joint's transform: rotation from parent to body coordinates, and the body's origin in the parent's frame; its motion
subspace, one column per velocity coordinate, and that of a planar joint differentiated by its angle. -/
structure Jx where
  e : List (List Dy)
  p : List Dy
  s : List (List Dy)
  ds : List (List Dy)
deriving DecidableEq, Repr, Inhabited

/-- X·m for a motion vector, Xᵀ·f for a force vector (09 R248). -/
def Jx.motion (x : Jx) (m : List Dy) : List Dy :=
  let w := m.take 3
  mv x.e w ++ mv x.e (vsub (m.drop 3) (cross x.p w))
def Jx.forceBack (x : Jx) (f : List Dy) : List Dy :=
  let et := mT x.e
  let g := mv et (f.drop 3)
  vadd (mv et (f.take 3)) (cross x.p g) ++ g

/-- X as a 6 × 6 matrix. -/
def Jx.mat (x : Jx) : List (List Dy) :=
  mT ((List.range 6).map (fun k => x.motion ((List.range 6).map (fun i => if i = k then { m := 1, e := 0 } else dz))))

/-- S·c for the coordinates of a joint. -/
def subspace (s : List (List Dy)) (c : List Dy) : List Dy := (s.zip c).foldl (fun a x => vadd a (vscale x.2 x.1)) (vz 6)

/-- The first `terms` Taylor terms of sine and cosine of an angle below 1/2 in fixed point with `b` fraction bits: (sin,
cos). -/
def sinCosSmall (b terms : Nat) (x : Int) : Int × Int :=
  let one : Int := (2 : Int) ^ b
  let step (t : Int × Int × Int × Nat) : Int × Int × Int × Nat :=
    -- t = (sin so far, cos so far, current term x^k / k!, k)
    let k := t.2.2.2 + 1
    let term := t.2.2.1 * x / one / (k : Int)
    (if k % 4 = 1 then t.1 + term else if k % 4 = 3 then t.1 - term else t.1,
      if k % 4 = 0 then t.2.1 + term else if k % 4 = 2 then t.2.1 - term else t.2.1, term, k)
  let r := (List.range terms).foldl (fun t _ => step t) (0, one, one, 0)
  (r.1, r.2.1)

/-- sin θ and cos θ of an exact angle to within 2^-240 (log 44): the angle is halved below 1/2, and doubled back. -/
def sinCos (th : Dy) : Dy × Dy :=
  let top : Int := (Nat.log2 th.m.natAbs : Int) + th.e + 2
  let k : Nat := max 14 top.toNat
  let b : Nat := 360 + 2 * k
  let x := (roundInt (.dir .towardNegative) { m := th.m, e := th.e - (k : Int) } (-(b : Int))).1
  let one : Int := (2 : Int) ^ b
  let r := (List.range k).foldl (fun (t : Int × Int) _ => (2 * t.1 * t.2 / one, one - 2 * t.1 * t.1 / one))
    (sinCosSmall b (66 + k) x)
  if th.m = 0 then (dz, { m := 1, e := 0 }) else ({ m := r.1, e := -(b : Int) }, { m := r.2, e := -(b : Int) })

/-- The rotation entries of a unit quaternion (w, x, y, z), exactly (09 R249). -/
def quatMat (q : List Dy) : List (List Dy) :=
  let (w, x, y, z) := (gx q 0, gx q 1, gx q 2, gx q 3)
  let two (a b : Dy) : Dy := Dy.mul { m := 2, e := 0 } (a.add b)
  let one : Dy := { m := 1, e := 0 }
  [[one.sub (two (y.mul y) (z.mul z)), two (x.mul y) (w.mul z).neg, two (x.mul z) (w.mul y)],
    [two (x.mul y) (w.mul z), one.sub (two (x.mul x) (z.mul z)), two (y.mul z) (w.mul x).neg],
    [two (x.mul z) (w.mul y).neg, two (y.mul z) (w.mul x), one.sub (two (x.mul x) (y.mul y))]]

/-- The product of two quaternions. -/
def quatMul (a b : List Dy) : List Dy :=
  let (w, x, y, z) := (gx a 0, gx a 1, gx a 2, gx a 3)
  let (w', x', y', z') := (gx b 0, gx b 1, gx b 2, gx b 3)
  [(((w.mul w').sub (x.mul x')).sub (y.mul y')).sub (z.mul z'),
    (((w.mul x').add (x.mul w')).add (y.mul z')).sub (z.mul y'),
    (((w.mul y').sub (x.mul z')).add (y.mul w')).add (z.mul x'),
    (((w.mul z').add (x.mul y')).sub (y.mul x')).add (z.mul w')]

/-- q / sqrt(n2) to a grid far below `c_unit`, with a sticky bit (09 R249). -/
def divSqrt (q n2 : Dy) : Dy :=
  if q.m = 0 then dz
  else
    -- (q^2 / n2) * 4^k, floor, root
    let k := 200 + (q.e - n2.e).natAbs + Nat.log2 n2.m.natAbs + 1
    let e := 2 * q.e - n2.e
    let sh := 2 * k + (e % 2).toNat
    let num := q.m.natAbs * q.m.natAbs * 2 ^ sh
    let v := num / n2.m.natAbs
    let r := isqrt v
    let m : Nat := 2 * r + (if r * r = v ∧ num % n2.m.natAbs = 0 then 0 else 1)
    { m := if q.m < 0 then -(m : Int) else (m : Int), e := (e - (sh : Int)) / 2 - 1 }

/-- A spherical or free joint's quaternion as the engine reads it: normalised, or replaced (09 R249). -/
def readQuat (pt : List Int) (tol : Int) (q : List Dy) : JM (List Dy) := do
  let n2 := vdot q q
  let fix : JM Unit := modify (fun t => { t with quatFix := true, fixes := t.fixes + 1 })
  if n2.m = 0 then
    fix
    wv (pt.getD clUnit 0) [{ m := 1, e := 0 }, dz, dz, dz]
  else
    let t : Dy := { m := 1, e := tol }
    let one : Dy := { m := 1, e := 0 }
    let hi := one.add t
    let lo := one.sub t
    if (hi.mul hi).lt n2 || (decide (0 < lo.m) && n2.lt (lo.mul lo)) then fix
    wv (pt.getD clUnit 0) (q.map (fun x => divSqrt x n2))

/-! ### Models with their constants converted (09 R244 to R249) -/

/-- A joint with its constants at their classes: spatial inertia 6 × 6, first coordinates. -/
structure Body where
  parent : Option Nat
  jtype : Nat
  iq : Nat
  iv : Nat
  pitch : Dy
  rotQ : List Dy
  rot : List (List Dy)
  trans : List Dy
  inertia : List (List Dy)
deriving DecidableEq, Repr, Inhabited

/-- The cross-product matrix of a 3-vector. -/
def skew (c : List Dy) : List (List Dy) :=
  [[dz, (gx c 2).neg, gx c 1], [gx c 2, dz, (gx c 0).neg], [(gx c 1).neg, gx c 0, dz]]

/-- The spatial inertia about the body's origin, exactly from mass, centre and rotational inertia (09 R245). -/
def spatialInertia (mass : Dy) (c : List Dy) (i : List Dy) : List (List Dy) :=
  let cx := skew c
  let mc := cx.map (vscale mass)
  let ic := [[gx i 0, gx i 3, gx i 4], [gx i 3, gx i 1, gx i 5], [gx i 4, gx i 5, gx i 2]]
  let top := msub ic (mm mc cx)
  let diag := (List.range 3).map (fun r => (List.range 3).map (fun k => if r = k then mass else dz))
  (top.zip mc).map (fun x => x.1 ++ x.2) ++ ((mT mc).zip diag).map (fun x => x.1 ++ x.2)

/-- The bodies of a model (log 44): the constants written back at their classes; the pitch stands as the model gives it,
so that a helical translation is rounded once (09 R249). -/
def bodies (pt : List Int) (m : Model) : JM (List Body) := do
  let at' (c : Nat) : Int := pt.getD c 0
  let mut out : List Body := []
  let mut iq := 0
  let mut iv := 0
  for j in m.joints do
    let q ← wv (at' clUnit) (j.rot.map f64Dy)
    let r ← wm (at' clUnit) (quatMat q)
    let t ← wv (at' clLen) (j.trans.map f64Dy)
    let c ← wv (at' clLen) (j.com.map f64Dy)
    let mass ← wj (at' clI) (f64Dy j.mass)
    let ine ← wv (at' clI) (j.inertia.map f64Dy)
    let si ← wm (at' clI) (spatialInertia mass c ine)
    out := out ++ [{ parent := if j.parent < 0 then none else some j.parent.toNat, jtype := j.jtype, iq := iq, iv := iv
                     pitch := f64Dy j.pitch, rotQ := q, rot := r, trans := t, inertia := si }]
    iq := iq + jointNq j.jtype
    iv := iv + jointNv j.jtype
  return out

/-- A rotation about z from sine and cosine. -/
def rotZ (s c : Dy) : List (List Dy) :=
  [[c, s.neg, dz], [s, c, dz], [dz, dz, { m := 1, e := 0 }]]

/-- The rotation that a joint's angle makes: sine and cosine, each rounded once (09 R249). -/
def unitAngle (pt : List Int) (th : Dy) : JM (Dy × Dy) := do
  let sc := sinCos th
  return (← wj (pt.getD clUnit 0) sc.1, ← wj (pt.getD clUnit 0) sc.2)

/-- The translation of a joint in its joint frame: a helical one is a quantity of its own (09 R246, R249). -/
def jointMove (pt : List Int) (b : Body) (q : List Dy) : JM (List Dy) := do
  match b.jtype with
  | 2 => return [dz, dz, gx q 0]
  | 3 => return [dz, dz, ← wj (pt.getD clLen 0) (b.pitch.mul (gx q 0))]
  | 4 => return [gx q 0, gx q 1, dz]
  | _ => return vz 3

/-- A body's origin in its parent's frame, exactly: a free joint's position is given there already (09 R246). -/
def Body.origin (b : Body) (q move : List Dy) : List Dy :=
  if b.jtype = 6 then vadd b.trans (q.take 3) else vadd b.trans (mv b.rot move)

/-- The transform's translation at `c_len`. The one of a free or planar joint 0, which R251 leaves out of that class's
bound, reaches no result, since the world is at rest: it is not formed (09 R251; log 44). -/
def jointOrigin (pt : List Int) (b : Body) (q : List Dy) : JM (List Dy) := do
  if b.parent.isNone && (b.jtype == 4 || b.jtype == 6) then return b.trans
  else if b.jtype = 0 ∨ b.jtype = 5 then return b.trans
  else wv (pt.getD clLen 0) (b.origin q (← jointMove pt b q))

/-- The transform and motion subspace of a joint at its coordinates (09 R246, R249; log 44). -/
def jcalc (pt : List Int) (tol : Int) (b : Body) (q : List Dy) : JM Jx := do
  let u := pt.getD clUnit 0
  let one : Dy := { m := 1, e := 0 }
  let ez6 : List Dy := [dz, dz, one, dz, dz, dz]
  let unit (k : Nat) : List Dy := (List.range 6).map (fun i => if i = k then one else dz)
  let angled (th : Dy) (s : Dy → Dy → List (List Dy)) (ds : Dy → Dy → List (List Dy)) : JM Jx := do
    let (sn, cs) ← unitAngle pt th
    let r ← wm u (mm b.rot (rotZ sn cs))
    return { e := mT r, p := ← jointOrigin pt b q, s := s sn cs, ds := ds sn cs }
  let noDs (_ _ : Dy) : List (List Dy) := []
  match b.jtype with
  | 0 => return { e := mT b.rot, p := b.trans, s := [], ds := [] }
  | 1 => angled (gx q 0) (fun _ _ => [ez6]) noDs
  | 2 => return { e := mT b.rot, p := ← jointOrigin pt b q, s := [unit 5], ds := [] }
  | 3 => angled (gx q 0) (fun _ _ => [[dz, dz, one, dz, dz, b.pitch]]) noDs
  | 4 =>
    angled (gx q 2)
      (fun s c => [[dz, dz, dz, c, s.neg, dz], [dz, dz, dz, s, c, dz], ez6])
      (fun s c => [[dz, dz, dz, s.neg, c.neg, dz], [dz, dz, dz, c, s.neg, dz], vz 6])
  | 5 =>
    let n ← readQuat pt tol q
    let rj ← wm u (quatMat n)
    let r ← wm u (mm b.rot rj)
    return { e := mT r, p := b.trans, s := [unit 0, unit 1, unit 2], ds := [] }
  | _ =>
    let n ← readQuat pt tol (q.drop 3)
    let rj ← wm u (quatMat n)
    let r ← wm u (mm b.rot rj)
    return { e := mT r, p := ← jointOrigin pt b q, s := (List.range 6).map unit, ds := [] }

/-- Every joint's transform. -/
def transforms (pt : List Int) (tol : Int) (bs : List Body) (q : List Dy) : JM (List Jx) :=
  bs.mapM (fun b => jcalc pt tol b ((q.drop b.iq).take (jointNq b.jtype)))

/-- A body's velocity coordinates of a vector. -/
def Body.coords (b : Body) (v : List Dy) : List Dy := (v.drop b.iv).take (jointNv b.jtype)

/-- A list folded from its last element to its first, with the index. -/
def foldDown {α β : Type} (f : β → α → Nat → JM β) (l : List α) (init : β) : JM β :=
  l.zipIdx.reverse.foldlM (fun a x => f a x.1 x.2) init

/-! ### The listings (09 R255 to R257) -/

/-- Pass 1: velocities, joint velocities' products, and I·v of every body (09 R255). -/
structure Vel where
  v : List Dy
  vj : List Dy
  c : List Dy
  h : List Dy
deriving DecidableEq, Repr, Inhabited

def passVel (pt : List Int) (bs : List Body) (xs : List Jx) (qd : List Dy) : JM (List Vel) := do
  let mut out : List Vel := []
  for (b, x) in bs.zip xs do
    let vp := match b.parent with | some p => (out.getD p default).v | none => vz 6
    let vj ← wv (pt.getD clV 0) (subspace x.s (b.coords qd))
    let v ← wv (pt.getD clV 0) (vadd (x.motion vp) vj)
    let c ← wv (pt.getD clAcc 0) (crossM v vj)
    let h ← wv (pt.getD clH 0) (mv b.inertia v)
    out := out ++ [{ v := v, vj := vj, c := c, h := h }]
  return out

/-- A rational as an FP64 code, rounded once (02 R53, 09 R253). -/
def ratF64 (r : Rat) : Nat × BitVec 5 :=
  if r = 0 then (0, 0)
  else
    let (q, k) := quotient f64 r.num.natAbs 0 r.den 0
    f64.finish .tiesToEven false (.fin (decide (r < 0)) q k)

/-- The factors of D in FP64, column by column: L (rows) and d (09 R254). -/
def ldl (n : Nat) (d : List (List Nat)) : (List (List Nat) × List Nat) × BitVec 5 :=
  let r := Rm.tiesToEven
  let one := 0x3FF0000000000000
  (List.range n).foldl (fun acc k =>
    let l := acc.1.1
    let dd := acc.1.2
    let lk := l.getD k []
    let dk := (List.range k).foldl (fun (a : Nat × BitVec 5) j =>
      let t := fMul f64 r (lk.getD j 0) (lk.getD j 0)
      let t2 := fMul f64 r t.1 (dd.getD j 0)
      let s := fSub f64 r a.1 t2.1
      (s.1, a.2 ||| t.2 ||| t2.2 ||| s.2)) ((d.getD k []).getD k 0, 0)
    let rows := (List.range n).map (fun i =>
      let li := l.getD i []
      if i < k then (li, (0 : BitVec 5))
      else if i = k then (li ++ [one], 0)
      else
        let num := (List.range k).foldl (fun (a : Nat × BitVec 5) j =>
          let t := fMul f64 r (li.getD j 0) (lk.getD j 0)
          let t2 := fMul f64 r t.1 (dd.getD j 0)
          let s := fSub f64 r a.1 t2.1
          (s.1, a.2 ||| t.2 ||| t2.2 ||| s.2)) ((d.getD i []).getD k 0, 0)
        let q := fDiv f64 r num.1 dk.1
        (li ++ [q.1], num.2 ||| q.2))
    ((rows.map (fun x => x.1), dd ++ [dk.1]), rows.foldl (fun a x => a ||| x.2) (acc.2 ||| dk.2)))
    ((List.replicate n [], []), 0)

/-- The exact inverse of L diag(d) Lᵀ for finite factors and nonzero d, as rationals (09 R253, R254). -/
def ldlInverse (n : Nat) (l : List (List Nat)) (d : List Nat) : List (List Rat) :=
  let lr (i j : Nat) : Rat := (f64Dy ((l.getD i []).getD j 0)).rat
  -- columns of L⁻¹ by forward substitution
  let linv := (List.range n).map (fun j => (List.range n).foldl (fun (col : List Rat) i =>
    col ++ [(if i = j then 1 else 0) - ((List.range i).map (fun k => lr i k * col.getD k 0)).foldl (fun a b => a + b) 0]) [])
  (List.range n).map (fun a => (List.range n).map (fun b =>
    ((List.range n).map (fun k => (linv.getD a []).getD k 0 * (linv.getD b []).getD k 0 / (f64Dy (d.getD k 0)).rat)).foldl
      (fun x y => x + y) 0))

/-- What pass 2 of forward dynamics keeps of a joint: U, D⁻¹ and K (FP64), u, whether it is locked (09 R254, R255). -/
structure Art where
  u6 : List (List Dy)
  dinv : List (List Dy)
  k : List (List Dy)
  u : List Dy
  lock : Bool
deriving DecidableEq, Repr, Inhabited

/-- An exact sum as the scalar unit's FP64, its flags kept. -/
def jScalar (x : Nat × BitVec 5) : JM Nat := do
  modify (fun t => { t with ev := t.ev.join (Ev.ofFl x.2) })
  return x.1

/-- The scalar unit on one joint: factors, the singularity test, D⁻¹ and K (09 R254). -/
def scalarJoint (sing : Int) (n : Nat) (dm : List (List Dy)) (u6 : List (List Dy)) (ia : List (List Dy)) :
    JM (List (List Dy) × List (List Dy) × Bool) := do
  let codes ← dm.mapM (fun r => r.mapM (fun x => jScalar (f64.result .tiesToEven (DVal.ofDy x))))
  let ((l, d), fl) := ldl n codes
  let _ ← jScalar (0, fl)
  let top := (List.range 6).foldl (fun (a : Dy) i => if a.lt (gx (ia.getD i []) i) then gx (ia.getD i []) i else a)
    (gx (ia.getD 0 []) 0)
  let t ← jScalar (f64.result .tiesToEven (DVal.ofDy top))
  let lim := Dy.mul { m := 1, e := sing } (f64Dy t)
  if d.any (fun c => let v := f64.decode c; !v.isFinite || !(lim.lt v.dy)) then return ([], [], true)
  else
    let inv := ldlInverse n l d
    let dinv ← inv.mapM (fun r => r.mapM (fun x => do return f64Dy (← jScalar (ratF64 x))))
    let k ← dinv.mapM (fun r => (List.range 6).mapM (fun j => do
      let e := ((r.zip u6).map (fun x => x.1.rat * (gx x.2 j).rat)).foldl (fun a b => a + b) 0
      return f64Dy (← jScalar (ratF64 e))))
    return (dinv, k, false)

/-- w = D⁻¹·u, rounded once per entry (09 R253). -/
def jointW (dinv : List (List Dy)) (u : List Dy) : JM (List Dy) :=
  dinv.mapM (fun r => do return f64Dy (← jScalar (f64.result .tiesToEven (DVal.ofDy (vdot r u)))))

/-- Σ over the columns of U of a column times a coordinate. -/
def uTimes (u6 : List (List Dy)) (w : List Dy) : List Dy := subspace u6 w

/-- Pass 2 of forward dynamics: articulated inertias and bias forces inward (09 R255). -/
def passArt (pt : List Int) (sing : Int) (bs : List Body) (xs : List Jx) (vs : List Vel) (fx tau : List (List Dy)) :
    JM (List Art) := do
  let n := bs.length
  let ia0 := bs.map (fun b => b.inertia)
  let pa0 := (bs.zip vs).zipIdx.map (fun x => vsub (crossF x.1.2.v x.1.2.h) (fx.getD x.2 (vz 6)))
  let r ← (List.range n).reverse.foldlM (fun (acc : List (List (List Dy)) × List (List Dy) × List Art) i => do
    let b := bs.getD i default
    let x := xs.getD i default
    let v := vs.getD i default
    let ia ← wm (pt.getD clI 0) (acc.1.getD i [])
    let pa ← wv (pt.getD clF 0) (acc.2.1.getD i [])
    let nv := jointNv b.jtype
    let u6 ← x.s.mapM (fun s => wv (pt.getD clIx 0) (mv ia s))
    let dm ← x.s.mapM (fun s => wv (pt.getD clIx 0) (u6.map (vdot s)))
    let u ← wv (pt.getD clF 0) ((x.s.zip (tau.getD i [])).map (fun st => st.2.sub (vdot st.1 pa)))
    let (dinv, k, lock) ← if nv = 0 then pure ([], [], false) else scalarJoint sing nv dm u6 ia
    if lock then modify (fun t => { t with locked := i :: t.locked })
    let rigid := lock || nv == 0
    let iaOut ← if rigid then pure ia
      else wm (pt.getD clI 0) (msub ia (mm (mT u6) k))
    let w ← if rigid then pure [] else jointW dinv u
    let paOut ← wv (pt.getD clF 0) (vadd (vadd pa (mv iaOut v.c)) (uTimes u6 w))
    let art : Art := { u6 := u6, dinv := dinv, k := k, u := u, lock := lock }
    match b.parent with
    | none => return (acc.1, acc.2.1, art :: acc.2.2)
    | some p =>
      let ix ← wm (pt.getD clIx 0) (mm iaOut x.mat)
      let up := mm (mT x.mat) ix
      return (modAt (fun m => madd m up) acc.1 p, modAt (fun f => vadd f (x.forceBack paOut)) acc.2.1 p, art :: acc.2.2))
    (ia0, pa0, [])
  return r.2.2

/-- Pass 3 of forward dynamics: accelerations outward; q̈ joint by joint (09 R255). -/
def passAcc (pt : List Int) (qddCl accCl : Nat) (bs : List Body) (xs : List Jx) (cs : List (List Dy)) (arts : List Art)
    (g : List Dy) : JM (List (List Dy)) := do
  let r ← (List.range bs.length).foldlM (fun (acc : List (List Dy) × List (List Dy)) i => do
    let b := bs.getD i default
    let x := xs.getD i default
    let t := arts.getD i default
    let ap := match b.parent with | some p => acc.1.getD p [] | none => g
    let a' ← wv (pt.getD accCl 0) (vadd (x.motion ap) (cs.getD i (vz 6)))
    let qdd ← if t.lock then pure (List.replicate (jointNv b.jtype) dz)
      else do
        let rhs := (t.u.zip t.u6).map (fun u => u.1.sub (vdot u.2 a'))
        -- the parenthesised factor is a quantity of its own, at the class of u
        let rhs ← wv (pt.getD (if qddCl = clM then clM else clF) 0) rhs
        wv (pt.getD qddCl 0) (mv t.dinv rhs)
    let a ← wv (pt.getD accCl 0) (vadd a' (subspace x.s qdd))
    return (acc.1 ++ [a], acc.2 ++ [qdd])) ([], [])
  return r.2

/-- The world's acceleration (0; -g) at `c_acc`. -/
def worldAcc (pt : List Int) (m : Model) : JM (List Dy) := do
  return vz 3 ++ (← wv (pt.getD clAcc 0) (vneg (m.grav.map f64Dy)))

/-- Inverse dynamics: accelerations, forces (final) and τ of every joint (09 R256). -/
structure IdRes where
  a : List (List Dy)
  f : List (List Dy)
  tau : List (List Dy)
deriving DecidableEq, Repr, Inhabited

def runId (pt : List Int) (bs : List Body) (xs : List Jx) (vs : List Vel) (fx : List (List Dy)) (qdd g : List Dy) :
    JM IdRes := do
  let mut as' : List (List Dy) := []
  for ((b, x), v) in (bs.zip xs).zip vs do
    let ap := match b.parent with | some p => as'.getD p [] | none => g
    let a ← wv (pt.getD clAcc 0) (vadd (vadd (x.motion ap) (subspace x.s (b.coords qdd))) v.c)
    as' := as' ++ [a]
  let f0 := (bs.zip vs).zipIdx.map (fun y =>
    vsub (vadd (mv y.1.1.inertia (as'.getD y.2 [])) (crossF y.1.2.v y.1.2.h)) (fx.getD y.2 (vz 6)))
  let r ← (List.range bs.length).reverse.foldlM (fun (acc : List (List Dy) × List (List Dy) × List (List Dy)) i => do
    let x := xs.getD i default
    let f ← wv (pt.getD clF 0) (acc.1.getD i [])
    let tau ← wv (pt.getD clTau 0) (x.s.map (fun s => vdot s f))
    let held := match (bs.getD i default).parent with
      | some p => modAt (fun h => vadd h (x.forceBack f)) acc.1 p
      | none => acc.1
    return (held, f :: acc.2.1, tau :: acc.2.2)) (f0, [], [])
  return { a := as', f := r.2.1, tau := r.2.2 }

/-- Whether joint `i` lies on the path from the root to joint `j`: `fuel` bounds the path. -/
def onPath (bs : List Body) (i : Nat) : Nat → Nat → Bool
  | 0, j => decide (i = j)
  | fuel + 1, j => decide (i = j) || (match (bs.getD j default).parent with | some p => onPath bs i fuel p | none => false)

/-- The tangent of inverse dynamics along velocity coordinate `k` of joint `jn`: of q when `isQ`, of q̇ otherwise; τ's
tangent by joint (09 R259). -/
def idTangent (pt : List Int) (bs : List Body) (xs : List Jx) (vs : List Vel) (id : IdRes) (qd qdd g : List Dy)
    (jn k : Nat) (isQ : Bool) : JM (List (List Dy)) := do
  let n := bs.length
  let r ← (List.range n).foldlM (fun (acc : List (List Dy × List Dy × List Dy)) i => do
    let b := bs.getD i default
    let x := xs.getD i default
    let v := vs.getD i default
    let (dvp, dap) := match b.parent with | some p => ((acc.getD p default).1, (acc.getD p default).2.1) | none => (vz 6, vz 6)
    if !onPath bs jn n i then return acc ++ [(vz 6, vz 6, vz 6)]
    else
      let own := decide (i = jn)
      let sk := x.s.getD k (vz 6)
      let vp := match b.parent with | some p => (vs.getD p default).v | none => vz 6
      let ap := match b.parent with | some p => id.a.getD p [] | none => g
      let qdi := b.coords qd
      let dsq := if own && isQ && b.jtype == 4 && k == 2 then subspace x.ds qdi else vz 6
      let dsa := if own && isQ && b.jtype == 4 && k == 2 then subspace x.ds (b.coords qdd) else vz 6
      let dvj ← wv (pt.getD clDV 0) (if own then (if isQ then dsq else sk) else vz 6)
      let dv ← wv (pt.getD clDV 0) (vadd (vadd (x.motion dvp) (if own && isQ then crossM (x.motion vp) sk else vz 6)) dvj)
      let dc ← wv (pt.getD clDAcc 0) (vadd (crossM dv v.vj) (crossM v.v dvj))
      let da ← wv (pt.getD clDAcc 0) (vadd (vadd (vadd (x.motion dap)
        (if own && isQ then crossM (x.motion ap) sk else vz 6)) dsa) dc)
      let dh ← wv (pt.getD clDH 0) (mv b.inertia dv)
      let df := vadd (vadd (mv b.inertia da) (crossF dv v.h)) (crossF v.v dh)
      return acc ++ [(dv, da, df)]) []
  let out ← (List.range n).reverse.foldlM (fun (acc : List (List Dy) × List (List Dy)) i => do
    let b := bs.getD i default
    let x := xs.getD i default
    let related := onPath bs jn n i || onPath bs i n jn
    if !related then return (acc.1, List.replicate (jointNv b.jtype) dz :: acc.2)
    else
      let df ← wv (pt.getD clDF 0) (acc.1.getD i [])
      let own := decide (i = jn)
      let f := id.f.getD i []
      let sk := x.s.getD k (vz 6)
      let dtau ← wv (pt.getD clDTau 0) (x.s.zipIdx.map (fun s =>
        let extra := if own && isQ && b.jtype == 4 && k == 2 then vdot (x.ds.getD s.2 (vz 6)) f else dz
        (vdot s.1 df).add extra))
      let back := if own && isQ then vadd df (crossF sk f) else df
      let held := match b.parent with
        | some p => modAt (fun h => vadd h (x.forceBack back)) acc.1 p
        | none => acc.1
      return (held, dtau :: acc.2)) (r.map (fun t => t.2.2), [])
  return out.2

/-- The velocity coordinates of a model as (joint, coordinate) pairs, in order. -/
def coordList (bs : List Body) : List (Nat × Nat) :=
  bs.zipIdx.flatMap (fun b => (List.range (jointNv b.1.jtype)).map (fun k => (b.2, k)))

/-- M⁻¹ on one column: passes 2 and 3 with the stored U, D⁻¹, K and locks, at `c_m` (09 R260). -/
def minvColumn (pt : List Int) (bs : List Body) (xs : List Jx) (arts : List Art) (col : List Dy) : JM (List Dy) := do
  let n := bs.length
  let r ← (List.range n).reverse.foldlM (fun (acc : List (List Dy) × List Art) i => do
    let b := bs.getD i default
    let x := xs.getD i default
    let t := arts.getD i default
    let pa ← wv (pt.getD clM 0) (acc.1.getD i [])
    let u ← wv (pt.getD clM 0) ((x.s.zip (b.coords col)).map (fun st => st.2.sub (vdot st.1 pa)))
    let w ← if t.lock then pure [] else jointW t.dinv u
    let out ← wv (pt.getD clM 0) (vadd pa (uTimes (if t.lock then [] else t.u6) w))
    let held := match b.parent with
      | some p => modAt (fun h => vadd h (x.forceBack out)) acc.1 p
      | none => acc.1
    return (held, { t with u := u } :: acc.2)) (List.replicate n (vz 6), [])
  return (← passAcc pt clM clM bs xs (List.replicate n (vz 6)) r.2 (vz 6)).flatten

/-! ### One tree (09 R243, R256, R258, R263) -/

/-- A tree's inputs after conversion: q, q̇, the third input, external forces by body. -/
structure TreeIn where
  q : List Dy
  qd : List Dy
  u : List Dy
  fx : List (List Dy)
deriving DecidableEq, Repr, Inhabited

/-- The class of each position coordinate of a joint type: true an angle, false a length, none a quaternion component. -/
def coordClass (t : Nat) : List Nat :=
  match t with
  | 1 => [clAng]
  | 2 => [clLin]
  | 3 => [clAng]
  | 4 => [clLin, clLin, clAng]
  | 5 => [clUnit, clUnit, clUnit, clUnit]
  | 6 => [clLin, clLin, clLin, clUnit, clUnit, clUnit, clUnit]
  | _ => []

/-- World poses: quaternion and position of every body, composed from its parent's with one write-back for each entry
(09 R256; log 44). -/
def runFk (pt : List Int) (tol : Int) (bs : List Body) (q : List Dy) : JM (List Dy) := do
  let u := pt.getD clUnit 0
  let one : Dy := { m := 1, e := 0 }
  let half (th : Dy) : JM (List Dy) := do
    let (sn, cs) ← unitAngle pt { m := th.m, e := th.e - 1 }
    return [cs, dz, dz, sn]
  let r ← bs.foldlM (fun (acc : List (List Dy × List Dy)) b => do
    let qi := (q.drop b.iq).take (jointNq b.jtype)
    let qj ← match b.jtype with
      | 1 | 3 => half (gx qi 0)
      | 4 => half (gx qi 2)
      | 5 => readQuat pt tol qi
      | 6 => readQuat pt tol (qi.drop 3)
      | _ => pure [one, dz, dz, dz]
    let rel ← wv u (quatMul b.rotQ qj)
    let pw := match b.parent with | some p => acc.getD p ([], []) | none => ([one, dz, dz, dz], vz 3)
    let qw ← wv u (quatMul pw.1 rel)
    let rp ← wm u (quatMat pw.1)
    let pos ← wv (pt.getD clPos 0) (vadd pw.2 (mv rp (b.origin qi (← jointMove pt b qi))))
    return acc ++ [(qw, pos)]) []
  return r.flatMap (fun x => x.1 ++ x.2)

/-- The columns of a frame's Jacobian: each coordinate's motion carried along the path to the frame's body, written back
at `c_jac` (09 R258). -/
def jacFrame (pt : List Int) (bs : List Body) (xs : List Jx) (fr : Nat) : JM (List Dy) := do
  let cols ← (coordList bs).mapM (fun jk => do
    if onPath bs jk.1 bs.length fr then
      let s0 ← wv (pt.getD clJac 0) ((xs.getD jk.1 default).s.getD jk.2 (vz 6))
      (rangeFrom (jk.1 + 1) (fr - jk.1)).foldlM (fun m i =>
        if onPath bs i bs.length fr && onPath bs jk.1 bs.length i then
          wv (pt.getD clJac 0) ((xs.getD i default).motion m) else pure m) s0
    else pure (vz 6))
  return cols.flatten

/-- J̇·q̇ of every body: the accelerations with q̈ = 0 and g = 0 (09 R258). -/
def jdotAll (pt : List Int) (bs : List Body) (xs : List Jx) (vs : List Vel) : JM (List (List Dy)) :=
  (List.range bs.length).foldlM (fun acc i => do
    let ap := match (bs.getD i default).parent with | some p => acc.getD p [] | none => vz 6
    return acc ++ [← wv (pt.getD clAcc 0) (vadd ((xs.getD i default).motion ap) (vs.getD i default).c)]) []

/-- τ as the listings take it, joint by joint. -/
def byJoint (bs : List Body) (v : List Dy) : List (List Dy) := bs.map (fun b => b.coords v)

/-- The matrices of dID at an acceleration: ∂τ/∂q, then ∂τ/∂q̇, column by column (09 R259). -/
def runDId (pt : List Int) (bs : List Body) (xs : List Jx) (vs : List Vel) (t : TreeIn) (qdd g : List Dy) :
    JM (List (List Dy)) := do
  let id ← runId pt bs xs vs t.fx qdd g
  let col (isQ : Bool) (jk : Nat × Nat) : JM (List Dy) := do
    return (← idTangent pt bs xs vs id t.qd qdd g jk.1 jk.2 isQ).flatten
  return (← (coordList bs).mapM (col true)) ++ (← (coordList bs).mapM (col false))

/-- The outputs of one tree (09 R243). -/
def runTree (d : DynDesc) (pt : List Int) (tol sing : Int) (m : Model) (t : TreeIn) : JM (List Dy) := do
  let bs ← bodies pt m
  let xs ← if d.op = 0 then pure [] else transforms pt tol bs t.q
  match d.op with
  | 0 => runFk pt tol bs t.q
  | 1 =>
    let vs ← passVel pt bs xs t.qd
    return (← runId pt bs xs vs t.fx t.u (← worldAcc pt m)).tau.flatten
  | 2 =>
    let vs ← passVel pt bs xs t.qd
    let arts ← passArt pt sing bs xs vs t.fx (byJoint bs t.u)
    return (← passAcc pt clQdd clAcc bs xs (vs.map (fun v => v.c)) arts (← worldAcc pt m)).flatten
  | 3 =>
    let vs ← if d.jdot then passVel pt bs xs t.qd else pure []
    let jd ← if d.jdot then jdotAll pt bs xs vs else pure []
    return (← (d.frames.take d.nFrame).mapM (fun fr => do
      return (← jacFrame pt bs xs fr) ++ (if d.jdot then jd.getD fr [] else []))).flatten
  | 4 =>
    let vs ← passVel pt bs xs t.qd
    return (← runDId pt bs xs vs t t.u (← worldAcc pt m)).flatten
  | _ =>
    let vs ← passVel pt bs xs t.qd
    let g ← worldAcc pt m
    let arts ← passArt pt sing bs xs vs t.fx (byJoint bs t.u)
    let qdd := (← passAcc pt clQdd clAcc bs xs (vs.map (fun v => v.c)) arts g).flatten
    let did ← runDId pt bs xs vs t qdd g
    let units := (List.range m.nv).map (fun j => (List.range m.nv).map (fun i =>
      if i = j then ({ m := 1, e := 0 } : Dy) else dz))
    let held := (coordList bs).map (fun jk => (arts.getD jk.1 default).lock)
    return (← (units ++ did.map vneg).zipIdx.mapM (fun c =>
      if held.getD (c.2 % max 1 m.nv) false then pure (vz m.nv) else minvColumn pt bs xs arts c.1)).flatten

/-! ### Groups, results, commands (09 R261 to R270) -/

/-- A converted input value: FX64 at its class; a saturation counts as the tree's (09 R261, R263). -/
def jInput (fm : Fmt) (pt : Int) (code : Nat) : JM Dy := do
  let c := convert .fx64 0 0 pt (decodeVal fm code 0 pt)
  modify (fun t => { t with sat := t.sat + c.2.sat, ev := t.ev.join c.2 })
  return { m := signed 64 c.1, e := -pt }

/-- The padded size of a per-tree block of `n` values (09 R263). -/
def treeBlock (f : Fmt) (n : Nat) : Nat := alignUp (n * (Fmt.bits f / 8)) 64

/-- Output values of a tree (09 R243). -/
def outCount (d : DynDesc) (m : Model) : Nat :=
  match d.op with
  | 0 => 7 * m.nJ
  | 1 | 2 => m.nv
  | 3 => d.nFrame * (6 * m.nv + (if d.jdot then 6 else 0))
  | 4 => 2 * m.nv * m.nv
  | _ => 3 * m.nv * m.nv

/-- The class that an operation's third input is converted at (09 R251). -/
def inClass (op : Nat) : Nat := if op = 2 ∨ op = 5 then clTauIn else clQdd

/-- A tree's inputs read and converted (09 R262, R263). -/
def State.treeInputs (s : State) (t : DynSt) (k : Nat) : JM TreeIn := do
  let d := t.desc
  let m := t.model
  let f := (Fmt.ofNum d.fmtIn).getD .fp64
  let pt (c : Nat) : Int := t.points.getD c 0
  let sb := d.slots.getD 1 0 + k * treeBlock f (m.nq + m.nv)
  let ub := d.slots.getD 2 0 + k * treeBlock f (m.nv + if d.fext then 6 * m.nJ else 0)
  let rd (base i : Nat) : Nat := s.dramElem f base i
  let classes := m.joints.flatMap (fun j => coordClass j.jtype)
  let q ← classes.zipIdx.mapM (fun c => jInput f (pt c.1) (rd sb c.2))
  let useQd := decide (d.op ≠ 0) && (decide (d.op ≠ 3) || d.jdot)
  let qd ← if useQd then (List.range m.nv).mapM (fun i => jInput f (pt clV) (rd sb (m.nq + i))) else pure []
  let useU := decide (d.op ≠ 0) && decide (d.op ≠ 3)
  let u ← if useU then (List.range m.nv).mapM (fun i => jInput f (pt (inClass d.op)) (rd ub i)) else pure []
  let fx ← if d.fext then (List.range m.nJ).mapM (fun b =>
      (List.range 6).mapM (fun i => jInput f (pt clF) (rd ub (m.nv + 6 * b + i)))) else pure []
  return { q := q, qd := qd, u := u, fx := fx }

/-- A tree's status (09 R268). -/
def TreeRes.status (r : TreeRes) : Nat := if r.range || r.quatFix then stRange else if r.singular then stSingular else stOk

/-- `qual` of a tree (09 R267). -/
def TreeRes.qual (r : TreeRes) : Nat := b2n r.quatFix + 2 * b2n r.singular + 4 * b2n r.range

/-- The 16 B of a tree result (09 R267). -/
def TreeRes.bytes (r : TreeRes) : List Byte :=
  toLe 1 r.status ++ toLe 1 r.qual ++ toLe 4 0 ++ toLe 2 r.tree ++ toLe 2 r.singCount ++ toLe 2 r.singFirst ++
    toLe 4 (min r.sat (2 ^ 32 - 1))

/-- The declaration an Umber-J operation's saturations count under (09 R261). -/
def DynSt.decl (s : State) (t : DynSt) : Decl :=
  match t.src with
  | .entry e => s.declOf e
  | .cmd _ => .forward

/-- One tree evaluated and written (09 R261, R263, R267). -/
def State.runOneTree (s : State) (f : Nat) (t : DynSt) (k : Nat) : State × TreeRes :=
  let d := t.desc
  let sing := if d.singLog2 = -128 then t.sing else d.singLog2
  let prog : JM (List Dy) := do
    let i ← s.treeInputs t k
    runTree d t.points t.quatTol sing t.model i
  let (out, tl) := prog.run {}
  let fo := (Fmt.ofNum d.fmtOut).getD .fp64
  let base := d.slots.getD 3 0 + k * treeBlock fo (outCount d t.model)
  let (s1, e1) := out.zipIdx.foldl (fun (acc : State × Ev) v =>
    let c := convert fo 0 0 0 (DVal.ofDy v.1)
    (acc.1.setDramElem fo base v.2 c.1, acc.2.join c.2)) (s, {})
  let res : TreeRes := { sat := tl.sat, tree := k, range := decide (0 < tl.sat), quatFix := tl.quatFix
                         singular := !tl.locked.isEmpty, singCount := tl.locked.length
                         singFirst := tl.locked.foldl min 0xFFFF }
  let s2 := s1.raise (umberUnit f) (DynSt.decl s t) (tl.ev.join e1)
  let s3 := s2.dramWr (d.slots.getD 5 0 + 16 * k) res.bytes
  (((((s3.count (kUjTrees f) 1).count (kUjLocked f) tl.locked.length).count (kUjSat f) tl.sat).count (kUjQuatFix f)
    tl.fixes), res)

/-- Velocity coordinates on the path to each joint, its own included (09 R265). -/
def pathNv (m : Model) : List Nat :=
  m.joints.foldl (fun acc j =>
    acc ++ [(if j.parent < 0 then 0 else acc.getD j.parent.toNat 0) + jointNv j.jtype]) []

/-- The per-group work W (09 R265). -/
def groupWork (d : DynDesc) (m : Model) : Nat :=
  let n := m.nJ
  let a := pathNv m
  let dv := ((m.joints.zip a).map (fun x => jointNv x.1.jtype * x.2)).foldl (fun x y => x + y) 0
  match d.op with
  | 0 => 6 * n
  | 1 => 14 * n
  | 2 => 22 * n
  | 3 => 6 * n + 4 * ((d.frames.take d.nFrame).map (fun f => a.getD f 0)).foldl (fun x y => x + y) 0 +
      (if d.jdot then 8 * n else 0)
  | 4 => 14 * n + 6 * dv
  | _ => 36 * n + 6 * dv + 8 * n * ceilDiv (3 * m.nv) 16

/-- Trees of engine slot `e`: first and end (09 R264). -/
def slotTrees (d : DynDesc) (e : Nat) : Nat × Nat :=
  let n := 2 ^ d.engLog2
  (e * d.nTree / n, (e + 1) * d.nTree / n)

/-- The time T of a command whose engines were in configuration S or J: the largest over its engines (09 R265). -/
def dynTime (d : DynDesc) (m : Model) (fromS : Nat → Bool) : Nat :=
  ((List.range (2 ^ d.engLog2)).map (fun e =>
    let (lo, hi) := slotTrees d e
    let g := ceilDiv (hi - lo) 4
    if g = 0 then 0 else (if fromS e then 1200 else 0) + 120 + g * groupWork d m + 4 * (g - 1) + 60)).foldl max 0

/-- An Umber-J operation put on its engines: each takes its range of trees (09 R264, R265). -/
def State.startDyn (s : State) (src : UmberSrc) (d : DynDesc) (m : Model) (points : List Int) (fields : List Nat) : State :=
  let charged := dynTime d m (fun e => !(s.engine (fields.getD e 0)).cfgJ)
  fields.zipIdx.foldl (fun x f =>
    let (lo, hi) := slotTrees d f.2
    x.setEngine f.1 { x.engine f.1 with
      cfgJ := true
      dyn := some { desc := d, model := m, points := points, src := src, fields := fields, slot := f.2, next := lo
                    stop := hi, charged := charged, quatTol := (s.profVal src.prof kUjQuatTol).toInt
                    sing := (s.profVal src.prof kUjSingLog2).toInt } }) s

/-- The results of every engine of an operation, in tree order. -/
def State.dynResults (s : State) (fields : List Nat) : List TreeRes :=
  fields.flatMap (fun f => match (s.engine f).dyn with | some t => t.results | none => [])

/-- Whether every engine of an operation has finished its range or stopped. -/
def State.dynDone (s : State) (fields : List Nat) : Bool :=
  fields.all (fun f => match (s.engine f).dyn with | some t => decide (t.stop ≤ t.next) || t.faulted | none => true)

/-- The command's status (09 R268). -/
def dynStatus (rs : List TreeRes) : Nat :=
  if rs.any (fun r => decide (r.status = stRange)) then stRange
  else if rs.any (fun r => decide (r.status = stSingular)) then stSingular else stOk

/-- The 64 B summary record (09 R269). -/
def dynSummary (t : DynSt) (rs : List TreeRes) : List Byte :=
  let cnt (c : Nat) : Nat := (rs.filter (fun r => decide (r.status = c))).length
  let sing := rs.find? (fun r => r.singular)
  let rng := rs.find? (fun r => decide (r.status = stRange))
  toLe 4 t.desc.opId ++ toLe 1 (dynStatus rs) ++ toLe 1 (rs.foldl (fun a r => a ||| r.qual) 0) ++ toLe 28 0 ++
    toLe 4 (min (rs.foldl (fun a r => a + r.sat) 0) (2 ^ 32 - 1)) ++
    toLe 4 (match rng with | some r => r.tree | none => 0xFFFFFFFF) ++
    toLe 2 (match sing with | some r => r.singFirst | none => 0xFFFF) ++
    toLe 4 (match sing with | some r => r.tree | none => 0xFFFFFFFF) ++
    toLe 4 (cnt stSingular) ++ toLe 4 (cnt stRange) ++ toLe 8 t.charged

/-- The engines of an ended operation: a command's are released, a schedule entry's held until its charge ends (09
R266). -/
def State.freeDyn (s : State) (src : UmberSrc) (fields : List Nat) : State :=
  fields.foldl (fun x f => x.setEngine f { x.engine f with dyn := match src with
    | .cmd _ => none
    | .entry _ => (x.engine f).dyn.map (fun t => { t with done := true }) }) s

/-- The outputs of a schedule entry's operation that stopped: the trees not written and the summary undefined (20 R533). -/
def State.dynLost (s : State) (t : DynSt) (rs : List TreeRes) : State :=
  match t.src with
  | .cmd _ => s
  | .entry _ =>
    let d := t.desc
    let b := treeBlock ((Fmt.ofNum d.fmtOut).getD .fp64) (outCount d t.model)
    let lost := (List.range d.nTree).filter (fun k => !rs.any (fun r => decide (r.tree = k)))
    let s1 := lost.foldl (fun (x : State) k =>
      let o := d.slots.getD 3 0 + k * b
      let q := d.slots.getD 5 0 + 16 * k
      (x.dramForget o (o + b)).dramForget q (q + 16)) s
    s1.dramForget (d.slots.getD 4 0) (d.slots.getD 4 0 + 64)

/-- An operation all of whose engines are done: the summary and the answer, or after a fault the answer alone (09 R268 to
R270). -/
def State.finishDyn (s : State) (t : DynSt) : State :=
  if !s.dynDone t.fields then s
  else
    let rs := s.dynResults t.fields
    let bad := t.fields.any (fun f => match (s.engine f).dyn with | some x => x.faulted | none => false)
    let s1 := (s.freeDyn t.src t.fields).count (kUjCmds (t.fields.headD 0)) 1
    if bad then (s1.dynLost t rs).umberAnswer t.src stFaultContained rs.length
    else (s1.dramWr (t.desc.slots.getD 4 0) (dynSummary t rs)).umberAnswer t.src (dynStatus rs) rs.length

/-- An uncorrectable read at `a`: the engine stops at once; the others complete their current group and stop; the fault is
contained, or fails only its command (09 R270; 20 R533, R536). -/
def State.faultDyn (s : State) (f : Nat) (t : DynSt) (a : Nat) : State :=
  let r : FaultRec := { sub := 5, inst := f, opId := t.desc.opId, elem := t.next, cause := Config.faultCause 6 % 256
                        addr := BitVec.ofNat 64 a, seq := BitVec.ofNat 64 t.src.seq }
  let s1 := t.fields.foldl (fun x g => match (x.engine g).dyn with
    | some y => x.setEngine g { x.engine g with dyn := some (if g = f then { y with faulted := true }
        else { y with halt := true }) }
    | none => x) s
  let s2 := match t.src with
    | .cmd _ => s1.record { r with cls := 1 }
    | .entry _ => s1.contained r
  s2.finishDyn t

/-- What a group of `n` trees reads: for an engine's first group also the model and the bounds (09 R262, R265). -/
def DynSt.inputs (t : DynSt) (n : Nat) : List (Nat × Nat) :=
  let d := t.desc
  let f := (Fmt.ofNum d.fmtIn).getD .fp64
  let a := treeBlock f (t.model.nq + t.model.nv)
  let b := treeBlock f (t.model.nv + if d.fext then 6 * t.model.nJ else 0)
  (if t.next = (slotTrees d t.slot).1 then [(d.slots.getD 0 0, 64 + 160 * t.model.nJ), (d.slots.getD 6 0, 64)] else []) ++
    [(d.slots.getD 1 0 + t.next * a, n * a)] ++
    (if d.op ≠ 0 ∧ d.op ≠ 3 then [(d.slots.getD 2 0 + t.next * b, n * b)] else [])

/-- What a group of `n` trees writes: outputs and tree results (09 R262, R267). -/
def DynSt.outputs (t : DynSt) (n : Nat) : List (Nat × Nat) :=
  let o := treeBlock ((Fmt.ofNum t.desc.fmtOut).getD .fp64) (outCount t.desc t.model)
  [(t.desc.slots.getD 3 0 + t.next * o, n * o), (t.desc.slots.getD 5 0 + 16 * t.next, 16 * n)]

/-- The first range of a group's inputs that lies under a poisoned line (10 R286). -/
def State.groupPoisoned (s : State) (t : DynSt) (n : Nat) : Option Nat :=
  ((t.inputs n).find? (fun r => s.poisoned r.1 r.2)).map (fun r => r.1)

/-- Some trees of an operation computed in ascending order, each with its result (09 R264, R266). -/
def State.runTrees (s : State) (f : Nat) (t : DynSt) (n : Nat) : State × List TreeRes :=
  (rangeFrom t.next n).foldl (fun (acc : State × List TreeRes) k =>
    let r := acc.1.runOneTree f t k
    (r.1, acc.2 ++ [r.2])) (s, [])

/-- One group of up to four trees; an engine whose command met a fault elsewhere stops after it (09 R264, R270). -/
def State.runGroup (s : State) (f : Nat) (t : DynSt) (ue : Bool) : State :=
  let n := min 4 (t.stop - t.next)
  match s.groupPoisoned t n, ue with
  | some a, _ => s.faultDyn f t a
  | none, true => s.faultDyn f t (t.desc.slots.getD 1 0 + t.next *
      treeBlock ((Fmt.ofNum t.desc.fmtIn).getD .fp64) (t.model.nq + t.model.nv))
  | none, false =>
    let s0 := (s.askAll (reqUmber + f) 0 (t.inputs n)).askAll (reqUmber + f) 2 (t.outputs n)
    let (s1, rs) := s0.runTrees f t n
    let t1 := { t with next := t.next + n, results := t.results ++ rs, faulted := t.halt }
    (s1.setEngine f { s1.engine f with dyn := some t1 }).finishDyn t1

/-- `UMBER_J_GROUP` (09 R264, R270). -/
def execUmberJGroup (field : Nat) (ue : Bool) (s : State) : Host.Outcome State Fault Refusal :=
  .next (match (s.engine field).dyn with
    | some t => if t.next < t.stop ∧ !t.faulted then s.runGroup field t ue else s
    | none => s)

end Sys2Proof.Machine
end

