-- ==== Sys2Proof/Machine/ImageParse.lean ====
section
/-! DEFINITION. A Shetu image read from its bytes: header, section table, manifest and lists, and the records of its
sections; what the spec gives no byte layout comes from the command's decoded parts (15 R431 to R440; 05 R120, R125; 10
R279; 11 R313, R314; log 17). -/

namespace Sys2Proof.Machine

/-! ### Header and sections (15 R431, R432) -/

/-- `sh_magic` (15 R431). -/
abbrev shMagic : Nat := 0x5348455455000001

/-- A section table entry (15 R432). -/
def parseSect (bs : List Byte) : Sect :=
  { stype := fieldLe bs 0 4, off := fieldLe bs 8 8, len := fieldLe bs 16 8, zeros := fieldLe bs 4 4 + fieldLe bs 24 8 }

/-- Entries in the section table (15 R431). -/
def imgSects (bs : List Byte) : Nat := fieldLe bs 12 4

/-- The section table (15 R431, R432). -/
def parseSects (bs : List Byte) : List Sect :=
  let o := fieldLe bs 24 8
  (List.range (imgSects bs)).map (fun i => parseSect ((bs.drop (o + 32 * i)).take 32))

/-- The bytes of a section. -/
def sectBytes (bs : List Byte) (s : Sect) : List Byte := (bs.drop s.off).take s.len

/-- The bytes of the section at an index of the table, from an offset. -/
def sectFrom (bs : List Byte) (ss : List Sect) (i off : Nat) : List Byte := (sectBytes bs (ss.getD i {})).drop off

/-- The image with every byte of a signature section zero (15 R433). -/
def unsigned_ (bs : List Byte) (ss : List Sect) : List Byte :=
  (ss.filter (fun s => decide (s.stype = 8))).foldl (fun (x : List Byte) s =>
    x.take s.off ++ List.replicate (x.drop s.off |>.take s.len).length 0 ++ x.drop (s.off + s.len)) bs

/-- The image digest (15 R433). -/
def imageDigest (bs : List Byte) : List Byte := sha512 (unsigned_ bs (parseSects bs))

/-! ### The manifest (15 R435 to R438) -/

/-- The manifest section and its index. -/
def manifestOf (ss : List Sect) : Nat × Sect :=
  match indexOf (fun s => decide (s.stype = 1)) ss with
  | some i => (i, ss.getD i {})
  | none => (0, {})

/-- A token entry (15 R436). `zeros` sums the bytes that must be zero; bytes 60 to 63 are among them (log 50). -/
def parseTok (bs : List Byte) : TokDecl :=
  { tok := fieldLe bs 0 4, fmt := fieldLe bs 4 1, ndim := fieldLe bs 5 1, home := fieldLe bs 6 1, flags := fieldLe bs 7 1
    seqMask := fieldLe bs 8 1, ext := (List.range 5).map (fun i => fieldLe bs (12 + 4 * i) 4)
    producer := fieldLe bs 32 4, zeros := fieldLe bs 9 3 + fieldLe bs 36 28 }

/-- A list of the manifest: `n` pieces of `w` bytes from an offset. -/
def manList (m : List Byte) (off n w : Nat) : List (List Byte) :=
  (List.range n).map (fun i => (m.drop (off + w * i)).take w)

/-- The tokens of a manifest (15 R435, R436). -/
def manToks (m : List Byte) : List TokDecl := (manList m (fieldLe m 32 8) (fieldLe m 16 4) 64).map parseTok

/-- The variable list: entry, offset, kind (15 R437). -/
def manVars (m : List Byte) : List (Nat × Nat × Nat) :=
  (manList m (fieldLe m 40 8) (fieldLe m 20 4) 16).map (fun b => (fieldLe b 0 4, fieldLe b 4 8, fieldLe b 12 4))

/-- The parameter-bound list: entry, offset, mask (15 R438). -/
def manPbound (m : List Byte) : List (Nat × Nat × Nat) :=
  (manList m (fieldLe m 48 8) (fieldLe m 24 4) 16).map (fun b => (fieldLe b 0 4, fieldLe b 4 8, fieldLe b 12 4))

/-- The declared-parameter list: row, value (15 R438). -/
def manParams (m : List Byte) : List (Nat × Nat) :=
  (manList m (fieldLe m 56 8) (fieldLe m 28 4) 16).map (fun b => (fieldLe b 0 4, fieldLe b 8 8))

/-- A section digest of the manifest (15 R435). -/
def manHash (m : List Byte) (i : Nat) : List Byte := (m.drop (fieldLe m 64 8 + 64 * i)).take 64

/-! ### Chroma records (05 R120, R125) -/

/-- The signed strides of a descriptor word, dimension 0 first (05 R120). -/
def parseStr (w : Nat) : List Int := (List.range 5).map (fun d => signed 24 (bits w (264 + 24 * d) 24))

/-- The extents of a descriptor word, dimension 0 first (05 R120). -/
def parseExt (w : Nat) : List Nat := (List.range 5).map (fun d => bits w (164 + 20 * d) 20 + 1)

/-- A Chroma tensor descriptor of 64 bytes (05 R120). -/
def parseTDesc (bs : List Byte) : TDesc :=
  let w := fieldLe bs 0 64
  { eBase := bits w 464 48, tok := bits w 432 32, sbase := bits w 408 24, base := bits w 384 24, str := parseStr w
    ext := parseExt w, fmt := bits w 156 8, xscale := signed 8 (bits w 148 8), cvt := bits w 146 2, ndim := bits w 143 3
    dynEn := bitOf w 142, dynWire := bits w 139 3 }

/-- Whether a descriptor's reserved bits are zero (05 R120). -/
def tdescRsvd (bs : List Byte) : Bool := decide (bits (fieldLe bs 0 64) 0 139 = 0)

/-- A reduction slot (05 R136). -/
def parseRed (v : Nat) : RedSlot :=
  { rop := bits v 9 3, wire := bits v 6 3, maskEn := bitOf v 5, maskSel := bits v 3 2 }

/-- A chain configuration record of 656 bytes (05 R125). `redRsvd` says that a reserved bit of a reduction slot is set. -/
def parseChain (bs : List Byte) : ChainRec :=
  let w := fieldLe bs 0 64
  let red := (List.range 4).map (fun j => bits w (80 + 12 * j) 12)
  { inPass := (List.range 4).map (fun j => bits w (128 + 2 * j) 2), red := red.map parseRed, esumN := bits w 77 3
    rpLen := bits w 72 5, stageOps := (List.range 8).map (fun s => bits w (48 + 3 * s) 3), o1Wire := bits w 45 3
    o0Wire := bits w 42 3, nOut := bits w 40 2, nIn := bits w 37 3, rowMode := bitOf w 36, nStage := bits w 32 4
    opId := bits w 0 32
    ins := (List.range (min 4 (bits w 37 3))).map (fun i => parseTDesc ((bs.drop (64 + 64 * i)).take 64))
    outs := (List.range (min 2 (bits w 40 2))).map (fun i => parseTDesc ((bs.drop (320 + 64 * i)).take 64))
    consts := (List.range 16).map (fun i => fieldLe bs (448 + 4 * i) 4)
    ops := (List.range 24).map (fun i => BitVec.ofNat 32 (fieldLe bs (512 + 4 * i) 4))
    rp := (List.range 12).map (fun i => BitVec.ofNat 32 (fieldLe bs (608 + 4 * i) 4))
    redRsvd := red.any (fun v => decide (bits v 0 3 ≠ 0)) }

/-- Whether a chain record's reserved bits are zero, in the header and in the descriptors it uses (05 R120, R125). -/
def chainRsvd (bs : List Byte) : Bool :=
  let w := fieldLe bs 0 64
  decide (bits w 136 376 = 0) &&
    (List.range (min 4 (bits w 37 3))).all (fun i => tdescRsvd ((bs.drop (64 + 64 * i)).take 64)) &&
    (List.range (min 2 (bits w 40 2))).all (fun i => tdescRsvd ((bs.drop (320 + 64 * i)).take 64))

/-! ### Streams and contexts (10 R279; 11 R313, R314) -/

/-- A prefetch stream descriptor of 64 bytes for an entry (10 R279). -/
def parseStream (bs : List Byte) (entry : Nat) : StreamDesc :=
  let w := fieldLe bs 0 64
  { mbase := bits w 464 48, land := bits w 440 24, depth := bits w 424 16, str := parseStr w, ext := parseExt w
    fmt := bits w 156 8, write := bitOf w 155, ndim := bits w 152 3, opId := bits w 0 32, entry := entry }

/-- Whether a stream descriptor's reserved bits are zero (10 R279). -/
def streamRsvd (bs : List Byte) : Bool :=
  let w := fieldLe bs 0 64
  decide (bits w 384 40 = 0) && decide (bits w 32 120 = 0)

/-- A context record of 64 bytes, with the tokens its reference names (11 R313, R325). -/
def parseCtx (bs : List Byte) (r : CtxRef) : CtxRec :=
  let w := fieldLe bs 0 64
  { src := bits w 464 48, dst := bits w 416 48, seq := bits w 368 48, peerTab := bits w 320 48, bytes := bits w 288 32
    epoch := bits w 272 16, nPeer := bits w 256 16, cap := bits w 240 16, nRoundM1 := bits w 232 8, credits := bits w 224 8
    fmtIn := bits w 216 8, fmtOut := bits w 208 8, kind := bits w 204 4, rop := bits w 200 4, cvt := bits w 198 2
    fold := bits w 195 3, topk := bits w 193 2, reroute := bitOf w 192, tok := bits w 160 32, rowBytes := bits w 144 16
    rsvd := bits w 128 16 + bits w 0 96, opId := bits w 96 32, srcTok := r.srcTok, routeTok := r.routeTok
    slotTok := r.slotTok }

/-- A peer table entry of 16 bytes (11 R314). -/
def parsePeer (bs : List Byte) : Peer :=
  let w := fieldLe bs 0 16
  { idx := bits w 80 48, count := bits w 48 32, expert := bits w 32 16, pctx := bits w 16 12, z := bits w 10 5
    y := bits w 5 5, x := bits w 0 5, rsvd := bits w 28 4 + bits w 15 1 }

/-! ### The whole image -/

/-- The loaded form of an image: what its bytes give, and the parts the command carries decoded (15 R431 to R440;
log 17). -/
def parseImage (bs : List Byte) (strict : Bool) (parts : ImageParts) : Image :=
  let ss := parseSects bs
  let m := sectBytes bs (manifestOf ss).2
  let at' (i off : Nat) : List Byte := sectFrom bs ss i off
  let es := parts.entries.zipIdx
  let ctxSect := (indexOf (fun s => decide (s.stype = 6)) ss).getD 0
  { digest := imageDigest bs, strict := strict, len := fieldLe bs 16 8, sects := ss, contract := fieldLe m 0 4
    mflags := fieldLe m 4 4, jobSeed := BitVec.ofNat 64 (fieldLe m 8 8), toks := manToks m, vars := manVars m
    pbound := manPbound m, params := manParams m, parts := parts
    chains := es.filterMap (fun e => match e.1.kind with
      | .stream i o => some (e.2, parseChain ((at' i o).take 656))
      | _ => none)
    kernels := es.filterMap (fun e => match e.1.kind with
      | .register i o n _ => some (e.2, (pieces 4 (n / 4) (at' i o)).map (fun b => BitVec.ofNat 32 (leNat b)))
      | _ => none)
    solves := es.filterMap (fun e => match e.1.kind with
      | .solve i o bi bo => some (e.2,
          { parseSolve ((at' i o).take 192) with
            own := (parts.rowRanges.filter (fun r => decide (r.entry = e.2))).map (fun r => (r.node, r.first, r.count)) },
          parseBounds ((at' bi bo).take 64))
      | _ => none)
    dyns := es.filterMap (fun e => match e.1.kind with
      | .dynamics i o mi mo _ _ => some (e.2, parseDyn ((at' i o).take 128), parseModel (at' mi mo), [])
      | _ => none)
    streams := parts.streams.map (fun r => (r, parseStream ((at' r.sect r.off).take 64) r.entry))
    ctxs := parts.ctxs.map (fun r =>
      let c := parseCtx ((at' ctxSect r.off).take 64) r
      (r, c, (List.range c.nPeer).map (fun k => parsePeer ((at' ctxSect (r.peerOff + 16 * k)).take 16)))) }

end Sys2Proof.Machine
end

