-- ==== Sys2Proof/Machine/Torus.lean ====
section
/-! DEFINITION. Spare switch-in, Cobalt time and the Livery comparison (chapter 13). -/

namespace Sys2Proof.Machine

/-! ### Switch-in (13 R388 to R391) -/

/-- The torus after a loss at a slot of a row: the row's hole, or the row left incomplete (13 R389, R390). -/
def Torus.lose (t : Torus) (y z slot : Nat) : Torus :=
  let k := y * 32 + z
  if !t.table.spares || (t.hole y z).isSome || t.lostRows.contains k then { t with lostRows := k :: t.lostRows }
  else { t with holes := Tab.insert k slot t.holes }

/-- The torus with this package's machine coordinates taken from the row map (13 R379, R389). -/
def Torus.recoord (t : Torus) : Torus :=
  match t.xAt t.slot t.y t.z with
  | some x => { t with x := x, hasCoord := true }
  | none => { t with x := 0, hasCoord := false }

/-- Row pairs of this package's Y and Z hops that no link path joins (13 R391). -/
def State.badPairs (s : State) : List (Nat × Nat) :=
  let t := s.torus
  let (_, my, mz) := t.size
  if !t.hasCoord then []
  else [(1, true), (1, false), (2, true), (2, false)].filterMap (fun h =>
    let m := if h.1 = 1 then my else mz
    if 1 < m ∧ (s.hopPath h).isNone then
      some (if h.1 = 1 then (axisMove my t.y h.2, t.z) else (t.y, axisMove mz t.z h.2))
    else none)

/-- The ports that no block edge isolates go from `ISOLATED` to `RUN`: an unused spare has taken its coordinates (13 R386,
R388). -/
def State.joinPorts (s : State) : State :=
  { s with ports := s.ports.map (fun p => if p.state = .isolated ∧ p.isolate = false then { p with state := .run } else p) }

/-- A switch-in message applied: the row map, `map_gen`, the coordinates; a package whose coordinates change reports it,
and so does a row pair without a path (13 R388, R389, R391). -/
def State.applySwitch (s : State) (m : Nat × Nat × Nat × Nat) : State :=
  let t1 := { (s.torus.lose m.1 m.2.1 m.2.2.1) with mapGen := m.2.2.2 }
  let t2 := if t1.y = m.1 ∧ t1.z = m.2.1 then t1.recoord else t1
  let s0 := { s with torus := t2 }
  let s1 := if t2.hasCoord && !s.torus.hasCoord then s0.joinPorts else s0
  let s2 := if t2.x ≠ s.torus.x ∨ t2.hasCoord ≠ s.torus.hasCoord then s1.event .coordChanged else s1
  s2.badPairs.foldl (fun x p => x.event (.rowPair p.1 p.2)) s2

/-- The held switch-in messages applied, oldest first (13 R388). -/
def State.applyHeld (s : State) : State :=
  let s1 := s.torus.heldSwitch.foldl State.applySwitch s
  { s1 with torus := { s1.torus with heldSwitch := [] } }

/-- The machine coordinates a slot of a row holds, if a member of the bound block (20 R542). -/
def State.memberAt (s : State) (y z slot : Nat) : Option (Nat × Nat × Nat) :=
  match s.job.bound, s.torus.xAt slot y z with
  | some b, some x => if s.coordInBlock b x y z then some (x, y, z) else none
  | _, _ => none

/-- The coordinates of a topology table field; in the initial map they are also the position (slot, y, z) (13 R379, R382). -/
def coordOf (w : Nat) : Nat × Nat × Nat := (bits w 0 5, bits w 5 5, bits w 10 5)

/-- Whether a loss at a slot of a row leaves the row incomplete, the held messages counted, and the bound block contains the
row (13 R390). -/
def State.rowLost (s : State) (y z slot : Nat) : Bool :=
  let t := s.torus.heldSwitch.foldl (fun (t : Torus) m => t.lose m.1 m.2.1 m.2.2.1) s.torus
  let (_, my, mz) := t.size
  match s.job.bound with
  | none => false
  | some b => (t.lose y z slot).lostRows.contains (y * 32 + z) && decide (relCoord y b.oy my < b.sy) &&
      decide (relCoord z b.oz mz < b.sz)

/-- `SWITCH_IN`: applied at once when no image is bound, else held; ignored and reported when `map_gen` is not one above
(13 R388); a member named in it is lost (20 R542), and so is a block with a row it leaves incomplete (13 R390). -/
def execSwitchIn (y z slot mapGen : Nat) (s : State) : Host.Outcome State Fault Refusal :=
  .next (if mapGen = s.torus.mapGen + s.torus.heldSwitch.length + 1 then
    let lostMaster := decide (coordOf s.torus.table.master = (slot, y, z))
    let s0 := { s with torus := { s.torus with masterLost := s.torus.masterLost || lostMaster } }
    let s1 := match s.memberAt y z slot with
      | some c => s0.memberLost c.1 c.2.1 c.2.2
      | none => if s.rowLost y z slot then s0.memberLost ((s.torus.xAt slot y z).getD 0) y z else s0
    if s1.job.bound.isNone then s1.applySwitch (y, z, slot, mapGen)
    else { s1 with torus := { s1.torus with heldSwitch := s1.torus.heldSwitch ++ [(y, z, slot, mapGen)] } }
  else s.event (.switchIgnored mapGen))

/-! ### Cobalt time (13 R393 to R398) -/

/-- The position of the time master in force: the table's master, or its deputy (13 R394; log 38). -/
def State.masterPos (s : State) : Nat × Nat × Nat :=
  coordOf (if s.torus.deputy then s.torus.table.deputy else s.torus.table.master)

/-- The machine coordinates that the time master in force has under the row maps (13 R379, R394). -/
def State.masterCoord (s : State) : Option (Nat × Nat × Nat) :=
  let p := s.masterPos
  (s.torus.xAt p.1 p.2.1 p.2.2).map (fun x => (x, p.2.1, p.2.2))

/-- After the loss of the master the deputy becomes master at the next correction (13 R394). -/
def State.elect (s : State) : State :=
  { s with torus := { s.torus with deputy := s.torus.deputy || s.torus.masterLost, corrDone := true } }

/-- The first hop toward the master with the axes in an order (13 R394). -/
def State.masterHop (s : State) (order : List Nat) : Option Nat :=
  let t := s.torus
  let (mx, my, mz) := t.size
  s.masterCoord.bind (fun d =>
    let hop (a : Nat) : Option (Nat × Bool) :=
      match a with
      | 0 => if t.x ≠ d.1 then some (0, axisDir mx 0 mx t.x d.1) else none
      | 1 => if t.y ≠ d.2.1 then some (1, axisDir my 0 my t.y d.2.1) else none
      | _ => if t.z ≠ d.2.2 then some (2, axisDir mz 0 mz t.z d.2.2) else none
    ((order.filterMap hop).head?).bind (fun h => (s.hopPath h).bind (fun p => p.head?)))

/-- The port that leads to the time parent: the first of three routes whose port carries sync words (13 R394; log 38). -/
def State.parentPort (s : State) : Option Nat :=
  ([[0, 1, 2], [1, 2, 0], [2, 0, 1]].filterMap s.masterHop).find? (fun p => (s.port p).up)

/-- Whether this package is the time master in force (13 R394). -/
def State.isMaster (s : State) : Bool :=
  s.torus.hasCoord && decide (s.masterPos = (s.torus.slot, s.torus.y, s.torus.z))

/-- The mean of some estimates, to the nearest integer, ties toward zero (13 R397). -/
def meanEst (l : List Int) : Int :=
  let n : Int := l.length
  let sm := l.foldl (fun a b => a + b) 0
  let q := (2 * sm.natAbs + l.length - 1) / (2 * l.length)
  if n = 0 then 0 else if sm < 0 then - (q : Int) else (q : Int)

/-- The correction before its limit: 0 without an estimate (13 R397, R398). -/
def State.rawCorr (s : State) : Int :=
  if s.torus.ests.isEmpty then 0 else - meanEst s.torus.ests + s.torus.parentCorr

/-- Whether the correction is clamped: an image is bound, it exceeds `cob_max`, and it is not the first after the parent
port reached `RUN` (13 R397). -/
def State.corrClamps (s : State) : Bool :=
  s.job.bound.isSome && !s.torus.firstCorr && decide (s.kvNat kCobMax < s.rawCorr.natAbs)

/-- The correction this package applies at its next correction, as the estimates stand; a time master and a package without
a parent port apply none (13 R394, R395, R397). -/
def State.nextCorr (s : State) : Int :=
  let lim : Int := s.kvNat kCobMax
  if s.isMaster || s.parentPort.isNone then 0
  else if s.corrClamps then (if s.rawCorr < 0 then - lim else lim) else s.rawCorr

/-- The trim of a port, in 1/16 tick, from this package's entry of the topology table (13 R382). -/
def State.trim16 (s : State) (p : Nat) : Int :=
  match s.torus.table.entries.find? (fun e =>
      decide (e.slot = s.torus.slot) && decide (e.y = s.torus.y) && decide (e.z = s.torus.z)) with
  | some e => (e.ports.getD p {}).trim
  | none => 0

/-- A value in 1/16 tick as ticks, to the nearest, ties toward zero (13 R382, R396; log 38). -/
def sixteenths (v : Int) : Int :=
  let q := (v.natAbs + 7) / 16
  if v < 0 then - (q : Int) else (q : Int)

/-- Ticks of half a second (13 R396). -/
abbrev halfSecond : Int := 900000000

/-- The offset estimate a sync word from the parent gives, if any (13 R396). -/
def State.estimate (s : State) (p : Nat) (w : SyncWord) (arrival : Nat) : Option Int :=
  if s.kvNat kCobPps = 1 then
    let d : Int := (s.pins.ppsTick.toNat : Int) - (w.ppsTick.toNat : Int)
    if s.pins.ppsValid && w.ppsValid && decide (d < halfSecond) && decide (- halfSecond < d) then some d else none
  else some ((arrival : Int) - (w.cobTick.toNat : Int) - ((s.kvNat (kLinkLat p) : Int) - (s.kvNat kAlMargin : Int)) +
    sixteenths (s.trim16 p))

/-- A difference of Livery digests (13 R401). -/
def State.liverySkew (s : State) : State :=
  let s1 := (s.event .liverySkew).count kLiverySkews 1
  { s1 with torus := { s1.torus with skewRaised := true }
            job := { s1.job with liveryMismatch := true } }

/-- Whether the Livery digests are compared for a sync word (13 R401, 12 R372). -/
def State.compares (s : State) (p : Nat) (w : SyncWord) : Bool :=
  match s.job.bound with
  | none => false
  | some b => decide ((s.port p).state = .run) && (s.port p).native && s.coordInBlock b w.srcX w.srcY w.srcZ && w.bound &&
      decide (w.epoch = s.job.epoch)

/-- `SYNC_WORD_RECEIVED` (13 R396, R398, R401). -/
def execSyncWordReceived (port : Nat) (word : SyncWord) (arrival : Nat) (s : State) : Host.Outcome State Fault Refusal :=
  .next (if (s.port port).up then
    let s1 := s.setPort port { s.port port with partnerWord := some word }
    let s2 := if s.parentPort = some port && !s.isMaster then
        let t := { s1.torus with parent := some port, parentCorr := word.corr }
        let t' := match s.estimate port word arrival with
          | some e => { t with ests := t.ests ++ [e], holdover := false, noEst := 0 }
          | none => t
        ({ s1 with torus := t' }).kvSet kCobDepth (BitVec.ofNat 64 (word.depth + 1))
      else s1
    if s2.compares port word && decide (word.livery.toNat ≠ s.livery) then s2.liverySkew else s2
  else s)

/-- Cobalt time moved by a correction, with every release tick (13 R397, 12 R369). -/
def State.moveTime (s : State) (c : Int) : State :=
  let mv (n : Nat) : Nat := ((n : Int) + c).toNat
  { s with
    clk := { s.clk with cobalt := s.clk.cobalt + BitVec.ofInt 64 c }
    ports := s.ports.map (fun p => { p with refTick := mv p.refTick, crossing := p.crossing.map (fun f => (mv f.1, f.2)) }) }

/-- A correction applied (13 R397, R398). -/
def State.correct (s : State) : State :=
  let t := s.torus
  let c := s.nextCorr
  let none' := t.ests.isEmpty
  let s1 := if none' then s.count kCobLost 1 else s
  let s2 := if s.corrClamps then (s1.event .cobaltSkew).count kCobSkews 1 else s1
  let n := if none' then t.noEst + 1 else 0
  let s3 := (s2.moveTime c).kvSet kCobLastCorr (BitVec.ofInt 64 c)
  { s3 with torus := { s3.torus with ests := [], noEst := n, holdover := t.holdover || decide (4 ≤ n)
                                     firstCorr := t.firstCorr && none', lastCorrTick := s3.now
                                     parent := s3.parentPort, master := s3.isMaster } }

/-- Whether a correction is due: once in a Sable window while an image is bound, from 64 cc after its start on, so that the
ports have sent only `IDLE` for 64 cc; else at a multiple of 2^20 ticks (12 R369; 13 R397; log 38). -/
def State.corrDue (s : State) : Bool :=
  if s.job.bound.isSome then s.sable && !s.torus.corrDone && decide (64 + s.job.stepEnd ≤ s.now)
  else decide (s.now % 1048576 = 0) && decide (s.torus.lastCorrTick ≠ s.now)

/-- Whether the ports send only `IDLE` for a correction: 64 cc before it, which in a Sable window is until it is done, and
64 cc after it (12 R369; log 38). -/
def State.corrQuiet (s : State) : Bool :=
  let before := if s.job.bound.isSome then s.sable && !s.torus.corrDone
    else decide (1048512 ≤ s.now % 1048576) || s.corrDue
  (before && !s.isMaster && s.parentPort.isSome) ||
    (decide (0 < s.torus.lastCorrTick) && decide (s.now < 64 + s.torus.lastCorrTick))

/-- A correction by a package that knows the master in force: the master and a package without a parent port apply none (13
R394, R397). -/
def State.correctNow (s : State) : State :=
  if s.isMaster then
    ({ s with torus := { s.torus with master := true, holdover := false, ests := [] } }).kvSet kCobDepth 0
  else if s.parentPort.isNone then
    { s with torus := { s.torus with master := false, parent := none, holdover := true } }
  else s.correct

/-- `COBALT_CORRECTION`: a deputy takes over, then the correction (13 R394, R397). -/
def execCobaltCorrection (s : State) : Host.Outcome State Fault Refusal :=
  .next (if s.corrDue then s.elect.correctNow else s)

/-- `COBALT_HOLDOVER`: four corrections in a row without an estimate (13 R398). -/
def execCobaltHoldover (s : State) : Host.Outcome State Fault Refusal :=
  .next (if 4 ≤ s.torus.noEst then { s with torus := { s.torus with holdover := true } } else s)

end Sys2Proof.Machine
end

