-- ==== Sys2Proof/Machine/Flosin.lean ====
section
/-! DEFINITION. The Flosin ports: flit slots, link-level retry and credits, messages in transit, bring-up, the cabling
check and the alignment ceremony (chapter 12, 13 R382 to R384, R395; 20 R540). -/

namespace Sys2Proof.Machine

/-! ### Sending (12 R346 to R366) -/

/-- The 16-bit number after one. -/
def seqNext (n : Nat) : Nat := (n + 1) % 65536

/-- Whether an `ack_seq` covers a sequence number (12 R351, R352). -/
def seqCovers (ack f : Nat) : Bool := decide ((65536 - f % 65536 + ack % 65536) % 65536 < 32768)

/-- The header every flit of a slot carries: acknowledgement, `nak`, and the credit reports of slot k (12 R352, R353,
R359). -/
def Port.header (x : Port) (f : Flit) : Flit :=
  let v0 := 2 * x.slot % 8
  let v1 := (2 * x.slot + 1) % 8
  { f with ackSeq := x.rxAck, ackV := x.rxAckV, nak := x.nakOut
           cr0 := (v0, x.rxFreed.getD v0 0 % 8192), cr1 := (v1, x.rxFreed.getD v1 0 % 8192) }

/-- A flit put into the next slot: header filled in, `nak` taken, the slot passed (12 R346, R353). -/
def State.slotFlit (s : State) (p : Nat) (f : Flit) : State :=
  let x := s.port p
  s.setPort p { x with txQueue := x.txQueue ++ [x.header f], nakOut := false, slot := x.slot + 1 }

/-- The sync word this package sends on a port (13 R395). -/
def State.syncWord (s : State) (p : Nat) : SyncWord :=
  { ppsTick := s.pins.ppsTick, step := s.job.step, livery := BitVec.ofNat 64 s.livery, cobTick := s.clk.cobalt
    mapGen := s.torus.mapGen, syncCount := ((s.port p).syncCount + 1) % 2 ^ 32
    epoch := if s.job.bound.isSome then s.job.epoch else 0
    srcX := s.torus.x, srcY := s.torus.y, srcZ := s.torus.z
    depth := if s.isMaster then 0 else s.kvNat kCobDepth % 64, corr := s.nextCorr
    bound := s.job.bound.isSome, master := s.isMaster, holdover := s.torus.holdover, ppsValid := s.pins.ppsValid
    skew := s.torus.skewRaised }

/-- Whether a `SYNC` flit is due: a multiple of 4,096 ticks has been reached that none was sent for (12 R366, R371). -/
def State.syncDue (s : State) (p : Nat) : Bool := (s.port p).up && decide ((s.port p).lastSync < 4096 * (s.now / 4096))

/-- The `SYNC` flit of a port (12 R366). -/
def State.syncSlot (s : State) (p : Nat) : State :=
  let x := s.port p
  (s.setPort p { x with lastSync := 4096 * (s.now / 4096), syncCount := (x.syncCount + 1) % 2 ^ 32 }).slotFlit p
    { body := .sync (s.syncWord p) }

/-- Whether a slot carries neither `DATA` nor `TEST`: the port is isolated, or it is elastic and owes an `IDLE` in every 256
slots (12 R371, R373). -/
def Port.idleOnly (x : Port) : Bool := x.state == .isolated || (!x.native && decide (x.slot % 256 = 255))

/-- Whether the next slot of a port has begun: in native mode slot k begins at ⌈144·k / 125⌉ from the reference tick (12
R346). -/
def State.slotDue (s : State) (p : Nat) : Bool :=
  let x := s.port p
  x.up && (!x.native || decide (ceilDiv (144 * x.slot) 125 + x.refTick ≤ s.now))

/-- A new sequenced flit: numbered, kept in the retry buffer, sent (12 R351). -/
def State.sequenced (s : State) (p : Nat) (f : Flit) : State :=
  let x := s.port p
  let g := { f with fseq := x.fseqNext }
  (s.setPort p { x with fseqNext := seqNext x.fseqNext, retry := x.retry ++ [g] }).slotFlit p g

/-- One credit of a virtual channel spent (12 R359). -/
def State.spend (s : State) (p vc : Nat) : State :=
  let x := s.port p
  s.setPort p { x with credit := setAt x.credit vc (x.credit.getD vc 0 - 1) }

/-- A `DATA` flit may be sent on a virtual channel: a credit, and room to keep it (12 R351, R359). -/
def Port.maySend (x : Port) (vc : Nat) : Bool := decide (0 < x.credit.getD vc 0) && decide (x.retry.length < retryMaxFlits)

/-- The grant of an output port after one of its flits: a beat less; none when its message or its beats have ended, and
then a message that the burst limit cut waits again, stamped with the time of this flit (10 R296; 12 R365). -/
def State.beat (s : State) (p : Nat) (r : MemReq) (ended : Bool) : State :=
  let a := s.arb (flArb p)
  let go := !ended && decide (1 < r.beats)
  let cut := !ended && decide (r.beats ≤ 1) && decide (0 < r.rest)
  let cur := if go then some { r with beats := r.beats - 1, ce := true } else none
  let back := if cut then [{ r with beats := r.rest, rest := 0, ce := true, stamp := s.now }] else []
  s.setArb (flArb p) { a with cur := cur, pend := a.pend ++ back, busyUntil := s.now }

/-- The next flit of a message that this package injects: 240 payload bytes, `som` on its first, `eom` on its last
(12 R360). The request's `ce` says that the message has begun. -/
def State.injectFlit (s : State) (p : Nat) (r : MemReq) : State :=
  let vc := r.addr % 8
  let x := s.port p
  let bytes := if r.ce then Tab.get [] vc x.txMsg else r.write.getD []
  let last := decide (bytes.length ≤ 240)
  let part := bytes.take 240
  let s1 := s.setPort p { x with txMsg := Tab.set [] vc (bytes.drop 240) x.txMsg }
  ((s1.spend p vc).sequenced p
    { body := .data (part ++ List.replicate (240 - part.length) 0), vc := vc, som := !r.ce, eom := last
      len := part.length }).beat p r last

/-- The next flit of a message in transit: taken from the input port's buffer, whose space is freed; the ending flit of an
aborted message; `IDLE` while none is buffered (12 R359, R364). -/
def State.transitFlit (s : State) (p : Nat) (r : MemReq) : State :=
  let inp := r.req - 4096
  let vc := r.addr % 16
  let inVc := r.addr / 16
  if r.ue then ((s.spend p vc).sequenced p (abortFlit vc)).beat p r true
  else
    let y := s.port inp
    match y.rxBuf.find? (fun f => decide (f.vc = inVc)) with
    | none => s.slotFlit p {}
    | some f =>
      let s1 := s.setPort inp { y with
        rxBuf := y.rxBuf.erase f, rxFreed := setAt y.rxFreed inVc (y.rxFreed.getD inVc 0 + 1) }
      let s2 := if f.eom then { s1 with exch := { s1.exch with
          inflight := s1.exch.inflight.erase (inp, p, r.addr) } } else s1
      ((s2.spend p vc).sequenced p { f with vc := vc }).beat p r f.eom

/-- The payload of a `TEST` flit: 240 bytes of a pattern the spec does not lay out (12 R376; log 40). -/
def testPayload (pattern n : Nat) : List Byte := (List.range 240).map (fun j => Config.tgByte (16 + pattern) 0 n j)

/-- Whether slot k is one a test of `rate` flits per microsecond uses: 1,562.5 slots pass in one (12 R376; log 40). -/
def testSlot (rate k : Nat) : Bool := decide (k * rate * 2 / 3125 ≠ (k + 1) * rate * 2 / 3125)

/-- Whether a flit is a `DATA` flit (12 R350). -/
def Flit.isData (f : Flit) : Bool := match f.body with | .data _ => true | _ => false

/-- `FLIT_SLOT`: `IDLE` around a correction; else a due `SYNC`, then a replay, then the arbiter's grant, then a `TEST` flit,
else `IDLE`; nothing new while a replay is awaited (12 R346, R351, R354, R359, R365, R366, R369, R376). -/
def State.flitSlot (s : State) (p : Nat) : State :=
  let x := s.port p
  if !s.slotDue p then s
  else if s.corrQuiet then s.slotFlit p {}
  else if (x.native || x.state == .isolated) && s.syncDue p then s.syncSlot p
  else if x.idleOnly || x.replayFrom.isSome then s.slotFlit p {}
  else match x.replayLeft with
    | f :: rest =>
      let isData := Flit.isData f
      if isData && decide (x.credit.getD f.vc 0 = 0) then s.slotFlit p {}
      else
        let s1 := s.setPort p { x with replayLeft := rest }
        let s2 := if isData then s1.spend p f.vc else s1
        (s2.count (kRetries p) 1).slotFlit p f
    | [] =>
      match (s.arb (flArb p)).cur with
      | some r => if x.maySend (r.addr % 16) then
          (if r.req < 4096 then s.injectFlit p r else s.transitFlit p r) else s.slotFlit p {}
      | none =>
        match x.test with
        | some (pat, rate) =>
          if !s.imageRuns && testSlot rate x.slot && decide (x.retry.length < retryMaxFlits) then
            (s.setPort p { x with testSent := x.testSent + 1 }).sequenced p
              { body := .test (testPayload pat x.testSent), vc := 6 }
          else if s.syncDue p then s.syncSlot p else s.slotFlit p {}
        | none => if s.syncDue p then s.syncSlot p else s.slotFlit p {}

/-- `FLIT_SLOT`: see `State.flitSlot`. -/
def execFlitSlot (port : Nat) (s : State) : Host.Outcome State Fault Refusal := .next (s.flitSlot port)

/-- `SYNC_FLIT_SEND`: a `SYNC` flit takes the next slot once a multiple of 4,096 ticks is reached (12 R366). -/
def execSyncFlitSend (port : Nat) (s : State) : Host.Outcome State Fault Refusal :=
  .next (if s.slotDue port && s.syncDue port && !s.corrQuiet then s.syncSlot port else s)

/-! ### Receiving (12 R347 to R364) -/

/-- The release tick of slot k of a native port (12 R346, R367). -/
def State.releaseTick (s : State) (p k : Nat) : Nat := (s.port p).refTick + ceilDiv (144 * k) 125 + s.kvNat (kLinkLat p)

/-- `ALIGN_LOST` reported, and the port retrains with reason 3 (12 R370). -/
def State.alignLost (s : State) (p : Nat) : State := (s.event (.alignLost p)).retrain p 3

/-- The 40 flits of a codeword period enter a native port's crossing; a late flit or a full crossing is `ALIGN_LOST`
(12 R346, R370). -/
def State.enterCrossing (s : State) (p : Nat) : State :=
  let x := s.port p
  let ticks := (rangeFrom x.rxSlot 40).map (s.releaseTick p)
  let late := match ticks with | t :: _ => decide (t < s.now) | [] => false
  if late || decide (64 < x.crossing.length + 40) then s.alignLost p
  else s.setPort p { x with crossing := x.crossing ++ ticks.map (fun t => (t, ({} : Flit))), rxSlot := x.rxSlot + 40 }

/-- The 40 flits of a codeword period enter an elastic port's buffer of 128, which absorbs the clocks' offset by deleting
`IDLE` flits; they may be released at once (12 R346, R371; log 40). -/
def State.enterElastic (s : State) (p : Nat) : State :=
  let x := s.port p
  s.setPort p { x with crossing := (x.crossing ++ List.replicate 40 (s.now, ({} : Flit))).take 128, rxSlot := x.rxSlot + 40 }

/-- `CODEWORD_RECEIVED`: corrected symbols and uncorrectable codewords counted, the period's flits marked bad, the
retrain threshold of 2^20 periods (12 R347, R374). -/
def State.codeword (s : State) (p corrected : Nat) (bad : Bool) : State :=
  if !(s.port p).up then s
  else
    let s1 := if bad then s.count (kFecUncorr p) 1
      else if 0 < corrected then (s.count (kFecCorrSym p) corrected).corrected else s
    let x := s1.port p
    let wrap := decide (x.cwPeriods + 1 = 2 ^ 20)
    let n := x.cwWindow + b2n bad
    let s2 := s1.setPort p { x with codewordBad := if bad then 40 else 0, cwPeriods := if wrap then 0 else x.cwPeriods + 1
                                    cwWindow := if wrap then 0 else n }
    if s2.kvNat kFecUeThresh < n then s2.retrain p 4
    else if x.native then s2.enterCrossing p else s2.enterElastic p

/-- `CODEWORD_RECEIVED`: see `State.codeword`. -/
def execCodewordReceived (port corrected : Nat) (uncorrectable : Bool) (s : State) : Host.Outcome State Fault Refusal :=
  .next (s.codeword port corrected uncorrectable)

/-- Cycles of an elastic port's hop charge of 128 slots: a flit held longer has exceeded it (12 R372; 16 R454; log 40). -/
abbrev elasticCharge : Nat := 148

/-- `FLIT_RELEASE`: the crossing's oldest flit is released at its tick, in an elastic port at any time, where one that exceeds
the hop charge is a timing event; in native mode one that has passed its tick is `ALIGN_LOST` (12 R367, R370 to R372; 16
R454). -/
def execFlitRelease (port : Nat) (s : State) : Host.Outcome State Fault Refusal :=
  .next (match (s.port port).crossing with
    | [] => s
    | (t, _) :: rest =>
      let s1 := s.setPort port { s.port port with crossing := rest }
      if t = s.now then s1
      else if (s.port port).native = false then
        (if s.hopPorts.contains port && decide (elasticCharge + t < s.now) then s1.timing 8 else s1)
      else if t < s.now then s.alignLost port
      else s)

/-- A flit is bad: its CRC fails, its type is not valid, or its codeword was uncorrectable (12 R350). -/
def Port.badFlit (x : Port) (f : Flit) : Bool :=
  !f.crcOk || (match f.body with | .invalid _ => true | _ => false) || decide (0 < x.codewordBad)

/-- A bad flit: counted, never used; the first one opens a replay episode (12 R350, R353, R355). -/
def State.badRx (s : State) (p : Nat) (f : Flit) : State :=
  let x := s.port p
  let s1 := s.count (kCrcErr p) 1
  let s2 := match f.body with | .sync _ => s1.count (kSyncLost p) 1 | _ => s1
  if x.rxEpisode then s2
  else
    let s3 := ((s2.count (kNaks p) 1).timing 3).corrected
    let s4 := if s3.job.inStep then { s3 with job := { s3.job with evLink := s3.job.evLink + 1 } } else s3
    s4.setPort p { s4.port p with rxEpisode := true, nakOut := true, nakAt := s.now, nakTwice := false }

/-- The credits of the `DATA` flits of a list given back to their virtual channels: the receiver that discarded them
buffered none of them (12 R359). -/
def Port.recover (x : Port) (l : List Flit) : Port :=
  { x with credit := l.foldl (fun c f => if Flit.isData f then setAt c f.vc (c.getD f.vc 0 + 1) else c) x.credit }

/-- The reverse of `Port.recover`: flits of a replay that are not resent (12 R359). -/
def Port.unrecover (x : Port) (l : List Flit) : Port :=
  { x with credit := l.foldl (fun c f => if Flit.isData f then setAt c f.vc (c.getD f.vc 0 - 1) else c) x.credit }

/-- An acknowledgement: the flits it covers leave the retry buffer (12 R351, R352). -/
def Port.ack (x : Port) (f : Flit) : Port :=
  if f.ackV then
    let keep := x.retry.filter (fun g => !seqCovers f.ackSeq g.fseq)
    let y := x.unrecover (x.replayLeft.filter (fun g => seqCovers f.ackSeq g.fseq))
    { y with retry := keep, replayLeft := x.replayLeft.filter (fun g => !seqCovers f.ackSeq g.fseq)
             replayRun := if keep.length < x.retry.length then 0 else x.replayRun }
  else x

/-- A credit report: the difference modulo 8,192 to the count held (12 R359). -/
def Port.creditReport (x : Port) (c : Nat × Nat) : Port :=
  let seen := x.freedSeen.getD c.1 0
  let d := (8192 - seen % 8192 + c.2 % 8192) % 8192
  { x with freedSeen := setAt x.freedSeen c.1 (seen + d), credit := setAt x.credit c.1 (x.credit.getD c.1 0 + d) }

/-- A `nak`: a replay from `ack_seq` + 1 is awaited; a replay under way restarts there; a new episode for the same number
counts toward `retry_max` (12 R354, R357; log 40). -/
def State.nakRx (s : State) (p : Nat) (f : Flit) : State :=
  let x := s.port p
  let start := if f.ackV then seqNext f.ackSeq else 0
  let under := x.replayFrom.isSome || !x.replayLeft.isEmpty
  let n := if under then x.replayRun else if x.replaySeq = start ∧ 0 < x.replayRun then x.replayRun + 1 else 1
  let s1 := s.setPort p { x.unrecover x.replayLeft with
    replayFrom := some start, replayAt := s.now, replayLeft := [], replaySeq := start, replayRun := n }
  if !under && decide (s.kvNat kRetryMax ≤ n) then s1.retrain p 2 else s1

/-- The header fields of a good flit (12 R350, R352 to R354, R359). -/
def State.headerRx (s : State) (p : Nat) (f : Flit) : State :=
  let s1 := s.setPort p ((((s.port p).ack f).creditReport f.cr0).creditReport f.cr1)
  if f.nak then s1.nakRx p f else s1

/-- The header at the start of a message's bytes (12 R360). -/
def hdrOf (bs : List Byte) : MsgHdr :=
  let w := fieldLe bs 12 20
  { seq := bits w 112 48, epoch := bits w 96 16, segment := bits w 64 32, src := bits w 49 15
    dstX := bits w 34 5, dstY := bits w 39 5, dstZ := bits w 44 5, ctx := bits w 22 12, lenM1 := bits w 8 14
    mkind := bits w 4 4, cls := bits w 2 2 }

/-- Whether a message has crossed the wrap link of an axis before this hop, or crosses it now: along + its coordinate lies
below its source's, along - above (12 R363; log 40). -/
def dlOf (plus : Bool) (src cur : Nat) (wrap : Bool) : Nat :=
  b2n (wrap || (if plus then decide (cur < src) else decide (src < cur)))

/-- The virtual channel of a message at its next hop: vc 6 or 7 on an X-direction link of a Y or Z path, else its class
and the dateline bit of the axis (12 R358, R363; 13 R392). -/
def State.hopVc (s : State) (h : MsgHdr) (o : HopOut) : Nat :=
  match o.vcPath with
  | some v => v
  | none =>
    let b := s.blockOf
    let (mx, my, mz) := s.torus.size
    let src := s.machineCoord (b.coord h.src)
    let t := s.torus
    let d := match o.axis with
      | 0 => dlOf (axisDir mx b.ox b.sx t.x h.dstX) src.1 t.x o.wrap
      | 1 => dlOf (axisDir my b.oy b.sy t.y h.dstY) src.2.1 t.y o.wrap
      | _ => dlOf (axisDir mz b.oz b.sz t.z h.dstZ) src.2.2 t.z o.wrap
    vcOf h.cls d

/-- How a message arrived, as `nextHop` takes it: over an X-direction link of a Y or Z path, over a Y port, over a Z
port (13 R392). -/
def viaOf (p vc : Nat) : Nat :=
  if p = 0 ∨ p = 1 ∨ p = 6 ∨ p = 7 then (if vc = 6 ∨ vc = 7 then vc else 0) else p

/-- A message for this package: its bytes gathered until its end; its flit's space is freed at once (12 R359, R360). -/
def State.ownData (s : State) (p : Nat) (f : Flit) (bytes : List Byte) : State :=
  let x := s.port p
  let got := (if f.som then [] else Tab.get [] f.vc x.rxMsg) ++ bytes.take f.len
  s.setPort p { x with
    rxMsg := Tab.set [] f.vc (if f.eom then [] else got) x.rxMsg
    rxFreed := setAt x.rxFreed f.vc (x.rxFreed.getD f.vc 0 + 1) }

/-- A flit of a message in transit: buffered; the first one brings the message to its output port's arbiter with the
beats of the whole message (12 R362 to R365). -/
def State.transitData (s : State) (p out comp : Nat) (f : Flit) (h : MsgHdr) : State :=
  let x := s.port p
  let s1 := s.setPort p { x with rxBuf := x.rxBuf ++ [f] }
  if f.som then
    let a := s1.arb (flArb out)
    let r : MemReq := { port := flArb out, cls := h.cls, req := 4096 + p, beats := ceilDiv (32 + h.lenM1 + 1) 240
                        addr := comp, stamp := s.now }
    { s1.setArb (flArb out) { a with pend := a.pend ++ [r] } with
      exch := { s1.exch with inflight := s1.exch.inflight ++ [(p, out, comp)] } }
  else s1

/-- A crossing of a hop port whose `link_lat` has grown past its hop charge is a timing event (16 R454, R456). -/
def State.drift (s : State) (p : Nat) : State :=
  if s.hopPorts.contains p && (s.port p).native && decide (max (s.port p).latBind 288 < s.kvNat (kLinkLat p)) then s.timing 6
  else s

/-- A `DATA` flit in order (12 R360 to R364). -/
def State.dataRx (s0 : State) (p : Nat) (f : Flit) (bytes : List Byte) : State :=
  let s := s0.drift p
  if f.som then
    let h := hdrOf bytes
    let t := s.torus
    if t.hasCoord && decide ((h.dstX, h.dstY, h.dstZ) = (t.x, t.y, t.z)) then s.ownData p f bytes
    else match s.nextHop h.dstX h.dstY h.dstZ (viaOf p f.vc) with
      | some o => s.transitData p o.port (s.hopVc h o + 16 * f.vc) f h
      | none => s.ownData p f bytes
  else if !(Tab.get [] f.vc (s.port p).rxMsg).isEmpty then s.ownData p f bytes
  else match s.exch.inflight.reverse.find? (fun t => decide (t.1 = p) && decide (t.2.2 / 16 = f.vc)) with
    | some t => s.transitData p t.2.1 t.2.2 f {}
    | none => s.ownData p f bytes

/-- A sequenced flit: used when it is the next in order, which closes an episode; else discarded (12 R353, R356). -/
def State.sequencedRx (s : State) (p : Nat) (f : Flit) : State :=
  let x := s.port p
  let want := if x.rxAckV then seqNext x.rxAck else 0
  if f.fseq = want then
    let s1 := s.setPort p { x with rxAck := f.fseq, rxAckV := true, rxEpisode := false }
    match f.body with
    | .data bytes => s1.dataRx p f bytes
    | _ => s1
  else s

/-- `FLIT_RECEIVED`: a bad flit, or a good one's header and body (12 R350). A port that is isolated refuses `DATA`
(12 R373). What a complete message, sync word or bring-up record does is the effect of its own command. -/
def State.flitRx (s : State) (p : Nat) (f : Flit) : State :=
  let x := s.port p
  if !x.up then s
  else
    let s0 := s.setPort p { x with codewordBad := x.codewordBad - 1 }
    if x.badFlit f then s0.badRx p f
    else
      let s1 := s0.headerRx p f
      match f.body with
      | .data _ => if (s1.port p).state == .run then s1.sequencedRx p f else s1
      | .test _ => if (s1.port p).up then s1.sequencedRx p f else s1
      | _ => s1

/-- `FLIT_RECEIVED`: see `State.flitRx`. -/
def execFlitReceived (port : Nat) (flit : Flit) (s : State) : Host.Outcome State Fault Refusal := .next (s.flitRx port flit)

/-- Cycles of 2 microseconds (12 R353). -/
abbrev nakWait : Nat := 3600

/-- `NAK_REPEAT`: 2 µs after the `nak` with no good flit, `nak` is set once more (12 R353). -/
def execNakRepeat (port : Nat) (s : State) : Host.Outcome State Fault Refusal :=
  let x := s.port port
  .next (if x.up && x.rxEpisode && !x.nakTwice && decide (nakWait + x.nakAt ≤ s.now) then
    s.setPort port { x with nakOut := true, nakTwice := true } else s)

/-- Cycles of `t_rewind`, 16 ns (12 R354). -/
abbrev rewindTime : Nat := 29

/-- `REPLAY`: `t_rewind` after the `nak`, every buffered flit from the requested number on is to be resent, in order, ahead
of new flits, and has its credit back (12 R354, R359). -/
def execReplay (port : Nat) (s : State) : Host.Outcome State Fault Refusal :=
  let x := s.port port
  .next (match x.replayFrom with
    | none => s
    | some q => if x.up && decide (rewindTime + x.replayAt ≤ s.now) then
        let l := x.retry.filter (fun f => seqCovers f.fseq q)
        s.setPort port { x.recover l with replayFrom := none, replayLeft := l }
      else s)

/-! ### Bring-up (12 R373) -/

/-- The table entry of this package (13 R382). -/
def State.ownEntry (s : State) : Option TopEntry :=
  s.torus.table.entries.find? (fun e =>
    decide (e.slot = s.torus.slot) && decide (e.y = s.torus.y) && decide (e.z = s.torus.z))

/-- The table's record of a port of this package (13 R382). -/
def State.portRec (s : State) (p : Nat) : TopPort :=
  match s.ownEntry with | some e => e.ports.getD p {} | none => {}

/-- Whether a port may train: enabled by `PORT_CTL` and `fl_mode`, present in the topology table (12 R373, 13 R382). -/
def State.mayTrain (s : State) (p : Nat) : Bool :=
  (s.port p).enabled && bitOf (s.kvNat (kFlMode p)) 0 && (s.portRec p).present

/-- A port that is `OFF` begins to train where it may (12 R373). -/
def State.startPort (s : State) (p : Nat) : State :=
  if (s.port p).state == .off && s.mayTrain p && !s.flt.retired then
    s.setPort p { s.port p with state := .pmdTrain, enteredAt := s.now }
  else s

/-- The transmit equaliser value of a port: fixed by the configuration image for a chip-to-module interface, else set by
the link training, which the model does not hold (12 R341; 13 R382). -/
def State.portEq (s : State) (p : Nat) : Option Nat :=
  if (s.portRec p).iface = 0 then some (s.sec.policy.equal.getD p 0) else none

/-- `PMD_TRAIN_DONE`: to `BLOCK_LOCK`, with the mode `fl_mode` holds; a retraining port passes `PMD_TRAIN` again
(12 R341, R373, R377). -/
def execPmdTrainDone (port : Nat) (s : State) : Host.Outcome State Fault Refusal :=
  let x := s.port port
  .next (if (x.state == .pmdTrain || x.state == .retrain) && s.mayTrain port then
    s.setPort port { x with state := .blockLock, native := !bitOf (s.kvNat (kFlMode port)) 1, enteredAt := s.now
                            txEq := s.portEq port }
  else s)

/-- The first correction after the parent port reaches `RUN` is not clamped (13 R397). -/
def State.parentRuns (s : State) (p : Nat) : State :=
  if s.parentPort = some p then { s with torus := { s.torus with firstCorr := true } } else s

/-- The identity record this package sends on a port (13 R383). -/
def State.ownIdentity (s : State) (p : Nat) : Identity :=
  { serial := s.sec.serial, slot := s.torus.slot, y := s.torus.y, z := s.torus.z, mx := s.torus.x, my := s.torus.y
    mz := s.torus.z, role := s.torus.role, port := p, tt := bits s.pins.strapWord.toNat 48 8
    digest := s.torus.table.digest, mapGen := s.torus.mapGen }

/-- `BLOCK_LOCK_DONE`: `lane_map` reports lane order and polarity; the port sends its identity record (12 R343, R373;
13 R383). -/
def execBlockLockDone (port : Nat) (reversed : Bool) (inverted : BitVec 16) (s : State) :
    Host.Outcome State Fault Refusal :=
  .next (if (s.port port).state == .blockLock then
    let s1 := s.kvSet (kLaneMap port) (BitVec.ofNat 64 (inverted.toNat + b2n reversed * 65536))
    let s2 := s1.setPort port { s1.port port with state := .ident, enteredAt := s.now, attempts := 0 }
    s2.sendFlit port { body := .train (.identity (s.ownIdentity port)) }
  else s)

/-- The result of the cabling check and the port P of result 2 (13 R384; log 39). -/
def State.cabling (s : State) (p : Nat) (i : Identity) : Nat × Nat :=
  let own := s.ownIdentity p
  let r := s.portRec p
  let at' (q : TopPort) : Bool := q.present && decide ((q.slot, q.y, q.z) = (i.slot, i.y, i.z))
  let ports := match s.ownEntry with | some e => e.ports | none => []
  let serial := match s.torus.table.entries.find? (fun e => decide ((e.slot, e.y, e.z) = (i.slot, i.y, i.z))) with
    | some e => e.serial
    | none => 0
  if i.digest ≠ own.digest ∨ i.tt ≠ own.tt then (7, 0)
  else if i.serial = own.serial ∧ (i.slot, i.y, i.z) = (own.slot, own.y, own.z) then (4, 0)
  else match indexOf at' ports with
    | none => (5, 0)
    | some q =>
      if !at' r then (2, q)
      else if i.port ≠ r.port then (3, 0)
      else if serial ≠ 0 ∧ serial ≠ i.serial then (6, 0)
      else (1, 0)

/-- `cab_state` of a result and an identity (13 R384). -/
def cabWord (res : Nat × Nat) (i : Identity) : Nat :=
  res.1 * 2 ^ 28 + i.slot % 64 * 2 ^ 22 + i.y % 32 * 2 ^ 17 + i.z % 32 * 2 ^ 12 + i.port % 8 * 2 ^ 9 + res.2 % 8 * 2 ^ 6

/-- `IDENTITY_RECORD`: the cabling check; a match proceeds to `ALIGN`, or to `RUN` in elastic mode; any other result is
reported and holds the port (12 R371, R373; 13 R384). -/
def execIdentityRecord (port : Nat) (rec : Identity) (s : State) : Host.Outcome State Fault Refusal :=
  .next (if (s.port port).state == .ident then
    let res := s.cabling port rec
    let s1 := (s.kvSet (kCabState port) (BitVec.ofNat 64 (cabWord res rec))).setPort port
      { s.port port with partner := some rec }
    if res.1 = 1 then
      if (s1.port port).native then
        s1.setPort port { s1.port port with state := .align, enteredAt := s.now, stage := 1, probes := 0, dMax := none
                                            attempts := 1 }
      else (s1.enterRun port).parentRuns port
    else s1.event (.cabling port res.1 rec)
  else s)

/-! ### The alignment ceremony (12 R367) -/

/-- A `TRAIN` record sent on a port. -/
def State.train (s : State) (p : Nat) (r : TrainRec) : State := s.sendFlit p { body := .train r }

/-- A failed ceremony: repeated, at most three times, then a retrain with reason 7 (12 R367). -/
def State.alignFailed (s : State) (p : Nat) : State :=
  let x := s.port p
  if x.attempts ≤ 3 then
    s.setPort p { x with stage := 1, probes := 0, dMax := none, attempts := x.attempts + 1, enteredAt := s.now }
  else
    (s.kvSet (kFlReason p) 7).setPort p
      { x.discard with state := .retrain, enteredAt := s.now, retrainTicks := s.now :: x.retrainTicks }

/-- `ALIGN_PROBE`: a probe is sent, and the partner's is measured; after 256 in stage 1 the maxima are exchanged; in stage
4 it must arrive at least 4 cc before its release tick (12 R367). -/
def execAlignProbe (port carried : Nat) (s : State) : Host.Outcome State Fault Refusal :=
  let x := s.port port
  .next (if x.state == .align && (x.stage == 1 || x.stage == 4) then
    let d : Int := (s.now : Int) - (carried : Int)
    let top := match x.dMax with | some m => max m d | none => d
    let s1 := s.train port (.probe s.now)
    if x.stage = 1 then
      if x.probes + 1 = 256 then
        (s1.setPort port { s1.port port with dMax := some top, probes := 256, stage := 2 }).train port (.maxima top)
      else s1.setPort port { s1.port port with dMax := some top, probes := x.probes + 1 }
    else if 4 + s.now ≤ carried + x.alLat then s1.setPort port { s1.port port with probes := x.probes + 1 }
    else s.alignFailed port
  else s)

/-- `link_lat` of two maxima and the margin (12 R367). -/
def linkLatOf (a b : Int) (margin : Nat) : Nat := (-(-(a + b) / 2) + (margin : Int)).toNat

/-- `ALIGN_MAXIMA`: `link_lat` is computed, the release tick set, and a confirm record sent (12 R367). -/
def execAlignMaxima (port : Nat) (partner : Int) (s : State) : Host.Outcome State Fault Refusal :=
  let x := s.port port
  .next (match x.dMax with
    | none => s
    | some own =>
      if x.state == .align && x.stage == 2 then
        let lat := linkLatOf own partner (s.kvNat kAlMargin)
        (s.setPort port { x with alLat := lat, stage := 3 }).train port (.confirm lat)
      else s)

/-- `ALIGN_CONFIRM`: the ends must agree; then 256 probes are checked (12 R367). -/
def execAlignConfirm (port lat : Nat) (s : State) : Host.Outcome State Fault Refusal :=
  let x := s.port port
  .next (if x.state == .align && x.stage == 3 then
    if lat = x.alLat then s.setPort port { x with stage := 4, probes := 0 } else s.alignFailed port
  else s)

/-- `ALIGN_CHECK_DONE`: after 256 checked probes the ceremony completes, with `link_lat` and its reference tick, or fails
(12 R367, R346; 13 R397). -/
def execAlignCheckDone (port : Nat) (ok : Bool) (s : State) : Host.Outcome State Fault Refusal :=
  let x := s.port port
  .next (if x.state == .align && x.stage == 4 then
    if ok then
      let s1 := ((s.kvSet (kLinkLat port) (BitVec.ofNat 64 x.alLat)).enterRun port)
      let s2 := s1.setPort port { s1.port port with refTick := s.now, lastSync := 4096 * (s.now / 4096) }
      if x.probes = 256 then s2.parentRuns port else s
    else s.alignFailed port
  else s)

/-! ### Limits, losses and failures (12 R373 to R375) -/

/-- Cycles of a bring-up state's limit; `IDENT` held by a failed check has none (12 R373). -/
def stateLimit : PortState → Option Nat
  | .pmdTrain => some 900000000
  | .blockLock => some 1800000
  | .ident => some 180000
  | .align => some 131840
  | _ => none

/-- `PORT_STATE_TIMEOUT`: a port past its state's limit is reported (12 R373). -/
def execPortStateTimeout (port : Nat) (s : State) : Host.Outcome State Fault Refusal :=
  .next (match stateLimit (s.port port).state with
    | some n => if n + (s.port port).enteredAt ≤ s.now then s.event (.portReport port) else s
    | none => s)

/-- `LOSS_OF_SIGNAL`: one lane lost takes the port down with reason 5 (12 R342, R374). -/
def execLossOfSignal (port lane : Nat) (s : State) : Host.Outcome State Fault Refusal :=
  .next (if lane < 16 then s.retrain port 5 else s)

/-- `LOSS_OF_LOCK`: the partner's `RETRAIN`, reason 6 (12 R374). -/
def execLossOfLock (port : Nat) (s : State) : Host.Outcome State Fault Refusal := .next (s.retrain port 6)

/-- The machine coordinates of the package a port leads to. -/
def State.partnerCoord (s : State) (p : Nat) : Option (Nat × Nat × Nat) :=
  let q := s.torus.linkTo (s.torus.slot, s.torus.y, s.torus.z) p
  (s.torus.xAt q.1 q.2.1 q.2.2).map (fun x => (x, q.2.1, q.2.2))

/-- A port enters `FAILED`: its partner is lost, perhaps the time master, and a port that serves a machine hop of the block
ends the job (12 R375; 13 R388, R394; 20 R542). -/
def State.failPort (s : State) (p : Nat) : State :=
  let hop := s.hopPorts.contains p
  let lost := decide (s.torus.linkTo (s.torus.slot, s.torus.y, s.torus.z) p = coordOf s.torus.table.master)
  let s0 := { s with torus := { s.torus with masterLost := s.torus.masterLost || lost } }
  let s1 := if (s.port p).up then s0.leaveRun p (s.kvNat (kFlReason p)) .failed
    else s0.setPort p { (s.port p).discard with state := .failed, enteredAt := s.now }
  if hop then
    match s1.partnerCoord p with
    | some c => s1.memberLost c.1 c.2.1 c.2.2
    | none => s1
  else s1

/-- Cycles of 250 ms and of 1 s (12 R375). -/
abbrev quarterSecond : Nat := 450000000
abbrev oneSecond : Nat := 1800000000

/-- Whether a port has passed a limit of R375. -/
def State.overLimit (s : State) (p : Nat) : Bool :=
  let x := s.port p
  let away := match x.leftRunAt with | some t => decide (quarterSecond + t ≤ s.now) | none => false
  !x.up && x.state != .off && x.state != .failed &&
    (away || decide (8 < (x.retrainTicks.filter (fun t => decide (s.now < oneSecond + t))).length))

/-- `PORT_FAILED`: a limit of R375 is passed (12 R375). -/
def execPortFailed (port : Nat) (s : State) : Host.Outcome State Fault Refusal :=
  .next (if s.overLimit port then s.failPort port else s)

/-- `RETIRE_RECORD_RECEIVED`: the port fails at once (20 R540). -/
def execRetireRecordReceived (port : Nat) (s : State) : Host.Outcome State Fault Refusal :=
  .next (if (s.port port).up then s.failPort port else s)

end Sys2Proof.Machine
end

