-- ==== Sys2Proof/Machine/Boot.lean ====
section
/-! DEFINITION. Start-up and resets: the rails, the strap phase, the boot ROM, the rows of the cold-start table, warm and
power-on reset, and the journal's replay after a reset (13 R380, R381; 14 R426; 17 R466 to R469, R479 to R482; 19 R510 to
R518). -/

namespace Sys2Proof.Machine

/-! ### Shade inputs at the start of a phase (18 R492, R493, R498) -/

/-- Whether a level is a pin's active one: `SHD4` is active high, the others low (18 R497). -/
def pinActive (n : Nat) (level : Bool) : Bool := if n = 4 then level else !level

/-- A pin at the start of a phase: armed when it is seen inactive (18 R498). -/
def Pin.begin (n now : Nat) (p : Pin) : Pin :=
  { p with evLevel := p.level, windowEnd := none, armed := !pinActive n p.level
           activeSince := if pinActive n p.level && !p.masked then some now else none }

/-- Whether `THROTTLE_N` is asserted: its state after the last event, unless it is masked (18 R497, R498). -/
def State.throttleNow (s : State) : Bool := !(s.pin 5).evLevel && !(s.pin 5).masked

/-- The Shade inputs at the start of the run or sleep phase; `THROTTLE_N` asserts if it is already low (18 R498). -/
def State.pinsBegin (s : State) : State :=
  let l := (s.pins.inp.zip (List.range 6)).map (fun p => p.1.begin p.2 s.now)
  let s1 := { s with pins := { s.pins with inp := l } }
  { s1 with pwr := { s1.pwr with throttle := s1.throttleNow } }

/-! ### What a loss of the fast domains takes with it -/

/-- HBM4 contents and poison marks lost (10 R310). -/
def State.hbmLost (s : State) : State :=
  let s1 := s.dramForget 0 0x010000000000
  { s1 with mem := { s1.mem with poison := s1.mem.poison.filter (fun a => decide (0x010000000000 ≤ a)) } }

/-- The tile stores of `n` units from `lo` on undefined anew, in generation `gen`. -/
def freshTiles (lo n gen : Nat) (t : Tab Mem) : Tab Mem :=
  (rangeFrom lo n).foldl (fun t u => Tab.set (freshTile u 1) u (freshTile u gen) t) t

/-- The tile stores and everything in the tiles of some units lost (17 R483). -/
def State.unitsLost (s : State) (lo n : Nat) : State :=
  let tiles := s.tiles.filter (fun t => !(decide (lo ≤ t.1) && decide (t.1 < lo + n)))
  { s with
    tiles := tiles
    mem := { s.mem with tile := freshTiles lo n (s.mem.memGen + 1) s.mem.tile, memGen := s.mem.memGen + 1 } }

/-- The job's fields with no image loaded: the state of `Job` at reset. -/
def noJob : Job := { swBins := List.replicate 16 0 }

/-- Every fast domain off: ports `OFF`, engines, streams, exchange contexts and Pearl empty, tile stores lost, functions
`OFF`, clamps engaged (17 R467, R469, R480, R483). -/
def State.fastOff (s : State) : State :=
  let s1 := (List.range 8).foldl (fun x p => x.portOff p 1) s
  let s2 := s1.unitsLost 0 224
  { s2 with
    engines := List.replicate 4 {}
    exch := {}
    job := noJob
    mem := { s2.mem with pearl := [], chans := [], ports := [] }
    pwr := { s2.pwr with fns := List.replicate 15 {}, regs := false, clamps := true, opChange := none, holdUntil := 0 }
    clk := { s2.clk with corePll := false, fieldPll := List.replicate 4 false } }

/-- The host attachment while it does not serve: rings stopped, replies and commands dropped; ring registers, the journal
and W kept (14 R424, R428). -/
def HostIf.down (h : HostIf) : HostIf :=
  { h with ready := false, jfull := false, cmds := [], memHeld := [], cxlUp := false
           rings := h.rings.map (fun g => { g with rRun := false, held := [] }) }

/-! ### Warm reset (17 R480, 10 R310, 14 R428) -/

/-- A warm reset: reading stops, running commands are abandoned to the journal, LPDDR5X enters self-refresh, the ports go
to `OFF`; the start-up resumes at the verification row. Cobalt time, the keys, the journal and W continue. -/
def State.warmReset (s : State) : State :=
  let s1 := ((s.fold.applyHeld).fastOff).hbmLost
  let s2 := { s1 with
    hostIf := { s1.hostIf.down with inReset := true }
    clk := { s1.clk with phase := .boot, row := .verify, cold := false, report := none, verifyAt := s1.now }
    pwr := { s1.pwr with lpSelfRefresh := true, sleepAt := none }
    sec := { s1.sec with booted := false, idLocked := false, updating := none, activate := false, pendPref := none } }
  if s.clk.phase = .sleep then (s2.alert (!s2.flt.queue.isEmpty)).pinsBegin else s2

/-- Whether a warm reset can act: Ash is out of reset with a strap word it took, and the package is neither retired nor
tripped (17 R478, R480, R482; 20 R540). -/
def State.canWarm (s : State) : Bool :=
  s.clk.ashOut && s.clk.report != some .strapBad && !s.flt.retired && !s.pwr.tripped &&
    (s.clk.phase == .run || s.clk.phase == .boot || s.clk.phase == .sleep ||
      (s.clk.phase == .ash && s.clk.row != .strap))

/-- `WARM_RESET`: from `PERST#`, or from a wake out of sleep (17 R480, R481). -/
def execWarmReset (cause : WarmCause) (s : State) : Host.Outcome State Fault Refusal :=
  .next (if s.canWarm && (cause == .perst || s.clk.phase == .sleep) then s.warmReset else s)

/-! ### Power-on and the rails (17 R466, R469, R480) -/

/-- The machine at the start of a cold start, with what outlives a power loss: host memory, the board's levels and rails,
fuses, flash and its event log, the waiting commands of the environment. Every memory content is undefined anew
(17 R480, 19 R510). -/
def State.powerOn (s : State) : State :=
  let r := State.reset
  let gen := s.mem.memGen + 1
  { r with
    pending := s.pending
    fresh := s.fresh
    mem := { r.mem with host := s.mem.host, memGen := gen + 1
                        dram := { cells := [], undef := [{ lo := 0, hi := 0x1000000000000, gen := gen }] }
                        tile := freshTiles 0 224 (gen + 1) [] }
    pins := { r.pins with inp := s.pins.inp.map (fun p => { level := p.level, evLevel := p.level : Pin }) }
    pwr := { r.pwr with rails := s.pwr.rails, sensors := s.pwr.sensors, railMv := s.pwr.railMv }
    flt := { r.flt with log := s.flt.log }
    sec := { r.sec with fuses := s.sec.fuses, flash := s.sec.flash, serial := s.sec.serial
                        nonceCtr := s.sec.nonceCtr + 1 } }

/-- The package off: no always-on rail (17 R469, R479). -/
def State.powerOff (s : State) : State :=
  let s1 := s.powerOn
  { s1 with clk := { s1.clk with phase := .off } }

/-- Whether the rails of the Ash domain are good (17 R466). -/
def State.aonGood (s : State) : Bool := s.pwr.rails.contains .vaon && s.pwr.rails.contains .vioAon

/-- The rails of the package in R463's order. -/
def allRails : List Rail := [.vinCore, .vfl, .vlpPhy, .vcxl, .vaon, .vioAon]

/-- The first rail that is not good (17 R466). -/
def State.missingRail (s : State) : Option Rail := allRails.find? (fun r => !s.pwr.rails.contains r)

/-- `POWER_ON_RESET`: `VAON` and `VIO_AON` have risen and a cold start begins (17 R480). -/
def execPowerOnReset (s : State) : Host.Outcome State Fault Refusal := .next (if s.aonGood then s.powerOn else s)

/-- `RAIL_GOOD`: a rail counts as good (17 R466). -/
def execRailGood (rail : Rail) (s : State) : Host.Outcome State Fault Refusal :=
  .next (if s.pwr.rails.contains rail then s
    else { s with pwr := { s.pwr with rails := s.pwr.rails ++ [rail] } })

/-- A lost fast rail while the fast domains are on: clamps, regulators, `RAIL_LOST`, the job and the package end
(17 R469, 20 R541). -/
def State.fastRailLost (s : State) (rail : Rail) : State :=
  let s1 := { s with pwr := { s.pwr with clamps := true, regs := false } }
  let s2 := (s1.event (.railLost rail)).retireByAsh { sub := 0x0B, cause := Config.faultCause 10 % 256 } false
  let s3 := s2.fastOff.hbmLost
  let s4 := if s.pwr.lpSelfRefresh then s3 else s3.dramForget 0x010000000000 0x1000000000000
  { s4 with clk := { s4.clk with phase := .ash, row := .stopped, report := some .railLost }
            hostIf := if s.pwr.lpSelfRefresh then s4.hostIf else { s4.hostIf with journal := [] } }

/-- `RAIL_LOST`: an always-on rail takes the package to the off state; a fast rail acts while the fast domains are on
(17 R469). -/
def execRailLost (rail : Rail) (s : State) : Host.Outcome State Fault Refusal :=
  .next (if !s.pwr.rails.contains rail then s
    else
      let s1 := { s with pwr := { s.pwr with rails := s.pwr.rails.filter (fun r => r != rail) } }
      if rail = .vaon ∨ rail = .vioAon then s1.powerOff
      else if s1.pwr.regs then s1.fastRailLost rail
      else s1)

/-! ### Rows of the cold-start table (17 R482) -/

/-- A boot stopped at a row: the report, its event, every port held `OFF` (17 R482, 13 R381). -/
def State.stopBoot (s : State) (r : BootReport) (e : Event) : State :=
  let s1 := (List.range 8).foldl (fun x p => x.portOff p 0) (s.event e)
  { s1 with clk := { s1.clk with row := .stopped, report := some r } }

/-- The next row of the table. -/
def State.toRow (s : State) (r : BootRow) : State := { s with clk := { s.clk with row := r } }

/-- `ASH_PLL_LOCK`: the strap phase's clock runs (17 R482, 18 R494). -/
def execAshPllLock (s : State) : Host.Outcome State Fault Refusal :=
  .next (if s.clk.phase = .ash ∧ s.clk.row = .ref then
    let s1 := s.toRow .strap
    { s1 with clk := { s1.clk with ashPll := true } }
  else s)

/-- `STRAP_CLOCK_EDGE`: `SHD1` is sampled, bit 0 first, and the edge is counted; a merged edge sets `SHD0`'s `CHATTER`
bit (13 R381; 18 R494, R496). -/
def execStrapClockEdge (bit merged : Bool) (s : State) : Host.Outcome State Fault Refusal :=
  .next (if s.clk.row = .strap ∧ s.clk.ashPll = true then
    if merged then
      let s1 := (s.setPin 0 { s.pin 0 with chatAt := some s.now }).kvSet kPinStatus (s.kvGet kPinStatus ||| 1)
      { s1 with pins := { s1.pins with strapMerged := true } }
    else
      let s1 := (s.countNow kStrapBits 1).countNow kPinEvents 1
      let w := (s.pins.strapWord >>> 1) ||| (if bit then (BitVec.ofNat 64 (2 ^ 63)) else 0)
      { s1 with pins := { s1.pins with strapWord := w } }
  else s)

/-- The XOR of the eight bytes of a word. -/
def xorBytes (w : Nat) : Nat := (List.range 8).foldl (fun a i => a ^^^ bits w (8 * i) 8) 0

/-- Whether the strap word is well formed by itself: 64 bits, no merged edge, parity, reserved fields, role (13 R380,
R381; 18 R494). -/
def State.strapOk (s : State) : Bool :=
  let w := s.pins.strapWord.toNat
  decide (64 ≤ s.kvNat kStrapBits) && !s.pins.strapMerged && decide (xorBytes w = 0) && decide (bits w 40 8 = 0) &&
    decide (bits w 15 21 = 0) && decide (bits w 36 4 ≤ 3) && (decide (bits w 36 4 ≠ 1) || decide (bits w 0 5 = 0))

/-- `ASH_RESET_RELEASE`: Ash leaves reset, Cobalt time is 0, the run phase of the pins begins, and the strap word is
checked (13 R381; 17 R482; 18 R492). -/
def execAshResetRelease (s : State) : Host.Outcome State Fault Refusal :=
  .next (if s.clk.row = .strap ∧ s.clk.ashPll = true then
    let s1 := s.toRow .verify
    let s2 := { s1 with clk := { s1.clk with ashOut := true, cobalt := 0, verifyAt := 0 } }.pinsBegin
    if s2.strapOk then s2 else s2.stopBoot .strapBad .strapBad
  else s)

/-! ### The boot ROM (19 R509 to R518) -/

/-- Whether a signer's key matches a usable slot of a set of key hashes (19 R509). -/
def keyUsable (slots : List (List Byte)) (revoke : BitVec 4) (key : List Byte) : Option Nat :=
  let h := (sha512 key).take 32
  (List.range 4).find? (fun i => !(slots.getD i []).isEmpty && !revoke.getLsbD i && decide (slots.getD i [] = h))

/-- The Nisel slot that a signer's key matches. -/
def Fuses.niselSlot (f : Fuses) (key : List Byte) : Option Nat := keyUsable f.nisel f.niselRevoke key

/-- Whether no owner slot is written (19 R512, R521). -/
def Fuses.noOwner (f : Fuses) : Bool := f.owner.all (fun k => k.isEmpty)

/-- The owner slot that a signer's key matches, or a Nisel slot while no owner slot is written (19 R512, R521). -/
def Fuses.ownerOk (f : Fuses) (key : List Byte) : Bool :=
  if f.noOwner then (f.niselSlot key).isSome else (keyUsable f.owner f.ownerRevoke key).isSome

/-- Whether the boot ROM accepts a slot of a kind: 1 firmware, 2 configuration image (19 R511, R512). -/
def Fuses.accepts (f : Fuses) (kind : Nat) (x : FlashSlot) : Bool :=
  decide (x.magic = 0x5349474E544B0001) && decide (x.kind = kind) &&
    decide (x.len ≤ if kind = 1 then 3145728 else 2097152 - 256) && decide (x.secver ≤ 63) &&
    decide ((if kind = 1 then f.svFw else f.svCfg) ≤ x.secver) && Config.ed25519Verify x.key x.message x.sig &&
    (if kind = 1 then (f.niselSlot x.key).isSome else f.ownerOk x.key)

/-- The firmware and configuration slots of the flash. -/
def flashFw (f : Flash) (n : Nat) : FlashSlot := if n = 0 then f.fwA else f.fwB
/-- The configuration slots of the flash. -/
def flashCfg (f : Flash) (n : Nat) : FlashSlot := if n = 0 then f.cfgA else f.cfgB

/-- The slot the ROM takes: the preferred one, else the other one (19 R513). -/
def pickSlot (ok : Nat → Bool) (pref : Nat) : Option Nat :=
  let p := pref % 2
  if ok p then some p else if ok (1 - p) then some (1 - p) else none

/-- The alias private key (19 R518). -/
def State.aliasOf (s : State) (fw cfg : List Byte) : List Byte :=
  (sha512 (Config.idSeed ++ fw ++ cfg ++ toLe 4 (s.kvNat kDbgState))).take 32

/-- The topology table that `st_tt` names (13 R380, R381). -/
def State.namedTable (s : State) (p : Policy) : Option TopTable := p.tables[bits s.pins.strapWord.toNat 48 8]?

/-- Whether the strap word agrees with the table it names: coordinates inside the machine, and a table entry at its place
with its role; a spare stands at slot X_m (13 R379 to R382). -/
def strapFits (w : Nat) (t : TopTable) : Bool :=
  let role := bits w 36 4
  let slot := if role = 1 then t.xm else bits w 0 5
  decide (bits w 0 5 < t.xm) && decide (bits w 5 5 < t.ym) && decide (bits w 10 5 < t.zm) &&
    t.entries.any (fun e => decide (e.slot = slot) && decide (e.y = bits w 5 5) && decide (e.z = bits w 10 5) &&
      decide (e.role = role))

/-- The package's place taken from the strap word in a cold start, and the table it names (13 R379, R380, R382). -/
def State.takePlace (s : State) (t : TopTable) : State :=
  let w := s.pins.strapWord.toNat
  let spare := decide (bits w 36 4 = 1)
  { s with torus := { s.torus with
      table := t, role := bits w 36 4, y := bits w 5 5, z := bits w 10 5, x := if spare then 0 else bits w 0 5
      slot := if spare then t.xm else bits w 0 5, hasCoord := !spare } }

/-- The measurement snapshot replaced: indices 1 to 8 (19 R522). -/
def State.takeSnapshot (s : State) : State :=
  let img := match s.job.bound, s.job.img with | some _, some i => i.digest | _, _ => List.replicate 64 0
  let l := [Config.romDigest, s.sec.fwDigest, s.torus.shared, s.sec.perPkgDigest, img, sha512 s.paramList,
    sha512 s.configRecord, Config.measStrap s.pins.strapWord.toNat s.torus.mapGen s.sec.fuses.svFw s.sec.fuses.svCfg]
  { s with sec := { s.sec with snapshot := l } }

/-- The firmware started from two slots: digests, policy, the alias key, the identity key unreadable, the reports of a
fallback and of a certificate for another key; the snapshot replaced at a cold start and at an activation (19 R513, R514,
R517, R518, R522). -/
def State.startFw (s : State) (f : Flash) (fw cfg : Nat) : State :=
  let a := flashFw f fw
  let b := flashCfg f cfg
  let fb := decide (fw ≠ f.prefFw % 2) || decide (cfg ≠ f.prefCfg % 2)
  let s1 := { s with
    sec := { s.sec with
      flash := f, fwSlot := fw, cfgSlot := cfg, fallback := fb, booted := true, policy := b.cfg, fwDigest := a.digest
      cfgDigest := b.digest, perPkgDigest := b.cfg.perPkgDigest, aliasKey := s.aliasOf a.digest b.digest
      dbgBoot := s.kvNat kDbgState, idLocked := true, certMismatch := !f.certKeyOk }
    torus := { s.torus with shared := b.cfg.sharedDigest } }
  let s2 := if fb then s1.event .slotFallback else s1
  let s3 := if f.certKeyOk then s2 else s2.event .certMismatch
  if s.clk.cold || s.sec.pendPref.isSome then
    let s4 := s3.takeSnapshot
    { s4 with sec := { s4.sec with pendPref := none } }
  else s3

/-- `BOOT_ROM_VERIFY`: the slots are verified and the firmware started, or the boot stops. The flash's contents are the
operand's at the first run, and the stored ones after it. In a cold start the strap word is checked against the table it
names (13 R381; 19 R513). -/
def execBootRomVerify (flash : Flash) (s : State) : Host.Outcome State Fault Refusal :=
  .next (if s.clk.row = .verify ∧ s.clk.ashOut = true then
    let f := if s.sec.flash = {} then flash else s.sec.flash
    match pickSlot (fun n => s.sec.fuses.accepts 1 (flashFw f n)) f.prefFw,
          pickSlot (fun n => s.sec.fuses.accepts 2 (flashCfg f n)) f.prefCfg with
    | some fw, some cfg =>
      let s1 := s.startFw f fw cfg
      match s1.namedTable s1.sec.policy with
      | some t =>
        if s.clk.cold then
          (if strapFits s.pins.strapWord.toNat t then (s1.takePlace t).toRow .rails
           else s1.stopBoot .strapBad .strapBad)
        else ({ s1 with torus := { s1.torus with table := t } }).toRow .rails
      | none =>
        if s.clk.cold then s1.stopBoot .strapBad .strapBad
        else ({ s1 with torus := { s1.torus with table := {} } }).toRow .rails
    | _, _ => ({ s with sec := { s.sec with flash := f } }).stopBoot .imageBad .imageBad
  else s)

/-! ### From the rails to `ready` (17 R482) -/

/-- `FAST_RAILS_READY`: every rail is good and the regulators are enabled (17 R467, R482). -/
def execFastRailsReady (s : State) : Host.Outcome State Fault Refusal :=
  .next (if s.clk.row = .rails ∧ s.missingRail = none then
    let s1 := s.toRow .plls
    { s1 with pwr := { s1.pwr with regs := true, clamps := false }, clk := { s1.clk with phase := .boot, railsAt := s.now } }
  else s)

/-- `CORE_PLL_LOCK`: the core, field and port PLLs are locked; Cobalt counting passes to the core clock at a multiple of 18
(17 R472, R482). -/
def execCorePllLock (s : State) : Host.Outcome State Fault Refusal :=
  .next (if s.clk.row = .plls then
    let s1 := s.toRow .selfTest
    { s1 with clk := { s1.clk with
        corePll := true, fieldPll := List.replicate 4 true, cobalt := BitVec.ofNat 64 (alignUp s.now 18) } }
  else s)

/-- The functions `lo` to `lo + n - 1` reach `ON` (17 R484). -/
def State.fnsOn (s : State) (lo n : Nat) : State :=
  (rangeFrom lo n).foldl (fun x f => x.setFn f { x.fn f with state := .on }) s

/-- The spare tiles mapped from the configuration image: for a logical unit, the spare of its field that does its work.
Commands name logical units alone, so no other state depends on the map (01 R15; 17 R482; 19 R514). -/
def State.mapSpares (s : State) : State :=
  { s with sec := { s.sec with spares := s.sec.policy.repair.filter (fun r => decide (r.1 < 224)) } }

/-- `IVORY_SELF_TEST_DONE`: the tile repair map has been applied; a tile that fails stops the boot; else the ports start to
train and memory is brought up (17 R482). -/
def execIvorySelfTestDone (badTile : Option Nat) (s : State) : Host.Outcome State Fault Refusal :=
  .next (if s.clk.row = .selfTest then
    match badTile with
    | some t => s.stopBoot (.tileBist (some t)) (.tileBist (some t))
    | none =>
      let s1 := (s.mapSpares.toRow .memTrain).fnsOn 1 12
      (List.range 8).foldl State.startPort s1
  else s)

/-- A package of a density other than the population's (10 R309): its number, 320 more. -/
def wrongPackage (want : Nat) (ds : List Nat) : Option Nat :=
  if want = 32 ∨ want = 64 ∨ want = 128 then
    ((List.range 16).find? (fun n => decide (ds.getD n 0 ≠ want))).map (fun n => 320 + n)
  else some 320

/-- Every channel just trained and refreshed (10 R300, R302). -/
def freshChans (now : Nat) : Tab Chan :=
  if now = 0 then [] else (List.range 320).map (fun c => (c, { lastRefresh := now, lastTrain := now : Chan }))

/-- The fuses raised at the first `ready` of a slot: security versions, and the Nisel slot that the firmware's header
names for revocation when it did not sign that firmware (19 R515). -/
def Sec.raiseFuses (x : Sec) : Sec :=
  let fw := flashFw x.flash x.fwSlot
  let cfg := flashCfg x.flash x.cfgSlot
  let rev := match fw.revoke with
    | some n => if x.fuses.niselSlot fw.key = some n then 0 else BitVec.ofNat 4 (2 ^ (n % 4))
    | none => 0
  { x with fuses := { x.fuses with svFw := max x.fuses.svFw fw.secver, svCfg := max x.fuses.svCfg cfg.secver
                                   niselRevoke := x.fuses.niselRevoke ||| rev } }

/-- Journal entries after a reset, in `seq` order: a retired one's reply is posted, an accepted one retires with
`FAULT_JOB` and reason `0x0301` (14 R426). -/
def State.replayJournal (s : State) : State :=
  let es := sortBy (fun a b => decide (a.hdr.seq ≤ b.hdr.seq)) s.hostIf.journal
  es.foldl (fun x e =>
    if e.state = 2 then x.queueReply e.hdr.ring e.reply
    else if e.state = 1 then x.retire e.hdr { status := stFaultJob, detail := 0x0301 }
    else x) s

/-- `ready`: rings latched, `boot_ms`, fuses, the journal replayed, the Livery computed from then on (14 R407, R426; 17
R482, R486; 19 R515). -/
def State.becomeReady (s : State) (lp : Nat) : State :=
  let (n, s0) := s.draw
  let s1 := ((s0.kvSet kLpGib (BitVec.ofNat 64 lp)).kvSet kBootMsKey (BitVec.ofNat 64 (Config.bootMs n))).fnsOn 13 1
  let s2 := { s1 with
    hostIf := { s1.hostIf with ready := true, inReset := false }
    clk := { s1.clk with phase := .run, row := .done }
    pwr := { s1.pwr with lpSelfRefresh := false }
    mem := { s1.mem with chans := freshChans s1.now }
    sec := s1.sec.raiseFuses }
  (s2.latchWaiting).replayJournal

/-- `MEMORY_TRAINING_DONE`: a channel that does not train, or a package of another density, stops the boot; else `ready`
is set (10 R309, 17 R482). -/
def execMemoryTrainingDone (densities : List Nat) (failed : Option Nat) (s : State) : Host.Outcome State Fault Refusal :=
  .next (if s.clk.row = .memTrain then
    match failed, wrongPackage s.sec.policy.lpGib densities with
    | some c, _ => s.stopBoot (.memTrain (some c)) (.memTrain (some c))
    | none, some p => s.stopBoot (.memTrain (some p)) (.memTrain (some p))
    | none, none => s.becomeReady s.sec.policy.lpGib
  else s)

/-- The report of the row that a boot waits for (17 R482). -/
def State.rowReport (s : State) : Option (BootReport × Event) :=
  match s.clk.row with
  | .ref => some (.refMissing, .refMissing)
  | .strap => some (.strapBad, .strapBad)
  | .verify => some (.imageBad, .imageBad)
  | .rails => match s.missingRail with
    | some r => some (.railMissing r, .railMissing r)
    | none => some (.railLost, .railLost .vinCore)
  | .plls => some (.pllLock, .pllLock)
  | .selfTest => some (.tileBist none, .tileBist none)
  | .memTrain => some (.memTrain none, .memTrain none)
  | _ => none

/-- The latest tick at which the row that a boot waits for completes: verification 30 ms after Ash left reset or the warm
reset began, the rails 5 s after `VAON`, the later rows by the moment the rails were good; the rows before Cobalt counts have
none in ticks (17 R482). -/
def State.rowLimit (s : State) : Nat :=
  match s.clk.row with
  | .verify => 54000000 + s.clk.verifyAt
  | .rails => 8982000000 + s.clk.verifyAt
  | .plls => 10800000 + s.clk.railsAt
  | .selfTest => 54000000 + s.clk.railsAt
  | .memTrain => 378000000 + s.clk.railsAt
  | _ => 0

/-- `BOOT_LIMIT_EXCEEDED`: past the limit of the row the boot stops, and Ash reports the row (17 R482). -/
def execBootLimitExceeded (s : State) : Host.Outcome State Fault Refusal :=
  .next (if s.clk.phase = .off ∨ s.now < s.rowLimit then s
    else match s.rowReport with
      | some r => s.stopBoot r.1 r.2
      | none => s)

/-! ### The host link -/

/-- `CONFIGURATION_REQUEST`: served once `ready` is set, before it completed with Configuration Request Retry Status; a
held controller answers nothing (17 R482, 20 R541). -/
def execConfigurationRequest (s : State) : Host.Outcome State Fault Refusal :=
  .next (if s.hostIf.cxlHeld then s
    else { s with hostIf := { s.hostIf with cfgReplies := s.hostIf.cfgReplies ++ [s.hostIf.ready] } })

/-- `CXL_LINK_TRAINED`: width and rate reported in `cxl_link` (14 R403, R430; 17 R482). -/
def execCxlLinkTrained (lanes rate : Nat) (s : State) : Host.Outcome State Fault Refusal :=
  .next (if (s.clk.row = .memTrain ∨ s.clk.row = .done) ∧ s.hostIf.cxlHeld = false ∧ (lanes = 16 ∨ lanes = 8) ∧
      (rate = 64 ∨ rate = 32 ∨ rate = 16) ∧ s.clk.phase ≠ .sleep then
    let s1 := s.kvSet kCxlLink (BitVec.ofNat 64 (lanes + rate * 256))
    { s1 with hostIf := { s1.hostIf with cxlUp := true } }
  else s)

/-- `IVORY_LOCKSTEP_MISMATCH`: Ash retires the package in Ivory's place; the ports still send retire records (20 R541). -/
def execIvoryLockstepMismatch (s : State) : Host.Outcome State Fault Refusal :=
  .next (if s.clk.row = .memTrain ∨ s.clk.phase = .run then
    s.retireByAsh { sub := 0x0A, cause := Config.faultCause 12 % 256 } true
  else s)

end Sys2Proof.Machine
end

