-- ==== Sys2Proof/Machine/Power.lean ====
section
/-! DEFINITION. Pin events, sleep, functions, thermal trips, throttle triggers and operating points (17 R473 to R486,
18 R492 to R499, 20 R538). -/

namespace Sys2Proof.Machine

/-! ### Pin events (18 R495 to R498) -/

/-- Cycles in which a pin accepts no further event: 1,000 ac (18 R496). -/
abbrev eventWindow : Nat := 18000

/-- Cycles after which a held input is stuck: 100 ms (18 R497). -/
abbrev stuckTime : Nat := 180000000

/-- A pin whose filtered level becomes `l` in an event of its own (18 R496 to R498). -/
def Pin.take (n now : Nat) (l : Bool) (p : Pin) : Pin :=
  { p with level := l, evLevel := l, windowEnd := some (eventWindow + now), armed := p.armed || !pinActive n l
           activeSince := if pinActive n l && !p.masked then some now else none }

/-- A filtered change that falls in a pin's window: merged, and `CHATTER` set (18 R496). -/
def State.mergePin (s : State) (n : Nat) (l : Bool) : State :=
  (s.setPin n { s.pin n with level := l, chatAt := some s.now }).kvSet kPinStatus (s.kvGet kPinStatus ||| BitVec.ofNat 64 (2 ^ n))

/-- Whether a change of a pin's filtered level now is an event: no window is open, and the pin is not masked (18 R496,
R497). -/
def State.pinFree (s : State) (n : Nat) : Bool :=
  !(s.pin n).masked && (match (s.pin n).windowEnd with | some t => decide (t ≤ s.now) | none => true)

/-- A change of a pin's filtered level: an event, counted, or merged; a masked pin only keeps the level. A change to the
level the pin has already means that it left that level in between, in an event of its own (log 47). -/
def State.pinChange (s : State) (n : Nat) (l : Bool) : State :=
  if (s.pin n).masked then s.setPin n { s.pin n with level := l }
  else if s.pinFree n then
    (s.setPin n (((s.pin n).take n s.now (!l)).take n s.now l)).countNow kPinEvents
      (if (s.pin n).level = l then 2 else 1)
  else s.mergePin n l

/-- The throttle trigger follows `THROTTLE_N`'s state (17 R477, 18 R498). -/
def State.throttlePin (s : State) : State := { s with pwr := { s.pwr with throttle := s.throttleNow } }

/-- `THROTTLE_N`: a filtered change in the run phase (17 R477, 18 R498). -/
def execThrottleN (low : Bool) (s : State) : Host.Outcome State Fault Refusal :=
  .next (if s.pinPhase = 2 ∧ ((s.pin 5).level ≠ !low ∨ (s.pin 5).masked = true) then
    (s.pinChange 5 (!low)).throttlePin
  else s)

/-! ### `FAULT_N` (20 R538) -/

/-- The record of a `FAULT_N` event. -/
def faultNRec (cls : Nat) : FaultRec := { sub := 0x0C, inst := 3, cause := Config.faultCause 9 % 256, cls := cls }

/-- What a `FAULT_N` event does: it acts on a running job by `fltn_act`; without one it only writes a record (20 R538). -/
def State.faultN (s : State) : State :=
  let act := s.kvNat kFltnAct
  if !s.imageRuns then s.record (faultNRec (act + 1))
  else if act = 0 then
    (if s.job.inStep then s.contained (faultNRec 1)
     else
       let s1 := s.record (faultNRec 1)
       { s1 with job := { s1.job with faultNext := true } })
  else if act = 1 then
    let s1 := s.record (faultNRec 2)
    { s1 with job := { s1.job with fltnHalt := true } }
  else s.retirePackage (faultNRec 3)

/-- `FAULT_N`: a falling event of `SHD3` in the run phase, once armed (18 R498, 20 R538). -/
def execFaultN (s : State) : Host.Outcome State Fault Refusal :=
  .next (if s.pinPhase = 2 then
    let s1 := s.pinChange 3 false
    if s.pinFree 3 && (s1.pin 3).armed && !s.flt.retired then s1.faultN else s1
  else s)

/-! ### Sleep and wake (17 R481) -/

/-- Cycles of 1 ms. -/
abbrev oneMs : Nat := 1800000

/-- `SLEEP_ENTRY`: 1 ms after the reply the fast domains and the CXL link go off, the memories enter self-refresh, and
`SHD2` is low for the whole phase (17 R479, R481; 18 R493). -/
def execSleepEntry (s : State) : Host.Outcome State Fault Refusal :=
  .next (match s.pwr.sleepAt with
    | some t =>
      if t ≤ s.now ∧ s.job.img.isNone = true ∧ s.clk.phase = .run then
        let s1 := s.fold.fastOff
        let s2 := { s1 with
          clk := { s1.clk with phase := .sleep }
          hostIf := s1.hostIf.down
          pwr := { s1.pwr with sleepAt := none, lpSelfRefresh := true } }
        (s2.alert true).pinsBegin
      else s
    | none => s)

/-- `WAKE_INPUT`: a falling event of `SHD3` or `SHD5` in the sleep phase, once armed, performs a warm reset (17 R481, 18
R498). -/
def execWakeInput (pin : Nat) (s : State) : Host.Outcome State Fault Refusal :=
  .next (if s.clk.phase = .sleep ∧ (pin = 3 ∨ pin = 5) then
    let s1 := s.pinChange pin false
    if s.pinFree pin && (s1.pin pin).armed then s1.warmReset else s1
  else s)

/-! ### Windows, stuck inputs, `SYNC_PPS` (18 R496, R497, R499) -/

/-- What an event on a pin to a level does in the phase in force (18 R493, R498). -/
def State.pinAct (s : State) (n : Nat) (l : Bool) : State :=
  if n = 5 ∧ s.pinPhase = 2 then s.throttlePin
  else if n = 3 ∧ s.pinPhase = 2 ∧ l = false then (if (s.pin 3).armed && !s.flt.retired then s.faultN else s)
  else if s.clk.phase = .sleep ∧ (n = 3 ∨ n = 5) ∧ l = false ∧ (s.pin n).armed = true then s.warmReset
  else s

/-- `EVENT_WINDOW_END`: a filtered level other than the state after the event becomes a new event; it shows that a change
was merged (18 R496). -/
def execEventWindowEnd (pin : Nat) (level : Bool) (s : State) : Host.Outcome State Fault Refusal :=
  .next (match (s.pin pin).windowEnd with
    | some t =>
      if s.now < t ∨ s.pinPhase = 1 ∨ (s.pin pin).masked = true then s
      else
        let s1 := if (s.pin pin).level = level then s else s.mergePin pin level
        if level = (s.pin pin).evLevel then s1.setPin pin { s1.pin pin with windowEnd := none }
        else ((s1.setPin pin ((s1.pin pin).take pin s.now level)).countNow kPinEvents 1).pinAct pin level
    | none => s)

/-- `STUCK`: an input active for more than 100 ms is masked and reported (18 R497). -/
def execStuck (pin : Nat) (s : State) : Host.Outcome State Fault Refusal :=
  .next (match (s.pin pin).activeSince with
    | some t =>
      if s.pinPhase ≠ 1 ∧ 3 ≤ pin ∧ pin ≤ 5 ∧ (s.pin pin).masked = false ∧ stuckTime + t < s.now then
        let s1 := s.setPin pin { s.pin pin with masked := true, activeSince := none }
        let s2 := s1.kvSet kPinStatus (s1.kvGet kPinStatus ||| BitVec.ofNat 64 (2 ^ (8 + pin)))
        (s2.throttlePin).event (.stuck pin)
      else s
    | none => s)

/-- A masked pin sampled: unmasked when inactive (18 R497). -/
def State.recheckPin (s : State) (active : List Nat) (n : Nat) : State :=
  let p := s.pin n
  if !p.masked || active.contains n then s
  else
    let l := n != 4
    let s1 := s.setPin n { p with masked := false, level := l, evLevel := l, armed := true, windowEnd := none }
    s1.kvSet kPinStatus (s1.kvGet kPinStatus &&& ~~~(BitVec.ofNat 64 (2 ^ (8 + n))))

/-- `STUCK_RECHECK`: every masked pin is sampled; `active` names those found active (18 R497). -/
def execStuckRecheck (active : List Nat) (s : State) : Host.Outcome State Fault Refusal :=
  .next ([3, 4, 5].foldl (fun x n => x.recheckPin active n) s).throttlePin

/-- `SYNC_PPS_EDGE`: the latch of Cobalt time at the raw edge becomes `pps_tick` when the filter validates the edge, else
it is discarded (18 R499). -/
def execSyncPpsEdge (validated : Bool) (s : State) : Host.Outcome State Fault Refusal :=
  .next (if s.pinPhase = 2 ∧ validated = true ∧ (s.pin 4).masked = false then
    let s1 := s.pinChange 4 true
    if s.pinFree 4 then { s1 with pins := { s1.pins with ppsTick := s.clk.cobalt, ppsValid := true } } else s1
  else s)

/-! ### Tile rails (17 R475) -/

/-- The guard band of a tile in mV at the operating point in force: 15 at point 1 for a tile with a fused pass there, else
30 (17 R475). -/
def State.guardBand (s : State) (u : Nat) : Nat :=
  if s.kvNat kOpNow = 1 ∧ s.sec.fuses.passNarrow.getD u false = true then 15 else 30

/-- The voltage of a tile's rail in mV: the fused minimum and the guard band, within 550 to 900; none while the regulators or
the tile's field are off (17 R475, R483). -/
def State.tileRail (s : State) (u : Nat) : Nat :=
  if s.pwr.regs && (s.fn (u / 56 + 1)).state == .on then
    min 900 (max 550 (s.sec.fuses.vmin.getD u 0 + s.guardBand u))
  else 0

/-! ### Functions (17 R483 to R485) -/

/-- Codes of the states of a function (17 R484). -/
def FnState.code : FnState → Nat
  | .off => 0
  | .starting => 1
  | .on => 2
  | .stopping => 3

/-- `result` of a `POWER_CTL` reply: the state, and bit 8 while an enable waits (17 R484). -/
def Fn.result (f : Fn) : Nat := f.state.code + (if f.waitEn.isEmpty then 0 else 256)

/-- Replies `OK` to some commands with the function's result as it stands (17 R484, R485). -/
def State.fnReply (s : State) (f : Nat) (hs : List Hdr) : State :=
  hs.foldl (fun x h => x.retire h { result := (x.fn f).result }) s

/-- Withdrawn requests reply `REFUSED_FIT` with `0x0402` (17 R485). -/
def State.fnWithdraw (s : State) (f : Nat) (hs : List Hdr) : State :=
  hs.foldl (fun x h => x.retire h { refuse stRefusedFit 0x0402 with result := (x.fn f).result }) s

/-- A field's PLL locks or unlocks with the field's compute function (17 R473). -/
def State.setPll (s : State) (f : Nat) (on : Bool) : State :=
  if 1 ≤ f ∧ f ≤ 4 then { s with clk := { s.clk with fieldPll := setAt s.clk.fieldPll (f - 1) on } } else s

/-- What a function's off state takes with it: a field's tiles, engine and PLL lock, or a port (17 R473, R483). -/
def State.fnOff (s : State) (f : Nat) : State :=
  if 1 ≤ f ∧ f ≤ 4 then ((s.unitsLost (56 * (f - 1)) 56).setEngine (f - 1) {}).setPll f false
  else if 5 ≤ f ∧ f ≤ 12 then s.portOff (f - 5) 1
  else s

/-- Cycles that a function's power-up takes: 400 µs for a field, 50 µs for a port, 2 ms for HBM4 (17 R483). -/
def upTime (f : Nat) : Nat := if f ≤ 4 then 720000 else if f ≤ 12 then 90000 else 3600000

/-- Cycles that a function's shutdown takes: 150 µs for a field, 10 µs for a port, 200 µs for HBM4 (17 R483). -/
def downTime (f : Nat) : Nat := if f ≤ 4 then 270000 else if f ≤ 12 then 18000 else 360000

/-- What a function's on state brings: a field's PLL lock, a port that begins to train, or HBM4 channels just retrained
(12 R373; 17 R473, R483). -/
def State.fnUp (s : State) (f : Nat) : State :=
  if 1 ≤ f ∧ f ≤ 4 then s.setPll f true
  else if 5 ≤ f ∧ f ≤ 12 then s.startPort (f - 5)
  else if f = 13 then (List.range 256).foldl (fun x c => x.setChan c { x.chan c with lastTrain := s.now, lastRefresh := s.now }) s
  else s

/-- `FUNCTION_POWER_UP_DONE`, once the power-up has taken its time: a field's PLL is locked, a port begins to train, HBM4 is
retrained; replies are posted; a waiting disable starts the shutdown (17 R473, R483, R485). -/
def execFunctionPowerUpDone (fn : Nat) (s : State) : Host.Outcome State Fault Refusal :=
  .next (if (s.fn fn).state = .starting ∧ upTime fn + (s.fn fn).since ≤ s.now then
    let f := s.fn fn
    let s1 := (s.setFn fn { f with state := .on, waiters := [] }).fnReply fn f.waiters
    if f.waitDis.isEmpty then s1.fnUp fn
    else (s1.fnUp fn).setFn fn { state := .stopping, waiters := f.waitDis, since := s.now }
  else s)

/-- `FUNCTION_SHUTDOWN_DONE`, once the shutdown has taken its time: the function is off and replies are posted; a waiting enable starts the power-up (17 R483,
R485). -/
def execFunctionShutdownDone (fn : Nat) (s : State) : Host.Outcome State Fault Refusal :=
  .next (if (s.fn fn).state = .stopping ∧ downTime fn + (s.fn fn).since ≤ s.now then
    let f := s.fn fn
    let s1 := ((s.setFn fn { state := .off }).fnOff fn).fnReply fn f.waiters
    if f.waitEn.isEmpty then s1 else s1.setFn fn { state := .starting, waiters := f.waitEn, since := s.now }
  else s)

/-! ### Thermal trip (17 R478) -/

/-- The hottest of some readings, in 1/16 °C. -/
def hottest (l : List Int) : Int := l.foldl max (l.headD 0)

/-- `THERMAL_TRIP`: a sensor at or above 110 °C shuts the fast domains down and retires the package (17 R478, 20 R541). -/
def execThermalTrip (readings : List Int) (s : State) : Host.Outcome State Fault Refusal :=
  .next (if 110 * 16 ≤ hottest readings ∧ readings ≠ [] ∧ s.pwr.regs = true ∧ s.pwr.tripped = false then
    let s1 := (s.countNow kTrips 1)
    let s2 := { s1 with pwr := { s1.pwr with sensors := readings, tripped := true, clamps := true, regs := false } }
    let s3 := (s2.retireByAsh { sub := 0x0B, cause := Config.faultCause 11 % 256 } false).fastOff.hbmLost
    { s3 with clk := { s3.clk with phase := .ash, row := .stopped } }
  else s)

/-- `TRIP_CLEAR`: the management controller clears a trip once the hottest sensor reads below 90 °C (17 R478). -/
def execTripClear (readings : List Int) (s : State) : Host.Outcome State Fault Refusal :=
  .next (if s.pwr.tripped = true ∧ hottest readings < 90 * 16 ∧ readings ≠ [] then
    { s with pwr := { s.pwr with sensors := readings, tripped := false } }
  else s)

/-! ### Operating points (17 R475 to R477) -/

/-- The corrected tile-store errors since the last boundary, one number for each of four fields: they count, and are class 0 events (10
R273; 20 R531). -/
def State.tileErrors (s : State) (i : BoundaryInfo) : State :=
  (List.range 4).foldl (fun x f =>
    let n := i.tsCe.getD f 0
    if n = 0 then x else (x.count (kTsCe f) n).countNow kFltCe n) s

/-- Readings the environment gives at a boundary (10 R300; 17 R472, R477). -/
def State.takeReadings (s : State) (i : BoundaryInfo) : State :=
  let s1 := { s with pwr := { s.pwr with
    sensors := if i.sensors.isEmpty then s.pwr.sensors else i.sensors
    railMv := if i.railMv.isEmpty then s.pwr.railMv else i.railMv } }
  { s1 with mem := { s1.mem with chans := (s1.mem.chans.map (fun c => (c.1, { c.2 with hot := i.hot.contains c.1 }))).filter
                                           (fun c => decide (c.2 ≠ {})) } }

/-- A trigger that releases once a reading has stayed low for 1 s: whether it is active, and the tick since which the
reading is low (17 R477). -/
def holdTrigger (now : Nat) (hot low active : Bool) (since : Option Nat) : Bool × Option Nat :=
  let c := if low then (match since with | some t => some t | none => some now) else none
  let released := match c with | some t => decide (1800000000 + t ≤ now) | none => false
  (hot || (active && !released), c)

/-- The sensor triggers at a boundary (17 R477). -/
def State.sensorTriggers (s : State) : State :=
  let t := s.tjMax
  let a := holdTrigger s.now (decide (100 * 16 ≤ t)) (decide (t < 95 * 16)) s.pwr.trig100 s.pwr.cool100
  let b := holdTrigger s.now (decide (105 * 16 ≤ t)) (decide (t < 100 * 16)) s.pwr.trig105 s.pwr.cool105
  { s with pwr := { s.pwr with trig100 := a.1, cool100 := a.2, trig105 := b.1, cool105 := b.2 } }

/-- The average-power trigger after a step (17 R477). -/
def State.powerTrigger (s : State) (mw : Nat) : State :=
  let a := holdTrigger s.now (decide (2400000 < mw)) (decide (mw ≤ 2150000)) s.pwr.trigPwr.isSome s.pwr.coolPwr
  let pt := if 2400000 < mw then some (min 3 (s.kvNat kOpNow + 1)) else if a.1 then s.pwr.trigPwr else none
  { s with pwr := { s.pwr with trigPwr := pt, coolPwr := a.2 } }

/-- The bits of `op_cause` (17 R486). -/
def State.causeBits (s : State) : Nat :=
  b2n s.pwr.throttle + 2 * b2n s.pwr.trig100 + 4 * b2n s.pwr.trig105 + 8 * b2n s.pwr.trigPwr.isSome

/-- The point in force: the highest of the requested one and those of the active triggers (17 R477). -/
def State.pointNow (s : State) : Nat :=
  let p := s.pwr
  max (min 3 (s.kvNat kOpReq)) (max (if p.throttle || p.trig100 then 2 else 0)
    (max (if p.trig105 then 3 else 0) (p.trigPwr.getD 0)))

/-- Every trigger that becomes active is reported and drives `ALERT_N` (17 R477). -/
def State.reportTriggers (s : State) (old new : Nat) : State :=
  (List.range 4).foldl (fun x i => if bitOf new i && !bitOf old i then x.event (.throttle i) else x) s

/-- Whether the guard band differs between two points (17 R475). -/
def guardDiffers (a b : Nat) : Bool := decide (a = 1) != decide (b = 1)

/-- The hold of a point (17 R475). -/
def pointHold (p len : Nat) : Nat := if p = 2 then ceilDiv len 3 else if p = 3 then len else 0

/-- A point that comes in force at its time (17 R476). -/
def State.takePoint (s : State) (p : Nat) : State :=
  let s1 := s.kvSet kOpNow (BitVec.ofNat 64 p)
  { s1 with pwr := { s1.pwr with opChange := none } }

/-- A change of point that takes no time, the guard band staying, comes in force once its moment has come: the end of the
Sable window (01 R25; 17 R476). -/
def State.settlePoint (s : State) : State :=
  match s.pwr.opChange with
  | some (p, t) => if decide (t ≤ s.now) && !guardDiffers p (s.kvNat kOpNow) then s.takePoint p else s
  | none => s

/-- The operating point evaluated at a boundary whose Sable window ends at tick `t`: `op_cause`, the change and its time, the
hold of the point in force. A change of guard band takes `t_op_change` from the window's end, any other change is due at
that end (01 R25; 17 R475 to R477, R486). -/
def State.pointBoundary (s : State) (t len : Nat) : State :=
  let old := s.kvNat kOpCause
  let new := s.causeBits
  let p := s.pointNow
  let s1 := (s.reportTriggers old new).kvSet kOpCause (BitVec.ofNat 64 new)
  let e := if guardDiffers p (s.kvNat kOpNow) then t + s.kvNat kTOpChange else t
  let s2 := { s1 with pwr := { s1.pwr with
    opChange := if p = s.kvNat kOpNow then none else some (p, e), holdUntil := e + pointHold p len } }
  s2.settlePoint

/-- `OP_CHANGE_DONE`: the change of guard band is complete, and the new point is in force (17 R476). -/
def execOpChangeDone (s : State) : Host.Outcome State Fault Refusal :=
  .next (match s.pwr.opChange with
    | some (p, t) => if t ≤ s.now then s.takePoint p else s
    | none => s)

/-- `IDLE_BOUNDARY`: while no image runs, a boundary every 2^20 Cobalt ticks (17 R477). -/
def execIdleBoundary (info : BoundaryInfo) (s : State) : Host.Outcome State Fault Refusal :=
  .next (if !s.imageRuns && s.clk.phase == .run && decide (s.now % 2 ^ 20 = 0) && s.pwr.opChange.isNone then
    (((s.tileErrors info).takeReadings info).sensorTriggers).pointBoundary s.now 0
  else s)

end Sys2Proof.Machine
end

