-- ==== Sys2Proof/Machine/Indigo.lean ====
section
/-! DEFINITION. Indigo: exchange contexts, rounds, messages, acknowledgements, expert dispatch and combine, collectives in
their ring order, accumulation and halo exchange (chapter 11; 12 R360, R361). -/

namespace Sys2Proof.Machine

/-! ### Contexts, nodes and addresses -/

/-- The largest message body, `msg_max` (11 R317). -/
abbrev msgMax : Nat := 16384

/-- An `expert` field that names none: a source entry (11 R327). -/
abbrev noExpert : Nat := 0xFFFF

/-- The model's number for Indigo among the units that hold counts and event bits (log 43). -/
abbrev indigoUnit : Nat := 224

/-- The device address an exchange token's bytes begin at, in the slot in use (15 R553; log 45). -/
def State.exchBase (s : State) (tok : Nat) (write : Bool) : Nat := (s.placed tok).hueBase + s.slotShift tok write

/-- The address of the retained buffer: the record's, in the slot of its token that is read (11 R313; 07 R188). -/
def State.ctxSrc (s : State) (g : CtxRec) : Nat := g.src + s.slotShift g.srcTok false

/-- The address of the landing area: the record's, in the slot of its token that is written (11 R313; 07 R188). -/
def State.ctxDst (s : State) (g : CtxRec) : Nat := g.dst + s.slotShift g.tok true

/-- The linear index of the node a peer entry names (01 R16). -/
def State.peerNode (s : State) (p : Peer) : Nat := s.blockOf.index (p.x, p.y, p.z)

/-- Every context of every node of the block: node, number, record, peer table (11 R313, R314). -/
def State.allCtxs (s : State) : List (Nat × Nat × CtxRec × List Peer) :=
  match s.job.img with
  | none => []
  | some i => i.ctxs.flatMap (fun x =>
      (match x.1.node with | some m => [m] | none => List.range s.nodes).map (fun m => (m, x.1.ctx, x.2.1, x.2.2)))

/-- A context of a node. -/
def State.nodeCtx (s : State) (m c : Nat) : CtxRec × List Peer :=
  match s.allCtxs.find? (fun x => decide (x.1 = m) && decide (x.2.1 = c)) with
  | some x => x.2.2
  | none => ({}, [])

/-- Whether an entry names context `c` of node `m`. -/
def State.names (s : State) (m c : Nat) (p : Peer) : Bool := decide (s.peerNode p = m) && decide (p.pctx = c)

/-- The experts that tables name at context `c` of node `m`: those the node hosts, ascending (11 R327). -/
def State.hosted (s : State) (m c : Nat) : List Nat :=
  (sortBy (fun a b => decide (a ≤ b)) (s.allCtxs.flatMap (fun x =>
    (x.2.2.2.filter (fun p => s.names m c p && decide (p.expert ≠ noExpert))).map (fun p => p.expert)))).eraseDups

/-- The source list of a peer table: the nodes of its source entries, in table order (11 R327). -/
def State.sources (s : State) (ps : List Peer) : List Nat :=
  (ps.filter (fun p => decide (p.expert = noExpert))).map s.peerNode

/-- The nodes whose tables name context `c` of node `m`, with their contexts, in ascending linear index (11 R551). -/
def State.senders (s : State) (m c : Nat) : List (Nat × Nat × CtxRec × List Peer) :=
  sortBy (fun a b => decide (a.1 ≤ b.1)) (s.allCtxs.filter (fun x => x.2.2.2.any (s.names m c)))

/-! ### Ring order of collectives (11 R330, R331, R550) -/

/-- The ring sequence of an axis with `n` nodes (11 R330). -/
def ringSeq (n : Nat) (folded : Bool) : List Nat :=
  if folded then (List.range n).filter (fun k => k % 2 = 0) ++ ((List.range n).filter (fun k => k % 2 = 1)).reverse
  else List.range n

/-- Chunk c of n of an element range: start and length (11 R330). -/
def chunkOf (lo len n c : Nat) : Nat × Nat := (lo + c * len / n, (c + 1) * len / n - c * len / n)

/-- A stage of a collective on one node: axis, nodes, ring sequence, the node's place in it, the piece before it. -/
structure Stage where
  axis : Nat
  n : Nat
  seq : List Nat
  j : Nat
  lo : Nat
  len : Nat
deriving DecidableEq, Repr, Inhabited

/-- The stages x, y, z of a node, for axes (axis, nodes, folded, coordinate), and the piece it owns after them (11 R330):
an axis with one node has no stage. -/
def stagesOf : List (Nat × Nat × Bool × Nat) → Nat → Nat → List Stage × (Nat × Nat)
  | [], lo, len => ([], (lo, len))
  | (a, n, f, c) :: t, lo, len =>
    let ch := chunkOf lo len n c
    let r := stagesOf t ch.1 ch.2
    let seq := ringSeq n f
    (if 1 < n then { axis := a, n := n, seq := seq, j := (indexOf (fun k => decide (k = c)) seq).getD 0, lo := lo
                     len := len } :: r.1 else r.1, r.2)

/-- One payload of a collective's ring step: its place in the order of ring steps, its half, the axis and coordinate it
goes to, and its chunk (11 R331, R550). -/
structure RingSend where
  ph : Nat
  minus : Bool
  axis : Nat
  dst : Nat
  lo : Nat
  len : Nat
deriving DecidableEq, Repr, Inhabited

/-- The chunk a node at place j of a ring sends at ring step t (from 1), and to whom: in the + half the chunk that began t
places back (all-gather: t - 1) goes to the successor; the - half mirrors it (11 R331, R550). -/
def Stage.send (g : Stage) (minus gather : Bool) (t ph : Nat) : RingSend :=
  let off := if gather then t - 1 else t
  let place (k : Nat) (fwd : Bool) : Nat := g.seq.getD (if fwd then (g.j + k) % g.n else (g.j + g.n - k % g.n) % g.n) 0
  let ch := chunkOf g.lo g.len g.n (place off minus)
  { ph := ph, minus := minus, axis := g.axis, dst := place 1 (!minus), lo := ch.1, len := ch.2 }

/-- The payloads of one half: reduce-scatter steps along x, y, z, then all-gather steps along z, y, x (11 R330, R550). -/
def halfSends (kind : Nat) (stages : List Stage) (minus : Bool) : List RingSend :=
  let steps (gather : Bool) (l : List Stage) : List (Stage × Bool × Nat) :=
    l.flatMap (fun g => (rangeFrom 1 (g.n - 1)).map (fun t => (g, gather, t)))
  let all := (if kind = 5 then [] else steps false stages) ++ (if kind = 4 then [] else steps true stages.reverse)
  (all.zipIdx.map (fun x => x.1.1.send minus x.1.2.1 x.1.2.2 x.2)).filter (fun r => decide (0 < r.len))

/-- The axes of the block with the fold bits of a context and a node's coordinates (11 R313, R330). -/
def State.ringAxes (s : State) (fold m : Nat) : List (Nat × Nat × Bool × Nat) :=
  let b := s.blockOf
  let (x, y, z) := b.coord m
  [(0, b.sx, bitOf fold 0, x), (1, b.sy, bitOf fold 1, y), (2, b.sz, bitOf fold 2, z)]

/-- The payloads of a node's round, in the order of ring step and half (11 R550). -/
def State.ringSends (s : State) (kind fold len m : Nat) : List RingSend :=
  let ax := s.ringAxes fold m
  let half := len / 2
  sortBy (fun a b => decide (a.ph < b.ph) || (decide (a.ph = b.ph) && (!a.minus || b.minus)))
    (halfSends kind (stagesOf ax 0 half).1 false ++ halfSends kind (stagesOf ax half (len - half)).1 true)

/-- The node one axis step leads to. -/
def State.ringDst (s : State) (m : Nat) (r : RingSend) : Nat :=
  let b := s.blockOf
  let (x, y, z) := b.coord m
  b.index (if r.axis = 0 then (r.dst, y, z) else if r.axis = 1 then (x, r.dst, z) else (x, y, r.dst))

/-- The element ranges a node owns after a reduce-scatter, one for each half (11 R330). -/
def State.ringOwned (s : State) (fold len m : Nat) : List (Nat × Nat) :=
  let ax := s.ringAxes fold m
  let half := len / 2
  [(stagesOf ax 0 half).2, (stagesOf ax half (len - half)).2]

/-- Ring steps of the reduce-scatter part of a collective (11 R550). -/
def State.reduceSteps (s : State) (kind : Nat) : Nat :=
  if kind = 5 then 0 else let b := s.blockOf; (b.sx - 1) + (b.sy - 1) + (b.sz - 1)

/-! ### What a round sends (11 R317, R327, R328, R333, R334, R550) -/

/-- A part of a payload: raw bytes, the rows of an expert (dispatch; combine), the elements or pairs of a table entry, a
collective's chunk (with its ring step, half and element width). -/
inductive Piece where
  | raw (len : Nat)
  | rows (expert len : Nat)
  | crows (expert len : Nat)
  | halo (entry count : Nat)
  | pairs (entry count : Nat)
  | chunk (ph : Nat) (minus : Bool) (lo len width : Nat)
deriving DecidableEq, Repr, Inhabited

/-- The pairs that a context's source token holds from `src` on (11 R333). -/
def State.pairCount (s : State) (g : CtxRec) : Int :=
  let p := s.placed g.srcTok
  (((p.hueBase + p.bytes - g.src) / 8 : Nat) : Int)

/-- Bytes of a piece. -/
def Piece.size : Piece → Nat
  | .raw n => n
  | .rows _ n => n
  | .crows _ n => n
  | .halo _ c => 8 * c
  | .pairs _ c => 8 * c
  | .chunk _ _ _ len w => len * w

/-- A collective's place in the order of ring steps: twice the step plus the half; 0 for other pieces. -/
def Piece.key : Piece → Nat
  | .chunk ph minus _ _ _ => 2 * ph + b2n minus
  | _ => 0

/-- Whether a context carries a distributed solve's exact sums: an all-reduce of FX192 (08 R232, 11 R334; log 42). -/
def CtxRec.sums (r : CtxRec) : Bool := decide (r.kind = 3) && decide (r.fmtIn = 16)

/-- Bytes of an element as a collective's messages carry it: the accumulator format, or `fmt_in` (11 R329, R550). -/
def CtxRec.width (r : CtxRec) : Nat :=
  if r.kind = 5 then Fmt.bits ((Fmt.ofNum r.fmtIn).getD .fp32) / 8
  else if r.sums then 24 else if r.fmtIn = 1 then 8 else 4

/-- The elements a collective runs over: its source token's from `src` on, or a solve's sums (11 R313, R330). -/
def State.collLen (s : State) (r : CtxRec) (c : Nat) : Nat :=
  if r.sums then (s.ctx c).work.length
  else prodL (s.tokDecl r.srcTok).ext - (r.src - (s.placed r.srcTok).hueBase) * 8 / Fmt.bits ((Fmt.ofNum r.fmtIn).getD .fp32)

/-- What context `c` of node `m` sends to context `pc` of node `r` in a round: payloads, each a list of pieces. A payload
is cut into messages by itself (11 R317, R327, R328, R333, R334, R550). -/
def State.plan (s : State) (m c : Nat) (rec : CtxRec) (ps : List Peer) (r pc : Nat) : List (List Piece) :=
  let mine := ps.zipIdx.filter (fun p => s.names r pc p.1)
  let rowsLen := rec.cap * rec.rowBytes
  match rec.kind with
  | 0 => if mine.isEmpty then [] else [[.raw rec.bytes]]
  | 1 => [(mine.filter (fun p => decide (p.1.expert ≠ noExpert))).map (fun p => .rows p.1.expert rowsLen)]
  | 2 =>
    if mine.any (fun p => decide (p.1.expert = noExpert)) then
      let listed := ((s.nodeCtx r pc).2.filter (fun p => s.names m c p && decide (p.expert ≠ noExpert))).map (fun p => p.expert)
      [((s.hosted m c).filter (fun e => listed.contains e)).map (fun e => .crows e rowsLen)]
    else []
  | 3 | 4 | 5 =>
    if mine.isEmpty then []
    else ((s.ringSends rec.kind rec.fold (s.collLen rec c) m).filter (fun g => decide (s.ringDst m g = r))).map
      (fun g => [.chunk g.ph g.minus g.lo g.len rec.width])
  | 6 => [mine.map (fun p => .halo p.2 p.1.count)]
  | 7 | 8 => [mine.map (fun p => .pairs p.2 p.1.count)]
  | _ => []

/-- Bytes of a payload. -/
def groupSize (g : List Piece) : Nat := (g.map Piece.size).foldl (fun a b => a + b) 0

/-- The messages of a round to one peer, in segment order: payload, byte offset, length (11 R317). -/
def segsOf (plan : List (List Piece)) : List (Nat × Nat × Nat) :=
  plan.zipIdx.flatMap (fun g =>
    let n := groupSize g.1
    (List.range (ceilDiv n msgMax)).map (fun k => (g.2, k * msgMax, min msgMax (n - k * msgMax))))

/-- This node's plan toward the peer of table entry k; only the first entry that names a peer carries it. -/
def State.ownPlan (s : State) (c k : Nat) : List (List Piece) :=
  let x := s.ctx c
  match x.peers[k]? with
  | none => []
  | some p =>
    let r := s.peerNode p
    if (indexOf (s.names r p.pctx) x.peers) = some k then s.plan s.nodeIndex c x.cfg x.peers r p.pctx else []

/-- The plan of a node toward context `c` of this node. -/
def State.planFrom (s : State) (m c : Nat) : List (List Piece) :=
  match (s.senders s.nodeIndex c).find? (fun x => decide (x.1 = m)) with
  | some x => s.plan m x.2.1 x.2.2.1 x.2.2.2 s.nodeIndex c
  | none => []

/-- The messages a round of context `c` expects: sender and segment (11 R321). -/
def State.expected (s : State) (c : Nat) : List (Nat × Nat) :=
  ((s.senders s.nodeIndex c).map (fun x => x.1)).eraseDups.flatMap (fun m =>
    (List.range (segsOf (s.planFrom m c)).length).map (fun k => (m, k)))

/-- The place of an expected message in the order of ring steps. -/
def State.segKey (s : State) (c m k : Nat) : Nat :=
  let plan := s.planFrom m c
  match (segsOf plan)[k]? with
  | some g => (((plan.getD g.1 []).head?).map Piece.key).getD 0
  | none => 0

/-- Whether every message of the earlier ring steps of a half has landed (11 R331). -/
def State.stepsBefore (s : State) (c key : Nat) : Bool :=
  let x := s.ctx c
  x.expect.all (fun e =>
    let k := s.segKey c e.1 e.2
    !(decide (k % 2 = key % 2) && decide (k / 2 < key / 2)) || x.arrived.contains e)

/-! ### Payload bytes (11 R322, R327, R328, R333, R334) -/

/-- The vector a distributed solve waits to exchange, for a halo context (08 R232). -/
def State.haloVec (s : State) : List Int :=
  (s.engines.filterMap (fun e => match e.solve with
    | some t => (match t.asked with | some (.halo v) => some v | _ => none)
    | none => none)).headD []

/-- The address of a node's bytes for an expert and a source or destination: region, source position (11 R327). -/
def expertOff (experts srcs : List Nat) (e src len : Nat) : Nat :=
  let i := (indexOf (fun x => decide (x = e)) experts).getD 0
  let q := (indexOf (fun x => decide (x = src)) srcs).getD 0
  (i * srcs.length + q) * len

/-- A part of a piece as the sender takes it: its bytes, the memory ranges read for it, and whether a poisoned line is
among them (11 R322, R336; 10 R286). -/
structure Taken where
  bytes : List Byte
  reads : List (Nat × Nat) := []
  bad : Bool := false
deriving DecidableEq, Repr, Inhabited

/-- Bytes of memory as a sender takes them. -/
def State.take (s : State) (a n : Nat) : Taken := { bytes := s.dramRd a n, reads := [(a, n)], bad := s.poisoned a n }

/-- The row of an expert's slot `k`: its assignment's row of X, or zeros (11 R327). -/
def State.takeRow (s : State) (x : CtxSt) (e k : Nat) : Taken :=
  let g := x.cfg
  match indexOf (fun v => decide (v = ((e * 65536 + k : Nat) : Int))) x.slots with
  | some i => s.take (s.ctxSrc g + i / max 1 g.topk * g.rowBytes) g.rowBytes
  | none => { bytes := List.replicate g.rowBytes 0 }

/-- The parts of one piece that this node sends to node `r` from context `c`, in order: whole for raw bytes and a combine's
rows, row by row, pair by pair and element by element for the others (11 R322, R327, R328, R333, R334). -/
def State.takePiece (s : State) (c r : Nat) (p : Piece) : List Taken :=
  let x := s.ctx c
  let g := x.cfg
  let src := s.ctxSrc g
  let listed (k i : Nat) : Int × Nat := let a := (x.peers.getD k {}).idx + 4 * i
    (signed 32 (s.dramElem .int32 (x.peers.getD k {}).idx i), a)
  match p with
  | .raw n => (lineParts src n).map (fun q => s.take q.1 q.2)
  | .rows e _ => (List.range g.cap).flatMap (fun k =>
      let t := s.takeRow x e k
      match t.reads with
      | [q] => (lineParts q.1 q.2).map (fun v => s.take v.1 v.2)
      | _ => [t])
  | .crows e n =>
    (lineParts (src + expertOff (s.hosted s.nodeIndex c) (s.sources x.peers) e r n) n).map (fun q => s.take q.1 q.2)
  | .halo k n => (List.range n).map (fun i =>
      let (j, a) := listed k i
      { bytes := toLe 8 (unsigned 64 (s.haloVec.getD j.toNat 0)), reads := [(a, 4)], bad := s.poisoned a 4 })
  | .pairs k n => (List.range n).map (fun i =>
      let (j, a) := listed k i
      let t := if 0 ≤ j ∧ j < s.pairCount g then s.take (src + 8 * j.toNat) 8
        else { bytes := toLe 8 (Config.freeWord 5 (s.fresh + i)).toNat }
      { t with reads := (a, 4) :: t.reads, bad := t.bad || s.poisoned a 4 })
  | .chunk _ _ lo n w => (rangeFrom lo n).map (fun i => { bytes := toLe w (x.work.getD i 0), bad := x.bad.contains i })

/-- The ranges (offset, length) of the bytes of some parts that are marked. -/
def badSpans : List Taken → Nat → List (Nat × Nat)
  | [], _ => []
  | t :: ts, o => (if t.bad then [(o, t.bytes.length)] else []) ++ badSpans ts (o + t.bytes.length)

/-- A payload's parts. -/
def State.takeGroup (s : State) (c r : Nat) (g : List Piece) : List Taken := g.flatMap (s.takePiece c r)

/-- The parts of some ranges that lie in a window of `n` bytes from `off`, with offsets in it. -/
def spansIn (off n : Nat) (rs : List (Nat × Nat)) : List (Nat × Nat) :=
  (rs.map (fun r => (max r.1 off - off, min (r.1 + r.2) (off + n) - max r.1 off))).filter (fun r => decide (0 < r.2))

/-- What the sender reads for the bytes `off` to `off + n` of a payload: the ranges of the parts that lie there (11 R336). -/
def readsIn (off n : Nat) : List Taken → Nat → List (Nat × Nat)
  | [], _ => []
  | t :: ts, o => (if o < off + n ∧ off < o + t.bytes.length then t.reads else []) ++ readsIn off n ts (o + t.bytes.length)

/-! ### Admission (11 R325, R326) -/

/-- Marks of an assignment that has no slot: no choice, overflow, dropped. -/
abbrev slotNone : Int := -1
abbrev slotOver : Int := -2
abbrev slotDrop : Int := -3

/-- Admission in progress: rows filled by expert, the assignments' slots so far, rerouted assignments. -/
structure Admit where
  fill : Tab Nat := []
  slots : List Int := []
  rerouted : Nat := 0
deriving DecidableEq, Repr, Inhabited

/-- An assignment admitted to an expert's next slot. -/
def Admit.one (a : Admit) (e : Int) : Admit × Int :=
  let n := Tab.get 0 e.toNat a.fill
  ({ a with fill := Tab.set 0 e.toNat (n + 1) a.fill }, e * 65536 + (n : Int))

/-- Pass 1 for one assignment (11 R326). -/
def admitFirst (cap : Nat) (known : List Nat) (a : Admit) (e : Int) : Admit :=
  if e = -1 then { a with slots := a.slots ++ [slotNone] }
  else if e < 0 ∨ !known.contains e.toNat then { a with slots := a.slots ++ [slotDrop] }
  else if Tab.get 0 e.toNat a.fill < cap then
    let r := a.one e
    { r.1 with slots := a.slots ++ [r.2] }
  else { a with slots := a.slots ++ [slotOver] }

/-- Pass 2 for one token: its first overflow tries the fallback expert once (11 R326). `row` holds the token's slots. -/
def admitSecond (cap : Nat) (known : List Nat) (f : Int) (a : Admit) (row : List Int) : Admit :=
  let step (x : Admit × Bool × List Int) (v : Int) : Admit × Bool × List Int :=
    if v ≠ slotOver then (x.1, x.2.1, x.2.2 ++ [v])
    else
      let held := (x.2.2 ++ row).any (fun w => decide (0 ≤ w) && decide (w / 65536 = f))
      if !x.2.1 && decide (0 ≤ f) && known.contains f.toNat && !held && decide (Tab.get 0 f.toNat x.1.fill < cap) then
        let r := x.1.one f
        ({ r.1 with rerouted := r.1.rerouted + 1 }, true, x.2.2 ++ [r.2])
      else (x.1, true, x.2.2 ++ [slotDrop])
  let r := row.foldl step (a, false, [])
  { r.1 with slots := r.1.slots ++ r.2.2 }

/-- Admission of a node's tokens: `route` holds `topk` + 1 expert numbers for each (11 R326). -/
def admission (cap topk : Nat) (reroute : Bool) (known : List Nat) (route : List (List Int)) : Admit :=
  let a := route.foldl (fun a row => (row.take topk).foldl (admitFirst cap known) a) {}
  if reroute then
    (route.zip (pieces (max 1 topk) route.length a.slots)).foldl
      (fun b x => admitSecond cap known (x.1.getD topk (-1)) b x.2) { a with slots := [] }
  else a

/-- Admission on this node: the slot map written, `ix_dropped` and `ix_rerouted` counted (11 R326). -/
def State.runAdmission (s : State) (c : Nat) : State :=
  let x := s.ctx c
  let g := x.cfg
  let known := (x.peers.filter (fun p => decide (p.expert ≠ noExpert))).map (fun p => p.expert)
  let rb := s.exchBase g.routeTok false
  let n := g.topk + 1
  let route := (List.range g.tokens).map (fun t => (List.range n).map (fun r =>
    signed 16 (s.dramElem .int16 rb (t * n + r))))
  let a := admission g.cap g.topk g.reroute known route
  let dropped := (a.slots.filter (fun v => decide (v < -1))).length
  let slots := a.slots.map (fun v => if v < 0 then -1 else v)
  let sb := s.exchBase g.slotTok true
  let s0 := (s.askRange reqIndigo 0 rb (2 * g.tokens * n)).askRange reqIndigo 2 sb (4 * slots.length)
  let s1 := s0.dramWr sb (slots.flatMap (fun v => toLe 4 (unsigned 32 v)))
  let s2 := (s1.count kIxDropped dropped).count kIxRerouted a.rerouted
  s2.setCtx c { x with slots := slots }

/-! ### Arithmetic of collectives (11 R329, R331, R332) -/

/-- An input code decoded into the accumulator format (11 R329). -/
def accIn (f : Nat) (code : Nat) : Nat × Ev :=
  if f = 1 ∨ f = 14 then (code, {})
  else let r := decode32 ((Fmt.ofNum f).getD .fp32) code 0 0; (r.1, Ev.ofFl r.2)

/-- One combination of the value that arrives with the node's own (11 R331, R332; 08 R232 for exact sums). -/
def combineAcc (r : CtxRec) (acc own : Nat) : Nat × Ev :=
  if r.sums then ((acc + own) % 2 ^ 192, {})
  else if r.fmtIn = 14 then
    let a := signed 32 acc
    let b := signed 32 own
    if r.rop = 2 then (unsigned 32 (max a b), {})
    else if r.rop = 3 then (unsigned 32 (min a b), {})
    else
      let t := max (-(2 ^ 31 : Int)) (min (2 ^ 31 - 1) (a + b))
      (unsigned 32 t, if t = a + b then {} else { sat := 1, satEv := true })
  else
    let F := if r.fmtIn = 1 then f64 else f32
    let v := if r.rop = 2 then fMax F acc own else if r.rop = 3 then fMin F acc own else fAdd F .tiesToEven acc own
    (v.1, Ev.ofFl v.2)

/-- The value of a finished element (11 R329). -/
def accOut (r : CtxRec) (code : Nat) : DVal :=
  if r.kind = 5 then decodeVal ((Fmt.ofNum r.fmtIn).getD .fp32) code 0 0
  else if r.fmtIn = 14 then DVal.ofDy { m := signed 32 code, e := 0 }
  else (if r.fmtIn = 1 then f64 else f32).decode code

/-- The block number and the place in the element plane of element e of a block-scaled token whose innermost extent is
`n` (02 R48). -/
def blkPlace (f : Fmt) (n e : Nat) : Nat × Nat :=
  let b := (Fmt.block f).getD 1
  let k := e / max 1 n * ceilDiv n b + e % max 1 n / b
  (k, k * b + e % max 1 n % b)

/-- The bytes of code `i` of a plane: address and length (02 R46, R47). -/
def collSpan (f : Fmt) (base i : Nat) : Nat × Nat := (base + (elemPlace f i).1, elemSpan f i)

/-- The class 2 requests of a collective's result, and the poison marks of the lines that it wrote whole cleared (11 R336;
10 R286). -/
def State.collWritten (s : State) (w : List (Nat × Nat)) : State :=
  let lo := w.foldl (fun a r => min a r.1) ((w.headD (0, 0)).1)
  let hi := w.foldl (fun a r => max a (r.1 + r.2)) 0
  (s.askRange reqIndigo 2 lo (hi - lo)).clearPoison (w.map (fun r => (r.1, r.1 + r.2)))

/-- A collective's finished elements written to the landing token: one conversion each, or a copy of the bits; a block
whole, with the codes behind its last element 0 (11 R329; 02 R47, R48, R87, R548). A sum that is NaN or infinity raises the
event bit. -/
def State.writeColl (s : State) (c : Nat) (d : Decl) (es : List Nat) : State :=
  let x := s.ctx c
  let g := x.cfg
  let dst := s.ctxDst g
  let fo := (Fmt.ofNum g.fmtOut).getD .fp32
  let vals := es.map (fun e => (e, x.work.getD e 0))
  let sumEv : Ev := { nonfin := decide (g.rop = 1) && vals.any (fun v => !(accOut g v.2).isFinite) }
  let copy := decide (g.kind = 5) && decide (g.fmtOut = g.fmtIn)
  if Fmt.isBlock fo then
    let b := (Fmt.block fo).getD 1
    let n0 := (s.tokDecl g.tok).ext.getD 0 1
    let total := ceilDiv n0 b * (prodL (s.tokDecl g.tok).ext / max 1 n0)
    let plane := planeBytes fo (total * b)
    let ks := (vals.map (fun v => (blkPlace fo n0 v.1).1)).eraseDups
    let r := ks.foldl (fun (a : State × Ev) k =>
      let vs := vals.filter (fun v => decide ((blkPlace fo n0 v.1).1 = k))
      let enc := encodeBlock fo g.cvt (vs.map (fun v => (accOut g v.2, s.srOf g.tok v.1)))
      let s1 := (List.range b).foldl (fun s i => s.setDramElem fo dst (k * b + i) (enc.codes.getD i 0)) a.1
      (s1.dramWr (dst + plane + k) [BitVec.ofNat 8 enc.scale], a.2.join enc.ev)) (s, sumEv)
    let w := ks.flatMap (fun k => (dst + plane + k, 1) :: (List.range b).map (fun i => collSpan fo dst (k * b + i)))
    (r.1.collWritten w).raise indigoUnit d r.2
  else
    let r := vals.foldl (fun (a : State × Ev) v =>
      let o := if copy then (v.2, {}) else convert fo g.cvt (s.srOf g.tok v.1) 0 (accOut g v.2)
      (a.1.setDramElem fo dst v.1 o.1, a.2.join o.2)) (s, sumEv)
    let n := prodL (s.tokDecl g.tok).ext
    let pad := if fo = .fawn6 ∧ 0 < n ∧ es.contains (n - 1) then rangeFrom n (ceilDiv n 4 * 4 - n) else []
    let s1 := pad.foldl (fun s i => s.setDramElem fo dst i 0) r.1
    (s1.collWritten ((es ++ pad).map (collSpan fo dst))).raise indigoUnit d r.2

/-- The declared kind that a context's events count under: its entry's (07 R176). -/
def State.ctxDecl (s : State) (c : Nat) : Decl :=
  match s.job.img with
  | none => .forward
  | some i => match i.parts.entries.find? (fun e => match e.kind with | .exchange k => decide (k = c) | _ => false) with
    | some e => e.decl
    | none => .forward

/-! ### Landing (11 R321, R327, R328, R331, R333, R334) -/

/-- Machine coordinates of a linear node index (12 R362, 13 R385). -/
def State.nodeCoord (s : State) (n : Nat) : Nat × Nat × Nat := s.machineCoord (s.blockOf.coord n)

/-- A fault record of a context, with the machine coordinates of the node it dealt with (20 R532; log 19). -/
def State.ctxFault (s : State) (c cause elem node : Nat) : State :=
  let d := s.nodeCoord node
  s.contained { sub := 7, inst := c % 65536, opId := (s.ctx c).cfg.opId, cause := cause, elem := elem % 65536
                seq := BitVec.ofNat 64 (s.ctx c).cfg.seq, addr := BitVec.ofNat 64 (coordWord d.1 d.2.1 d.2.2) }

/-- A data error of a context that computes with poisoned bytes (10 R286; 11 R322; log 45). -/
def State.ctxPoison (s : State) (c elem node : Nat) : State := s.ctxFault c (Config.faultCause 7 % 256) elem node

/-- One pair from a node added into the FP32 table (11 R333): an index outside it is reported and not added. -/
def State.addPair (s : State) (c : Nat) (d : Decl) (node i v : Nat) : State :=
  let g := (s.ctx c).cfg
  let k := signed 32 i
  if 0 ≤ k ∧ k < ((g.bytes / 4 : Nat) : Int) then
    let dst := s.ctxDst g
    let r := fAdd f32 .tiesToEven (s.dramElem .fp32 dst k.toNat) v
    ((s.askRange reqIndigo 2 (dst + 4 * k.toNat) 4).setDramElem .fp32 dst k.toNat r.1).raise indigoUnit d (Ev.arith f32 r)
  else s.ctxFault c 2 i node

/-- An entry put into a list that its first number orders, after those that are not greater. -/
def putOrdered (v : Nat × Nat × Nat) : List (Nat × Nat × Nat) → List (Nat × Nat × Nat)
  | [] => [v]
  | w :: t => if v.1 < w.1 then v :: w :: t else w :: putOrdered v t

/-- Bytes of a list in words of `w` bytes. -/
def wordsOf (w : Nat) (bs : List Byte) : List Nat := (pieces (max 1 w) (bs.length / max 1 w) bs).map leNat

/-- The place of a sender in the receiving table; one it does not list comes after, in linear order (11 R333). -/
def State.peerPos (s : State) (x : CtxSt) (m : Nat) : Nat :=
  (indexOf (fun p => decide (s.peerNode p = m)) x.peers).getD (x.peers.length + m)

/-- The key of the first element landed at byte `off` of table entry `k`'s payload: entries by place in the receiving table,
then by list order (11 R333, R334). -/
def State.landKey (s : State) (x : CtxSt) (m k off : Nat) : Nat := s.peerPos x m * 2 ^ 64 + k * 2 ^ 40 + off / 8

/-- The node whose pair has a key. -/
def State.keyNode (s : State) (x : CtxSt) (key : Nat) : Nat :=
  let q := key / 2 ^ 64
  match x.peers[q]? with
  | some p => s.peerNode p
  | none => q - x.peers.length

/-- Where `n` bytes from offset `off` of a raw or row piece of node `m` land: offset in the part, address, length. A combine
row goes to its assignment's row, and one that no assignment holds nowhere (11 R327, R328, R551). -/
def State.landAt (s : State) (c m : Nat) (p : Piece) (off n : Nat) : List (Nat × Nat × Nat) :=
  let x := s.ctx c
  let g := x.cfg
  let dst := s.ctxDst g
  match p with
  | .raw len =>
    let q := (indexOf (fun y => decide (y = m)) (((s.senders s.nodeIndex c).map (fun y => y.1)).eraseDups)).getD 0
    [(0, dst + q * len + off, n)]
  | .rows e len => [(0, dst + expertOff (s.hosted s.nodeIndex c) (s.sources x.peers) e m len + off, n)]
  | .crows e _ =>
    let rb := max 1 g.rowBytes
    let first := off / rb
    (rangeFrom first (ceilDiv (off + n) rb - first)).filterMap (fun k =>
      (indexOf (fun v => decide (v = ((e * 65536 + k : Nat) : Int))) x.slots).map (fun i =>
        let lo := max off (k * rb)
        let row := i % max 1 g.topk * g.tokens + i / max 1 g.topk
        (lo - off, dst + row * rb + (lo - k * rb), min (off + n) ((k + 1) * rb) - lo)))
  | _ => []

/-- Bytes of one piece landed at a byte offset in it, from node `m` (11 R321, R327, R328, R331, R333, R334, R336, R551). -/
def State.landPiece (s : State) (c m : Nat) (p : Piece) (off : Nat) (data : List Byte) : State :=
  let x := s.ctx c
  match p with
  | .raw _ | .rows _ _ | .crows _ _ => (s.landAt c m p off data.length).foldl (fun s r =>
      (s.askRange reqIndigo 2 r.2.1 r.2.2).dramWr r.2.1 ((data.drop r.1).take r.2.2)) s
  | .halo k _ =>
    let base := s.landKey x m k off
    let got := (wordsOf 8 data).zipIdx.foldl (fun l v => putOrdered (base + v.2, 0, v.1) l) x.pairs
    s.setCtx c { x with pairs := got }
  | .pairs k _ =>
    let base := s.landKey x m k off
    let ws := (wordsOf 8 data).zipIdx.map (fun v => (base + v.2, v.1 % 2 ^ 32, v.1 / 2 ^ 32))
    if x.cfg.kind = 8 then ws.foldl (fun s w => s.addPair c (s.ctxDecl c) m w.2.1 w.2.2) s
    else s.setCtx c { x with pairs := ws.foldl (fun l w => putOrdered w l) x.pairs }
  | .chunk _ _ lo _ w =>
    let got := (wordsOf w data).zipIdx.foldl (fun l v => putOrdered (p.key, lo + off / max 1 w + v.2, v.1) l) x.pairs
    s.setCtx c { x with pairs := got }

/-- The bytes `off` to `off + n` of a payload by piece: the piece, the offset in it, the length. -/
def overPieces : List Piece → Nat → Nat → List (Piece × Nat × Nat)
  | [], _, _ => []
  | p :: ps, off, n =>
    if p.size ≤ off then overPieces ps (off - p.size) n
    else
      let k := min (p.size - off) n
      if n ≤ k then [(p, off, k)] else (p, off, k) :: overPieces ps 0 (n - k)

/-- A message's bytes landed over the pieces of its payload, from byte `off` of it. -/
def State.landGroup (s : State) (c m : Nat) (g : List Piece) (off : Nat) (data : List Byte) : State :=
  ((overPieces g off data.length).foldl (fun (a : State × List Byte) x =>
    (a.1.landPiece c m x.1 x.2.1 (a.2.take x.2.2), a.2.drop x.2.2)) (s, data)).1

/-- The landed elements of a collective whose turn has come are combined, in the order of ring steps (11 R331). -/
def State.drainColl (s : State) (c : Nat) : State :=
  let x := s.ctx c
  let rs := s.reduceSteps x.cfg.kind
  let now := x.pairs.filter (fun v => s.stepsBefore c v.1)
  let r := now.foldl (fun (a : List Nat × Ev) v =>
    if v.1 / 2 < rs then
      let o := combineAcc x.cfg v.2.2 (a.1.getD v.2.1 0)
      (setAt a.1 v.2.1 o.1, a.2.join o.2)
    else (setAt a.1 v.2.1 v.2.2, a.2)) (x.work, {})
  (s.setCtx c { x with work := r.1, pairs := x.pairs.filter (fun v => !s.stepsBefore c v.1) }).raise indigoUnit
    (s.ctxDecl c) r.2

/-! ### The course of a round (11 R317 to R324) -/

/-- The sequence number of a round of the step in progress (11 R318). -/
def State.roundSeq (s : State) (j : Nat) : Nat := 2 ^ 24 * (s.job.step.toNat % 2 ^ 24) + j % 2 ^ 24

/-- Whether a sequence number is one of an earlier round (11 R318). -/
def seqEarlier (a cur : Nat) : Bool :=
  let d := (2 ^ 24 - cur / 2 ^ 24 % 2 ^ 24 + a / 2 ^ 24 % 2 ^ 24) % 2 ^ 24
  if d = 0 then decide (a % 2 ^ 24 < cur % 2 ^ 24) else decide (2 ^ 23 ≤ d)

/-- The halo contexts of a solve: the kind 6 contexts from `halo` on (11 R334). -/
def State.haloCtxs (s : State) (d : SolveDesc) : List Nat :=
  let h := d.slots.getD 14 0
  (rangeFrom h (4096 - h)).takeWhile (fun c => decide ((s.ctx c).cfg.kind = 6))

/-- The context of a solve's sums: the one after its halo contexts (11 R334; log 42). -/
def State.sumCtx (s : State) (d : SolveDesc) : Nat := d.slots.getD 14 0 + (s.haloCtxs d).length

/-- The contexts that hold what a solve waits for. -/
def State.askCtxs (s : State) (t : SolveSt) : List Nat :=
  match t.asked with
  | some (.halo _) => s.haloCtxs t.desc
  | some (.sums _) => [s.sumCtx t.desc]
  | none => []

/-- Whether some solve waits for context `c`. -/
def State.solveAsks (s : State) (c : Nat) : Bool :=
  s.engines.any (fun e => match e.solve with | some t => (s.askCtxs t).contains c | none => false)

/-- What the contexts of a solve bring it: halo elements in table order, or the combined sums (11 R334). -/
def State.solveInput (s : State) (t : SolveSt) : List Int :=
  (s.askCtxs t).flatMap (fun c =>
    let x := s.ctx c
    if x.cfg.kind = 6 then x.pairs.map (fun v => signed 64 v.2.2) else x.work.map (signed 192))

/-- A solve whose contexts have all ended their rounds takes what they brought (08 R232). -/
def State.feedSolve (s : State) (f : Nat) : State :=
  match (s.engine f).solve with
  | none => s
  | some t =>
    let cs := s.askCtxs t
    if t.asked.isSome && cs.all (fun c => (s.ctx c).complete && !(s.ctx c).active) then
      let t1 := { t with netIn := t.netIn ++ [s.solveInput t], asked := none }
      let s1 := s.setEngine f { s.engine f with solve := some t1 }
      cs.foldl (fun s c => s.setCtx c { s.ctx c with complete := false, pairs := [] }) s1
    else s

/-- Whether every message of the round has been sent and acknowledged (11 R322). -/
def State.sentAll (s : State) (c : Nat) : Bool :=
  let x := s.ctx c
  x.send.zipIdx.all (fun p => p.1.unacked.isEmpty && decide ((segsOf (s.ownPlan c p.2)).length ≤ p.1.next))

/-- The round ends when it is complete, its messages are acknowledged and its additions are done (11 R321, R322, R333). -/
def State.tryEnd (s : State) (c : Nat) : State :=
  let x := s.ctx c
  if x.active && x.complete && s.sentAll c && (decide (x.cfg.kind ≠ 7) || x.pairs.isEmpty) then
    let keep := decide (x.cfg.kind = 6) || x.cfg.sums
    let s1 := s.setCtx c { x with active := false, round := x.round + 1, complete := keep }
    (List.range 4).foldl State.feedSolve s1
  else s

/-- The lines of a range marked poisoned (10 R286, 11 R322). -/
def State.poisonRange (s : State) (a n : Nat) : State :=
  { s with mem := { s.mem with poison := s.mem.poison ++ (rangeLines a n).filter (fun l => !s.mem.poison.contains l) } }

/-- The marked elements of an all-gather's result: copied bits lie poisoned, a conversion faults (10 R286; 11 R322, R329;
log 45). -/
def State.gatherPoison (s : State) (c : Nat) : State :=
  let x := s.ctx c
  let g := x.cfg
  let f := (Fmt.ofNum g.fmtOut).getD .fp32
  if x.bad.isEmpty then s
  else if g.fmtOut = g.fmtIn then
    x.bad.foldl (fun s e => let r := collSpan f (s.ctxDst g) e; s.poisonRange r.1 r.2) s
  else s.ctxPoison c (x.bad.headD 0) s.nodeIndex

/-- What follows a landing: combination, and at the last arrival the result (11 R321, R329). -/
def State.afterLanding (s : State) (c : Nat) : State :=
  let coll := let k := (s.ctx c).cfg.kind; decide (3 ≤ k) && decide (k ≤ 5)
  let s1 := if coll then s.drainColl c else s
  let x := s1.ctx c
  let s2 := if x.active && !x.complete && x.expect.all (fun e => x.arrived.contains e) then
      let g := x.cfg
      let s3 := s1.setCtx c { x with complete := true }
      if coll && !g.sums then
        let n := s.collLen g c
        (s3.writeColl c (s.ctxDecl c) (if g.kind = 4 then
          (s.ringOwned g.fold n s.nodeIndex).flatMap (fun r => rangeFrom r.1 r.2) else List.range n)).gatherPoison c
      else s3
    else s1
  s2.tryEnd c

/-- Poisoned bytes of one piece, landed: raw and row data lie poisoned where they landed, a gathered element is marked, and
what Indigo or a solve computes with is a contained fault (11 R322, 10 R286; log 45). -/
def State.poisonPiece (s : State) (c m : Nat) (p : Piece) (off n : Nat) : State :=
  let x := s.ctx c
  match p with
  | .raw _ | .rows _ _ | .crows _ _ => (s.landAt c m p off n).foldl (fun s r => s.poisonRange r.2.1 r.2.2) s
  | .chunk _ _ lo _ w =>
    if x.cfg.kind = 5 then
      let first := off / max 1 w
      s.setCtx c { x with bad := x.bad ++ rangeFrom (lo + first) (ceilDiv (off + n) (max 1 w) - first) }
    else s.ctxPoison c 0 m
  | _ => s.ctxPoison c (off / 8) m

/-- The poisoned ranges of a message that landed from byte `off` of its payload (11 R322). -/
def State.landPoison (s : State) (c m : Nat) (g : List Piece) (off : Nat) (spans : List (Nat × Nat)) : State :=
  (spans.flatMap (fun r => overPieces g (off + r.1) r.2)).foldl (fun s x => s.poisonPiece c m x.1 x.2.1 x.2.2) s

/-- A message of the current round landed; its arrival bit is set (11 R321). -/
def State.landMsg (s : State) (c m seg : Nat) (msg : Msg) : State :=
  let plan := s.planFrom m c
  match (segsOf plan)[seg]? with
  | none => s
  | some g =>
    let grp := plan.getD g.1 []
    let s1 := s.landGroup c m grp g.2.1 msg.body
    let s2 := s1.landPoison c m grp g.2.1 msg.poison
    let x := s2.ctx c
    (s2.setCtx c { x with arrived := x.arrived ++ [(m, seg)] }).afterLanding c

/-- A message handed to its first output port's arbiter (11 R336, 12 R360, R362): it waits there as a request of its
flits, on the virtual channel of its first hop. -/
def State.inject (s : State) (m : Msg) (ctx cls : Nat) : State :=
  let h := { m.hdr with cls := cls }
  match s.nextHop h.dstX h.dstY h.dstZ 0 with
  | none => s
  | some o =>
    let p := flArb o.port
    let a := s.arb p
    let r : MemReq := { port := p, cls := cls, req := ctx, beats := ceilDiv (32 + m.body.length) 240
                        addr := s.hopVc h o, write := some (msgBytes { m with hdr := h }), stamp := s.now }
    s.setArb p { a with pend := a.pend ++ [r] }

/-- The context of a node that sends to context `c` of this node. -/
def State.senderCtx (s : State) (m c : Nat) : Nat :=
  match (s.senders s.nodeIndex c).find? (fun x => decide (x.1 = m)) with
  | some x => x.2.1
  | none => c

/-- The end-to-end acknowledgement of a message (12 R361). -/
def State.sendAck (s : State) (h : MsgHdr) : State :=
  let d := s.nodeCoord h.src
  s.inject { hdr := { seq := h.seq, epoch := s.job.epoch, segment := h.segment, src := s.nodeIndex, dstX := d.1
                      dstY := d.2.1, dstZ := d.2.2, ctx := s.senderCtx h.src h.ctx, lenM1 := 15, mkind := 1 }
             body := toLe 4 h.ctx ++ toLe 8 h.seq ++ toLe 4 h.segment } h.ctx 0

/-- An acknowledgement for a segment sent to peer entry k: the message is released and its credit returns (11 R320,
R322). -/
def State.ackRx (s : State) (c k seq seg : Nat) : State :=
  let x := s.ctx c
  match x.send[k]? with
  | none => s
  | some p =>
    if p.unacked.any (fun u => decide (u.msg.hdr.seq = seq) && decide (u.msg.hdr.segment = seg)) then
      let keep := p.unacked.filter (fun u => !(decide (u.msg.hdr.seq = seq) && decide (u.msg.hdr.segment = seg)))
      (s.setCtx c { x with send := setAt x.send k { p with unacked := keep, credits := p.credits + 1 } }).tryEnd c
    else s

/-- `ACKNOWLEDGEMENT` (12 R361). -/
def execAcknowledgement (ctx peer seq segment : Nat) (s : State) : Host.Outcome State Fault Refusal :=
  .next (s.ackRx ctx peer seq segment)

/-- The message of segment `seg` toward peer entry k, its bytes taken from the retained buffer (11 R317, R322). -/
def State.buildMsg (s : State) (c k seg : Nat) : Option Msg :=
  let x := s.ctx c
  let plan := s.ownPlan c k
  match x.peers[k]?, (segsOf plan)[seg]? with
  | some p, some g =>
    let ts := s.takeGroup c (s.peerNode p) (plan.getD g.1 [])
    let d := s.nodeCoord (s.peerNode p)
    some { hdr := { seq := x.cfg.seq, epoch := s.job.epoch, segment := seg, src := s.nodeIndex, dstX := d.1
                    dstY := d.2.1, dstZ := d.2.2, ctx := p.pctx, lenM1 := g.2.2 - 1, mkind := 0
                    cls := if x.cfg.kind = 6 then 0 else 1 }
           body := ((ts.flatMap (fun t => t.bytes)).drop g.2.1).take g.2.2
           poison := spansIn g.2.1 g.2.2 (badSpans ts 0) }
  | _, _ => none

/-- Whether a segment's payload is ready: a collective's chunk waits for the earlier ring steps of its half (11 R331). -/
def State.segReady (s : State) (c k seg : Nat) : Bool :=
  let plan := s.ownPlan c k
  match (segsOf plan)[seg]? with
  | some g => match (plan.getD g.1 []).head? with
    | some (.chunk ph minus _ _ _) => s.stepsBefore c (2 * ph + b2n minus)
    | _ => true
  | none => false

/-- The class 0 requests of a segment's reads (11 R336). -/
def State.askSeg (s : State) (c k seg : Nat) : State :=
  let plan := s.ownPlan c k
  match (s.ctx c).peers[k]?, (segsOf plan)[seg]? with
  | some p, some g => s.askAll reqIndigo 0 (readsIn g.2.1 g.2.2 (s.takeGroup c (s.peerNode p) (plan.getD g.1 [])) 0)
  | _, _ => s

/-- Whether a message to this node itself can land: its context has started the same round (11 R320). -/
def State.selfReady (s : State) (h : MsgHdr) : Bool :=
  (s.ctx h.ctx).active && decide ((s.ctx h.ctx).cfg.seq = h.seq)

/-- `MESSAGE_SEND`: the next message to a peer, when the context holds a credit; the command stands for the grant of the
peer's round, which has no message of its own (11 R317, R320, R336; log 45). A message to this node itself lands at once,
when its context has started the round. -/
def State.sendNext (s : State) (c k : Nat) : State :=
  let x := s.ctx c
  match x.send[k]? with
  | none => s
  | some p =>
    if x.active && decide (0 < p.credits) && s.segReady c k p.next then
      match s.buildMsg c k p.next with
      | none => s
      | some m =>
        let s1 := (s.askSeg c k p.next).count kIxMsgs 1
        if (m.hdr.dstX, m.hdr.dstY, m.hdr.dstZ) = (s.torus.x, s.torus.y, s.torus.z) then
          if s.selfReady m.hdr then
            let s2 := s1.setCtx c { x with send := setAt x.send k { p with next := p.next + 1 } }
            (s2.landMsg m.hdr.ctx s.nodeIndex p.next m).tryEnd c
          else s
        else
          let u : Unacked := { msg := m, sendings := 1, lastSent := s.now }
          let p1 := { p with next := p.next + 1, credits := p.credits - 1, unacked := p.unacked ++ [u] }
          (s1.setCtx c { x with send := setAt x.send k p1 }).inject m c m.hdr.cls
    else s

/-- `MESSAGE_SEND`: see `State.sendNext`. -/
def execMessageSend (ctx peer : Nat) (s : State) : Host.Outcome State Fault Refusal := .next (s.sendNext ctx peer)

/-! ### Rounds (11 R318, R320, R333) -/

/-- Whether a context may start its next round: its exchange entry runs, or a solve waits for it (11 R317, R318). -/
def State.mayStartRound (s : State) (c : Nat) : Bool :=
  let x := s.ctx c
  decide (0 < x.cfg.nPeer) && decide (x.cfg.kind ≠ 9) && !x.active &&
  (if decide (x.cfg.kind = 6) || x.cfg.sums then s.solveAsks c && !x.complete
   else decide (x.round ≤ x.cfg.nRoundM1) &&
    (List.range s.job.ents.length).any (fun e =>
      s.running e && (match (s.entryOf e).kind with | .exchange k => decide (k = c) | _ => false)))

/-- The partial results a collective begins with: the source token's elements in the accumulator format, or the sums of
the solve that waits (11 R329; 08 R232). -/
def State.firstWork (s : State) (c : Nat) : List Nat × Ev :=
  let g := (s.ctx c).cfg
  if g.sums then
    ((s.engines.filterMap (fun e => match e.solve with
      | some t => (match t.asked with
        | some (.sums ps) => if s.sumCtx t.desc = c then some (ps.map (unsigned 192)) else none
        | _ => none)
      | none => none)).headD [], {})
  else
    let f := (Fmt.ofNum g.fmtIn).getD .fp32
    let src := s.ctxSrc g
    let vs := (List.range (s.collLen g c)).map (fun i =>
      let code := s.dramElem f src i
      if g.kind = 5 then (code, {}) else accIn g.fmtIn code)
    (vs.map (fun v => v.1), Ev.joinAll (vs.map (fun v => v.2)))

/-- The pair numbers outside the source token fault on the sender (11 R333). -/
def State.checkPairs (s : State) (c : Nat) : State :=
  let x := s.ctx c
  let n := s.pairCount x.cfg
  x.peers.foldl (fun s p => (List.range p.count).foldl (fun s i =>
    let j := signed 32 (s.dramElem .int32 p.idx i)
    if 0 ≤ j ∧ j < n then s else s.ctxFault c 2 i (s.peerNode p)) s) s

/-- The elements of a collective's source that poisoned lines hold: an all-gather marks them, a reduction faults (10 R286;
11 R322; log 45). -/
def State.sourcePoison (s : State) (c n : Nat) : State :=
  let x := s.ctx c
  let f := (Fmt.ofNum x.cfg.fmtIn).getD .fp32
  let own := if x.cfg.kind = 5 then (s.ringOwned x.cfg.fold n s.nodeIndex).flatMap (fun r => rangeFrom r.1 r.2) else List.range n
  let hit := if s.mem.poison.isEmpty then [] else own.filter (fun i =>
    let r := collSpan f (s.ctxSrc x.cfg) i
    s.poisoned r.1 r.2)
  if hit.isEmpty || x.cfg.sums then s
  else if x.cfg.kind = 5 then s.setCtx c { x with bad := hit }
  else s.ctxPoison c (hit.headD 0) s.nodeIndex

/-- What the start of a round does by kind: dispatch admits, combine takes the slot map and writes the rows of +0, a
collective reads its elements, accumulation zeroes the table (11 R326, R328, R329, R333, R336). -/
def State.beginKind (s : State) (c : Nat) : State :=
  let x := s.ctx c
  let g := x.cfg
  match g.kind with
  | 1 => s.runAdmission c
  | 2 =>
    let sb := s.exchBase g.slotTok false
    let dst := s.ctxDst g
    let slots := (List.range (g.tokens * g.topk)).map (fun i => signed 32 (s.dramElem .int32 sb i))
    let s1 := slots.zipIdx.foldl (fun s v =>
      if v.1 < 0 then
        let a := dst + (v.2 % max 1 g.topk * g.tokens + v.2 / max 1 g.topk) * g.rowBytes
        (s.askRange reqIndigo 2 a g.rowBytes).dramWr a (List.replicate g.rowBytes 0)
      else s) (s.askRange reqIndigo 0 sb (4 * slots.length))
    s1.setCtx c { x with slots := slots }
  | 3 | 4 | 5 =>
    let w := s.firstWork c
    let n := if g.sums then 0 else planeBytes ((Fmt.ofNum g.fmtIn).getD .fp32) w.1.length
    let s1 := (s.askRange reqIndigo 0 (s.ctxSrc g) n).setCtx c { x with work := w.1 }
    (s1.sourcePoison c w.1.length).raise indigoUnit (s.ctxDecl c) w.2
  | 7 | 8 =>
    let s1 := (s.askRange reqIndigo 2 (s.ctxDst g) g.bytes).dramWr (s.ctxDst g) (List.replicate g.bytes 0)
    s1.checkPairs c
  | _ => s

/-- The messages that the context of a peer entry grants each of its senders at the start of a round: its record's
`credits`, or `cred_default` (11 R313, R320). -/
def State.grantOf (s : State) (p : Peer) : Nat :=
  let n := (s.nodeCtx (s.peerNode p) p.pctx).1.credits
  if n = 0 then s.kvNat kCredDefault else n

/-- `ROUND_START` (11 R318, R320): sequence number, arrival bits, credits, then what the kind begins with. -/
def State.startRound (s : State) (c : Nat) : State :=
  let x := s.ctx c
  let s1 := s.setCtx c { x with
    cfg := { x.cfg with seq := s.roundSeq x.round, epoch := s.job.epoch }
    active := true, complete := false, arrived := [], expect := [], pairs := [], slots := []
    work := [], bad := [], send := x.peers.map (fun p => { credits := s.grantOf p : PeerSt }) }
  let s2 := s1.beginKind c
  (s2.setCtx c { s2.ctx c with expect := s2.expected c }).afterLanding c

/-- `ROUND_START`: see `State.startRound`. -/
def execRoundStart (ctx : Nat) (s : State) : Host.Outcome State Fault Refusal :=
  .next (if s.mayStartRound ctx then s.startRound ctx else s)

/-- `ACCUMULATE_ADD_PASS`: the landed pairs of a complete kind 7 round are added in peer-table and list order (11 R333). -/
def execAccumulateAddPass (ctx : Nat) (s : State) : Host.Outcome State Fault Refusal :=
  let x := s.ctx ctx
  .next (if x.cfg.kind = 7 ∧ x.active ∧ x.complete then
    let s1 := x.pairs.foldl (fun s v => s.addPair ctx (s.ctxDecl ctx) (s.keyNode x v.1) v.2.1 v.2.2) s
    (s1.setCtx ctx { s1.ctx ctx with pairs := [] }).tryEnd ctx
  else s)

/-! ### Resends (11 R323, R324) -/

/-- A message sent again at class 2 from the retained buffer (11 R323, R336). -/
def State.resend (s : State) (c k : Nat) (u : Unacked) : State :=
  let x := s.ctx c
  let p := x.send.getD k {}
  let us := p.unacked.map (fun v => if v.msg.hdr.segment = u.msg.hdr.segment ∧ v.msg.hdr.seq = u.msg.hdr.seq then
    { v with sendings := v.sendings + 1, lastSent := s.now } else v)
  (((s.setCtx c { x with send := setAt x.send k { p with unacked := us } }).count kIxResent 1).timing 5).inject u.msg c 2

/-- Whether the first port of the route to machine coordinates carries traffic (11 R323). -/
def State.routeUp (s : State) (d : Nat × Nat × Nat) : Bool :=
  match s.nextHop d.1 d.2.1 d.2.2 0 with
  | some o => decide ((s.port o.port).state = .run)
  | none => false

/-- Whether a spare switch-in for a machine coordinate is held (11 R323, 13 R388). -/
def State.switching (s : State) (d : Nat × Nat × Nat) : Bool :=
  s.torus.heldSwitch.any (fun m => decide (m.1 = d.2.1) && decide (m.2.1 = d.2.2))

/-- `ACK_TIMEOUT`: a message not acknowledged within `ack_timeout` of its last sending is sent again, or, after
`ack_retries` + 1 sendings, its peer is unreachable (11 R323; 20 R539). -/
def State.ackTimeout (s : State) (c k seg : Nat) : State :=
  let x := s.ctx c
  match (x.send.getD k {}).unacked.find? (fun u => decide (u.msg.hdr.segment = seg)) with
  | none => s
  | some u =>
    let h := u.msg.hdr
    let d := (h.dstX, h.dstY, h.dstZ)
    if s.now < 1800 * s.kvNat kAckTimeout + u.lastSent || !s.routeUp d || s.switching d then s
    else if s.kvNat kAckRetries + 1 ≤ u.sendings then
      s.jobFaultNow 0x0602 { sub := 7, inst := c % 65536, opId := x.cfg.opId, cause := Config.faultCause 8 % 256
                             seq := BitVec.ofNat 64 h.seq, addr := BitVec.ofNat 64 (coordWord d.1 d.2.1 d.2.2) }
    else s.resend c k u

/-- `ACK_TIMEOUT`: see `State.ackTimeout`. -/
def execAckTimeout (ctx peer segment : Nat) (s : State) : Host.Outcome State Fault Refusal :=
  .next (s.ackTimeout ctx peer segment)

/-- The unacknowledged messages of a context to a peer sent again, in (seq, segment) order (11 R324). -/
def State.replayCtx (s : State) (x y z c : Nat) : State :=
  (s.ctx c).peers.zipIdx.foldl (fun s p =>
    if (p.1.x, p.1.y, p.1.z) = (x, y, z) then
      (((s.ctx c).send.getD p.2 {}).unacked).foldl (fun s u => s.resend c p.2 u) s
    else s) s

/-- `PEER_REPLAY`: every context sends its unacknowledged messages to a peer again (11 R324); the peer is given by its
job-relative coordinates. -/
def execPeerReplay (x y z : Nat) (s : State) : Host.Outcome State Fault Refusal :=
  .next ((s.exch.ctxs.map (fun t => t.1)).foldl (fun s c => s.replayCtx x y z c) s)

end Sys2Proof.Machine
end

