-- ==== Sys2Proof/Machine/Chroma.lean ====
section
/-! DEFINITION. The Chroma element chain: element passes, micro-operations, row reductions and row programs
(chapter 05). -/

namespace Sys2Proof.Machine

/-! ### Exponents and scaling (05 R130) -/

/-- The largest or smallest clamped exponent (05 R130). -/
def clampExp (i : Int) : Int := max (-512) (min 512 i)

/-- The exponent an FP32 value serves as; none for a NaN (05 R130). -/
def expOf (c : Nat) : Option Int :=
  match f32.decode c with
  | .nan _ => none
  | .inf n => some (if n then -512 else 512)
  | .zero _ => some 0
  | .fin n m e => some (clampExp (roundInt (.dir .towardZero) { m := if n then -(m : Int) else (m : Int), e := e } 0).1)

/-- A value times 2^k, exactly. -/
def scaleVal (v : DVal) (k : Int) : DVal :=
  match v with
  | .fin n m e => .fin n m (e + k)
  | v => v

/-- An exact FP32 integer (05 R128). -/
def f32Int (i : Int) : Nat := (f32.result .tiesToEven (DVal.ofDy (Dy.ofInt i))).1

/-- The FP32 sign bit flipped (05 R128). -/
def f32Neg (c : Nat) : Nat := c ^^^ 0x80000000

/-! ### Micro-operations (05 R127 to R131) -/

/-- What a micro-operation reads and writes: wires, masks, row scalars, reduction results, anchor, loop indices and
constants (05 R117, R128). -/
structure ChainEnv where
  w : List Nat := []
  m : List Bool := []
  z : List Nat := []
  y : List Nat := []
  yn : Nat := 0
  idx : List Nat := []
  c : List Nat := []
  fl : BitVec 5 := 0
deriving DecidableEq, Repr, Inhabited

/-- A source operand (05 R128). -/
def ChainEnv.src (x : ChainEnv) (f : Nat) : Nat :=
  if f < 8 then x.w.getD f 0
  else if f < 12 then x.z.getD (f - 8) 0
  else if f < 16 then x.y.getD (f - 12) 0
  else if f = 16 then x.yn
  else if f < 22 then f32Int (x.idx.getD (f - 17) 0 : Nat)
  else x.c.getD (f - 32) 0

/-- The result of `EXPO` (05 R129). -/
def expoOp (a : Nat) : Nat :=
  match f32.decode a with
  | .nan _ => f32.nan
  | .inf _ => f32.inf false
  | .zero _ => f32.inf true
  | .fin _ m e => f32Int (flog2 m e)

/-- The result of `LDX`: a times 2^k, rounded once (05 R129, R130). -/
def ldxOp (a b : Nat) : Nat × BitVec 5 :=
  let sig := flIf ((f32.decode a).isSig || (f32.decode b).isSig) flInvalid
  match expOf b with
  | none => (f32.nan, sig)
  | some k => let (c, fl) := f32.result .tiesToEven (scaleVal (f32.decode a) k); (c, fl ||| sig)

/-- The environment with a wire written and flags raised. -/
def ChainEnv.put (x : ChainEnv) (d : Nat) (r : Nat × BitVec 5) : ChainEnv :=
  { x with w := setAt x.w d r.1, fl := x.fl ||| r.2 }

/-- One micro-operation (05 R127, R129). -/
def ChainEnv.exec (x : ChainEnv) (o : BitVec 32) : ChainEnv :=
  let v := o.toNat
  let dst := bits v 24 3
  let a := let c := x.src (bits v 18 6); if bitOf v 5 then f32Neg c else c
  let b := let c := x.src (bits v 12 6); if bitOf v 4 then f32Neg c else c
  let sc := bits v 6 6
  match bits v 27 5 with
  | 1 => x.put dst (fAdd f32 .tiesToEven a b)
  | 2 => x.put dst (fMul f32 .tiesToEven a b)
  | 3 => x.put dst (fFma f32 .tiesToEven a b (x.src sc))
  | 4 => x.put dst (fMin f32 a b)
  | 5 => x.put dst (fMax f32 a b)
  | 6 => let (r, fl) := fCmp f32 (Cond.ofCode sc) a b; { x with m := setAt x.m (dst % 4) r, fl := x.fl ||| fl }
  | 7 => x.put dst (if x.m.getD (sc % 4) false then a else b, 0)
  | 8 =>
    let ma := x.m.getD (bits v 18 2) false
    let mb := x.m.getD (bits v 12 2) false
    { x with m := setAt x.m (dst % 4) (bitOf sc ((if ma then 2 else 0) + (if mb then 1 else 0))) }
  | 9 => x.put dst (expoOp a, 0)
  | 10 => x.put dst (ldxOp a b)
  | _ => x

/-! ### Descriptors (05 R120, R121) -/

/-- The element offset of loop indices (05 R121). -/
def TDesc.offset (d : TDesc) (idx : List Nat) : Int :=
  (idx.zip (d.str.take d.ndim)).foldl (fun a p => a + (p.1 : Int) * p.2) 0

/-- The row length and the number of elements of a record's iteration space (05 R122, R124). -/
def ChainRec.ext (r : ChainRec) : List Nat :=
  match r.ins, r.outs with
  | d :: _, _ => d.ext
  | [], d :: _ => d.ext
  | [], [] => [1]

/-- Where a descriptor's tensor stands in unit `u`: a unit-home token's addresses are relative to the token's address there,
in the slot in use (15 R553, 07 R188; log 28). -/
def State.descShift (s : State) (u : Nat) (d : TDesc) (write : Bool) : Nat :=
  if (s.tokDecl d.tok).home = 0 then s.unitBase d.tok u (s.slotOf d.tok write) else 0

/-- The decoded value of an input element and its FP32 code with the flags of decoding (05 R132). -/
def readStream (s : State) (u : Nat) (d : TDesc) (idx : List Nat) : DVal × Nat × BitVec 5 :=
  let f := (Fmt.ofNum d.fmt).getD .fp32
  let sh := s.descShift u d false
  let o := d.offset idx
  let (b, i) := planeBase f (sh + d.base) o
  let code := s.tileElem u f b i
  let scale := if Fmt.isBlock f then ((s.tileRd u (scaleByte f (sh + d.sbase) o) 1).headD 0).toNat else 0
  let (c, fl) := decode32 f code scale 0
  (decodeVal f code scale 0, c, fl)

/-- The code of an input element as it stands (05 R119). -/
def rawStream (s : State) (u : Nat) (d : TDesc) (idx : List Nat) : Nat :=
  let f := (Fmt.ofNum d.fmt).getD .fp32
  let (b, i) := planeBase f (s.descShift u d false + d.base) (d.offset idx)
  s.tileElem u f b i

/-- The bits that an input element takes in the tile store, and those of its scale (05 R121). -/
def streamBits (s : State) (u : Nat) (d : TDesc) (idx : List Nat) : List (Nat × Nat) :=
  let f := (Fmt.ofNum d.fmt).getD .fp32
  let sh := s.descShift u d false
  let (b, i) := planeBase f (sh + d.base) (d.offset idx)
  elemBits f b i ::
    (if Fmt.isBlock f then [(8 * (scaleByte f (sh + d.sbase) (d.offset idx) % tileSpan), 8)] else [])

/-- The wire value of an input element: decoded, then scaled by 2^xscale and rounded once (05 R132). -/
def entryWire (s : State) (u : Nat) (d : TDesc) (idx : List Nat) : Nat × BitVec 5 :=
  let (_, c, fl) := readStream s u d idx
  if d.xscale = 0 then (c, fl)
  else let (c', fl') := f32.result .tiesToEven (scaleVal (f32.decode c) d.xscale); (c', fl ||| fl')

/-- Whether a two-bit pass field names the pass (05 R125, R127). -/
def inPass (field pass : Nat) : Bool := bitOf field (pass - 1)

/-- The wires and masks at the entry stage (05 R117, R132). -/
def entryEnv (s : State) (u : Nat) (r : ChainRec) (idx : List Nat) (pass : Nat) : ChainEnv :=
  let ws := (List.range 8).map (fun j =>
    if j < r.nIn ∧ inPass (r.inPass.getD j 3) pass then entryWire s u (r.ins.getD j {}) idx else (0, 0))
  { w := ws.map (fun x => x.1), m := List.replicate 4 true, idx := idx, c := r.consts
    fl := ws.foldl (fun a x => a ||| x.2) 0 }

/-- The per-element micro-operations a record uses: as many as its stages hold; the other slots are ignored (05 R125,
R126). -/
def ChainRec.used (r : ChainRec) : Nat := (r.stageOps.take r.nStage).foldl (fun a b => a + b) 0

/-- An element's wires after the exit stage of a pass (05 R116, R127). -/
def runPass (r : ChainRec) (x : ChainEnv) (pass : Nat) : ChainEnv :=
  ((r.ops.take r.used).filter (fun o => inPass (bits o.toNat 2 2) pass)).foldl ChainEnv.exec x

/-! ### Exit (05 R133) -/

/-- Whether a record is a copy chain of an FP64 input: one input, one output, no micro-operations, one pass (05 R119). -/
def ChainRec.copies (r : ChainRec) : Bool :=
  r.nIn == 1 && r.nOut == 1 && r.stageOps.all (fun c => c == 0) && !r.rowMode && (r.ins.getD 0 {}).fmt == 1

/-- The value output j writes, before conversion: the wire scaled by 2^(xscale + k), and whether the scale is 0
(05 R133). -/
def exitVal (d : TDesc) (wire : Nat) (x : ChainEnv) : DVal × Bool :=
  let v := f32.decode (x.w.getD wire 0)
  if d.dynEn then
    match expOf (x.w.getD d.dynWire 0) with
    | none => (.nan false, false)
    | some k => (scaleVal v (d.xscale + k), decide (d.xscale + k = 0))
  else (scaleVal v d.xscale, decide (d.xscale = 0))

/-- The event of a code written to a token: a NaN or infinity (02 R69, 05 R134). -/
def writeEv (f : Fmt) (code : Nat) : Ev := { nonfin := (Fmt.fp f).isSome && !(decodeVal f code 0 0).isFinite }

/-- An output code: an FP32 output of total scale 0 is written unchanged (05 R133). -/
def exitCode (s : State) (d : TDesc) (f : Fmt) (wire e : Nat) (x : ChainEnv) : Nat × Ev :=
  let (v, same) := exitVal d wire x
  if f = .fp32 ∧ same then (x.w.getD wire 0, writeEv f (x.w.getD wire 0))
  else convert f d.cvt (s.srOf d.tok e) 0 v

/-- The key of a block being gathered; block numbers lie above -2^38. -/
def blkKey (out : Nat) (blk : Int) : Nat := out * 2 ^ 40 + (blk + 274877906944).toNat

/-- A gathered block encoded and written: the codes of the whole block, its padding zero, and the scale (02 R48, R62,
R548). -/
def writeBlock (s : State) (u : Nat) (d : TDesc) (f : Fmt) (blk : Int) (b : BlkSt) : State × Ev :=
  let n := (Fmt.block f).getD 1
  let sh := s.descShift u d true
  let enc := encodeBlock f d.cvt ((b.xs.zip b.es).map (fun x => (x.1, s.srOf d.tok x.2)))
  let s1 := ((List.range n).zip enc.codes).foldl (fun s x =>
    let (p, i) := planeBase f (sh + d.base) (blk * (n : Int) + (x.1 : Int))
    s.setTileElem u f p i x.2) s
  (s1.tileWr u (scaleByte f (sh + d.sbase) (blk * (n : Int))) [BitVec.ofNat 8 enc.scale], enc.ev)

/-- The codes behind the last element of a Fawn6 token in its group of four (02 R47): code `i` of the group at byte `p` is
that element. -/
def padGroup (s : State) (u p i : Nat) : State :=
  (rangeFrom (i + 1) (3 - i)).foldl (fun s k => s.setTileElem u .fawn6 p k 0) s

/-- A chain's gathered blocks replaced. -/
def State.setBlk (s : State) (u k : Nat) (b : BlkSt) : State :=
  let t := s.tile u
  s.setTile u { t with chain := { t.chain with blk := Tab.set {} k b t.chain.blk } }

/-- Output j of an element written, or its value added to its block; an FP64 output of a copy chain takes the source code
unchanged (05 R119, R133; 02 R47, R548). `raw` is a copied element's value and code. -/
def writeOut (r : ChainRec) (u iota : Nat) (x : ChainEnv) (raw : Option (DVal × Nat)) (s : State × Ev) (j : Nat) :
    State × Ev :=
  let d := r.outs.getD j {}
  let f := (Fmt.ofNum d.fmt).getD .fp32
  let idx := x.idx
  let e := d.eBase + iota
  let wire := if j = 0 then r.o0Wire else r.o1Wire
  let st := s.1
  match Fmt.block f with
  | none =>
    let (c, ev) := match raw with
      | some v => if f = Fmt.fp64 then (v.2, writeEv f v.2) else convert f d.cvt (st.srOf d.tok e) 0 v.1
      | none => exitCode st d f wire e x
    let (b, i) := planeBase f (st.descShift u d true + d.base) (d.offset idx)
    let s1 := st.setTileElem u f b i c
    (if f = Fmt.fawn6 ∧ e + 1 = prodL ((st.tokDecl d.tok).ext.take (st.tokDecl d.tok).ndim) then padGroup s1 u b i else s1,
      s.2.join ev)
  | some n =>
    let v := match raw with | some v => v.1 | none => (exitVal d wire x).1
    let o := d.offset idx
    let k := blkKey j (o / (n : Int))
    let b0 := Tab.get ({} : BlkSt) k (st.tile u).chain.blk
    let b1 : BlkSt := { xs := b0.xs ++ [v], es := b0.es ++ [e] }
    let i0 := idx.headD 0
    let full := min n ((d.ext.headD 1) - (i0 - i0 % n))
    if b1.xs.length = full then
      let (s1, ev) := writeBlock (st.setBlk u k {}) u d f (o / (n : Int)) b1
      (s1, s.2.join ev)
    else (st.setBlk u k b1, s.2)

/-- The outputs of an element (05 R118, R133). -/
def writeOuts (s : State) (u : Nat) (r : ChainRec) (iota : Nat) (x : ChainEnv) (raw : Option (DVal × Nat)) :
    State × Ev :=
  (List.range r.nOut).foldl (writeOut r u iota x raw) (s, {})

/-! ### Reductions (05 R136 to R139) -/

/-- The elements a slot takes: all, or those whose selected mask is 1 (05 R136). -/
def activeOf (sl : RedSlot) (es : List ChainElem) : List ChainElem :=
  es.filter (fun e => !sl.maskEn || e.m.getD sl.maskSel false)

/-- The values of a slot's wire over its active elements. -/
def slotVals (sl : RedSlot) (es : List ChainElem) : List Nat := (activeOf sl es).map (fun e => e.w.getD sl.wire 0)

/-- `RSUM`: the exact sum rounded once (05 R137). -/
def rsum (cs : List Nat) : Nat × BitVec 5 :=
  let vs := cs.map f32.decode
  let sig := flIf (vs.any DVal.isSig) flInvalid
  let p := vs.any (fun v => v == .inf false)
  let n := vs.any (fun v => v == .inf true)
  if vs.any DVal.isNan then (f32.nan, sig)
  else if p && n then (f32.nan, flInvalid)
  else if p then (f32.inf false, 0)
  else if n then (f32.inf true, 0)
  else f32.result .tiesToEven (DVal.ofDy (vs.foldl (fun a v => a.add v.dy) { m := 0, e := 0 }))

/-- `RMAX` and `RMIN` over the active values: `RMAX` starts from -inf and `RMIN` from +inf, the extremes that no value
passes (05 R137). -/
def rext (mx : Bool) (cs : List Nat) : Nat × BitVec 5 :=
  cs.foldl (fun a c => let (r, fl) := if mx then fMax f32 a.1 c else fMin f32 a.1 c; (r, a.2 ||| fl)) (f32.inf mx, 0)

/-- An `ESUM` in progress: anchor, exact sum in units of 2^-64 (05 R138). -/
structure EsumSt where
  n : Option Int := none
  a : Int := 0
deriving DecidableEq, Repr, Inhabited

/-- floor(p * 2^k / 2^-64) of a finite value (05 R138). -/
def esumTerm (v : DVal) (k : Int) : Int := (roundInt (.dir .towardNegative) (scaleVal v k).dy (-64)).1

/-- One group of an `ESUM`: pairs of value and exponent of the group's active elements (05 R138). -/
def esumGroup (st : EsumSt) (g : List (DVal × Int)) : EsumSt :=
  match g with
  | [] => st
  | p :: ps =>
    let top := ps.foldl (fun a q => max a q.2) p.2
    let big := match st.n with | none => top | some n => max n top
    let a0 := match st.n with
      | none => st.a
      | some n => if n < big then (roundInt (.dir .towardNegative) { m := st.a, e := n - big - 64 } (-64)).1 else st.a
    { n := some big, a := a0 + g.foldl (fun a q => a + esumTerm q.1 (q.2 - big)) 0 }

/-- `ESUM`: S and the anchor `yn` (05 R138). -/
def esum (sl : RedSlot) (wireN len : Nat) (es : List ChainElem) : Nat × Nat × BitVec 5 :=
  let act := activeOf sl es
  let pv := act.map (fun e => f32.decode (e.w.getD sl.wire 0))
  let nv := act.map (fun e => e.w.getD wireN 0)
  let sig := flIf (pv.any DVal.isSig || nv.any (fun c => (f32.decode c).isSig)) flInvalid
  let groups := (List.range (ceilDiv len 64)).map (fun g =>
    (act.filter (fun e => decide (e.pos / 64 = g))).map (fun e =>
      (f32.decode (e.w.getD sl.wire 0), (expOf (e.w.getD wireN 0)).getD 0)))
  if pv.any DVal.isNan || nv.any (fun c => (expOf c).isNone) then (f32.nan, f32.nan, sig)
  else
    let st := groups.foldl esumGroup {}
    let yn := f32Int (match st.n with | some n => n | none => -512)
    let p := pv.any (fun v => v == .inf false)
    let n := pv.any (fun v => v == .inf true)
    if p && n then (f32.nan, yn, flInvalid)
    else if p then (f32.inf false, yn, 0)
    else if n then (f32.inf true, yn, 0)
    else let (c, fl) := f32.result .tiesToEven (DVal.ofDy { m := st.a, e := -64 }); (c, yn, fl)

/-- The results y0 to y3 and `yn` of a row's elements (05 R136 to R138). Two `ESUM` slots share the anchor; a NaN that either
meets makes it NaN. The result of a slot with `rop` 0, and `yn` without an `ESUM` slot, are +0 (DESIGN CHOICE, log 57). -/
def reduceRow (r : ChainRec) (es : List ChainElem) : List Nat × Nat × BitVec 5 :=
  let len := r.ext.headD 1
  (List.range 4).foldl (fun a j =>
    let sl := r.red.getD j {}
    match sl.rop with
    | 1 => let (c, fl) := rsum (slotVals sl es); (a.1 ++ [c], a.2.1, a.2.2 ||| fl)
    | 2 => let (c, fl) := rext true (slotVals sl es); (a.1 ++ [c], a.2.1, a.2.2 ||| fl)
    | 3 => let (c, fl) := rext false (slotVals sl es); (a.1 ++ [c], a.2.1, a.2.2 ||| fl)
    | 4 =>
      let (c, yn, fl) := esum sl r.esumN len es
      (a.1 ++ [c], if (f32.decode a.2.1).isNan then a.2.1 else yn, a.2.2 ||| fl)
    | _ => (a.1 ++ [0], a.2.1, a.2.2)) ([], 0, 0)

/-- The row program of a row: its results z0 to z3, the anchor, and the flags (05 R139). The wires start at +0 as R139 says;
the masks start at 1 as those of an element do, which R139 does not say (DESIGN CHOICE, log 57). -/
def runRow (r : ChainRec) (es : List ChainElem) : List Nat × Nat × BitVec 5 :=
  let (y, yn, fl) := reduceRow r es
  let x0 : ChainEnv := { w := List.replicate 8 0, m := List.replicate 4 true, y := y, yn := yn, c := r.consts }
  let x := (r.rp.take r.rpLen).foldl ChainEnv.exec x0
  (x.w.take 4, yn, fl ||| x.fl)

/-! ### Commands -/

/-- The record of an entry's chain operation (05 R125). -/
def State.chainOf (s : State) (entry : Nat) : Option ChainRec :=
  match s.job.img with
  | some i => (i.chains.find? (fun p => p.1 = entry)).map (fun p => p.2)
  | none => none

/-- A row's state on a unit (05 R135). -/
def State.rowSt (s : State) (u row : Nat) : RowSt := Tab.get {} row (s.tile u).chain.rows

/-- The state with a row's state replaced. -/
def State.setRow (s : State) (u row : Nat) (x : RowSt) : State :=
  let t := s.tile u
  s.setTile u { t with chain := { t.chain with rows := Tab.set {} row x t.chain.rows } }

/-- A read fault: the operation stops on the unit, and the step is contained with `op_id` (05 R145, 20 R533). -/
def stopChain (s : State) (u : Nat) (r : ChainRec) : State :=
  let t := s.tile u
  (s.setTile u { t with chain := { t.chain with stopped := true } }).contained
    { sub := 2, inst := u, opId := r.opId, cause := Config.faultCause 2 }

/-- Storage of an element in quarter bits, scales counted (02 R35, 05 R141). -/
def quarterBits (f : Fmt) : Nat :=
  match f with
  | .pewter8b32 => 33
  | .dove4b16 => 18
  | f => 4 * Fmt.bits f

/-- The streams a pass reads: inputs named by `in_pass` (05 R125). -/
def passIns (r : ChainRec) (pass : Nat) : List TDesc :=
  ((List.range r.nIn).filter (fun j => inPass (r.inPass.getD j 3) pass)).map (fun j => r.ins.getD j {})

/-- The streams a pass writes: all outputs, but none in pass 1 of row mode (05 R134). -/
def passOuts (r : ChainRec) (pass : Nat) : List TDesc := if r.rowMode && pass == 1 then [] else r.outs.take r.nOut

/-- Bytes that `n` elements of streams occupy (05 R141). -/
def streamBytes (ds : List TDesc) (n : Nat) : Nat :=
  ceilDiv (n * ds.foldl (fun a d => a + quarterBits ((Fmt.ofNum d.fmt).getD .fp32)) 0) 32

/-- Elements per cycle of a pass (05 R141). -/
def passRate (r : ChainRec) (pass : Nat) : Nat :=
  if (passIns r pass ++ passOuts r pass).all (fun d => decide (Fmt.bits ((Fmt.ofNum d.fmt).getD .fp32) ≤ 16)) then 128
  else 64

/-- The cycles of a pass over `n` elements with the arrays idle (05 R143). -/
def passCost (r : ChainRec) (pass n : Nat) : Nat :=
  max (ceilDiv n (passRate r pass))
    (max (ceilDiv (streamBytes (passIns r pass) n) 512) (ceilDiv (streamBytes (passOuts r pass) n) 256))

/-- The row program's time `t_rp` (05 R139). -/
def tRowProg (r : ChainRec) : Nat := 2 * r.rpLen + 4

/-- The chain counters of one element of a pass: `chr_busy` counts a cycle when a group of the unit's elements begins, row
by row in row mode (05 R141, R144; log 29). -/
def State.countElem (s : State) (u entry : Nat) (r : ChainRec) (pass iota : Nat) : State :=
  let len := r.ext.headD 1
  let lo := if r.rowMode then iota / len * len else 0
  let k := threadsIn (s.entryOf entry) s.nodes (s.nodeIndex * 224 + u) lo iota
  (s.count (kChrElems u) 1).count (kChrBusy u) (if k % passRate r pass = 0 then 1 else 0)

/-- A pass-1 element feeds the slots (05 R135, R136). -/
def passOne (s : State) (u entry : Nat) (r : ChainRec) (iota : Nat) : State :=
  let idx := loopIdx r.ext iota
  let len := r.ext.headD 1
  let x := runPass r (entryEnv s u r idx 1) 1
  let row := s.rowSt u (iota / len)
  let s1 := s.setRow u (iota / len) { row with elems := row.elems ++ [{ pos := iota % len, w := x.w, m := x.m }] }
  (s1.raise u (s.declOf entry) { fl := x.fl }).countElem u entry r 1 iota

/-- A pass-2 element of row mode, or an element of single-pass mode, writes the outputs (05 R133, R135). -/
def passTwo (s : State) (u entry : Nat) (r : ChainRec) (iota : Nat) : State :=
  let idx := loopIdx r.ext iota
  let row := s.rowSt u (iota / r.ext.headD 1)
  let x0 := if r.copies then { idx := idx } else { entryEnv s u r idx 2 with z := row.z, yn := row.yn }
  let x := if r.copies then x0 else runPass r x0 2
  let d0 := r.ins.getD 0 {}
  let raw := if r.copies then some ((readStream s u d0 idx).1, rawStream s u d0 idx) else none
  let (s1, ev) := writeOuts s u r iota x raw
  let s2 := s1.setTile u { s1.tile u with work := (entry, iota) :: (s1.tile u).work }
  (s2.raise u (s.declOf entry) (ev.join { fl := x.fl })).countElem u entry r 2 iota

/-- Whether pass 1 has taken this row position already. -/
def RowSt.has (x : RowSt) (pos : Nat) : Bool := x.elems.any (fun e => e.pos = pos)

/-- Whether a unit has taken the element before `iota`, of its own in ascending order, in a pass (05 R124). -/
def State.inTurn (s : State) (u entry : Nat) (r : ChainRec) (pass iota : Nat) : Bool :=
  match prevThread (s.entryOf entry) s.nodes (s.nodeIndex * 224 + u) iota with
  | none => true
  | some k =>
    if r.rowMode && pass == 1 then (s.rowSt u (k / r.ext.headD 1)).has (k % r.ext.headD 1)
    else (s.tile u).work.contains (entry, k)

/-- Whether no input that a pass reads for an element in the unit takes a bit of some ranges. -/
def State.elemAvoids (s : State) (u : Nat) (r : ChainRec) (pass iota : Nat) (rs : List (Nat × Nat)) : Bool :=
  match rs with
  | [] => true
  | un => (passIns r (if r.rowMode then pass else 2)).all (fun d =>
      (streamBits s u d (loopIdx r.ext iota)).all (landedBits un))

/-- `CHAIN_ELEMENT_PASS`: element `iota` of a running chain operation passes the stages on the unit that owns it, once the
unit's element before it has and a stream has landed its inputs. Row mode takes pass 1 once per element, before the row
program, and pass 2 after it; without row mode there is one pass. It stops at an uncorrectable error, met here or landed
(05 R117, R124, R135, R145; 10 R280, R286). -/
def doChainElem (s : State) (unit entry pass iota : Nat) (ue : Bool) : State :=
  match s.chainOf entry with
  | none => s
  | some r =>
    let row := s.rowSt unit (iota / r.ext.headD 1)
    if s.running entry && s.owns (s.entryOf entry) unit iota && !(s.tile unit).chain.stopped &&
        !(s.tile unit).work.contains (entry, iota) && s.inTurn unit entry r pass iota &&
        s.elemAvoids unit r pass iota (s.unlanded unit entry) then
      if ue || !s.elemAvoids unit r pass iota (s.tile unit).bad then stopChain s unit r
      else if !r.rowMode then passTwo s unit entry r iota
      else if pass = 1 then
        if row.ready || row.has (iota % r.ext.headD 1) then s else passOne s unit entry r iota
      else if row.ready then passTwo s unit entry r iota
      else s
    else s

/-- `CHAIN_ELEMENT_PASS` (05 R117). -/
def execChainElementPass (unit entry pass iota : Nat) (ue : Bool) (s : State) : Host.Outcome State Fault Refusal :=
  .next (doChainElem s unit entry pass iota ue)

/-- The row program's results set on a unit's part of the row (05 R139, R140). -/
def State.rowReady (s : State) (u row : Nat) (z : List Nat) (yn : Nat) : State :=
  s.setRow u row { s.rowSt u row with z := z, yn := yn, ready := true }

/-- The cycles pass 2 of a row waits for the row program: all of `t_rp` on the unit's last row, and what pass 1 of the
next row does not cover on others (05 R143, R144; log 29). -/
def rowWait (s : State) (u entry row : Nat) (r : ChainRec) : Nat :=
  let len := r.ext.headD 1
  if s.owns (s.entryOf entry) u ((row + 1) * len) then tRowProg r - passCost r 1 len else tRowProg r

/-- `ROW_PROGRAM`: on the unit that holds the whole row, after pass 1 of every position (05 R135, R139). -/
def doRowProgram (s : State) (unit entry row : Nat) : State :=
  match s.chainOf entry with
  | none => s
  | some r =>
    let st := s.rowSt unit row
    if s.running entry && r.rowMode && !st.ready && decide (st.elems.length = r.ext.headD 1) then
      let (z, yn, fl) := runRow r st.elems
      ((s.rowReady unit row z yn).raise unit (s.declOf entry) { fl := fl }).count (kChrRpWait unit)
        (rowWait s unit entry row r)
    else s

/-- `ROW_PROGRAM` (05 R139). -/
def execRowProgram (unit entry row : Nat) (s : State) : Host.Outcome State Fault Refusal :=
  .next (doRowProgram s unit entry row)

/-- The units of the node that hold a part of a row, and their elements in position order (05 R140). -/
def State.rowParts (s : State) (e : Entry) (row : Nat) : List (Nat × List ChainElem) :=
  ((s.unitsOf e).map (fun u => (u, (s.rowSt u row).elems))).filter (fun p => !p.2.isEmpty)

/-- The elements of row `row` that R32 or R33 place on this node (05 R140). -/
def State.rowHere (s : State) (e : Entry) (len row : Nat) : Nat :=
  ((s.unitsOf e).map (fun u => threadsIn e s.nodes (s.nodeIndex * 224 + u) (row * len) ((row + 1) * len))).foldl
    (fun a b => a + b) 0

/-- The row scalars and anchor of a row of which other packages hold a part: their partial results reach this package as
free values, one for each step, entry, row and scalar (05 R140; log 57). -/
def State.farRow (s : State) (entry row : Nat) : List Nat :=
  (List.range 4).map (fun j =>
    (Config.freeWord freeRow (((s.job.step.toNat * 2 ^ 32 + entry) * 2 ^ 32 + row) * 4 + j)).toNat % 2 ^ 32)

/-- The unit of a node that combines a split row: the one that holds row position 0, else the first that holds a part
(05 R140). -/
def combiner (parts : List (Nat × List ChainElem)) : Nat :=
  match parts.find? (fun p => p.2.any (fun e => e.pos = 0)), parts with
  | some p, _ => p.1
  | none, p :: _ => p.1
  | none, [] => 0

/-- `SPLIT_ROW_COMBINE`: the unit that holds row position 0 combines the exact parts of a row that lies on more than one
unit, runs the row program and returns the row scalars; each part's unit counts the row and its wait. Of a row that lies on
more than one package, each takes the scalars that the exchange of partial results gives (05 R140, R144; log 57). -/
def doSplitRow (s : State) (unit entry row : Nat) : State :=
  match s.chainOf entry with
  | none => s
  | some r =>
    let len := r.ext.headD 1
    let parts := s.rowParts (s.entryOf entry) row
    let es := parts.flatMap (fun p => p.2)
    let here := s.rowHere (s.entryOf entry) len row
    if s.running entry && r.rowMode && !(s.rowSt unit row).ready && decide (unit = combiner parts) &&
        decide (0 < here) && decide (es.length = here) && (decide (2 ≤ parts.length) || decide (here < len)) then
      let (z, yn, fl) := if here < len then (s.farRow entry row, 0, 0) else runRow r es
      let s1 := parts.foldl (fun s p =>
        ((s.rowReady p.1 row z yn).count (kChrSplit p.1) 1).count (kChrRpWait p.1) (rowWait s p.1 entry row r)) s
      s1.raise unit (s.declOf entry) { fl := fl }
    else s

/-- `SPLIT_ROW_COMBINE` (05 R140). -/
def execSplitRowCombine (unit entry row : Nat) (s : State) : Host.Outcome State Fault Refusal :=
  .next (doSplitRow s unit entry row)

end Sys2Proof.Machine
end

