-- ==== Sys2Proof/Machine/Tokens.lean ====
section
/-! DEFINITION. Where the elements of tokens lie on a node, and a token as one byte string (15 R445, R553; 02 R46 to R48;
07 R199). -/

namespace Sys2Proof.Machine

/-- Elements of a token (01 R21). -/
def tokElems (d : TokDecl) : Nat := prodL (d.ext.take (max 1 d.ndim))

/-- A token's format (02 R35). -/
def tokFmt (d : TokDecl) : Fmt := (Fmt.ofNum d.fmt).getD .fp32

/-- Rows of a block-scaled token, and blocks in each: blocks run along the innermost dimension (02 R48). -/
def tokBlocks (d : TokDecl) : Nat × Nat :=
  let b := (Fmt.block (tokFmt d)).getD 1
  let e0 := d.ext.headD 1
  (tokElems d / max 1 e0, ceilDiv e0 b)

/-- Bytes of a token's element plane (02 R46 to R48). -/
def tokPlane (d : TokDecl) : Nat :=
  match Fmt.block (tokFmt d) with
  | some b => planeBytes (tokFmt d) ((tokBlocks d).1 * (tokBlocks d).2 * b)
  | none => planeBytes (tokFmt d) (tokElems d)

/-- Bytes of a token: its element plane, and its scale plane after it (02 R48; log 46). -/
def tokBytes (d : TokDecl) : Nat :=
  match Fmt.block (tokFmt d) with
  | some _ => tokPlane d + (tokBlocks d).1 * (tokBlocks d).2
  | none => tokPlane d

/-- The place of element `e` in a token's element plane, and of its scale in the scale plane (02 R48). -/
def tokPos (d : TokDecl) (e : Nat) : Nat × Nat :=
  match Fmt.block (tokFmt d) with
  | some b =>
    let e0 := max 1 (d.ext.headD 1)
    let blk := e / e0 * ceilDiv e0 b + e % e0 / b
    (blk * b + e % e0 % b, blk)
  | none => (e, 0)

/-- The row and column of element `e` of a product's output token (04 R94, R549). -/
def outRc (v : OpView) (e : Nat) : Nat × Nat :=
  if v.layout = 1 then (e % max 1 v.ext0, e / max 1 v.ext0) else (e / max 1 v.ext0, e % max 1 v.ext0)

/-- The global unit that writes element `e` of a token under the producing entry's distribution. Where the producer's
threads name no element, element e of n is taken as thread e*T/n of T (15 R553; log 46). -/
def State.writerG (s : State) (t e : Nat) : Nat :=
  let en := s.entryOf (s.tokDecl t).producer
  match en.kind with
  | .product p =>
    let ij := outRc (s.opView 0 p.out true) e
    unitOfThread en s.nodes (ij.2 / 64 + (prodTiles p).2 * (ij.1 / 32))
  | .stream _ _ =>
    match s.chainOf (s.tokDecl t).producer with
    | some r => match r.outs.find? (fun o => decide (o.tok = t)) with
      | some o => unitOfThread en s.nodes (e - o.eBase)
      | none => 0
    | none => 0
  | _ => unitOfThread en s.nodes (e * prodL en.space / max 1 (tokElems (s.tokDecl t)))

/-- The unit of its node that writes element `e` of a token. -/
def State.writerOf (s : State) (t e : Nat) : Nat := s.writerG t e % 224

/-- Whether every unit holds the whole of a unit-home token: a Register entry's, or a constant (15 R553). -/
def State.wholeUnit (s : State) (t : Nat) : Bool :=
  let d := s.tokDecl t
  decide (d.home = 0) && (bitOf d.flags 5 || (match (s.entryOf d.producer).kind with
    | .product _ => false
    | .stream _ _ => false
    | _ => true))

/-- The offset of a token's slot in the region of its home (07 R187; 15 R445). -/
def Placed.slotAddr (p : Placed) (slot : Bool) : Nat := if slot then p.addr1 else p.addr0

/-- A place of an element: the tile store it lies in (none: device memory), the plane's byte address, the position in the
plane, the byte address of its scale. -/
structure ElemLoc where
  tile : Option Nat
  base : Nat
  pos : Nat
  scale : Nat
deriving DecidableEq, Repr, Inhabited

/-- Where element `e` of a token lies on this node, in one of its slots: at its layout's place in the unit that
holds it, in the region of the field that writes it, or in the node's copy (15 R553; log 46). -/
def State.elemLoc (s : State) (t : Nat) (slot : Bool) (e : Nat) : ElemLoc :=
  let d := s.tokDecl t
  let u := s.writerOf t e
  let a := if d.home = 0 then s.unitBase t u slot else (s.placed t).slotAddr slot
  let q := tokPos d e
  let flat (b : Nat) (tile : Option Nat) : ElemLoc := { tile := tile, base := b, pos := q.1, scale := b + tokPlane d + q.2 }
  match d.home with
  | 1 => flat (fieldBase (u / 56) + a) none
  | 2 => flat a none
  | 3 => flat (capBase (u / 56) + a) none
  | _ =>
    match (s.entryOf d.producer).kind, s.chainOf d.producer with
    | .product p, _ =>
      let v := s.opView 0 p.out true
      let ij := outRc v e
      { tile := some u, base := a + p.out.base, pos := v.pos ij.1 ij.2, scale := a + p.out.sbase + v.scalePos ij.1 ij.2 }
    | .stream _ _, some r =>
      match r.outs.find? (fun o => decide (o.tok = t)) with
      | some o =>
        let k := o.offset (loopIdx r.ext (e - o.eBase))
        let (b, i) := planeBase (tokFmt d) (a + o.base) k
        { tile := some u, base := b, pos := i, scale := scaleByte (tokFmt d) (a + o.sbase) k }
      | none => flat a (some u)
    | _, _ => flat (s.unitBase t 0 slot) (some 0)

/-- The code at a place. -/
def State.rdLoc (s : State) (f : Fmt) (l : ElemLoc) : Nat :=
  match l.tile with
  | some u => s.tileElem u f l.base l.pos
  | none => s.dramElem f l.base l.pos

/-- The scale code at a place. -/
def State.rdScale (s : State) (l : ElemLoc) : Byte :=
  ((match l.tile with | some u => s.tileRd u l.scale 1 | none => s.dramRd l.scale 1).headD 0)

/-- A token's slot as one byte string: its elements in linear order, then its scales; a node-home token's bytes, and those of
a token that every unit holds whole, as they stand (07 R198, R199; log 46). -/
def State.tokRead (s : State) (t : Nat) (slot : Bool) : List Byte :=
  let d := s.tokDecl t
  let p := s.placed t
  if d.home = 2 then s.dramRd (p.slotAddr slot) p.bytes
  else if s.wholeUnit t then s.tileRd 0 (s.unitBase t 0 slot) p.bytes
  else
    let f := tokFmt d
    let m := (List.range (tokElems d)).foldl (fun (m : Mem) e =>
      let l := s.elemLoc t slot e
      let q := tokPos d e
      let m1 := writeElem m f 0 q.1 (s.rdLoc f l)
      if Fmt.isBlock f then m1.write (tokPlane d + q.2) (s.rdScale l) else m1) {}
    m.readN 0 p.bytes

/-- The state with a token's slot written from a byte string (07 R199, R200). -/
def State.tokWrite (s : State) (t : Nat) (slot : Bool) (bs : List Byte) : State :=
  let d := s.tokDecl t
  if d.home = 2 then s.dramWr ((s.placed t).slotAddr slot) bs
  else if s.wholeUnit t then (List.range 224).foldl (fun s u => s.tileWr u (s.unitBase t u slot) bs) s
  else
    let f := tokFmt d
    let m : Mem := Mem.writeN {} 0 bs
    (List.range (tokElems d)).foldl (fun (s : State) e =>
      let l := s.elemLoc t slot e
      let q := tokPos d e
      let c := readElem m f 0 q.1
      let sc := m.read (tokPlane d + q.2)
      match l.tile with
      | some u =>
        let s1 := s.setTileElem u f l.base l.pos c
        if Fmt.isBlock f then s1.tileWr u l.scale [sc] else s1
      | none =>
        let s1 := s.setDramElem f l.base l.pos c
        if Fmt.isBlock f then s1.dramWr l.scale [sc] else s1) s

/-- The bytes an element's code touches at its place. -/
def ElemLoc.span (f : Fmt) (l : ElemLoc) : Nat × Nat := (l.base + (elemPlace f l.pos).1, elemSpan f l.pos)

end Sys2Proof.Machine
end

