-- ==== Sys2Proof/Machine/Verdict.lean ====
section
/-! DEFINITION. The step verdict: contributions, their combination along the tree, evaluation, norm and clipping (07 R172
to R180, R195; 11 R335). -/

namespace Sys2Proof.Machine

/-! ### The message (07 R175, R177) -/

/-- Flag bits of a verdict (07 R175). -/
abbrev vfNonfinite : BitVec 32 := 1
abbrev vfSatBwd : BitVec 32 := 2
abbrev vfSatFwd : BitVec 32 := 4
abbrev vfSwatch : BitVec 32 := 8
abbrev vfLivery : BitVec 32 := 16
abbrev vfAgree : BitVec 32 := 32
abbrev vfFault : BitVec 32 := 64

/-- A flag, or none. -/
def vfIf (c : Bool) (f : BitVec 32) : BitVec 32 := if c then f else 0

/-- Whether a verdict carries a flag. -/
def VerdictMsg.has (m : VerdictMsg) (f : BitVec 32) : Bool := decide (m.flags &&& f ≠ 0)

/-- Two verdict messages combined, field by field (07 R177). -/
def VerdictMsg.combine (a b : VerdictMsg) : VerdictMsg :=
  { ssq := a.ssq + b.ssq
    swBin := (List.range 16).map (fun k => min (a.swBin.getD k 0 + b.swBin.getD k 0) (2 ^ 48 - 1))
    step := if a.step ≤ b.step then a.step else b.step
    livery := if a.livery ≤ b.livery then a.livery else b.livery
    flags := a.flags ||| b.flags ||| vfIf (decide (a.step ≠ b.step) || decide (a.lsExp ≠ b.lsExp)) vfAgree |||
      vfIf (decide (a.livery ≠ b.livery)) vfLivery
    nContrib := a.nContrib + b.nContrib
    lsExp := min a.lsExp b.lsExp }

/-- The 200 bytes of a verdict message (07 R175). -/
def VerdictMsg.encode (m : VerdictMsg) : List Byte :=
  toLe 80 m.ssq ++ (List.range 16).flatMap (fun k => toLe 6 (m.swBin.getD k 0)) ++ toLe 8 m.step.toNat ++
    toLe 8 m.livery.toNat ++ toLe 4 m.flags.toNat ++ toLe 2 m.nContrib ++ toLe 1 (unsigned 8 m.lsExp) ++ toLe 1 0

/-! ### Gradient elements (07 R173, R174; 15 R553) -/

/-- The code of element `e` of a gradient token on this node, in the slot this step writes (07 R173; 15 R553). -/
def State.gradCode (s : State) (t e : Nat) : Nat :=
  s.rdLoc (tokFmt (s.tokDecl t)) (s.elemLoc t (s.slotOf t true) e)

/-- The square of a finite value in units of 2^-298; none for an infinity or a NaN (07 R174). -/
def squareUnits (v : DVal) : Option Nat :=
  match v with
  | .zero _ => some 0
  | .fin _ m e => some (if 0 ≤ 2 * e + 298 then m * m * 2 ^ (2 * e + 298).toNat else m * m / 2 ^ (-(2 * e + 298)).toNat)
  | _ => none

/-- A range's elements added: the sum so far and whether an element was not finite (07 R174). -/
def State.addRange (s : State) (a : Nat × Bool) (r : VRange) : Nat × Bool :=
  let f := (Fmt.ofNum (s.tokDecl r.tok).fmt).getD .fp32
  (rangeFrom r.lo (r.hi - r.lo)).foldl (fun a e =>
    match squareUnits (decodeVal f (s.gradCode r.tok e) 0 0) with
    | some q => (a.1 + q, a.2)
    | none => (a.1, true)) a

/-- The verdict ranges of the loaded image. -/
def State.vranges (s : State) : List VRange := match s.job.img with | some i => i.parts.vranges | none => []

/-- Whether the loaded image is gradient-bearing: bit 0 of `m_flags` (07 R172). -/
def State.gradient (s : State) : Bool := match s.job.img with | some i => bitOf i.mflags 0 | none => false

/-- The sum of squares this node counts, and whether an element was not finite (07 R174). -/
def State.ownSquares (s : State) : Nat × Bool :=
  (s.vranges.filter (fun r => decide (r.node = s.nodeIndex))).foldl s.addRange (0, false)

/-! ### The contribution (07 R172, R176) -/

/-- Whether some unit holds an event bit (07 R176). -/
def State.anyEv (s : State) (f : UnitSt → Bool) : Bool := s.tiles.any (fun t => f t.2.u)

/-- This node's contribution (07 R172 to R176; 13 R401). -/
def State.contribution (s : State) : VerdictMsg :=
  let (a, bad) := s.ownSquares
  { ssq := a, swBin := s.job.swBins, step := s.job.step, livery := BitVec.ofNat 64 s.livery
    flags := vfIf (bad || s.anyEv (fun u => u.evNonfinite)) vfNonfinite ||| vfIf (s.anyEv (fun u => u.evSatBwd)) vfSatBwd |||
      vfIf (s.anyEv (fun u => u.evSatFwd)) vfSatFwd ||| vfIf s.job.fault vfFault |||
      vfIf s.job.liveryMismatch vfLivery
    nContrib := 1, lsExp := s.job.lsE }

/-- Whether every entry of the step has ended on this node (07 R172). -/
def State.entriesEnded (s : State) : Bool := s.job.ents.all (fun e => match e with | .ended _ _ => true | _ => false)

/-! ### The tree (11 R335) -/

/-- The next position toward coordinate 0 on an axis of `n` nodes: both ways round when the block wraps it (11 R335;
log 46 for the half-way node of an even axis). -/
def towardZero (n : Nat) (wrap : Bool) (p : Nat) : Nat := if wrap && decide (n < 2 * p) then (p + 1) % n else p - 1

/-- The node a job-relative position sends its combined message to: along x, then y, then z (11 R335). -/
def State.vParent (s : State) (r : Nat × Nat × Nat) : Option (Nat × Nat × Nat) :=
  let ax := s.blockAxes s.blockOf
  let par (k p : Nat) : Nat := let a := ax.getD k (1, false); towardZero a.1 a.2 p
  if r.1 ≠ 0 then some (par 0 r.1, r.2.1, r.2.2)
  else if r.2.1 ≠ 0 then some (0, par 1 r.2.1, r.2.2)
  else if r.2.2 ≠ 0 then some (0, 0, par 2 r.2.2)
  else none

/-- The nodes that send their combined messages to a position (11 R335). -/
def State.vChildren (s : State) (r : Nat × Nat × Nat) : List (Nat × Nat × Nat) :=
  let b := s.blockOf
  let all := (List.range b.sx).map (fun q => (q, r.2.1, r.2.2)) ++ (List.range b.sy).map (fun q => (r.1, q, r.2.2)) ++
    (List.range b.sz).map (fun q => (r.1, r.2.1, q))
  (all.filter (fun q => decide (s.vParent q = some r))).eraseDups

/-- The peer table of context 0: this node's neighbours in the tree, the one toward the root first (11 R314, R335). -/
def State.verdictPeers (s : State) : List Peer :=
  ((s.vParent s.rel).toList ++ s.vChildren s.rel).map (fun r => ({ x := r.1, y := r.2.1, z := r.2.2, pctx := 0 } : Peer))

/-- Context 0 as a gradient-bearing image's step uses it (11 R312, R316, R335). -/
def State.openVerdict (s : State) (epoch : Nat) : CtxSt :=
  let ps := s.verdictPeers
  let n := s.kvNat kCredDefault
  { cfg := { kind := 9, nPeer := ps.length, credits := n, epoch := epoch, seq := s.roundSeq 0 }, peers := ps
    send := ps.map (fun _ => ({ credits := n } : PeerSt)) }

/-- The verdict message of this step to a job-relative position: context 0, class 0, 200 bytes (11 R335, R336). -/
def State.verdictMsg (s : State) (m : VerdictMsg) (to' : Nat × Nat × Nat) : Msg :=
  let d := s.machineCoord to'
  { hdr := { seq := s.roundSeq 0, epoch := s.job.epoch, segment := 0, src := s.nodeIndex
             dstX := d.1, dstY := d.2.1, dstZ := d.2.2, ctx := 0, lenM1 := 199, mkind := 0 }
    body := VerdictMsg.encode m }

/-- A verdict message sent, and kept until it is acknowledged (11 R322, R335). -/
def State.sendVerdict (s : State) (m : VerdictMsg) (to' : Nat × Nat × Nat) : State :=
  let x := s.ctx 0
  let msg := s.verdictMsg m to'
  let s1 := match indexOf (fun p => decide ((p.x, p.y, p.z) = to')) x.peers with
    | some k =>
      let p := x.send.getD k {}
      let u : Unacked := { msg := msg, sendings := 1, lastSent := s.now }
      s.setCtx 0 { x with send := setAt x.send k { p with credits := p.credits - 1, unacked := p.unacked ++ [u] } }
    | none => s
  (s1.count kIxMsgs 1).inject msg 0 0

/-! ### Evaluation (07 R178, R195) -/

/-- Whether the combined Swatch bins cross the alarm threshold (07 R195). -/
def State.swatchAlarm (s : State) (m : VerdictMsg) : Bool :=
  decide (s.kvNat kSwAlarmMax < (m.swBin.drop (s.kvNat kSwAlarmBin)).foldl (fun a b => a + b) 0)

/-- The combined verdict evaluated: the same on every node (07 R178). -/
def State.evaluate (s : State) (m : VerdictMsg) : VerdictMsg :=
  { m with flags := m.flags ||| vfIf (decide (m.nContrib ≠ s.nodes)) vfAgree ||| vfIf (s.swatchAlarm m) vfSwatch }

/-- The combined verdict reaches this node: evaluated, kept for the boundary, an alarm raised, and sent on to the nodes
below (07 R178, R195; 11 R335). -/
def State.applyVerdict (s : State) (m : VerdictMsg) : State :=
  let v := s.evaluate m
  let s1 := { s with job := { s.job with combined := some v } }
  let s2 := if VerdictMsg.has v vfSwatch then (s1.event .swatchAlarm).countNow kSwAlarmSteps 1 else s1
  (s2.vChildren s2.rel).foldl (fun x c => x.sendVerdict v c) s2

/-- The combined message goes on once this node and every node below have contributed: toward the root, or at the root
into the evaluation (11 R335). -/
def State.forwardVerdict (s : State) : State :=
  match s.job.part with
  | none => s
  | some m =>
    if s.job.sent && !s.job.vFwd && decide ((s.vChildren s.rel).length ≤ s.job.vGot) then
      let s1 := { s with job := { s.job with part := none, vGot := 0, vFwd := true } }
      match s1.vParent s1.rel with
      | some p => s1.sendVerdict m p
      | none => s1.applyVerdict m
    else s

/-- A message combined with what this node holds. -/
def State.joinVerdict (s : State) (m : VerdictMsg) : State :=
  { s with job := { s.job with part := some (match s.job.part with | some p => VerdictMsg.combine p m | none => m) } }

/-- `VERDICT_CONTRIBUTION`: due once, when every other entry of a gradient-bearing image's step has finished on this node,
the Swatch slots included (07 R172, R197). -/
def execVerdictContribution (s : State) : Host.Outcome State Fault Refusal :=
  .next (if s.job.inStep && s.gradient && !s.job.sent && s.entriesEnded && s.job.swBufs.isEmpty then
    let m := s.contribution
    let s1 := { s with job := { s.job with sent := true, ssq := m.ssq } }
    (s1.joinVerdict m).forwardVerdict
  else s)

/-! ### Receiving (11 R319, R321, R335; 12 R360, R361) -/

/-- The verdict message that 200 bytes hold (07 R175). -/
def VerdictMsg.decode (bs : List Byte) : VerdictMsg :=
  { ssq := fieldLe bs 0 80, swBin := (List.range 16).map (fun k => fieldLe bs (80 + 6 * k) 6)
    step := BitVec.ofNat 64 (fieldLe bs 176 8), livery := BitVec.ofNat 64 (fieldLe bs 184 8)
    flags := BitVec.ofNat 32 (fieldLe bs 192 4), nContrib := fieldLe bs 196 2, lsExp := fieldS bs 198 1 }

/-- Whether a node's verdict message is expected now: one from below that has not come, or the root's, after this node's own
has gone on (11 R335). -/
def State.verdictDue (s : State) (src : Nat) : Bool :=
  let c := s.blockOf.coord src
  s.gradient && (((s.vChildren s.rel).contains c && decide (s.job.vGot < (s.vChildren s.rel).length)) ||
    (decide (s.vParent s.rel = some c) && s.job.inStep && s.job.vFwd && s.job.combined.isNone))

/-- A verdict message landed: its arrival bit is set; the root's is applied, one from below combined and sent on (11 R335). -/
def State.landVerdict (s : State) (src : Nat) (v : VerdictMsg) : State :=
  let x := s.ctx 0
  let s1 := s.setCtx 0 { x with arrived := x.arrived ++ [(src, 0)] }
  if s.vParent s.rel = some (s.blockOf.coord src) then s1.applyVerdict v
  else
    let s2 := s1.joinVerdict v
    { s2 with job := { s2.job with vGot := s2.job.vGot + 1 } }.forwardVerdict

/-- What a receiving context does with a message: dropped as stale, dropped as a duplicate and acknowledged, or landed and
acknowledged (11 R321). -/
inductive RxAct where
  | stale | dup | land
deriving DecidableEq, Repr, Inhabited

/-- The receive rules: `cur` is the sequence number of the round, `expected` says that the round expects the message (11
R319, R321). -/
def State.rxAct (s : State) (h : MsgHdr) (cur : Nat) (expected : Bool) : RxAct :=
  if h.epoch ≠ s.job.epoch ∨ s.job.bound.isNone then .stale
  else if seqEarlier h.seq cur then .dup
  else if h.seq ≠ cur then .stale
  else if (s.ctx h.ctx).arrived.contains (h.src, h.segment) then .dup
  else if expected then .land
  else .stale

/-- The receive rules applied to a message, given how it lands (11 R321). -/
def State.takeMsg (s : State) (h : MsgHdr) (cur : Nat) (expected : Bool) (landed : State) : State :=
  match s.rxAct h cur expected with
  | .stale => s.count kIxStale 1
  | .dup => (s.count kIxDup 1).sendAck h
  | .land => landed.sendAck h

/-- A verdict message handled under the receive rules: context 0 runs one round a step (11 R318, R321, R335). -/
def State.verdictRx (s : State) (h : MsgHdr) (v : VerdictMsg) : State :=
  s.takeMsg h (s.roundSeq 0) (decide (h.segment = 0) && s.verdictDue h.src) (s.landVerdict h.src v)

/-- A data message handled under the receive rules (11 R319, R321). -/
def State.dataMsg (s : State) (m : Msg) : State :=
  let h := m.hdr
  let x := s.ctx h.ctx
  if h.ctx = 0 then s.verdictRx h (VerdictMsg.decode m.body)
  else s.takeMsg h x.cfg.seq (x.expect.contains (h.src, h.segment)) (s.landMsg h.ctx h.src h.segment m)

/-- An acknowledgement message applied (11 R319, R320; 12 R361). -/
def State.ackMsg (s : State) (m : Msg) : State :=
  if m.hdr.epoch ≠ s.job.epoch then s.count kIxStale 1
  else match indexOf (s.names m.hdr.src (fieldLe m.body 0 4)) (s.ctx m.hdr.ctx).peers with
    | some k => s.ackRx m.hdr.ctx k (fieldLe m.body 4 8) (fieldLe m.body 12 4)
    | none => s

/-- `MESSAGE_RECEIVED` (11 R321, 12 R361): a message whose CRC or kind is bad counts in `msg_bad`; an acknowledgement is
applied; test traffic has no further effect. -/
def State.msgRx (s : State) (m : Msg) : State :=
  if !m.mcrcOk || decide (2 < m.hdr.mkind) then s.count (kMsgBad m.port) 1
  else if m.hdr.mkind = 1 then s.ackMsg m
  else if m.hdr.mkind = 2 then s
  else s.dataMsg m

/-- `MESSAGE_RECEIVED`: see `State.msgRx`. -/
def execMessageReceived (msg : Msg) (s : State) : Host.Outcome State Fault Refusal := .next (s.msgRx msg)

/-- `VERDICT_MESSAGE`: a verdict message from a node, with its sequence number and epoch, decoded: one from below is combined
and goes on; the root's combined message is applied (11 R321, R335). -/
def execVerdictMessage (msg : VerdictMsg) (head : VerdictHead) (s : State) : Host.Outcome State Fault Refusal :=
  .next (s.verdictRx { src := head.src, seq := head.seq, epoch := head.epoch, lenM1 := 199 } msg)

/-! ### Norm and clipping (07 R180) -/

/-- 2^k as an FP32 code, k from -127 to 127; 2^-127 is subnormal (07 R181, R201). -/
def pow2F32 (k : Int) : Nat := if k ≤ -127 then 2 ^ 22 else (k + 127).toNat * 2 ^ 23

/-- What R180 derives: norm and clipping factor, FP64; the factor and the unscaling factor, FP32. -/
structure NormClip where
  norm : Nat
  clip64 : Nat
  clip32 : Nat
  unscale32 : Nat
deriving DecidableEq, Repr, Inhabited

/-- FP64 1.0. -/
abbrev one64 : Nat := 0x3FF0000000000000

/-- Norm and clipping factor from the sum of squares, the step's exponent and `clip` (07 R180). -/
def normClip (ssq : Nat) (e : Int) (clip : Nat) : NormClip :=
  let n2 := (f64.result .tiesToEven (DVal.mk false ssq (-298))).1
  let ns := (fSqrt f64 .tiesToEven n2).1
  let norm := (f64.result .tiesToEven (scaleVal (f64.decode ns) (-e))).1
  let r := (fDiv f64 .tiesToEven clip norm).1
  let f := (fMin f64 one64 r).1
  { norm := norm, clip64 := f, clip32 := (f32.result .tiesToEven (f64.decode f)).1
    unscale32 := (f32.result .tiesToEven (scaleVal (f64.decode f) (-e))).1 }

end Sys2Proof.Machine
end

