-- ==== Sys2Proof/Machine/Jobs.lean ====
section
/-! DEFINITION. What commands do whole, at a step boundary or while no step runs: copies and fills, checkpoint records,
solves and dynamics that take engines, held CXL.mem requests, unbinding and unloading (07 R198, R199; 08 R207; 09 R264; 10
R278, R299; 14 R418 to R422; 15 R446 to R448). -/

namespace Sys2Proof.Machine

/-! ### The refusal record (15 R447) -/

/-- A refusal of the loader: a field that does not apply holds all ones (15 R447). -/
structure LoadFail where
  status : Nat := 0
  reason : Nat := 0
  stage : Nat := 0
  cmd : Nat := 0
  value : Nat := 0xFFFFFFFFFFFFFFFF
  limit : Nat := 0xFFFFFFFFFFFFFFFF
  tok : Nat := 0xFFFFFFFF
  opId : Nat := 0xFFFFFFFF
  entry : Nat := 0xFFFFFFFF
  off : Nat := 0xFFFFFFFF
  cls : Nat := 0xFF
  unit : Nat := 0xFF
  sect : Nat := 0xFFFF
deriving DecidableEq, Repr, Inhabited

/-- The 64 bytes of a refusal record; `rf_digest` is the image digest's first 8 bytes (15 R447). -/
def LoadFail.encode (f : LoadFail) (digest : List Byte) : List Byte :=
  toLe 8 (fieldLe digest 0 8) ++ toLe 14 0 ++ toLe 2 f.sect ++ toLe 1 f.cmd ++ toLe 1 f.status ++ toLe 2 f.reason ++
    toLe 1 f.unit ++ toLe 1 f.cls ++ toLe 1 f.stage ++ toLe 1 0 ++ toLe 4 f.off ++ toLe 4 f.entry ++ toLe 4 f.opId ++
    toLe 4 f.tok ++ toLe 8 f.limit ++ toLe 8 f.value

/-- A refusal's answer: the record goes to `res_addr` where there is room for it (15 R446, R448). -/
def LoadFail.answer (f : LoadFail) (h : Hdr) (digest : List Byte) : Answer :=
  { refuse f.status f.reason with
    bytes := if h.resAddr ≠ 0 ∧ 64 ≤ h.resLen then f.encode digest else [] }

/-! ### Copies and fills (14 R418, 20 R536) -/

/-- Lines copied in ascending order: how many, and the address of a poisoned source line that stopped it (14 R418, 10
R286; log 48). -/
def State.copyLines : Nat → Bool × Nat → Bool × Nat → Nat → State → State × Nat × Option Nat
  | 0, _, _, k, s => (s, k, none)
  | n + 1, src, dst, k, s =>
    if !src.1 && s.poisoned src.2 64 then (s, k, some src.2)
    else State.copyLines n (src.1, src.2 + 64) (dst.1, dst.2 + 64) (k + 1) (s.wrAt dst (s.devRd src 64))

/-- A copy done whole: it retires with the bytes copied, or fails alone at a poisoned line (14 R418; 20 R536). -/
def State.doCopy (s : State) (h : Hdr) (src dst : Bool × Nat) (len : Nat) : State :=
  let (s1, k, bad) := s.copyLines (len / 64) src dst 0
  match bad with
  | some a =>
    (s1.record { sub := 0x0A, cause := Config.faultCause 14 % 256, cls := 1, addr := BitVec.ofNat 64 a
                 seq := BitVec.ofNat 64 h.seq }).retire h { status := stFaultContained, result := 64 * k }
  | none => s1.retire h { result := len }

/-- A fill done whole (14 R418). -/
def State.doFill (s : State) (h : Hdr) (dst : Bool × Nat) (len pattern : Nat) : State :=
  (s.wrAt dst ((List.range (len / 8)).flatMap (fun _ => toLe 8 pattern))).retire h { result := len }

/-! ### CXL.mem (10 R278, R286, R299; 14 R405) -/

/-- The line of a CXL.mem request (14 R405). -/
def State.cxlLine (s : State) (r : CxlReq) : Nat := s.window.1 + r.addr / 64 * 64

/-- A CXL.mem request served: a class 3 request at the line's slice, which looks the line up without allocating or
reordering, and 64 bytes of the window read, or written whole. The reply to a read of a poisoned line says so (10 R278,
R286, R293). -/
def State.serveCxl (s : State) (r : CxlReq) : State :=
  let a := s.cxlLine r
  let s1 := s.post { port := s.slicePort a, cls := 3, req := reqCxl, addr := a, store := r.data.isSome }
  match r.data with
  | some d => s1.dramWr a (d.take 64)
  | none => { s1 with hostIf := { s1.hostIf with
      memReplies := s1.hostIf.memReplies ++ [s1.dramRd a 64]
      memPoison := s1.hostIf.memPoison ++ [s1.poisoned a 64] } }

/-- Held requests served, oldest first, up to the first whose line cannot be had yet (10 R297, R299, R301, R303). -/
def State.serveHeld (s : State) : State :=
  let out := s.hostIf.memHeld.foldl (fun (x : State × List CxlReq) r =>
    if x.2.isEmpty && x.1.lineReady reqCxl (x.1.cxlLine r) then (x.1.serveCxl r, []) else (x.1, x.2 ++ [r])) (s, [])
  { out.1 with hostIf := { out.1.hostIf with memHeld := out.2 } }

/-! ### Solves and dynamics as commands (08 R207, R217, R242; 09 R262; 14 R419, R429; 15 R446) -/

/-- A solve descriptor at an address parameter, checked as at acceptance: shape and size, then the range analysis
(08 R206, R207, R217; 15 R446). -/
def State.checkSolve (s : State) (prof addr : Nat) : Except LoadFail SolveDesc :=
  match addrParam addr with
  | none => .error { status := stRefusedShape, reason := 0x0003, cmd := 2, stage := 5 }
  | some a =>
    let d := (parseSolve (s.rdAt a 192)).defaults (s.profVal prof kUsPivLog2).toInt (s.profVal prof kUsDirLog2).toNat
    let n := (nodeRows d s.nodeIndex s.nodes).2
    if !d.shapeOk || decide (a.2 % 64 ≠ 0) then
      .error { status := stRefusedShape, reason := 0x1409, cmd := 2, stage := 5, opId := d.opId }
    else if tooLarge [(n, d.stored s.dramRd n)] then .error { status := stRefusedFit, reason := 0x1409, cmd := 2, stage := 5, opId := d.opId }
    else match analyse d (s.solveBounds d) with
      | .error c =>
        .error { status := stRefusedRange, reason := 0x1601, cmd := 2, stage := 7, opId := d.opId, cls := c - 1 }
      | .ok d' => .ok d'

/-- A dynamics descriptor at an address parameter with its model and class points, checked as at acceptance (09 R244 to
R252, R262, R263; 15 R446). -/
def State.checkDyn (s : State) (addr : Nat) : Except LoadFail (DynDesc × Model × List Int) :=
  match addrParam addr with
  | none => .error { status := stRefusedShape, reason := 0x0003, cmd := 3, stage := 5 }
  | some a =>
    let d := parseDyn (s.rdAt a 128)
    let n := fieldLe (s.dramRd (d.slots.getD 0 0) 2) 0 2
    let bs := s.dramRd (d.slots.getD 0 0) (64 + 160 * min n 512)
    let m := parseModel bs
    if decide (a.2 % 64 ≠ 0) || decide (512 < n) || !modelRsvd bs || !m.ok || !d.shapeOk m.nJ then
      .error { status := stRefusedShape, reason := 0x1409, cmd := 3, stage := 5, opId := d.opId }
    else match dynPoints d m (parseBounds (s.dramRd (d.slots.getD 6 0) 64)) with
      | .error c =>
        .error { status := stRefusedRange, reason := 0x1601, cmd := 3, stage := 7, opId := d.opId, cls := 15 + c }
      | .ok p => .ok (d, m, p)

/-- Whether an operation of a source that has not ended is on some engine. -/
def State.onEngine (s : State) (src : UmberSrc) : Bool :=
  s.engines.any (fun e =>
    (match e.solve with | some x => decide (x.src = src) && decide (x.phase ≠ .ended) | none => false) ||
    (match e.dyn with | some x => decide (x.src = src) && !x.done | none => false))

/-- The descriptor of a `SOLVE` as its acceptance analysed it (08 R207; 15 R446). -/
def State.solveOf (s : State) (c : Cmd) (addr : Nat) : Except LoadFail SolveDesc :=
  match c.solve with
  | some d => .ok d
  | none => s.checkSolve c.hdr.prof addr

/-- The descriptor, model and points of a `DYNAMICS` as its acceptance analysed them (09 R244; 15 R446). -/
def State.dynOf (s : State) (c : Cmd) (addr : Nat) : Except LoadFail (DynDesc × Model × List Int) :=
  match c.dyn with
  | some d => .ok d
  | none => s.checkDyn addr

/-- A `SOLVE` or `DYNAMICS` takes engines when enough are free, and waits otherwise (08 R203; 09 R264). -/
def State.takeEngines (s : State) (c : Cmd) : State :=
  if s.onEngine (.cmd c.hdr) then s
  else match c.op with
    | .solve a => match s.solveOf c a with
      | .error f => s.retire c.hdr (f.answer c.hdr [])
      | .ok d => match s.freeEngines (2 ^ d.engLog2) with
        | some fs => s.startSolve (.cmd c.hdr) d fs
        | none => s
    | .dynamics a => match s.dynOf c a with
      | .error f => s.retire c.hdr (f.answer c.hdr [])
      | .ok (d, m, p) => match s.freeEngines (2 ^ d.engLog2) with
        | some fs => s.startDyn (.cmd c.hdr) d m p fs
        | none => s
    | _ => s

/-! ### Checkpoint records (07 R198, R199; 14 R422; 20 R536) -/

/-- The tokens a checkpoint saves, in token-table order: versioned or persistent ones (07 R198). -/
def Image.saved (i : Image) : List TokDecl := i.toks.filter (fun d => bitOf d.flags 0 || bitOf d.flags 1)

/-- The versioned tokens, in token-table order (07 R198). -/
def Image.versioned (i : Image) : List TokDecl := i.toks.filter (fun d => bitOf d.flags 0)

/-- The offset of the version bitmap (07 R199). -/
def ckVerOff (i : Image) : Nat := 128 + 32 * i.saved.length

/-- The end of the version bitmap (07 R199). -/
def ckVerEnd (i : Image) : Nat := ckVerOff i + ceilDiv i.versioned.length 8

/-- The offsets of saved data for tokens of some lengths, from the end of what precedes them, and the last end (07 R199). -/
def ckOffs : List Nat → Nat → List Nat × Nat
  | [], stop => ([], stop)
  | n :: t, stop =>
    let o := alignUp stop 64
    let r := ckOffs t (o + n)
    (o :: r.1, r.2)

/-- The offsets of an image's saved data on this binding, and `rec_len` (07 R199). -/
def State.ckPlan (s : State) (i : Image) : List Nat × Nat :=
  ckOffs (i.saved.map (fun d => (s.placed d.tok).bytes)) (ckVerEnd i)

/-- `rec_len` of a capture now (07 R199). -/
def State.ckLen (s : State) : Nat := match s.job.img with | some i => (s.ckPlan i).2 | none => 128

/-- The version bitmap (07 R199). -/
def State.ckBitmap (s : State) (i : Image) : List Byte :=
  let n := (i.versioned.zipIdx).foldl (fun a v => a + b2n (Tab.get false v.1.tok s.job.active) * 2 ^ v.2) 0
  toLe (ceilDiv i.versioned.length 8) n

/-- The record body: directory, bitmap, data (07 R199). -/
def State.ckBody (s : State) (i : Image) : List Byte :=
  let p := s.ckPlan i
  let dir := (i.saved.zip p.1).flatMap (fun x =>
    toLe 4 x.1.tok ++ toLe 8 (s.placed x.1.tok).bytes ++ toLe 8 x.2 ++ toLe 12 0)
  (i.saved.zip p.1).foldl (fun (bs : List Byte) x =>
    bs ++ List.replicate (x.2 - 128 - bs.length) 0 ++ s.tokRead x.1.tok (Tab.get false x.1.tok s.job.active))
    (dir ++ s.ckBitmap i)

/-- The 128-byte record header over a body hash (07 R198). -/
def State.ckHeader (s : State) (i : Image) (hash : List Byte) : List Byte :=
  toLe 8 0x544B435000000001 ++ toLe 4 1 ++ toLe 4 1 ++ toLe 8 s.job.step.toNat ++ toLe 8 s.job.optStep.toNat ++
    toLe 8 i.jobSeed.toNat ++ toLe 8 s.livery ++ toLe 8 (s.hostIf.wm.getD 0) ++ toLe 1 (unsigned 8 s.job.lsE) ++ toLe 1 0 ++
    toLe 2 s.job.lsC ++ toLe 2 s.job.lsK ++ toLe 2 0 ++ toLe 4 s.job.lagClip ++ toLe 4 i.versioned.length ++
    toLe 4 i.saved.length ++ toLe 4 0 ++ toLe 8 (ckVerOff i) ++ toLe 8 (s.ckPlan i).2 ++ hash

/-- The first saved token whose saved slot holds a poisoned line, and its data's offset (10 R286; 20 R536). -/
def State.ckPoison (s : State) (i : Image) : Option (Nat × Nat) :=
  ((i.saved.zip (s.ckPlan i).1).find? (fun x =>
    ((s.placed x.1.tok).ranges (Tab.get false x.1.tok s.job.active)).any (fun r => s.poisoned r.1 (r.2 - r.1)))).map
      (fun x => (x.1.tok, x.2))

/-- Whether a checkpoint's bytes lie where R422 lets them: in the window, or in a capacity region outside every token,
the journal and the image area (14 R422; log 48). -/
def State.ckDest (s : State) (a n : Nat) : Bool :=
  (decide (0 < n) && within a n [(s.window.1, s.window.2)]) ||
  (s.mapped a n && (match s.hueReg a with | some (.cap _ _) => true | _ => false) && !s.meetsToken a n &&
    !overlaps a (a + n) s.imageBase s.journalEnd)

/-- A `CHECKPOINT` captured now: the record written and its length the result; a poisoned saved line leaves a partial
record, which fails its hash (07 R198; 14 R422; 20 R536; log 48). -/
def State.capture (s : State) (c : Cmd) : State :=
  match c.op, s.job.img, s.job.bound with
  | .checkpoint dest cap, some i, some _ =>
    if cap < s.ckLen then s.retire c.hdr (refuse stRefusedFit 0x0006)
    else
      let body := s.ckBody i
      match s.ckPoison i with
      | some (_, off) =>
        let part := s.ckHeader i (List.replicate 32 0) ++ body.take (off - 128)
        ((s.dramWr dest part).record { sub := 0x0A, cause := Config.faultCause 15 % 256, cls := 1
                                       seq := BitVec.ofNat 64 c.hdr.seq }).retire c.hdr { status := stFaultContained }
      | none =>
        (s.dramWr dest (s.ckHeader i ((sha512 body).take 32) ++ body)).retire c.hdr { result := s.ckLen }
  | .checkpoint _ _, _, _ => s.retire c.hdr (refuse stRefusedFit 0x0201)
  | _, _, _ => s

/-- Every started `CHECKPOINT` captured, in acceptance order (14 R422). -/
def State.captureAll (s : State) : State :=
  s.hostIf.cmds.foldl (fun x c => if c.started then x.capture c else x) s

/-! ### Class 3 work of the host (14 R419; 10 R299, R301) -/

/-- A started copy or fill done whole (14 R419; log 48). -/
def State.bulk (s : State) (c : Cmd) : State :=
  match c.op with
  | .memCopy src dst len => match addrParam src, addrParam dst with
    | some a, some b => s.doCopy c.hdr a b len
    | _, _ => s
  | .memFill dst len pat => match addrParam dst with
    | some b => s.doFill c.hdr b len pat
    | none => s
  | _ => s

/-- The host's work of a Sable window, or of a time without steps: held CXL.mem requests, copies and fills, then solves
and dynamics that find engines, in acceptance order (10 R301; 14 R419; 09 R264). -/
def State.hostWork (s : State) : State :=
  let s1 := s.serveHeld
  let s2 := s1.hostIf.cmds.foldl (fun x c => if c.started then x.bulk c else x) s1
  s2.hostIf.cmds.foldl (fun x c => if c.started then x.takeEngines c else x) s2

/-! ### Unbinding and unloading (11 R315; 13 R386, R388; 14 R421, R428; 15 R434, R442; 19 R527) -/

/-- A port no longer isolated by a block edge (13 R386). -/
def Port.unIsolate (p : Port) : Port :=
  { p with isolate := false, latBind := 0, state := if p.state = .isolated then .run else p.state }

/-- The binding ended: contexts freed, ports no longer isolated, the job's state as before a binding; the image stays
loaded and the keys locked (14 R428; 11 R315). -/
def State.unbind (s : State) : State :=
  let s1 := s.stopEntries
  { s1 with
    job := { noJob with img := s.job.img, locked := s.job.locked, stepEnd := s.job.stepEnd }
    exch := { s1.exch with ctxs := [] }
    ports := s1.ports.map Port.unIsolate }

/-- A firmware activation: the new slots preferred, and a warm reset (19 R527). -/
def State.activateNow (s : State) : State :=
  match s.sec.pendPref with
  | some p =>
    let s1 := { s with sec := { s.sec with flash := { s.sec.flash with prefFw := p.1, prefCfg := p.2 } } }
    let s2 := s1.warmReset
    { s2 with sec := { s2.sec with pendPref := some p } }
  | none => s

/-- Whether a command is `LOAD_IMAGE`. -/
def HostOp.isLoad : HostOp → Bool
  | .loadImage _ _ _ _ => true
  | _ => false

/-- The image released: contexts, key locks, the image area's contents (14 R421; 15 R434). -/
def State.release (s : State) : State :=
  let s1 := s.unbind
  let locked := s1.hostIf.cmds.any (fun c => HostOp.isLoad c.op)
  let s2 := { s1 with job := { s1.job with img := none, locked := locked } }
  s2.dramForget s2.imageBase s2.journalBase

/-- `UNLOAD` completes: its reply, held switch-in messages, the snapshot, and an activation that waited for it (14 R421;
13 R388; 19 R522, R527). -/
def State.unload (s : State) (h : Hdr) : State :=
  let last := s.job.lastRun.toNat
  let s1 := ((s.release).retire h { result := last }).applyHeld.takeSnapshot
  if s1.sec.activate then s1.activateNow else s1

end Sys2Proof.Machine
end

