-- ==== Sys2Proof/Machine/Slate.lean ====
section
/-! DEFINITION. The Slate lanes: registers, scalar instructions and vector arithmetic (chapter 06). The commands are the
instructions a running kernel issues, in program order (log 23). -/

namespace Sys2Proof.Machine

/-! ### Registers (06 R146, R148) -/

/-- A vector register. -/
def Slate.vreg (l : Slate) (r : Nat) : BitVec 2048 := Tab.get 0 r l.v

/-- A mask register. -/
def Slate.mreg (l : Slate) (r : Nat) : BitVec 2048 := Tab.get 0 r l.m

/-- A scalar register; `s0` reads 0 (06 R146). -/
def Slate.xreg (l : Slate) (r : Nat) : BitVec 64 := if r = 0 then 0 else Tab.get 0 r l.x

/-- The lanes with a scalar register written; `s0` discards writes (06 R146). -/
def Slate.setX (l : Slate) (r : Nat) (v : BitVec 64) : Slate := if r = 0 then l else { l with x := Tab.set 0 r v l.x }

/-- The lanes with a vector register written; there are 32 (06 R146). -/
def Slate.setV (l : Slate) (r : Nat) (v : BitVec 2048) : Slate := if r < 32 then { l with v := Tab.set 0 r v l.v } else l

/-- The lanes with a mask register written. -/
def Slate.setM (l : Slate) (r : Nat) (v : BitVec 2048) : Slate := { l with m := Tab.set 0 r v l.m }

/-- Bit i of a mask register. -/
def Slate.mbit (l : Slate) (r i : Nat) : Bool := (l.mreg r).getLsbD i

/-- The lanes with bit i of a mask register written. -/
def Slate.setMbit (l : Slate) (r i : Nat) (b : Bool) : Slate :=
  let v := (l.mreg r).toNat
  let w := v - bits v i 1 * 2 ^ i + (if b then 2 ^ i else 0)
  l.setM r (BitVec.ofNat 2048 w)

/-- Element i of width `ew` of the group at register `r`: the group is one little-endian bit string (06 R148). -/
def Slate.elem (l : Slate) (r ew i : Nat) : Nat := bits (l.vreg (r + i * ew / 2048)).toNat (i * ew % 2048) ew

/-- The lanes with element i of width `ew` of a group written (06 R148). -/
def Slate.setElem (l : Slate) (r ew i v : Nat) : Slate :=
  let k := r + i * ew / 2048
  let sh := i * ew % 2048
  let old := (l.vreg k).toNat
  l.setV k (BitVec.ofNat 2048 (old - bits old sh ew * 2 ^ sh + v % 2 ^ ew * 2 ^ sh))

/-- The element formats of the lanes (06 R148). -/
def laneFmt (f : Fmt) : Bool :=
  [Fmt.fp64, .fp32, .fp16, .bf16, .pewter8, .smoke8, .int8, .int16, .int32].contains f

/-- The largest vector length of a vtype (06 R150). -/
def VType.vlmax (t : VType) : Nat := 2048 * t.g / Fmt.bits t.fmt

/-- Whether element i is active (06 R151). -/
def Slate.active (l : Slate) (mu : Bool) (msk i : Nat) : Bool := !mu || l.mbit msk i

/-- Source b of an arithmetic instruction: element i of a vector, or the low bits of a scalar (06 R153). -/
def Slate.srcB (l : Slate) (o : VOps) (ew i : Nat) : Nat :=
  if o.sb then (l.xreg o.b).toNat % 2 ^ ew else l.elem o.b ew i

/-! ### Issue -/

/-- The budget of a Register entry (06 R168). -/
def State.budgetOf (s : State) (e : Nat) : Option Nat :=
  match (s.entryOf e).kind with
  | .register _ _ _ b => b
  | _ => none

/-- Cycles since an entry started (16 R450). -/
def State.entryAge (s : State) (e : Nat) : Nat :=
  match s.job.ents.getD e .waiting with
  | .running st => s.now - (s.job.stepStart + st)
  | _ => 0

/-- Whether the budget of the kernel on a unit's lanes has ended: the cycles by which its memory accesses exceeded their
`t_lat` do not count against it (06 R168). -/
def State.budgetOver (s : State) (u : Nat) : Bool :=
  let l := (s.tile u).slate
  match s.budgetOf l.entry with
  | some b => decide (b + l.stall ≤ s.entryAge l.entry)
  | none => false

/-- Whether the lanes of a unit run a kernel, within its budget (06 R147, R168). -/
def State.laneRuns (s : State) (u : Nat) : Bool := (s.tile u).slate.run == .running && !s.budgetOver u

/-- The lanes after an instruction that falls through: the pc moves on by one word. -/
def Slate.next (l : Slate) : Slate := { l with pc := l.pc + 4 }

/-- A scalar instruction: it acts while a kernel runs (06 R147). -/
def State.scalarOp (s : State) (u : Nat) (f : Slate → Slate) : State :=
  if s.laneRuns u then s.setSlate u (f (s.tile u).slate).next else s

/-- A vector instruction: it acts while a kernel runs and a vtype is in force (06 R147, R149). -/
def State.vectorOp (s : State) (u : Nat) (f : VType → Slate → Slate × Ev) : State :=
  if s.laneRuns u then
    match (s.tile u).slate.vtype with
    | none => s
    | some t =>
      let l := (s.tile u).slate
      let (l', ev) := f t l
      (s.setSlate u l'.next).raise u (s.declOf l.entry) ev
  else s

/-- The lanes after an instruction computed each active element i below vl from the operands as they stood before
(06 R151). -/
def Slate.each (l : Slate) (mu : Bool) (msk : Nat) (f : Nat → Slate → Slate × Ev) : Slate × Ev :=
  (List.range l.vl).foldl (fun a i =>
    if l.active mu msk i then let (l', ev) := f i a.1; (l', a.2.join ev) else a) (l, {})

/-! ### Scalar instructions (06 R150, R153, R155) -/

/-- A `salu` result (06 R153, R155). -/
def saluOp (op : SaluOp) (a b : BitVec 64) : BitVec 64 :=
  match op with
  | .add => a + b
  | .sub => a - b
  | .mul => a * b
  | .and => a &&& b
  | .or => a ||| b
  | .xor => a ^^^ b
  | .shl => if b.toNat < 64 then a <<< b.toNat else 0
  | .shr => if b.toNat < 64 then a >>> b.toNat else 0
  | .sra => a.sshiftRight (min b.toNat 64)
  | .min => if a.toInt ≤ b.toInt then a else b
  | .max => if a.toInt ≤ b.toInt then b else a
  | .slt => if a.toInt < b.toInt then 1 else 0
  | .sltu => if a.toNat < b.toNat then 1 else 0

/-- `setvl` (06 R150). -/
def execSetvl (unit d a : Nat) (fmt : Fmt) (lg : Nat) (s : State) : Host.Outcome State Fault Refusal :=
  .next (s.scalarOp unit (fun l =>
    let t : VType := { fmt := fmt, g := 2 ^ lg }
    let n := min (l.xreg a).toNat t.vlmax
    { l.setX d (BitVec.ofNat 64 n) with vtype := some t, vl := n }))

/-- `sli` (06 R153). -/
def execSli (unit d : Nat) (imm : BitVec 21) (s : State) : Host.Outcome State Fault Refusal :=
  .next (s.scalarOp unit (fun l => l.setX d (imm.signExtend 64)))

/-- `slui` (06 R153). -/
def execSlui (unit d : Nat) (imm : BitVec 21) (s : State) : Host.Outcome State Fault Refusal :=
  .next (s.scalarOp unit (fun l => l.setX d ((l.xreg d <<< 21) ||| imm.zeroExtend 64)))

/-- `salu` (06 R153). -/
def execSalu (unit d a b : Nat) (op : SaluOp) (s : State) : Host.Outcome State Fault Refusal :=
  .next (s.scalarOp unit (fun l => l.setX d (saluOp op (l.xreg a) (l.xreg b))))

/-- The pc after a taken branch: `off` words from the branch (log 23). -/
def branchPc (pc : Nat) (off : BitVec 16) : Nat := ((pc : Int) + 4 * off.toInt).toNat

/-- `sbnz` (06 R152, R153). -/
def execSbnz (unit a : Nat) (off : BitVec 16) (s : State) : Host.Outcome State Fault Refusal :=
  .next (if s.laneRuns unit then
    let l := (s.tile unit).slate
    s.setSlate unit (if l.xreg a ≠ 0 then { l with pc := branchPc l.pc off } else l.next)
  else s)

/-- `send`: the kernel ends; the lanes idle until the budget ends (06 R153, R168; log 29). -/
def doSend (s : State) (unit : Nat) : State :=
  if s.laneRuns unit then
    let l := (s.tile unit).slate
    let busy := s.entryAge l.entry
    ((s.setSlate unit { l.next with run := .ended }).count (kSlBusy unit) busy).count (kSlIdle unit)
      ((s.budgetOf l.entry).getD 0 + l.stall - busy)
  else s

/-- `send` (06 R153). -/
def execSend (unit : Nat) (s : State) : Host.Outcome State Fault Refusal := .next (doSend s unit)

/-- `scsr`: vl or the step number (06 R153). -/
def execScsr (unit d : Nat) (stepNo : Bool) (s : State) : Host.Outcome State Fault Refusal :=
  .next (s.scalarOp unit (fun l => l.setX d (if stepNo then s.job.step else BitVec.ofNat 64 l.vl)))

/-- `srdtime`: Cobalt time at issue (06 R153). -/
def execSrdtime (unit d : Nat) (s : State) : Host.Outcome State Fault Refusal :=
  .next (s.scalarOp unit (fun l => l.setX d s.clk.cobalt))

/-! ### Integer and mask operations (06 R153, R155) -/

/-- A `vi` result on `ew`-bit elements, wrapping (06 R154, R155). -/
def viOp (op : ViOp) (ew a b : Nat) : Nat :=
  let sa := signed ew a
  let sb := signed ew b
  match op with
  | .add => (a + b) % 2 ^ ew
  | .sub => (a + 2 ^ ew - b) % 2 ^ ew
  | .mul => (a * b) % 2 ^ ew
  | .and => a &&& b
  | .or => a ||| b
  | .xor => a ^^^ b
  | .shl => if b < ew then (a <<< b) % 2 ^ ew else 0
  | .shr => if b < ew then a >>> b else 0
  | .sra => unsigned ew (sa / ((2 ^ (min b ew) : Nat) : Int))
  | .min => if sa ≤ sb then a else b
  | .max => if sa ≤ sb then b else a
  | .minu => min a b
  | .maxu => max a b

/-- `vi` (06 R153). -/
def execVi (unit : Nat) (o : VOps) (op : ViOp) (s : State) : Host.Outcome State Fault Refusal :=
  .next (s.vectorOp unit (fun t l =>
    let ew := Fmt.bits t.fmt
    l.each o.mu o.msk (fun i x => (x.setElem o.d ew i (viOp op ew (l.elem o.a ew i) (l.srcB o ew i)), {}))))

/-- `vsel`: a where the selector is 1, else b, bits copied (06 R153). -/
def execVsel (unit : Nat) (o : VOps) (s : State) : Host.Outcome State Fault Refusal :=
  .next (s.vectorOp unit (fun t l =>
    let ew := Fmt.bits t.fmt
    l.each o.mu o.msk (fun i x =>
      (x.setElem o.d ew i (if l.mbit o.msk i then l.elem o.a ew i else l.srcB o ew i), {}))))

/-- `vmlog`: mask d := T[2·ma + mb] (06 R153). -/
def execVmlog (unit : Nat) (o : VOps) (table : Nat) (s : State) : Host.Outcome State Fault Refusal :=
  .next (s.vectorOp unit (fun _ l => l.each o.mu o.msk (fun i x =>
    (x.setMbit o.d i (bitOf table ((if l.mbit o.a i then 2 else 0) + (if l.mbit o.b i then 1 else 0))), {}))))

/-! ### Floating-point operations (06 R153, R154; 02 R50) -/

/-- An operation on codes of an element format: FP64 and FP32 directly with the rounding `rm`; every other format decoded
to FP32, computed there, and converted back with `cvt` 0b00 (02 R50, 06 R154). -/
def laneFp (f : Fmt) (op : FpFmt → List Nat → Nat × BitVec 5) (xs : List Nat) : Nat × Ev :=
  match f with
  | .fp64 => let r := op f64 xs; (r.1, Ev.arith f64 r)
  | .fp32 => let r := op f32 xs; (r.1, Ev.arith f32 r)
  | f =>
    let ds := xs.map (fun c => decode32 f c 0 0)
    let r := op f32 (ds.map (fun d => d.1))
    let (c, ev) := convert f 0 0 0 (f32.decode r.1)
    (c, ev.join { fl := r.2 ||| ds.foldl (fun a d => a ||| d.2) 0 })

/-- The operation of `vf` (06 R153). -/
def vfOp (op : VfOp) (rm : Rm) (F : FpFmt) (xs : List Nat) : Nat × BitVec 5 :=
  let a := xs.getD 0 0
  let b := xs.getD 1 0
  match op with
  | .add => fAdd F rm a b
  | .sub => fSub F rm a b
  | .mul => fMul F rm a b
  | .div => fDiv F rm a b
  | .min => fMin F a b
  | .max => fMax F a b
  | .sqrt => fSqrt F rm a

/-- The sign bit flipped when `n`. -/
def signIf (F : FpFmt) (n : Bool) (c : Nat) : Nat := if n then c ^^^ 2 ^ (F.w + F.p) else c

/-- The operation of `vfma`: plus or minus the product, plus or minus `vd` (06 R153; log 31). -/
def vfmaOp (op : FmaOp) (rm : Rm) (F : FpFmt) (xs : List Nat) : Nat × BitVec 5 :=
  let np := op == .fnma || op == .fnms
  let nd := op == .fms || op == .fnms
  fFma F rm (signIf F np (xs.getD 0 0)) (xs.getD 1 0) (signIf F nd (xs.getD 2 0))

/-- `vf` (06 R153). -/
def execVf (unit : Nat) (o : VOps) (rm : Rm) (op : VfOp) (s : State) : Host.Outcome State Fault Refusal :=
  .next (s.vectorOp unit (fun t l =>
    let ew := Fmt.bits t.fmt
    l.each o.mu o.msk (fun i x =>
      let (c, ev) := laneFp t.fmt (vfOp op rm) [l.elem o.a ew i, l.srcB o ew i]
      (x.setElem o.d ew i c, ev))))

/-- `vfma` (06 R153). -/
def execVfma (unit : Nat) (o : VOps) (rm : Rm) (op : FmaOp) (s : State) : Host.Outcome State Fault Refusal :=
  .next (s.vectorOp unit (fun t l =>
    let ew := Fmt.bits t.fmt
    l.each o.mu o.msk (fun i x =>
      let (c, ev) := laneFp t.fmt (vfmaOp op rm) [l.elem o.a ew i, l.srcB o ew i, l.elem o.d ew i]
      (x.setElem o.d ew i c, ev))))

/-- A comparison of codes of an element format; integers too are compared as the FP32 values they decode to (02 R50,
05 R131, 06 R154; log 30). -/
def laneCmp (f : Fmt) (c : Cond) (a b : Nat) : Bool × BitVec 5 :=
  if f = .fp64 then fCmp f64 c a b
  else
    let x := decode32 f a 0 0
    let y := decode32 f b 0 0
    let (r, fl) := fCmp f32 c x.1 y.1
    (r, fl ||| x.2 ||| y.2)

/-- `vcmp`: mask d := a cond b (06 R153). -/
def execVcmp (unit : Nat) (o : VOps) (c : Cond) (s : State) : Host.Outcome State Fault Refusal :=
  .next (s.vectorOp unit (fun t l =>
    let ew := Fmt.bits t.fmt
    l.each o.mu o.msk (fun i x =>
      let (r, fl) := laneCmp t.fmt c (l.elem o.a ew i) (l.srcB o ew i)
      (x.setMbit o.d i r, { fl := fl }))))

/-! ### Widening forms (06 R156 to R158) -/

/-- The destination of `vwmul` (06 R156). -/
def wmulDst : Fmt → Option Fmt
  | .fp16 | .bf16 => some .fp32
  | .fp32 => some .fp64
  | .int8 => some .int16
  | .int16 => some .int32
  | _ => none

/-- The destination of `vdot` and its ways (06 R156). -/
def dotDst : Fmt → Option (Fmt × Nat)
  | .fp16 | .bf16 => some (.fp32, 2)
  | .fp32 => some (.fp64, 2)
  | .pewter8 | .smoke8 => some (.fp32, 4)
  | .int8 => some (.int32, 4)
  | .int16 => some (.int32, 2)
  | _ => none

/-- An exact value rounded once into a widening destination; an integer outside it has no stated result, and is the free
value numbered `free` (log 32). -/
def wideOut (dst : Fmt) (rm : Rm) (free : Nat) (v : DVal) : Nat × Ev :=
  match dst with
  | .fp64 => let r := f64.result rm v; (r.1, Ev.arith f64 r)
  | .fp32 => let r := f32.result rm v; (r.1, Ev.arith f32 r)
  | d =>
    let i := v.int
    let w := Fmt.bits d
    if - ((2 ^ (w - 1) : Nat) : Int) ≤ i ∧ i < ((2 ^ (w - 1) : Nat) : Int) then (unsigned w i, {})
    else ((Config.freeWord freeWide free).toNat % 2 ^ w, {})

/-- The number of the free value that an integer `vwmul` of some operands has outside its destination's range: one for every
source format and operands (06 R157; 01 R27; log 32). -/
def wideTag (src : Fmt) (a b d : Nat) : Nat := ((Fmt.num src * 2 ^ 16 + a) * 2 ^ 16 + b) * 2 ^ 32 + d

/-- One element of `vwmul` (06 R157). -/
def wmulElem (src dst : Fmt) (rm : Rm) (acc : Bool) (a b d : Nat) : Nat × Ev :=
  let x := decodeVal src a 0 0
  let y := decodeVal src b 0 0
  let z := decodeVal dst d 0 0
  let sig := flIf (x.isSig || y.isSig || (acc && z.isSig)) flInvalid
  let p := exactMul x y
  let r := if acc then (if p.isNan then p else exactAdd rm p z) else p
  let (c, ev) := wideOut dst rm (wideTag src a b d) r
  (c, ev.join { fl := sig })

/-- `vwmul` (06 R156, R157). -/
def execVwmul (unit : Nat) (o : VOps) (rm : Rm) (acc : Bool) (s : State) : Host.Outcome State Fault Refusal :=
  .next (s.vectorOp unit (fun t l =>
    match wmulDst t.fmt with
    | none => (l, {})
    | some dst =>
      let ew := Fmt.bits t.fmt
      let dw := Fmt.bits dst
      l.each o.mu o.msk (fun i x =>
        let (c, ev) := wmulElem t.fmt dst rm acc (l.elem o.a ew i) (l.elem o.b ew i) (l.elem o.d dw i)
        (x.setElem o.d dw i c, ev))))

/-- The exact sum of values under the specials of `block_sum` (03 R76, 06 R158). -/
def exactSum (vs : List DVal) : DVal × BitVec 5 :=
  let p := vs.any (fun v => v == .inf false)
  let n := vs.any (fun v => v == .inf true)
  let inv := flIf ((p && n) || vs.any (fun v => v == .nan true)) flInvalid
  if vs.any DVal.isNan || (p && n) then (.nan false, inv)
  else if p then (.inf false, inv)
  else if n then (.inf true, inv)
  else (DVal.ofDy (vs.foldl (fun a v => a.add v.dy) { m := 0, e := 0 }), inv)

/-- One element of `vdot`: products of `w` pairs added to the destination, rounded once or saturated (06 R158). -/
def dotElem (src dst : Fmt) (rm : Rm) (ab : List (Nat × Nat)) (d : Nat) : Nat × Ev :=
  let ps := ab.map (fun p => exactMul (decodeVal src p.1 0 0) (decodeVal src p.2 0 0))
  if dst = .int32 then
    let sm := ab.foldl (fun a p => a + signed (Fmt.bits src) p.1 * signed (Fmt.bits src) p.2) (signed 32 d)
    if sm < -2147483648 then (0x80000000, { sat := 1, satEv := true })
    else if 2147483647 < sm then (0x7FFFFFFF, { sat := 1, satEv := true })
    else (unsigned 32 sm, {})
  else
    let F := if dst = .fp64 then f64 else f32
    let sig := flIf (ab.any (fun p => (decodeVal src p.1 0 0).isSig || (decodeVal src p.2 0 0).isSig) ||
      (F.decode d).isSig) flInvalid
    let (v, fl) := exactSum ((if (F.decode d).isNan then .nan false else F.decode d) :: ps)
    let r := F.result rm v
    (r.1, (Ev.arith F r).join { fl := sig ||| fl })

/-- `vdot` (06 R156, R158). -/
def execVdot (unit : Nat) (o : VOps) (rm : Rm) (four : Bool) (s : State) : Host.Outcome State Fault Refusal :=
  .next (s.vectorOp unit (fun t l =>
    match dotDst t.fmt with
    | none => (l, {})
    | some (dst, w) =>
      if w = (if four then 4 else 2) then
        let ew := Fmt.bits t.fmt
        let dw := Fmt.bits dst
        (List.range (l.vl / w)).foldl (fun x j =>
          let is := rangeFrom (w * j) w
          if is.all (fun i => l.active o.mu o.msk i) then
            let (c, ev) := dotElem t.fmt dst rm (is.map (fun i => (l.elem o.a ew i, l.elem o.b ew i))) (l.elem o.d dw j)
            (x.1.setElem o.d dw j c, x.2.join ev)
          else x) (l, {})
      else (l, {})))

/-! ### Conversion and reductions (06 R159, R160) -/

/-- `vcvt`: one conversion of each active element; stochastic rounding takes `tok` from scalar b and e from scalar b + 1
(06 R160). -/
def execVcvt (unit : Nat) (o : VOps) (cvt : Nat) (dst : Fmt) (s : State) : Host.Outcome State Fault Refusal :=
  .next (s.vectorOp unit (fun t l =>
    let ew := Fmt.bits t.fmt
    let tok := (l.xreg o.b).toNat % 2 ^ 32
    let e0 := (l.xreg (o.b + 1)).toNat
    l.each o.mu o.msk (fun i x =>
      let (c, ev) := convert dst cvt (s.srOf tok ((e0 + i) % 2 ^ 64)) 0 (decodeVal t.fmt (l.elem o.a ew i) 0 0)
      (x.setElem o.d (Fmt.bits dst) i c, ev))))

/-- The indices of the active elements below vl. -/
def Slate.actives (l : Slate) (mu : Bool) (msk : Nat) : List Nat :=
  (List.range l.vl).filter (fun i => l.active mu msk i)

/-- A code held in FP32, or in FP64 for FP64 elements, for a reduction (02 R50). -/
def heldCode (f : Fmt) (c : Nat) : Nat × BitVec 5 := if f = .fp64 then (c, 0) else decode32 f c 0 0

/-- A held reduction result written to the element format (02 R50). -/
def heldOut (f : Fmt) (r : Nat × BitVec 5) : Nat × Ev :=
  match f with
  | .fp64 => (r.1, Ev.arith f64 r)
  | .fp32 => (r.1, Ev.arith f32 r)
  | f => let (c, ev) := convert f 0 0 0 (f32.decode r.1); (c, ev.join { fl := r.2 })

/-- The format a reduction is held in. -/
def heldFmt (f : Fmt) : FpFmt := if f = .fp64 then f64 else f32

/-- One addition of a held sum. -/
def heldAdd (F : FpFmt) (a : Nat × BitVec 5) (b : Nat × BitVec 5) : Nat × BitVec 5 :=
  let (c, fl) := fAdd F .tiesToEven a.1 b.1
  (c, a.2 ||| b.2 ||| fl)

/-- One level of the tree sum: neighbours added in pairs (06 R159). -/
def treeLevel (F : FpFmt) : List (Nat × BitVec 5) → List (Nat × BitVec 5)
  | a :: b :: t => heldAdd F a b :: treeLevel F t
  | l => l

/-- The tree sum of 2^k values (06 R159). -/
def treeSum (F : FpFmt) : Nat → List (Nat × BitVec 5) → Nat × BitVec 5
  | 0, l => l.headD (F.zero true, 0)
  | k + 1, l => treeSum F k (treeLevel F l)

/-- The exact sum of `vred`: floats round once under `RSUM`; integers saturate to INT32, held in an INT32 element 0 of
`vd` (06 R159, log 33). -/
def vredExact (f : Fmt) (xs : List Nat) (d : Nat) : Nat × Ev :=
  if Fmt.isInt f then
    let sm := xs.foldl (fun a c => a + signed (Fmt.bits f) c) (signed 32 d)
    (unsigned 32 (max (-2147483648) (min 2147483647 sm)), {})
  else
    let vs := (d :: xs).map (fun c => decodeVal f c 0 0)
    let sig := flIf (vs.any DVal.isSig) flInvalid
    let (v, fl) := exactSum (vs.map (fun v => if v.isNan then .nan false else v))
    let r := f32.result .tiesToEven v
    heldOut f (r.1, r.2 ||| fl ||| sig)

/-- The result of `vred` from the active elements in ascending index and element 0 of `vd` (06 R159). -/
def vredOp (f : Fmt) (op : RedOp) (vl : Nat) (act : List Nat) (x : Nat → Nat) (d : Nat) : Nat × Ev :=
  let F := heldFmt f
  match op with
  | .ordered => heldOut f (act.foldl (fun a i => heldAdd F a (heldCode f (x i))) (heldCode f d))
  | .tree =>
    let leaves := (List.range (2 ^ clog2 vl)).map (fun i =>
      if act.contains i then heldCode f (x i) else (F.zero true, 0))
    heldOut f (heldAdd F (heldCode f d) (treeSum F (clog2 vl) leaves))
  | .exact => vredExact f (act.map x) d
  | .max => heldOut f (act.foldl (fun a i =>
      let h := heldCode f (x i); let (c, fl) := fMax F a.1 h.1; (c, a.2 ||| h.2 ||| fl)) (heldCode f d))
  | .min => heldOut f (act.foldl (fun a i =>
      let h := heldCode f (x i); let (c, fl) := fMin F a.1 h.1; (c, a.2 ||| h.2 ||| fl)) (heldCode f d))

/-- The width of element 0 of `vd` in a reduction (log 33). -/
def vredWidth (f : Fmt) (op : RedOp) : Nat := if Fmt.isInt f && op == .exact then 32 else Fmt.bits f

/-- `vred` (06 R159). -/
def execVred (unit : Nat) (o : VOps) (op : RedOp) (s : State) : Host.Outcome State Fault Refusal :=
  .next (s.vectorOp unit (fun t l =>
    if l.vl = 0 then (l, {})
    else
      let ew := Fmt.bits t.fmt
      let w := vredWidth t.fmt op
      let (c, ev) := vredOp t.fmt op l.vl (l.actives o.mu o.msk) (fun i => l.elem o.a ew i) (l.elem o.d w 0)
      (l.setElem o.d w 0 c, ev)))

/-- Whether an element is below another as `vmaxi` orders them: a NaN above every number, and an integer by the FP32 value
it decodes to (02 R50, 06 R159; log 30). -/
def maxiLt (f : Fmt) (a b : Nat) : Bool :=
  let x := (heldFmt f).decode (heldCode f a).1
  let y := (heldFmt f).decode (heldCode f b).1
  if x.isNan then false else if y.isNan then true else valLt true x y

/-- The lowest index of an active maximum (06 R159). -/
def maxIndex (f : Fmt) (x : Nat → Nat) : List Nat → Option Nat
  | [] => none
  | i :: is => some (is.foldl (fun a j => if maxiLt f (x a) (x j) then j else a) i)

/-- `vmaxi`: the index, or -1 when no element is active (06 R153, R159). -/
def execVmaxi (unit : Nat) (o : VOps) (s : State) : Host.Outcome State Fault Refusal :=
  .next (s.vectorOp unit (fun t l =>
    if l.vl = 0 then (l, {})
    else
      let ew := Fmt.bits t.fmt
      (l.setX o.d (match maxIndex t.fmt (fun i => l.elem o.a ew i) (l.actives o.mu o.msk) with
        | some i => BitVec.ofNat 64 i
        | none => 0xFFFFFFFFFFFFFFFF), {})))

/-! ### Permutations (06 R155) -/

/-- What element i takes in a permutation that has one source element per destination. A `vid` or `viota` count that does
not fit the element is cut modulo 2^ew, which R155 does not say (06 R155; DESIGN CHOICE, log 57). -/
def permElem (op : PermOp) (l : Slate) (o : VOps) (ew i : Nat) : Nat :=
  let k := (l.xreg o.b).toNat
  match op with
  | .vid => i % 2 ^ ew
  | .viota => ((List.range i).filter (fun j => l.mbit o.msk j)).length % 2 ^ ew
  | .slideUp => if k ≤ i then l.elem o.a ew (i - k) else 0
  | .slideDown => if i + k < l.vl then l.elem o.a ew (i + k) else 0
  | .gather => let j := l.elem o.b ew i; if j < l.vl then l.elem o.a ew j else 0
  | .splat => k % 2 ^ ew
  | _ => 0

/-- `vcompress`: the selected elements in ascending index, then zeros (06 R155). -/
def compress (l : Slate) (o : VOps) (ew : Nat) : Slate :=
  let xs := ((List.range l.vl).filter (fun i => l.mbit o.msk i)).map (fun i => l.elem o.a ew i)
  (List.range l.vl).foldl (fun x i => x.setElem o.d ew i (xs.getD i 0)) l

/-- `vperm` (06 R153, R155). -/
def execVperm (unit : Nat) (o : VOps) (op : PermOp) (s : State) : Host.Outcome State Fault Refusal :=
  .next (s.vectorOp unit (fun t l =>
    let ew := Fmt.bits t.fmt
    match op with
    | .compress => (compress l o ew, {})
    | .extract =>
      if l.vl = 0 then (l, {})
      else
        let k := (l.xreg o.b).toNat
        (l.setX o.d (BitVec.ofNat 64 (if k < l.vl then l.elem o.a ew k else 0)), {})
    | op => l.each o.mu o.msk (fun i x => (x.setElem o.d ew i (permElem op l o ew i), {}))))

/-- `vmcnt`: set bits over vl, or the lowest set index, -1 if none (06 R153). -/
def execVmcnt (unit : Nat) (o : VOps) (first : Bool) (s : State) : Host.Outcome State Fault Refusal :=
  .next (s.vectorOp unit (fun _ l =>
    if l.vl = 0 then (l, {})
    else
      let set := (l.actives o.mu o.msk).filter (fun i => l.mbit o.a i)
      (l.setX o.d (if first then (match set with | i :: _ => BitVec.ofNat 64 i | [] => 0xFFFFFFFFFFFFFFFF)
        else BitVec.ofNat 64 set.length), {})))

end Sys2Proof.Machine
end

