-- ==== Sys2Proof/Machine/SlateCode.lean ====
section
/-! DEFINITION. The words of a Slate kernel: which command each spells, which registers it names, and the path that code
takes (06 R149, R152, R153, R156, R161). -/

namespace Sys2Proof.Machine

/-! ### Instruction words (06 R152, R153) -/

/-- The fields of a Slate word: op, d, a, b, mk, mod (06 R152). -/
def slateFields (w : BitVec 32) : Nat × Nat × Nat × Nat × Nat × Nat :=
  let v := w.toNat
  (bits v 26 6, bits v 21 5, bits v 16 5, bits v 11 5, bits v 8 3, bits v 0 7)

/-- The formats the lanes work in, by number (06 R148). -/
def laneCode (n : Nat) : Option Fmt := (Fmt.ofNum n).filter laneFmt

/-- The rounding of the `rm` field; 5 to 7 name none (06 R154). -/
def rmCode (md : Nat) : Option Rm :=
  [Rm.tiesToEven, .towardZero, .towardPositive, .towardNegative, .tiesToAway][bits md 3 3]?

/-- The operations of `salu` in the order of their codes (06 R153). -/
def saluCodes : List SaluOp := [.add, .sub, .mul, .and, .or, .xor, .shl, .shr, .sra, .min, .max, .slt, .sltu]

/-- The operations of `vi` in the order of their codes (06 R153). -/
def viCodes : List ViOp := [.add, .sub, .mul, .and, .or, .xor, .shl, .shr, .sra, .min, .max, .minu, .maxu]

/-- The operations of `vf` in the order of their codes (06 R153). -/
def vfCodes : List VfOp := [.add, .sub, .mul, .div, .min, .max, .sqrt]

/-- The forms of `vfma` in the order of their codes (06 R153). -/
def fmaCodes : List FmaOp := [.fma, .fms, .fnma, .fnms]

/-- The conditions in the order of their codes (05 R131). -/
def condCodes : List Cond := [.eq, .ne, .lt, .le, .gt, .ge, .unord, .ord]

/-- The forms of `vred` in the order of their codes (06 R153). -/
def redCodes : List RedOp := [.ordered, .tree, .exact, .max, .min]

/-- The forms of `vperm` in the order of their codes (06 R153). -/
def permCodes : List PermOp := [.vid, .viota, .compress, .slideUp, .slideDown, .gather, .splat, .extract]

/-- The bits of `mod` that an operation uses; the others are zero (06 R152, R153; log 50). -/
def modBits (op : Nat) : Nat :=
  match op with
  | 0x00 => 0x7F
  | 0x03 => 0x0F
  | 0x06 | 0x14 => 0x01
  | 0x08 => 0x4F
  | 0x09 => 0x7F
  | 0x0A => 0x7B
  | 0x0B => 0x47
  | 0x0C => 0x40
  | 0x0D => 0x0F
  | 0x0E => 0x39
  | 0x0F => 0x3B
  | 0x10 => 0x7F
  | 0x11 | 0x13 => 0x07
  | 0x18 | 0x19 | 0x1A | 0x1B => 0x40
  | 0x1C | 0x1D => 0x43
  | 0x1E | 0x20 | 0x21 | 0x22 => 0x48
  | 0x1F => 0x4F
  | _ => 0

/-- The operations whose low bits are an immediate (06 R152). -/
def immOp (op : Nat) : Bool := [0x01, 0x02, 0x04].contains op

/-- The command that a word of a kernel spells on a unit's lanes; none for an `op` or a field that the chapter does not
define. What the environment adds to a command, an error, a delay or an order of arrival, is none here (06 R152, R153). -/
def slateInstr (unit : Nat) (w : BitVec 32) : Option Instr :=
  let (op, d, a, b, mk, md) := slateFields w
  let mu := bitOf w.toNat 7
  let o : VOps := { d := d, a := a, b := b, msk := mk, mu := mu, sb := bitOf md 6 }
  let m : MOps := { d := d, a := a, b := b, msk := mk, mu := mu, space := bitOf md 6, idx16 := bitOf md 3 }
  if !immOp op && decide (md &&& modBits op ≠ md) then none
  else match op with
  | 0x00 => (laneCode (bits md 0 5)).map (fun f => .setvl unit d a f (bits md 5 2))
  | 0x01 => some (.sli unit d (w.extractLsb' 0 21))
  | 0x02 => some (.slui unit d (w.extractLsb' 0 21))
  | 0x03 => saluCodes[bits md 0 4]?.map (.salu unit d a b)
  | 0x04 => some (.sbnz unit a (w.extractLsb' 0 16))
  | 0x05 => some (.send unit)
  | 0x06 => some (.scsr unit d (bitOf md 0))
  | 0x07 => some (.srdtime unit d)
  | 0x08 => viCodes[bits md 0 4]?.map (.vi unit o)
  | 0x09 => (rmCode md).bind (fun r => vfCodes[bits md 0 3]?.map (.vf unit o r))
  | 0x0A => (rmCode md).bind (fun r => fmaCodes[bits md 0 2]?.map (.vfma unit o r))
  | 0x0B => if d < 8 then condCodes[bits md 0 3]?.map (.vcmp unit o) else none
  | 0x0C => some (.vsel unit o)
  | 0x0D => if d < 8 ∧ a < 8 ∧ b < 8 then some (.vmlog unit o (bits md 0 4)) else none
  | 0x0E => (rmCode md).map (fun r => .vwmul unit o r (bitOf md 0))
  | 0x0F => match bits md 0 2 with
    | 1 => (rmCode md).map (fun r => .vdot unit o r false)
    | 2 => (rmCode md).map (fun r => .vdot unit o r true)
    | _ => none
  | 0x10 => if 2 ≤ bits md 5 2 ∧ b = 31 then none else (laneCode (bits md 0 5)).map (.vcvt unit o (bits md 5 2))
  | 0x11 => redCodes[bits md 0 3]?.map (.vred unit o)
  | 0x12 => some (.vmaxi unit o)
  | 0x13 => permCodes[bits md 0 3]?.map (.vperm unit o)
  | 0x14 => if a < 8 then some (.vmcnt unit o (bitOf md 0)) else none
  | 0x18 => some (.vl unit m)
  | 0x19 => some (.vs unit m)
  | 0x1A => some (.vls unit m)
  | 0x1B => some (.vss unit m)
  | 0x1C => if bits md 0 2 = 0 then none else some (.vlseg unit { m with idx16 := false } (bits md 0 2 + 1))
  | 0x1D => if bits md 0 2 = 0 then none else some (.vsseg unit { m with idx16 := false } (bits md 0 2 + 1))
  | 0x1E => some (.vlx unit m)
  | 0x1F => some (.vlxs unit m (bits md 0 3))
  | 0x20 => some (.vsx unit m)
  | 0x21 => some (.vsxadd unit m)
  | 0x22 => some (.vsxadda unit m [])
  | 0x23 => some (.vlhost unit m)
  | _ => none

/-! ### Registers at a vector type (06 R148, R149, R156 to R161) -/

/-- Registers that `n` elements of `w` bits span, at least one (06 R148). -/
def spanRegs (n w : Nat) : Nat := max 1 (ceilDiv (n * w) 2048)

/-- The vector operands of a command at a vector type: the first register and how many it spans (06 R149, R153, R156,
R161). -/
def vectorRegs (i : Instr) (t : VType) : List (Nat × Nat) :=
  let g := t.g
  let src (o : VOps) : List (Nat × Nat) := if o.sb then [] else [(o.b, g)]
  let idx (o : MOps) : Nat × Nat := (o.b, spanRegs t.vlmax (if o.idx16 then 16 else 32))
  match i with
  | .vi _ o _ | .vfma _ o _ _ | .vsel _ o => (o.d, g) :: (o.a, g) :: src o
  | .vf _ o _ op => (o.d, g) :: (o.a, g) :: (if op = .sqrt then [] else src o)
  | .vcmp _ o _ => (o.a, g) :: src o
  | .vwmul _ o _ _ => [(o.d, 2 * g), (o.a, g), (o.b, g)]
  | .vdot _ o _ _ => [(o.d, g), (o.a, g), (o.b, g)]
  | .vcvt _ o _ dst => [(o.d, spanRegs t.vlmax (Fmt.bits dst)), (o.a, g)]
  | .vred _ o _ => [(o.d, g), (o.a, g)]
  | .vmaxi _ o => [(o.a, g)]
  | .vperm _ o op => match op with
    | .vid | .viota | .splat => [(o.d, g)]
    | .gather => [(o.d, g), (o.a, g), (o.b, g)]
    | .extract => [(o.a, g)]
    | _ => [(o.d, g), (o.a, g)]
  | .vl _ o | .vs _ o | .vls _ o | .vss _ o | .vlhost _ o => [(o.d, g)]
  | .vlseg _ o f | .vsseg _ o f => [(o.d, g * f)]
  | .vlx _ o | .vlxs _ o _ | .vsx _ o | .vsxadd _ o | .vsxadda _ o _ => [(o.d, g), idx o]
  | _ => []

/-- Whether a command is a vector instruction: it needs a vector type in force (06 R149). -/
def isVector (i : Instr) : Bool :=
  match i with
  | .setvl _ _ _ _ _ | .sli _ _ _ | .slui _ _ _ | .salu _ _ _ _ _ | .sbnz _ _ _ | .send _ | .scsr _ _ _ | .srdtime _ _ => false
  | _ => true

/-- Whether a vector instruction is one the chapter defines at a vector type (06 R149, R153 to R161). -/
def typedOk (i : Instr) (t : VType) : Bool :=
  let isF := (Fmt.fp t.fmt).isSome
  let wide := decide (t.fmt = .fp64) || decide (t.fmt = .fp32)
  let rmOk (r : Rm) : Bool := decide (r = .tiesToEven) || wide
  let apart (o : VOps) (x : Nat) : Bool := !overlaps o.d (o.d + 2 * t.g) x (x + t.g)
  (vectorRegs i t).all (fun r => decide (r.1 % t.g = 0) && decide (r.1 + r.2 ≤ 32)) && (match i with
    | .vf _ _ r _ => isF && rmOk r
    | .vfma _ _ r _ => isF && rmOk r
    | .vwmul _ o r _ => (wmulDst t.fmt).isSome && decide (t.g ≤ 4) && (decide (r = .tiesToEven) || isF) && apart o o.a &&
      apart o o.b
    | .vdot _ _ r four => decide ((dotDst t.fmt).map (fun x => x.2) = some (if four then 4 else 2)) &&
      (decide (r = .tiesToEven) || isF)
    | .vred _ _ op => !(decide (op = .exact) && decide (t.fmt = .fp64))
    | .vlseg _ _ f | .vsseg _ _ f => decide (f * t.g ≤ 8)
    | .vsxadda _ _ _ => isF
    | _ => true)

/-! ### Paths (06 R149, R152) -/

/-- The vector type that a word puts in force (06 R150). -/
def typeSet (i : Instr) : Option VType :=
  match i with
  | .setvl _ _ _ f lg => some { fmt := f, g := 2 ^ lg }
  | _ => none

/-- The instructions, by number, that may follow instruction `j`; a branch before the first word goes nowhere (06 R152,
R153; log 23). -/
def nextOf (i : Instr) (j : Nat) : List (Option Nat) :=
  match i with
  | .send _ => []
  | .sbnz _ _ off =>
    let t := (j : Int) + off.toInt
    [some (j + 1), if 0 ≤ t then some t.toNat else none]
  | _ => [some (j + 1)]

/-- What can be in force at an instruction: whether a path reaches it with no vector type, and the types with which paths
reach it. -/
abbrev Flow := List (Bool × List VType)

/-- One round of the flow of vector types along every instruction (06 R149). -/
def flowStep (code : List Instr) (fl : Flow) : Flow :=
  code.zipIdx.foldl (fun (x : Flow) ij =>
    let here := x.getD ij.2 (false, [])
    let out : Bool × List VType := match typeSet ij.1 with
      | some t => (false, if here.1 || !here.2.isEmpty then [t] else [])
      | none => here
    (nextOf ij.1 ij.2).foldl (fun (y : Flow) k => match k with
      | some k => modAt (fun v : Bool × List VType => (v.1 || out.1, (v.2 ++ out.2).eraseDups)) y k
      | none => y) x) fl

/-- The flow of vector types after enough rounds for every instruction (06 R149). -/
def flowOf (code : List Instr) : Flow :=
  let start : Flow := (List.range code.length).map (fun j => (decide (j = 0), []))
  (List.range (2 * code.length + 2)).foldl (fun x _ => flowStep code x) start

/-! ### Stores at fixed addresses (01 R19; 06 R165) -/

/-- What is known of the lanes on a path that every unit takes: the scalar registers whose values are the same in every
unit, and the vector length. -/
structure Known where
  regs : List (Nat × BitVec 64) := []
  vl : Option Nat := none
deriving DecidableEq, Repr, Inhabited

/-- A known scalar register; `s0` reads 0, and at entry every register but `s1` and `s2` is 0 (06 R146, R147). -/
def Known.reg (k : Known) (r : Nat) : Option (BitVec 64) :=
  if r = 0 then some 0 else (k.regs.find? (fun x => decide (x.1 = r))).map (fun x => x.2)

/-- A scalar register written with a value, known or not. -/
def Known.set (k : Known) (r : Nat) (v : Option (BitVec 64)) : Known :=
  let rest := k.regs.filter (fun x => decide (x.1 ≠ r))
  { k with regs := match v with | some v => (r, v) :: rest | none => rest }

/-- What is known when a kernel enters (06 R147). -/
def Known.atEntry : Known := { regs := (rangeFrom 3 29).map (fun r => (r, 0)) }

/-- What is known after an instruction that falls through (06 R150, R153). -/
def Known.after (k : Known) (i : Instr) : Known :=
  match i with
  | .setvl _ d a f lg =>
    let n := (k.reg a).map (fun v => min v.toNat (VType.vlmax { fmt := f, g := 2 ^ lg }))
    { k.set d (n.map (BitVec.ofNat 64)) with vl := n }
  | .sli _ d imm => k.set d (some (imm.signExtend 64))
  | .slui _ d imm => k.set d ((k.reg d).map (fun (v : BitVec 64) => (v <<< 21) ||| imm.zeroExtend 64))
  | .salu _ d a b op => k.set d ((k.reg a).bind (fun x => (k.reg b).map (saluOp op x)))
  | .scsr _ d _ | .srdtime _ d => k.set d none
  | .vmaxi _ o | .vmcnt _ o _ => k.set o.d none
  | .vperm _ o op => if op = .extract then k.set o.d none else k
  | _ => k

/-- Whether code, before its first branch, stores to the memory at an address that is the same in every unit: an unmasked
`vs`, `vss` or `vsseg` of at least one element (06 R165). -/
def fixedStore (k : Known) : List Instr → Bool
  | [] => false
  | i :: is =>
    let fixed (o : MOps) : Bool := o.space && !o.mu && (k.reg o.a).isSome && (match k.vl with | some n => decide (0 < n) | none => false)
    match i with
    | .sbnz _ _ _ | .send _ => false
    | .vs _ o | .vss _ o | .vsseg _ o _ => fixed o || fixedStore k is
    | i => fixedStore (k.after i) is

end Sys2Proof.Machine
end

