-- ==== Sys2Proof/Machine/LoadCheck.lean ====
section
/-! DEFINITION. The loader's checks of `LOAD_IMAGE`, stages 1 to 7 (15 R441, R446): each gives the first failure it finds,
in the order of the sections and of the objects in them. What the refusal record holds where R447 leaves it open, and
which reason a rule without one takes, is log 50. -/

namespace Sys2Proof.Machine

/-! ### Failures -/

/-- A failure, when a condition holds. -/
def failIf (c : Bool) (f : LoadFail) : Option LoadFail := if c then some f else none

/-- The first failure of a list of checks. -/
def firstOf : List (Option LoadFail) → Option LoadFail
  | [] => none
  | some f :: _ => some f
  | none :: t => firstOf t

/-- The first failure over the items of a list. -/
def firstIn {α : Type} (l : List α) (f : α → Option LoadFail) : Option LoadFail := firstOf (l.map f)

/-- A `REFUSED_SHAPE` failure of stage 5 (15 R446). -/
def shape5 (reason : Nat) : LoadFail := { status := stRefusedShape, reason := reason, stage := 5 }

/-- Items in ascending order of a key. -/
def insertOn {α : Type} (key : α → Nat) (a : α) : List α → List α
  | [] => [a]
  | b :: t => if key a < key b then a :: b :: t else b :: insertOn key a t

/-- A list sorted by a key; equal keys keep their order. -/
def sortOn {α : Type} (key : α → Nat) (l : List α) : List α := l.foldl (fun s a => insertOn key a s) []

/-! ### Stage 1: header, section table, length, window (15 R431, R432, R434; 14 R405, R430) -/

/-- The header's own fields (15 R431, reason 0x1001). -/
def checkHeader (bs : List Byte) (len : Nat) : Option LoadFail :=
  let f (v l : Nat) : LoadFail :=
    { status := stRefusedShape, reason := 0x1001, stage := 1, value := v, limit := l }
  let field (off n : Nat) (ok : Nat → Bool) (l : Nat) : Option LoadFail :=
    let v := fieldLe bs off n
    failIf (!ok v) (f v l)
  firstOf [field 0 8 (fun v => v == shMagic) shMagic, field 8 4 (fun v => v == 1) 1,
    field 12 4 (fun v => decide (2 ≤ v) && decide (v ≤ 4096)) 4096, field 16 8 (fun v => v == len) len,
    field 24 8 (fun v => v % 64 == 0) 64, failIf (!zeroBytes bs 32 96) (f 1 0)]

/-- Whether a section's entry is valid on its own, for an image of `len` bytes and a table [lo, hi) (15 R432, R439). -/
def sectOk (len lo hi : Nat) (s : Sect) : Bool :=
  decide (1 ≤ s.stype) && decide (s.stype ≤ 8) && decide (s.zeros = 0) && decide (s.off % 256 = 0) &&
    decide (s.off + s.len ≤ len) && (decide (s.len = 0) || decide (128 ≤ s.off) && !overlaps s.off (s.off + s.len) lo hi) &&
    (decide (s.stype ≠ 8) || decide (s.len = 128)) && (decide (s.stype ≠ 1) || decide (256 ≤ s.len))

/-- The section table (15 R432, reason 0x1002). -/
def checkSects (bs : List Byte) (len : Nat) : Option LoadFail :=
  let n := imgSects bs
  let o := fieldLe bs 24 8
  let ss := parseSects bs
  let f : LoadFail := { status := stRefusedShape, reason := 0x1002, stage := 1 }
  let count (t : Nat) : Nat := (ss.filter (fun s => decide (s.stype = t))).length
  firstOf [failIf (decide (len < o + 32 * n)) { f with value := o + 32 * n, limit := len },
    firstIn ss.zipIdx (fun x =>
      failIf (!sectOk len o (o + 32 * n) x.1 || (ss.take x.2).any (fun y => decide (0 < y.len) && decide (0 < x.1.len) &&
        overlaps x.1.off (x.1.off + x.1.len) y.off (y.off + y.len))) { f with sect := x.2 }),
    firstIn [1, 2] (fun t => failIf (decide (count t ≠ 1)) { f with value := count t, limit := 1 }),
    firstIn [6, 8] (fun t => failIf (decide (1 < count t)) { f with value := count t, limit := 1 })]

/-- Whether the CXL.mem window lies where R405 and R430 let it: on a 256 MiB boundary, whole in one field-interleaved or
capacity region, clear of the journal and the image area (14 R405, R430; 15 R434). -/
def State.windowOk (s : State) : Bool :=
  let w := s.window
  decide (w.2 ≤ w.1) ||
    (decide (w.1 % 268435456 = 0) && s.mapped w.1 (w.2 - w.1) &&
      (match s.hueReg w.1 with | some (.die _) => false | _ => true) && !overlaps w.1 w.2 s.imageBase s.journalEnd)

/-- The image's length and the window (15 R431, R434; 14 R430; reason 0x1003). -/
def State.checkArea (s : State) (len : Nat) : Option LoadFail :=
  let f : LoadFail := { status := stRefusedFit, reason := 0x1003, stage := 1 }
  firstOf [failIf (decide (4 * gib < len)) { f with value := len, limit := 4 * gib },
    failIf (!s.windowOk) { f with value := s.window.1, limit := s.window.2 - s.window.1 }]

/-! ### Stages 2 to 4 (15 R438 to R441; 01 R30) -/

/-- Section digests; the manifest and signature sections count as no bytes (15 R435, reason 0x1101; log 50). -/
def checkDigests (bs : List Byte) : Option LoadFail :=
  let ss := parseSects bs
  let m := sectBytes bs (manifestOf ss).2
  firstIn ss.zipIdx (fun x =>
    let want := sha512 (if x.1.stype = 1 ∨ x.1.stype = 8 then [] else sectBytes bs x.1)
    failIf (decide (manHash m x.2 ≠ want))
      { status := stRefusedSignature, reason := 0x1101, stage := 2, sect := x.2 })

/-- The signed message: header, section table, manifest (15 R439). -/
def signedMessage (bs : List Byte) : List Byte :=
  let ss := parseSects bs
  sha512 (bs.take 128 ++ (bs.drop (fieldLe bs 24 8)).take (32 * imgSects bs) ++ sectBytes bs (manifestOf ss).2)

/-- The signature (15 R439, R440; reasons 0x1102, 0x1103). -/
def State.checkSignature (s : State) (bs : List Byte) (strict : Bool) : Option LoadFail :=
  let ss := parseSects bs
  let f : LoadFail := { status := stRefusedSignature, reason := 0x1102, stage := 2 }
  match indexOf (fun x => decide (x.stype = 8)) ss with
  | none => failIf strict f
  | some i =>
    let g := sectBytes bs (ss.getD i {})
    let key := g.take 32
    failIf (!(s.sec.policy.imageKeys.contains key) || !zeroBytes g 96 32 ||
      !Config.ed25519Verify key (signedMessage bs) ((g.drop 32).take 64)) { f with reason := 0x1103, sect := i }

/-- The section an operation of the variable or parameter-bound list lies in: that of its entry's kernel (15 R437). -/
def Image.opSect (i : Image) (e : Nat) : Nat :=
  match (i.parts.entries.getD e {}).kind with
  | .product _ => (indexOf (fun s => decide (s.stype = 2)) i.sects).getD 0xFFFF
  | .stream x _ => x
  | .register x _ _ _ => x
  | .solve x _ _ _ => x
  | .dynamics x _ _ _ _ _ => x
  | .exchange _ => (indexOf (fun s => decide (s.stype = 6)) i.sects).getD 0xFFFF

/-- The identifier of an entry's kernel; all ones for no entry. -/
def Image.opIdOf (i : Image) (e : Nat) : Nat :=
  match i.parts.entries[e]? with | some x => x.opId | none => 0xFFFFFFFF

/-- Strict mode: an empty variable list (15 R440, reason 0x1201). -/
def Image.checkStrict (i : Image) : Option LoadFail :=
  match i.strict, i.vars with
  | true, v :: _ => some { status := stRefusedStrict, reason := 0x1201, stage := 3, value := i.vars.length, limit := 0
                           entry := v.1, opId := i.opIdOf v.1, sect := i.opSect v.1, off := v.2.1 }
  | _, _ => none

/-- Contract revision and declared parameters (01 R30; 15 R438; reason 0x1301). -/
def Image.checkParams (i : Image) : Option LoadFail :=
  let f : LoadFail := { status := stRefusedFit, reason := 0x1301, stage := 4, sect := (manifestOf i.sects).1 }
  firstOf [failIf (decide (i.contract = 0) || decide (2 < i.contract)) { f with value := i.contract, limit := 2 },
    firstIn i.params (fun p =>
      match Config.params[p.1]? with
      | none => some { f with value := p.1, limit := 12 }
      | some v => failIf (decide (p.2 ≠ v)) { f with value := p.2, limit := v })]

/-! ### Stage 5: tokens and training declarations (01 R21, R22; 15 R436; 07 R170 to R173, R187) -/

/-- Whether a token identifier is declared. -/
def Image.hasTok (i : Image) (t : Nat) : Bool := i.toks.any (fun d => decide (d.tok = t))

/-- Whether a byte range lies in a section of some type. -/
def Image.inSect (i : Image) (types : List Nat) (x off n : Nat) : Bool :=
  match i.sects[x]? with
  | some s => types.contains s.stype && decide (off + n ≤ s.len)
  | none => false

/-- A product operand of an image: where a matrix lies whose stored indices have the extents of its token (04 R94, R549). -/
def Image.opForm (i : Image) (d : OperandDesc) : OpView :=
  let t := i.tok d.tok
  { fmt := tokFmt t, layout := d.layout, pitch := d.pitch, ext0 := t.ext.getD 0 1, base := d.base, sbase := d.sbase }

/-- The operands and outputs of products that name a unit-home token; of another home they name a landing area (04 R549). -/
def Image.productUses (i : Image) (t : Nat) : List OperandDesc :=
  if (i.tok t).home ≠ 0 then [] else (i.parts.entries.flatMap (fun e => match e.kind with
    | .product d => [d.a, d.b, d.out] ++ d.c.toList
    | _ => [])).filter (fun o => decide (o.tok = t))

/-- The elements of a product operand's plane and of its scale plane with the padding of its layout (04 R94 to R96). -/
def paddedPlanes (v : OpView) (ext1 : Nat) : Nat × Nat :=
  let b := (Fmt.block v.fmt).getD 1
  let kp := alignUp v.ext0 32
  let kb := alignUp (ceilDiv v.ext0 b) 32
  match v.layout with
  | 0 => (alignUp ext1 32 * kp, alignUp ext1 32 * kb)
  | 1 => (alignUp ext1 64 * kp, alignUp ext1 64 * kb)
  | _ => ((ext1 - 1) * v.pitch + alignUp v.ext0 b, (ext1 - 1) * ceilDiv v.pitch b + ceilDiv v.ext0 b)

/-- The second extent of a token that a product names: the first stored index's, or 1 (04 R549). -/
def secondExt (d : TokDecl) : Nat := if d.ndim < 2 then 1 else d.ext.getD 1 1

/-- Bytes of a token where a unit holds it whole: its elements, and what the layouts of the products that name it need with
their padding (02 R46 to R48; 04 R95; 15 R553; log 46). -/
def Image.tokSize (i : Image) (d : TokDecl) : Nat :=
  (i.productUses d.tok).foldl (fun n o =>
    let v := i.opForm o
    let x := paddedPlanes v (secondExt d)
    let plane := o.base + planeBytes v.fmt x.1
    max n (if Fmt.isBlock v.fmt then max plane (o.sbase + x.2) else plane)) (tokBytes d)

/-- The positions of a constant operand's padding in its element plane, and in its scale plane (04 R95, R96). -/
def padPlaces (v : OpView) (ext1 : Nat) : List Nat × List Nat :=
  let x := paddedPlanes v ext1
  let es := (List.range ext1).flatMap (fun a => (List.range v.ext0).map (fun b => if v.layout = 1 then (b, a) else (a, b)))
  let held := es.map (fun p => v.pos p.1 p.2)
  let scales := es.map (fun p => v.scalePos p.1 p.2)
  if v.layout = 2 then ([], [])
  else ((List.range x.1).filter (fun k => !held.contains k), (List.range x.2).filter (fun k => !scales.contains k))

/-- Whether a constant operand's padding holds zero codes, in its bytes relative to the token; only the loader sees it
(04 R95). -/
def Image.padZero (i : Image) (bs : List Byte) (o : OperandDesc) : Bool :=
  let d := i.tok o.tok
  match i.parts.consts.find? (fun c => decide (c.tok = o.tok) && decide (d.home = 0)) with
  | none => true
  | some c =>
    let v := i.opForm o
    let m : Mem := Mem.writeN {} 0 ((sectFrom bs i.sects c.sect c.off).take (i.tokSize d))
    let p := padPlaces v (secondExt d)
    p.1.all (fun k => decide (readElem m v.fmt o.base k = 0)) &&
      (!Fmt.isBlock v.fmt || p.2.all (fun k => decide (m.read (o.sbase + k) = 0)))

/-- Whether a token declares what R21 and R436 admit: format, dimensions, home, zero bytes, producer, constant data. Neither
bounds an extent from below, and a product with K = 0 has operands of extent 0 (03 R86). -/
def Image.tokOk (i : Image) (d : TokDecl) : Bool :=
  let const := bitOf d.flags 5
  decide (1 ≤ d.ndim) && decide (d.ndim ≤ 5) && decide (d.home ≤ 3) && decide (d.zeros = 0) &&
    (if const then decide (d.producer = 0xFFFFFFFF) && (i.parts.consts.any (fun c => decide (c.tok = d.tok) &&
        i.inSect [7] c.sect c.off (i.tokSize d)))
      else decide (d.producer < i.parts.entries.length))

/-- How an output of an entry writes a residual-stream token: an FP32 Stream output with `xscale` 0 and `dyn_en` 0, or an
FP32 Product output (07 R170). -/
def Image.residualOk (i : Image) (d : TokDecl) : Bool :=
  decide (d.fmt = 2) && (match (i.parts.entries.getD d.producer {}).kind with
    | .product p => decide (p.out.tok = d.tok)
    | .stream _ _ => (match i.chains.find? (fun c => decide (c.1 = d.producer)) with
      | some c =>
        let os := (c.2.outs.take c.2.nOut).filter (fun o => decide (o.tok = d.tok))
        !os.isEmpty && os.all (fun o => decide (o.fmt = 2) && decide (o.xscale = 0) && !o.dynEn)
      | none => false)
    | _ => false)

/-- Whether the verdict ranges of a token count every element once (07 R173). -/
def rangesOk (rs : List VRange) (n : Nat) : Bool :=
  let ps := sortOn (fun r : VRange => r.lo) (rs.filter (fun r => decide (r.lo < r.hi)))
  decide (ps.foldl (fun (a : Option Nat) r => match a with
    | some x => if r.lo = x then some r.hi else none
    | none => none) (some 0) = some n)

/-- A token's checks of stage 5 (reasons 0x1401, 0x1402, 0x1408). -/
def Image.checkTok (i : Image) (x : TokDecl × Nat) : Option LoadFail :=
  let d := x.1
  let f (r : Nat) : LoadFail := { shape5 r with tok := d.tok, entry := d.producer, sect := (manifestOf i.sects).1 }
  firstOf [failIf (Fmt.ofNum d.fmt).isNone { f 0x1401 with value := d.fmt, limit := 16 },
    failIf (!i.tokOk d || (i.toks.take x.2).any (fun y => decide (y.tok = d.tok))) (f 0x1401),
    firstIn (List.range d.ndim) (fun k =>
      let e := d.ext.getD k 1
      failIf (bitOf d.seqMask k && decide (1048576 < e)) { f 0x1402 with value := e, limit := 1048576, cls := k }),
    failIf (bitOf d.flags 3 && !i.residualOk d) (f 0x1408),
    failIf (bitOf d.flags 2 && !([2, 3, 4, 5, 6].contains d.fmt)) { f 0x1408 with value := d.fmt },
    failIf (bitOf d.flags 2 && !rangesOk (i.parts.vranges.filter (fun r => decide (r.tok = d.tok))) (tokElems d))
      (f 0x1408),
    failIf (bitOf d.flags 0 && !bitOf i.mflags 0) (f 0x1408)]

/-- The manifest's checks of stage 5: every list inside the manifest, the tokens, `m_flags` (15 R435, R436; 07 R172). -/
def Image.checkManifest (i : Image) (m : List Byte) : Option LoadFail :=
  let f : LoadFail := { shape5 0x1401 with sect := (manifestOf i.sects).1 }
  let inside (off n w : Nat) : Bool := decide (n = 0) || decide (off + n * w ≤ m.length)
  firstOf [failIf (!inside (fieldLe m 32 8) (fieldLe m 16 4) 64 || !zeroBytes m 72 184) f,
    firstIn i.toks.zipIdx i.checkTok,
    failIf (decide (i.mflags ≠ (if i.toks.any (fun d => bitOf d.flags 2) then 1 else 0)))
      { f with reason := 0x1408, value := i.mflags },
    failIf (!inside (fieldLe m 40 8) (fieldLe m 20 4) 16 || !inside (fieldLe m 48 8) (fieldLe m 24 4) 16)
      { f with reason := 0x140C }]

/-! ### Stage 5: schedule entries, products, Tint groups (01 R17, R18, R33; 03 R72, R85; 04 R95, R101, R109, R549) -/

/-- Whether an explicit map covers every thread of `t` once, with units below `units` (01 R33). -/
def mapOk (m : List UMap) (t units : Nat) : Bool :=
  m.all (fun x => decide (x.g < units)) &&
    decide ((sortOn (fun x : UMap => x.first) (m.filter (fun x => decide (0 < x.count)))).foldl
      (fun (a : Option Nat) x => match a with
        | some v => if x.first = v then some (v + x.count) else none
        | none => none) (some 0) = some t)

/-- Whether an index space is one R17 admits. -/
def spaceOk (e : Entry) : Bool :=
  decide (1 ≤ e.space.length) && decide (e.space.length ≤ 3) && e.space.all (fun x => decide (1 ≤ x)) &&
    decide (prodL e.space ≤ 2 ^ 32)

/-- The extents of a stored matrix's two indices (p, q) by layout (04 R549). -/
def storedExt (layout : Nat) (d : TokDecl) : Nat × Nat :=
  let e0 := d.ext.getD 0 1
  let e1 := if d.ndim < 2 then 1 else d.ext.getD 1 1
  if layout = 1 then (e0, e1) else (e1, e0)

/-- Whether an operand is aligned, pitched and shaped as R94, R95 and R549 require; `p`, `q` are the extents of its two
stored indices. -/
def Image.operandOk (i : Image) (d : OperandDesc) (p q : Nat) : Bool :=
  let t := i.tok d.tok
  let f := (Fmt.ofNum t.fmt).getD .fp32
  i.hasTok d.tok && decide (d.layout ≤ 2) && decide (d.base % 256 = 0) && decide (storedExt d.layout t = (p, q)) &&
    ((t.ext.take t.ndim).drop 2).all (fun e => decide (e = 1)) &&
    (decide (d.layout ≠ 2) || (decide (d.pitch * Fmt.bits (Fmt.elem f) % 512 = 0) && decide (q ≤ d.pitch)))

/-- The extents of an operand's stored indices: swapped when it is used transposed (04 R549). -/
def swapExt (trans : Bool) (a b : Nat) : Nat × Nat := if trans then (b, a) else (a, b)

/-- Whether the operands, pairing, accumulator input, layouts and array of the product of entry `e` are ones the chapter
admits; `tint` marks the adapter products of a Tint group. `bs` is the image (03 R72, R85; 04 R95, R97, R109 to R111,
R549). -/
def Image.prodOk (i : Image) (bs : List Byte) (e : Nat) (d : ProdDesc) : Bool :=
  let fmt (o : OperandDesc) : Fmt := (Fmt.ofNum (i.tok o.tok).fmt).getD .fp32
  let a := swapExt d.a.trans d.m d.k
  let b := swapExt d.b.trans d.k d.n
  i.operandOk d.a a.1 a.2 && i.operandOk d.b b.1 b.2 && i.operandOk d.out d.m d.n &&
    (match prodRow d (fmt d.a) (fmt d.b) with
      | none => false
      | some row => match d.c with
        | none => true
        | some c => DotRow.cOk row (fmt c) && i.operandOk c d.m d.n) &&
    decide (d.arr ≤ 2) && decide (d.tint = i.isAdapter e) && ([d.a, d.b] ++ d.c.toList).all (i.padZero bs)

/-- Whether a conversion field is one R61 admits for a format: stochastic rounding only into the narrow formats. -/
def cvtOk (cvt : Nat) (f : Fmt) : Bool :=
  decide (cvt ≤ 1) || (decide (cvt ≤ 3) &&
    [Fmt.fp16, .bf16, .pewter8, .smoke8, .fawn6, .dove4, .pewter8b32, .dove4b16].contains f)

/-- Whether an entry's kernel reference lies in a section of its type (15 R432). -/
def Image.refOk (i : Image) (e : Entry) : Bool :=
  match e.kind with
  | .product _ => true
  | .stream x o => i.inSect [4] x o 656
  | .register x o n _ => i.inSect [3] x o n && decide (n % 4 = 0) && decide (o % 4 = 0)
  | .solve x o bx bo => i.inSect [5] x o 192 && decide (o % 64 = 0) && i.inSect [5, 7] bx bo 64
  | .dynamics x o mx mo bx bo => i.inSect [5] x o 128 && decide (o % 64 = 0) && i.inSect [7] mx mo 64 && i.inSect [5, 7] bx bo 64
  | .exchange c => i.ctxs.any (fun x => decide (x.1.ctx = c))

/-- The reason a bad kernel reference takes (15 R446; log 50). -/
def refReason (e : Entry) : Nat :=
  match e.kind with
  | .product _ => 0x1404
  | .stream _ _ => 0x1405
  | .register _ _ _ _ => 0x1406
  | .solve _ _ _ _ => 0x1409
  | .dynamics _ _ _ _ _ _ => 0x1409
  | .exchange _ => 0x140A

/-- A schedule entry's checks of stage 5 (reasons 0x1403, 0x1404, 0x1406, 0x1407, 0x1408). -/
def Image.checkEntry (i : Image) (bs : List Byte) (x : Entry × Nat) : Option LoadFail :=
  let e := x.1
  let f (r : Nat) : LoadFail :=
    { shape5 r with entry := x.2, opId := e.opId, sect := (indexOf (fun s => decide (s.stype = 2)) i.sects).getD 0xFFFF }
  firstOf [failIf (!spaceOk e) { f 0x1403 with value := prodL e.space, limit := 2 ^ 32 },
    failIf (!e.map.isEmpty && !mapOk e.map (prodL e.space) (32768 * 224)) (f 0x1403),
    failIf (!i.refOk e) (f (refReason e)),
    (match e.kind with
      | .product d =>
        let big := max d.m (max d.n d.k)
        firstOf [failIf (decide (2 ^ 30 < big)) { f 0x1403 with value := big, limit := 2 ^ 30 },
          failIf (decide (e.space.getD 0 1 ≠ ceilDiv d.n 64) || decide (e.space.getD 1 1 ≠ ceilDiv d.m 32) ||
            decide (e.space.getD 2 1 ≠ 1)) (f 0x1403),
          failIf (!i.prodOk bs x.2 d) (f 0x1404),
          failIf (!cvtOk d.cvt ((Fmt.ofNum (i.tok d.out.tok).fmt).getD .fp32)) { f 0x1407 with value := d.cvt }]
      | .register _ _ _ b =>
        failIf (match b with | some v => decide (v < 9) | none => true) { f 0x1406 with value := b.getD 0, limit := 9 }
      | _ => none),
    firstIn e.writes (fun t =>
      failIf (decide (e.decl = .optimizer) && !bitOf (i.tok t).flags 0) { f 0x1408 with tok := t })]

/-- Whether an entry is a product that reads one token as A and another as B, each transposed or not, of some extents m, k,
n, and an accumulator input (04 R111). -/
def Image.isProd (i : Image) (e : Nat) (a b : Nat × Bool) (mkn : Nat × Nat × Nat) (c : Option Nat) : Bool :=
  match i.parts.entries[e]? with
  | some x => (match x.kind with
    | .product d => decide ((d.a.tok, d.a.trans) = a) && decide ((d.b.tok, d.b.trans) = b) &&
      decide ((d.m, d.k, d.n) = mkn) && decide (d.c.map (fun o => o.tok) = c)
    | _ => false)
  | none => false

/-- The output token of a product entry, its A operand's token, and m, k, n (04 R111). -/
def Image.prodForm (i : Image) (e : Nat) : Nat × Nat × Nat × Nat × Nat :=
  match (i.parts.entries.getD e {}).kind with
  | .product d => (d.out.tok, d.a.tok, d.m, d.k, d.n)
  | _ => (0xFFFFFFFF, 0xFFFFFFFF, 0, 0, 0)

/-- Whether the eight products of a micro-batch are those of the table: their operands, shapes, accumulator inputs, and FP32
outputs where it names them (04 R109, R111). -/
def Image.batchOk (i : Image) (g : Tint) (b : TintBatch) : Bool :=
  let (p0, x, m, k, n) := i.prodForm b.p0
  let (d0, dy, _) := i.prodForm b.d0
  let h := (i.prodForm b.h).1
  let gt := (i.prodForm b.g).1
  let r := g.rank
  i.isProd b.p0 (x, false) (g.w, false) (m, k, n) none && i.isProd b.h (x, false) (g.u, false) (m, k, r) none &&
    i.isProd b.y (h, false) (g.v, false) (m, r, n) (some p0) && i.isProd b.d0 (dy, false) (g.w, true) (m, n, k) none &&
    i.isProd b.g (dy, false) (g.v, true) (m, n, r) none && i.isProd b.dv (h, true) (dy, false) (r, m, n) none &&
    i.isProd b.du (x, true) (gt, false) (k, m, r) none && i.isProd b.dx (gt, false) (g.u, true) (m, r, k) (some d0) &&
    [p0, h, d0, gt, (i.prodForm b.dv).1, (i.prodForm b.du).1].all (fun t => decide ((i.tok t).fmt = 2))

/-- A Tint group's checks: rank 1 to 128, FP32 adapters, a frozen weight that no product or optimizer entry writes and that
is not versioned, and the products of its micro-batches (04 R109, R111, reason 0x1404). -/
def Image.checkTint (i : Image) (g : Tint) : Option LoadFail :=
  let f : LoadFail := { shape5 0x1404 with tok := g.w }
  let written := i.parts.entries.any (fun e => e.writes.contains g.w &&
    (decide (e.decl = .optimizer) || (match e.kind with | .product _ => true | _ => false)))
  firstOf [failIf (decide (g.rank = 0) || decide (128 < g.rank)) { f with value := g.rank, limit := 128 },
    failIf (written || bitOf (i.tok g.w).flags 0 || [g.u, g.v].any (fun t => decide ((i.tok t).fmt ≠ 2)) ||
      !g.batches.all (i.batchOk g)) f]

/-! ### Stage 5: Slate code (06 R149, R152 to R161) -/

/-- A kernel's code checked, instruction by instruction: words that spell a command, one vector type on every path to each
vector instruction, which is one the chapter defines there, and code that control never leaves but at `send` (reasons
0x1406, 0x1407; log 50). -/
def checkKernel (code : List (BitVec 32)) (f : LoadFail) (base : Nat) : Option LoadFail :=
  let cmds := code.map (slateInstr 0)
  let place (j : Nat) : LoadFail := { f with off := base + 4 * j, value := (code.getD j 0).toNat }
  match cmds.findIdx? Option.isNone with
  | some j => some (place j)
  | none =>
    let is := cmds.filterMap id
    let fl := flowOf is
    firstIn is.zipIdx (fun x =>
      let here := fl.getD x.2 (false, [])
      let reached := here.1 || !here.2.isEmpty
      firstOf [failIf (decide (1 < here.2.length) || (isVector x.1 && here.1)) (place x.2),
        firstIn here.2 (fun t => failIf (isVector x.1 && !typedOk x.1 t) (place x.2)),
        failIf (reached && (nextOf x.1 x.2).any (fun k => match k with
          | some k => decide (is.length ≤ k)
          | none => true)) (place x.2),
        (match x.1 with
          | .vcvt _ _ cvt dst => failIf (!cvtOk cvt dst) { place x.2 with reason := 0x1407 }
          | _ => none)])

/-- The kernels of a code section, in ascending offset. -/
def Image.checkCode (i : Image) (x : Nat) : Option LoadFail :=
  let ks := i.kernels.filterMap (fun k => match (i.parts.entries.getD k.1 {}).kind with
    | .register y o _ _ => if y = x then some (o, k) else none
    | _ => none)
  firstIn (sortOn (fun k => k.1) ks) (fun k =>
    checkKernel k.2.2 { shape5 0x1406 with entry := k.2.1, opId := i.opIdOf k.2.1, sect := x } k.1)

/-! ### Stage 5: Chroma records (05 R117 to R130, R136, R140; 02 R61, R548) -/

/-- Whether a source field is one that a micro-operation may use: `row` in the row program, `p2` in pass 2 only (05 R128). -/
def srcOk (row p2 : Bool) (v : Nat) : Bool :=
  decide (v < 0x08) || (decide (v < 0x0C) && p2 && !row) || (decide (0x0C ≤ v) && decide (v < 0x10) && row) ||
    (decide (v = 0x10) && (row || p2)) || (decide (0x11 ≤ v) && decide (v ≤ 0x15) && !row) ||
    (decide (0x20 ≤ v) && decide (v < 0x30))

/-- Whether a micro-operation is one R127 to R129 admit; `edge` is the entry stage, the exit stage or the row program. A
source field that the operation does not use may hold any value, which R128 does not say (DESIGN CHOICE, log 57). -/
def microOk (row rowMode edge : Bool) (o : BitVec 32) : Bool :=
  let v := o.toNat
  let op := bits v 27 5
  let pass := bits v 2 2
  let p2 := decide (pass = 2)
  let s (lo : Nat) : Bool := srcOk row p2 (bits v lo 6)
  decide (op ≤ 0x0A) && decide (bits v 0 2 = 0) && (row || (decide (pass ≠ 0) && (rowMode || decide (pass = 3)))) &&
    (decide (op < 0x09) || edge) &&
    (match op with
      | 0 | 8 => true
      | 3 => s 18 && s 12 && s 6
      | 9 => s 18
      | _ => s 18 && s 12)

/-- The stage of per-element micro-operation `k` (05 R126). -/
def stageOf : List Nat → Nat → Nat
  | [], _ => 0
  | c :: cs, k => if k < c then 0 else stageOf cs (k - c) + 1

/-- Whether a header breaks a rule of R118, R125, R126 or R136. -/
def chainHeadOk (r : ChainRec) : Bool :=
  let used := r.stageOps.foldl (fun a b => a + b) 0
  let es := r.red.filter (fun x => decide (x.rop = 4))
  decide (r.nIn ≤ 4) && decide (r.nOut ≤ 2) && decide (1 ≤ r.nStage) && decide (r.nStage ≤ 8) &&
    r.stageOps.all (fun c => decide (c ≤ 3)) && (r.stageOps.drop r.nStage).all (fun c => decide (c = 0)) &&
    decide (used ≤ 24) && decide (r.rpLen ≤ 12) && !r.redRsvd && r.red.all (fun x => decide (x.rop ≤ 4)) &&
    (r.rowMode || (decide (r.rpLen = 0) && r.red.all (fun x => decide (x = {})))) &&
    (r.inPass.take r.nIn).all (fun p => if r.rowMode then decide (p ≠ 0) else decide (p = 3)) &&
    es.all (fun x => es.all (fun y => decide (x.maskEn = y.maskEn) && (!x.maskEn || decide (x.maskSel = y.maskSel))))

/-- Whether a record's micro-operations are ones R126 to R129 admit. -/
def chainOpsOk (r : ChainRec) : Bool :=
  let used := r.stageOps.foldl (fun a b => a + b) 0
  (r.ops.take used).zipIdx.all (fun x =>
    let s := stageOf r.stageOps x.2
    microOk false r.rowMode (decide (s = 0) || decide (s + 1 = r.nStage)) x.1) &&
    (r.rp.take r.rpLen).all (fun o => microOk true r.rowMode true o)

/-- The lowest and highest element offsets of a descriptor (05 R121). -/
def TDesc.reach (d : TDesc) : Int × Int :=
  ((d.ext.zip d.str).take d.ndim).foldl (fun (a : Int × Int) x =>
    let v := ((x.1 : Int) - 1) * x.2
    (a.1 + min 0 v, a.2 + max 0 v)) (0, 0)

/-- What the higher strides of a sub-byte or block-scaled format are multiples of (05 R122). -/
def strideUnit (f : Fmt) : Nat :=
  match Fmt.block f with
  | some b => b
  | none => if Fmt.bits f = 4 then 2 else if Fmt.bits f = 6 then 4 else 1

/-- Whether strides suit a format (05 R122). -/
def stridesOk (f : Fmt) (ndim : Nat) (str : List Int) : Bool :=
  decide (8 ≤ Fmt.bits f) && (Fmt.block f).isNone ||
    (decide (str.getD 0 0 = 1) && ((str.take ndim).drop 1).all (fun v => decide (v % (strideUnit f : Int) = 0)))

/-- The element-plane bytes that a descriptor reaches: lowest and one past the highest (05 R121). -/
def TDesc.bytes (d : TDesc) (f : Fmt) : Int × Int :=
  let r := d.reach
  let b := (Fmt.bits f : Int)
  ((d.base : Int) + r.1 * b / 8, (d.base : Int) + ((r.2 + 1) * b + 7) / 8)

/-- Whether a descriptor is one that R120 to R122 admit, for an image and shared extents. -/
def Image.tdescOk (i : Image) (out : Bool) (ext : List Nat) (d : TDesc) : Bool :=
  match Fmt.ofNum d.fmt with
  | none => false
  | some f =>
    let by' := d.bytes f
    let r := d.reach
    let sc : Int × Int := match Fmt.block f with
      | some b => ((d.sbase : Int) + r.1 / (b : Int), (d.sbase : Int) + r.2 / (b : Int) + 1)
      | none => (0, 0)
    decide (1 ≤ d.ndim) && decide (d.ndim ≤ 5) && i.hasTok d.tok && decide ((i.tok d.tok).fmt = d.fmt) &&
      decide (d.base % 64 = 0) && (d.ext.drop d.ndim).all (fun e => decide (e = 1)) && decide (d.ext = ext) &&
      stridesOk f d.ndim d.str && decide (0 ≤ by'.1) && decide (by'.2 ≤ 3145728) && decide (0 ≤ sc.1) &&
      decide (sc.2 ≤ 3145728) && (out || !d.dynEn)

/-- Whether a chain's formats suit it: FX streams never, FP64 inputs only in a copy chain (05 R119). -/
def chainFmtOk (r : ChainRec) : Bool :=
  let fmts := (r.ins ++ r.outs).map (fun d => d.fmt)
  let copy := decide (r.nIn = 1) && decide (r.nOut = 1) && r.stageOps.all (fun c => decide (c = 0)) && !r.rowMode &&
    (r.ins ++ r.outs).all (fun d => decide (d.xscale = 0) && !d.dynEn)
  !fmts.contains 15 && !fmts.contains 16 && (!(r.ins.any (fun d => decide (d.fmt = 1))) || copy)

/-- The elements' offsets of a descriptor, by iteration index (05 R121, R123). -/
def TDesc.offsets (d : TDesc) : List Int := (List.range (prodL d.ext)).map (fun k => d.offset (loopIdx d.ext k))

/-- The number of a plane's element that lies at byte `a` of it, when a group of whole bytes begins there (02 R46, R47). -/
def elemAt (f : Fmt) (a : Nat) : Option Nat :=
  let g := byteGroup f
  if a % g.2 = 0 then some (a / g.2 * g.1) else none

/-- Whether an output's stochastic-rounding index `e_base` + iota is each element's linear index in its token: it has the
token's extents and `e_base` 0, or its elements are packed in linear order from the element `e_base`, which is the one at
`base` where a unit-home token's plane begins at its address (05 R123; 02 R60; log 57). -/
def Image.srOk (i : Image) (d : TDesc) : Bool :=
  let t := i.tok d.tok
  let n := max 1 t.ndim
  let whole := decide (d.eBase = 0) && decide (d.ext = (List.range d.ext.length).map (fun k => if k < n then t.ext.getD k 1 else 1))
  let packed := d.offsets.zipIdx.all (fun x => decide (x.1 = (x.2 : Int))) &&
    (if t.home = 0 then decide (elemAt (tokFmt t) d.base = some d.eBase) else decide (d.eBase + prodL d.ext ≤ tokElems t))
  decide (d.cvt ≤ 1) || whole || packed

/-- Whether an explicit map splits a row of `e0` elements over units (05 R140). -/
def mapSplits (m : List UMap) (e0 : Nat) : Bool :=
  m.any (fun x => decide (0 < x.count) && m.any (fun y => decide (0 < y.count) && decide (x.g ≠ y.g) &&
    (decide (x.first / e0 = (y.first + y.count - 1) / e0) || decide ((x.first + x.count - 1) / e0 = y.first / e0))))

/-- Whether some block of an output would be written in part by a unit: the positions of each block that the record's
elements name, unit by unit (02 R548). `unit` gives an element's unit. -/
def blocksWhole (d : TDesc) (decl : TokDecl) (unit : Nat → Nat) : Bool :=
  match Fmt.block (tokFmt decl) with
  | none => true
  | some b =>
    let e0 := max 1 (decl.ext.headD 1)
    let els := (List.range (prodL d.ext)).map (fun k => (k, d.eBase + k))
    let blkOf (e : Nat) : Nat := e / e0 * ceilDiv e0 b + e % e0 / b
    let size (e : Nat) : Nat := min b (e0 - e % e0 / b * b)
    els.all (fun x =>
      let mine := els.filter (fun y => decide (blkOf y.2 = blkOf x.2))
      decide (mine.length = size x.2) && mine.all (fun y => decide (unit y.1 = unit x.1)))

/-- The bytes that a descriptor's elements take, first and next byte, in the element plane and in the scale plane (05
R121). -/
def TDesc.cells (d : TDesc) (f : Fmt) : List (Nat × Nat) :=
  d.offsets.flatMap (fun o =>
    let p := planeBase f d.base o
    let e := (p.1 + (elemPlace f p.2).1, p.1 + (elemPlace f p.2).1 + elemSpan f p.2)
    if Fmt.isBlock f then [e, (scaleByte f d.sbase o, scaleByte f d.sbase o + 1)] else [e])

/-- Whether two outputs write one byte: the same token's, or two tokens' where both lie at their descriptors' addresses in
every unit's store (05 R122; log 58). -/
def Image.outsShare (i : Image) (a b : TDesc) : Bool :=
  let fmt (d : TDesc) : Fmt := (Fmt.ofNum d.fmt).getD .fp32
  let landing (d : TDesc) : Bool := decide ((i.tok d.tok).home ≠ 0)
  (decide (a.tok = b.tok) || (landing a && landing b)) &&
    (a.cells (fmt a)).any (fun x => (b.cells (fmt b)).any (fun y => overlaps x.1 x.2 y.1 y.2))

/-- A chain record's checks of stage 5 (reasons 0x1405, 0x1407). -/
def Image.checkChain (i : Image) (x : Nat) (off : Nat) (raw : List Byte) (e : Nat) (r : ChainRec) : Option LoadFail :=
  let f (n : Nat) : LoadFail := { shape5 n with entry := e, opId := r.opId, sect := x, off := off }
  let en := i.parts.entries.getD e {}
  let ext := ChainRec.ext r
  let fmt (d : TDesc) : Fmt := (Fmt.ofNum d.fmt).getD .fp32
  let share := match r.outs with
    | [a, b] => i.outsShare a b
    | _ => false
  firstOf [failIf (!chainRsvd raw || !chainHeadOk r || !chainOpsOk r) (f 0x1405),
    firstIn r.ins (fun d => failIf (!i.tdescOk false ext d) { f 0x1405 with tok := d.tok }),
    firstIn r.outs (fun d => failIf (!i.tdescOk true ext d) { f 0x1405 with tok := d.tok }),
    failIf (!chainFmtOk r || share) (f 0x1405),
    failIf (decide (en.space.getD 0 1 ≠ ext.getD 0 1) || decide (en.space.getD 1 1 ≠ ext.getD 1 1) ||
      decide (en.space.getD 2 1 ≠ prodL (ext.drop 2))) (f 0x1405),
    failIf (!en.map.isEmpty && r.red.any (fun s => decide (s.rop = 4)) && mapSplits en.map (max 1 (ext.getD 0 1))) (f 0x1405),
    firstIn r.outs (fun d =>
      firstOf [failIf (!cvtOk d.cvt (fmt d) || !i.srOk d) { f 0x1407 with tok := d.tok, value := d.cvt },
        failIf (!blocksWhole d (i.tok d.tok) (fun k => if en.map.isEmpty then 0 else unitOfThread en 1 k))
          { f 0x1407 with tok := d.tok }])]

/-- The records of a Chroma section, in ascending offset. -/
def Image.checkChains (i : Image) (bs : List Byte) (x : Nat) : Option LoadFail :=
  let cs := i.chains.filterMap (fun c => match (i.parts.entries.getD c.1 {}).kind with
    | .stream y o => if y = x then some (o, c) else none
    | _ => none)
  firstIn (sortOn (fun c => c.1) cs) (fun c => i.checkChain x c.1 (sectFrom bs i.sects x c.1) c.2.1 c.2.2)

/-! ### Stage 5: descriptors and models (08 R207; 09 R247, R263; 10 R279) -/

/-- The lowest free address at or above `a` that is a multiple of 256, outside a window of the same region (15 R445). -/
def freeAddr (a n wlo whi : Nat) : Nat :=
  let b := alignUp a 256
  if wlo < whi ∧ b < whi ∧ wlo < b + n then alignUp whi 256 else b

/-- The window's offsets in the capacity region it lies in; empty when it lies in none (14 R405). -/
def State.windowCap (s : State) : Nat × Nat :=
  let w := s.window
  match s.hueReg w.1 with
  | some (.cap _ o) => if w.1 < w.2 then (o, o + (w.2 - w.1)) else (0, 0)
  | _ => (0, 0)

/-- The offsets of the tokens of one Hue home in its region, in token-table order, and where the next would lie (15 R445).
`skip` is the window's range there; a versioned token takes two slots. -/
def placeHome (toks : List TokDecl) (home : Nat) (skip : Nat × Nat) : List Placed :=
  (toks.foldl (fun (a : List Placed × Nat) d =>
    if d.home = home then
      let n := tokBytes d
      let x := freeAddr a.2 n skip.1 skip.2
      let y := if bitOf d.flags 0 then freeAddr (x + n) n skip.1 skip.2 else x
      ((a.1 ++ [{ tok := d.tok, home := home, addr0 := x, addr1 := y, bytes := n }]), y + n)
    else a) ([], 0)).1

/-- The placement of the tokens that lie in Hue, which no block changes (15 R445, R553). -/
def State.placeHue (s : State) (i : Image) : List Placed :=
  placeHome i.toks 1 (0, 0) ++ placeHome i.toks 2 (0, 0) ++ placeHome i.toks 3 s.windowCap

/-- The bytes a stream reaches in memory: lowest and one past the highest (10 R279; 05 R121). -/
def streamReach (d : StreamDesc) : Int × Int :=
  let f := (Fmt.ofNum d.fmt).getD .fp32
  TDesc.bytes { base := d.mbase, str := d.str, ext := d.ext, ndim := d.ndim : TDesc } f

/-- A prefetch stream's checks (10 R279, reason 0x140B). -/
def State.checkStream (s : State) (i : Image) (bs : List Byte) (x : StreamRef × StreamDesc) : Option LoadFail :=
  let d := x.2
  let e := i.parts.entries.getD x.1.entry {}
  let fail : LoadFail := { shape5 0x140B with entry := x.1.entry, opId := d.opId, sect := x.1.sect, off := x.1.off }
  let f := (Fmt.ofNum d.fmt).getD .fp32
  let r := streamReach d
  let toks := if d.write then e.writes else e.reads
  let home := (s.placeHue i).find? (fun p => toks.contains p.tok &&
    (p.ranges false ++ p.ranges true).any (fun q => decide ((q.1 : Int) ≤ r.1) && decide (r.2 ≤ (q.2 : Int))))
  let landEnd := d.land + ceilDiv (prodL d.ext * Fmt.bits f) 8
  failIf (!i.inSect [5] x.1.sect x.1.off 64 || !streamRsvd (sectFrom bs i.sects x.1.sect x.1.off) ||
    decide (d.land % 64 ≠ 0) || decide (1024 < d.depth) || decide (d.ndim = 0) || decide (5 < d.ndim) ||
    (Fmt.ofNum d.fmt).isNone || !((d.ext.drop d.ndim).all (fun v => decide (v = 1))) || !stridesOk f d.ndim d.str ||
    decide (8 ≤ x.1.slot) || decide (3145728 < landEnd) ||
    (match home with | some p => decide ((i.tok p.tok).fmt ≠ d.fmt) | none => true)) fail

/-- A descriptor with the keys' defaults, as the loader takes it (08 R242). -/
def State.withKeys (s : State) (d : SolveDesc) : SolveDesc :=
  d.defaults (s.profVal 0 kUsPivLog2).toInt (s.profVal 0 kUsDirLog2).toNat

/-- The bytes at Hue addresses that an image's constant tokens hold; none where some byte is no constant (15 R436, R445). -/
def Image.constRd (i : Image) (bs : List Byte) (ps : List Placed) (a n : Nat) : Option (List Byte) :=
  (ps.filterMap (fun p => match i.parts.consts.find? (fun c => decide (c.tok = p.tok)) with
    | some c => ((p.ranges false).find? (fun r => decide (r.1 ≤ a) && decide (a + n ≤ r.2))).map (fun r =>
        ((sectFrom bs i.sects c.sect c.off).drop (a - r.1)).take n)
    | none => none)).head?

/-- The address slots whose tokens hold a matrix's pattern: columns, pointers and a SELL permutation (08 R207). -/
def SolveDesc.pattern (d : SolveDesc) : List Nat := if d.mfmt = 2 then [1, 2, 3] else [1, 2]

/-- What reads a matrix from the constants of an image, when the tokens of some of its slots are constants (08 R209). -/
def Image.matrixRd (i : Image) (bs : List Byte) (ps : List Placed) (d : SolveDesc) (slots : List Nat) : Option ByteRd :=
  if slots.all (fun k => (i.constRd bs ps (d.slots.getD k 0) 1).isSome) then
    some (fun a n => (i.constRd bs ps a n).getD (List.replicate n 0))
  else none

/-- The rows of a node that a constant pattern describes: the whole matrix, or, in a distributed solve, what the pointers,
columns or permutation token holds (08 R211, R212). -/
def Image.patternRows (i : Image) (ps : List Placed) (d : SolveDesc) (rd : ByteRd) : Nat :=
  let elems (k w : Nat) : Nat :=
    ((ps.find? (fun p => within (d.slots.getD k 0) 1 (p.ranges false))).map (fun p => tokBytes (i.tok p.tok) / w)).getD 0
  if !d.dist then d.n
  else match d.mfmt with
    | 0 => elems 2 8 - 1
    | 1 => elems 1 4 / max 1 (rdInt rd (d.slots.getD 2 0) 8).toNat * max 1 d.mfPar
    | _ => elems 3 4

/-- The rows and stored entries of every node of an image's solve on a block: of a constant pattern its own, else the rows'
part of the declared entries (08 R205, R206; log 18). -/
def Image.solveShares (i : Image) (bs : List Byte) (ps : List Placed) (d : SolveDesc) (nodes : Nat) : List (Nat × Nat) :=
  let rd := i.matrixRd bs ps d d.pattern
  (List.range (if d.dist then nodes else 1)).map (fun k =>
    let n := (nodeRows d k nodes).2
    (n, match rd with
      | some r => d.stored r n
      | none => ceilDiv (d.nnz * n) (max 1 d.n)))

/-- A bound computed from constant values: an FP64 code at or above it, or at or below it (08 R209; log 61). -/
def boundCode (up : Bool) (r : Rat) : Nat :=
  let c := (ratF64 r).1
  let near := (f64Rat c).getD 0
  if (if up then decide (r ≤ near) else decide (near ≤ r)) then c
  else if decide (near < 0) = up then c - 1 else c + 1

/-- The declared bounds of a solve with `a_max`, `row_max`, `diag_min` and `gersh_min` computed where the image carries the
matrix as constants; their values stand at the descriptor's own `fx_a` (08 R209; log 61). -/
def Image.solveBounds (i : Image) (bs : List Byte) (ps : List Placed) (d : SolveDesc) (declared : List Nat) : List Nat :=
  match i.matrixRd bs ps d (0 :: d.pattern) with
  | none => declared
  | some rd =>
    let rows := (d.readRows rd (i.patternRows ps d rd)).1
    let at' (n : Int) : Rat := (n : Rat) * pow2 (-d.fxA)
    let sums := rows.map (fun r => r.foldl (fun (a : Nat) c => a + c.2.natAbs) 0)
    let diag := rows.zipIdx.map (fun r => (rowGet r.1 r.2).natAbs)
    let least (l : List Int) : Int := match l with | [] => 0 | x :: t => t.foldl min x
    let gersh := (diag.zip sums).map (fun x => 2 * (x.1 : Int) - (x.2 : Int))
    declared.zipIdx.map (fun b => match b.2 with
      | 2 => boundCode true (at' (rows.foldl (fun a r => max a (rowTop r)) 0 : Nat))
      | 3 => boundCode true (at' (sums.foldl max 0 : Nat))
      | 4 => boundCode false (at' (least (diag.map (fun x => (x : Int)))))
      | 5 => boundCode false (at' (least gersh))
      | _ => b.1)

/-- The solve and dynamics descriptors and the streams of a descriptor section, in ascending offset: fields first, then the
size of R206. -/
def State.checkDescs (s : State) (i : Image) (bs : List Byte) (x : Nat) : Option LoadFail :=
  let f (e o : Nat) (id : Nat) : LoadFail := { shape5 0x1409 with entry := e, opId := id, sect := x, off := o }
  let one (v : Nat × SolveDesc × List Nat) (o : Nat) : Option LoadFail :=
    let d := s.withKeys v.2.1
    firstOf [failIf (!d.shapeOk) (f v.1 o d.opId),
      failIf (!d.dist && tooLarge (i.solveShares bs (s.placeHue i) d 1)) { f v.1 o d.opId with status := stRefusedFit }]
  let sol := i.solves.filterMap (fun v => match (i.parts.entries.getD v.1 {}).kind with
    | .solve y o _ _ => if y = x then some (o, one v o) else none
    | _ => none)
  let dyn := i.dyns.filterMap (fun v => match (i.parts.entries.getD v.1 {}).kind with
    | .dynamics y o _ _ _ _ => if y = x then some (o, failIf (!v.2.1.shapeOk v.2.2.1.nJ) (f v.1 o v.2.1.opId)) else none
    | _ => none)
  let str := i.streams.filterMap (fun v => if v.1.sect = x then some (v.1.off, s.checkStream i bs v) else none)
  firstOf ((sortOn (fun o => o.1) (sol ++ dyn ++ str)).map (fun o => o.2))

/-- The models of a data section, in ascending offset (09 R244 to R247, reason 0x1409). -/
def Image.checkModels (i : Image) (bs : List Byte) (x : Nat) : Option LoadFail :=
  let ms := i.dyns.filterMap (fun v => match (i.parts.entries.getD v.1 {}).kind with
    | .dynamics _ _ y o _ _ => if y = x then some (o, v) else none
    | _ => none)
  firstIn (sortOn (fun o => o.1) ms) (fun o =>
    let raw := sectFrom bs i.sects x o.1
    let m := o.2.2.2.1
    failIf (!i.inSect [7] x o.1 (64 + 160 * m.nJ) || !m.ok || !modelRsvd raw)
      { shape5 0x1409 with entry := o.2.1, opId := o.2.2.1.opId, sect := x, off := o.1 })

/-! ### Stage 5: contexts (11 R313 to R316, R325, R329) -/

/-- The INT16 values of a constant route token (11 R325). -/
def Image.constWords (i : Image) (bs : List Byte) (t : Nat) : List Int :=
  match i.parts.consts.find? (fun c => decide (c.tok = t)) with
  | some c => (pieces 2 (tokElems (i.tok t)) ((sectFrom bs i.sects c.sect c.off).take (tokBytes (i.tok t)))).map
      (fun b => signed 16 (leNat b))
  | none => []

/-- Whether an address lies in slot 0 of a token of Hue: at its beginning, or anywhere in it. -/
def inToken (hue : List Placed) (t a : Nat) (first : Bool) : Bool :=
  match hue.find? (fun p => decide (p.tok = t)) with
  | some p => (p.ranges false).any (fun r => decide (r.1 ≤ a) && decide (a < r.2) && (!first || decide (a = r.1)))
  | none => false

/-- Whether a record's addresses lie in the tokens that its reference names: the landing area at the beginning of its token.
A solve's halo and sums contexts take and give a solve's own vectors (11 R313, R334; log 45). -/
def ctxPlaced (hue : List Placed) (c : CtxRec) : Bool :=
  decide (c.kind = 6) || c.sums || (inToken hue c.srcTok c.src false && inToken hue c.tok c.dst true)

/-- Whether a context's fields are ones R313, R316, R325 and R329 admit. -/
def Image.ctxOk (i : Image) (bs : List Byte) (hue : List Placed) (r : CtxRef) (c : CtxRec) (ps : List Peer) : Bool :=
  let experts := (ps.filter (fun p => decide (p.expert ≠ 0xFFFF))).map (fun p => p.expert)
  let move := decide (c.kind = 1) || decide (c.kind = 2)
  let red := decide (c.kind = 3) || decide (c.kind = 4)
  let acc := decide (c.kind = 7) || decide (c.kind = 8)
  let coll := red || decide (c.kind = 5)
  let fmts : List Nat := [1, 2, 3, 4, 14]
  let route := i.tok r.routeTok
  decide (16 ≤ r.ctx) && decide (c.rsvd = 0) && decide (1 ≤ c.nPeer) && decide (c.nPeer ≤ 32768) && decide (c.kind ≤ 8) &&
    (if red then decide (1 ≤ c.rop) && decide (c.rop ≤ 3) else decide (c.rop = 0)) &&
    (!move || (decide (1 ≤ c.cap) && decide (c.rowBytes % 64 = 0) && decide (1 ≤ c.rowBytes))) &&
    (decide (c.kind ≠ 1) || (decide (1 ≤ c.topk) && decide (c.topk ≤ 2) && decide (route.fmt = 13) &&
      (!bitOf route.flags 5 || (i.constWords bs r.routeTok).all (fun v =>
        decide (v = -1) || (decide (0 ≤ v) && experts.contains v.toNat))))) &&
    (!acc || decide (c.bytes % 4 = 0)) &&
    (!coll || (fmts.contains c.fmtIn || (decide (c.kind = 3) && decide (c.fmtIn = 16)))) &&
    (decide (c.kind ≠ 5) || fmts.contains c.fmtOut) && (!red || c.sums || (Fmt.ofNum c.fmtOut).isSome) &&
    decide (c.tok = r.dstTok) && ctxPlaced hue c &&
    ps.all (fun p => decide (p.rsvd = 0) && decide (16 ≤ p.pctx) && (move || decide (p.expert = 0xFFFF)) &&
      (acc || decide (c.kind = 6) || (decide (p.idx = 0) && decide (p.count = 0)))) &&
    (!move || decide (experts.eraseDups = experts)) &&
    (!coll || decide ((ps.map (fun p => (p.x, p.y, p.z))).eraseDups.length = ps.length))

/-- The contexts of the exchange section, in ascending offset (reasons 0x140A, 0x1407). -/
def Image.checkCtxs (i : Image) (bs : List Byte) (hue : List Placed) (x : Nat) : Option LoadFail :=
  let cs := sortOn (fun c : CtxRef × CtxRec × List Peer => c.1.off) i.ctxs
  firstIn cs.zipIdx (fun v =>
    let c := v.1
    let f : LoadFail := { shape5 0x140A with sect := x, off := c.1.off, opId := c.2.1.opId, tok := c.2.1.tok }
    let again := (cs.take v.2).any (fun y => decide (y.1.ctx = c.1.ctx) &&
      (decide (y.1.node = c.1.node) || y.1.node.isNone || c.1.node.isNone))
    firstOf [failIf (again || !i.inSect [6] x c.1.off 64 || !i.inSect [6] x c.1.peerOff (16 * c.2.1.nPeer) ||
        !i.ctxOk bs hue c.1 c.2.1 c.2.2) f,
      failIf (decide (3 ≤ c.2.1.kind) && decide (c.2.1.kind ≤ 5) &&
        !cvtOk c.2.1.cvt ((Fmt.ofNum c.2.1.fmtOut).getD .fp32)) { f with reason := 0x1407 }])

/-! ### Stage 5: the lists of the manifest against the code (15 R437, R438) -/

/-- The variable operations that the image holds: entry, offset, kind (15 R437). -/
def Image.foundVars (i : Image) : List (Nat × Nat × Nat) :=
  i.parts.entries.zipIdx.flatMap (fun e => match e.1.kind with
    | .register _ o _ _ => match i.kernels.find? (fun k => decide (k.1 = e.2)) with
      | some k => k.2.zipIdx.filterMap (fun w => match bits w.1.toNat 26 6 with
        | 0x22 => some (e.2, o + 4 * w.2, 1)
        | 0x07 => some (e.2, o + 4 * w.2, 2)
        | 0x23 => some (e.2, o + 4 * w.2, 3)
        | _ => none)
      | none => []
    | .exchange c => (i.ctxs.filterMap (fun x =>
        if x.1.ctx = c ∧ x.2.1.kind = 8 then some (e.2, x.1.off, 4) else none)).eraseDups
    | .solve _ o _ _ => match i.solves.find? (fun x => decide (x.1 = e.2)) with
      | some x => if x.2.1.dlMode then [(e.2, o, 5)] else []
      | none => []
    | _ => [])

/-- The parameter-bound operations that the image holds: entry, offset, mask (15 R438). -/
def Image.foundPbound (i : Image) : List (Nat × Nat × Nat) :=
  i.parts.entries.zipIdx.flatMap (fun e => match e.1.kind with
    | .register _ o _ _ => match i.kernels.find? (fun k => decide (k.1 = e.2)) with
      | some k => k.2.zipIdx.filterMap (fun w =>
        let md := bits w.1.toNat 0 3
        if bits w.1.toNat 26 6 = 0x11 ∧ (md = 1 ∨ md = 2) then some (e.2, o + 4 * w.2, 0x10) else none)
      | none => []
    | _ => [])

/-- A list of the manifest against what the image holds: the first entry that is not found or is listed twice, else the
first operation not listed (reason 0x140C). -/
def Image.checkList (i : Image) (listed found : List (Nat × Nat × Nat)) : Option LoadFail :=
  let f (v : Nat × Nat × Nat) : LoadFail :=
    { shape5 0x140C with entry := v.1, opId := i.opIdOf v.1, sect := i.opSect v.1, off := v.2.1
                         value := listed.length, limit := found.length }
  firstOf [firstIn listed.zipIdx (fun v => failIf (!found.contains v.1 || (listed.take v.2).contains v.1) (f v.1)),
    firstIn found (fun v => failIf (!listed.contains v) (f v))]

/-- Stage 5: the sections in table order, then the Tint groups and the lists (15 R441; log 50). -/
def State.stage5 (s : State) (i : Image) (bs : List Byte) : Option LoadFail :=
  firstOf [firstIn i.sects.zipIdx (fun x => match x.1.stype with
      | 1 => i.checkManifest (sectBytes bs x.1)
      | 2 => firstOf [firstIn i.parts.entries.zipIdx (i.checkEntry bs), firstIn i.parts.tints i.checkTint]
      | 3 => i.checkCode x.2
      | 4 => i.checkChains bs x.2
      | 5 => s.checkDescs i bs x.2
      | 6 => i.checkCtxs bs (s.placeHue i) x.2
      | 7 => i.checkModels bs x.2
      | _ => none),
    i.checkList i.vars i.foundVars, i.checkList i.pbound i.foundPbound]

/-! ### Stage 6: graph, versions, contexts (01 R19, R23, R24; 07 R190; 11 R312, R318) -/

/-- The entries that depend on an entry, in any number of steps. -/
def Image.after (i : Image) (e : Nat) : List Nat :=
  let es := i.edges
  (List.range i.parts.entries.length).foldl (fun (r : List Nat) _ =>
    r ++ ((es.filter (fun x => (decide (x.1 = e) || r.contains x.1) && !r.contains x.2)).map (fun x => x.2)).eraseDups) []

/-- Whether a Stream entry writes an element twice (01 R19). -/
def chainTwice (r : ChainRec) : Option Nat :=
  (r.outs.find? (fun o => decide (o.offsets.eraseDups.length < o.offsets.length))).map (fun o => o.tok)

/-- Whether two units of one package run threads of an entry, however many nodes a block has (01 R32, R33). -/
def sharesPackage (e : Entry) : Bool :=
  match e.map with
  | [] => decide (1 < prodL e.space)
  | m =>
    let gs := ((m.filter (fun x => decide (0 < x.count))).map (fun x => x.g)).eraseDups
    gs.any (fun g => gs.any (fun h => decide (g ≠ h) && decide (g / 224 = h / 224)))

/-- Whether every unit of a Register entry stores to the same bytes of the memory, where its addresses are fixed (01 R19;
06 R165; log 53). -/
def Image.kernelTwice (i : Image) (e : Entry) (x : Nat) : Bool :=
  match i.kernels.find? (fun k => decide (k.1 = x)) with
  | some k => sharesPackage e && fixedStore Known.atEntry (k.2.filterMap (slateInstr 0))
  | none => false

/-- The tokens that a context reads and writes: its retained buffer and landing area, the route and slot map of a dispatch,
the slot map of a combine (11 R322, R325, R326, R328). -/
def ctxToks (c : CtxRec) : List Nat × List Nat :=
  (c.srcTok :: (if c.kind = 1 then [c.routeTok] else if c.kind = 2 then [c.slotTok] else []),
    c.tok :: (if c.kind = 1 then [c.slotTok] else []))

/-- The tokens that an entry's product, chain or contexts name as read and as written (01 R23). -/
def Image.namedToks (i : Image) (e : Entry) (x : Nat) : List Nat × List Nat :=
  match e.kind, i.chains.find? (fun c => decide (c.1 = x)) with
  | .product d, _ => (d.a.tok :: d.b.tok :: (d.c.map (fun o => o.tok)).toList, [d.out.tok])
  | .exchange k, _ =>
    let cs := (i.ctxs.filter (fun y => decide (y.1.ctx = k))).map (fun y => ctxToks y.2.1)
    (cs.flatMap (fun y => y.1), cs.flatMap (fun y => y.2))
  | .stream _ _, some c => ((c.2.ins.take c.2.nIn).map (fun d => d.tok), (c.2.outs.take c.2.nOut).map (fun d => d.tok))
  | _, _ => ([], [])

/-- The token graph (01 R19, R23; reason 0x1501). -/
def Image.checkGraph (i : Image) : Option LoadFail :=
  let es := i.parts.entries.zipIdx
  let f (t e : Nat) : LoadFail :=
    { status := stRefusedShape, reason := 0x1501, stage := 6, tok := t, entry := e, opId := i.opIdOf e }
  let n := i.parts.entries.length
  let left := peel i.edges n (List.range n)
  firstOf [
    firstIn i.toks (fun d =>
      let ws := (es.filter (fun e => e.1.writes.contains d.tok)).map (fun e => e.2)
      failIf (if bitOf d.flags 5 then !ws.isEmpty else decide (ws ≠ [d.producer])) (f d.tok (ws.getLast?.getD d.producer))),
    firstIn es (fun e => firstOf [
      firstIn (e.1.reads ++ e.1.writes) (fun t => failIf (!i.hasTok t) (f t e.2)),
      firstIn (i.namedToks e.1 e.2).1 (fun t => failIf (!e.1.reads.contains t) (f t e.2)),
      firstIn (i.namedToks e.1 e.2).2 (fun t => failIf (!e.1.writes.contains t) (f t e.2)),
      firstIn e.1.reads (fun t => failIf (e.1.writes.contains t && !bitOf (i.tok t).flags 0) (f t e.2))]),
    firstIn i.chains (fun c => match chainTwice c.2 with | some t => some (f t c.1) | none => none),
    firstIn es (fun e => failIf (i.kernelTwice e.1 e.2) (f 0xFFFFFFFF e.2)),
    match left with
    | e :: _ => some { f 0xFFFFFFFF e with tok := 0xFFFFFFFF }
    | [] => none]

/-- Versions: no entry that depends on a versioned token's writer reads it in the same step (01 R24; 07 R190; reason
0x1502). -/
def Image.checkVersions (i : Image) : Option LoadFail :=
  firstIn (i.toks.filter (fun d => bitOf d.flags 0)) (fun d =>
    let late := i.after d.producer
    firstIn i.parts.entries.zipIdx (fun e =>
      failIf (e.1.reads.contains d.tok && late.contains e.2)
        { status := stRefusedFit, reason := 0x1502, stage := 6, tok := d.tok, entry := e.2, opId := e.1.opId }))

/-- The most products a solve can perform in a step: its initialisation's, each iteration's with its confirmation's, the last
residual's, and the gradient pass (08 R222, R223, R227, R228, R235; 11 R318). -/
def haloRounds (d : SolveDesc) : Nat :=
  let g := if d.pc = 5 then d.cheb - 1 else 0
  let n := match d.method with
    | 0 => 1 + g + d.nCap * (2 + 2 * g)
    | 1 => 1 + d.nCap * (3 + 2 * g)
    | _ => 1 + d.nCap * (2 + g)
  n + 1 + b2n d.gradient

/-- The most synchronisations of a solve in a step: the signature's, the initialisation's, each iteration's with its
confirmation's, the last residual's, and node 0's decision at each boundary (08 R214, R222, R227, R229; log 42). -/
def sumRounds (d : SolveDesc) : Nat :=
  let late := b2n (d.dlMode && decide (d.deadline ≠ 0))
  let n := match d.method with
    | 0 => 1 + d.nCap * (4 + late)
    | 1 => 1 + d.nCap * (5 + late)
    | _ => 2 + d.nCap * (4 + late)
  1 + n + late + 1

/-- The rounds of a context that a distributed solve's products and synchronisations take: those of its consecutive halo
contexts from `halo` on, and of the context of its sums after them (11 R318, R334; log 42). -/
def Image.solveRounds (i : Image) (c : CtxRef × CtxRec × List Peer) (d : SolveDesc) : Nat :=
  let h := d.slots.getD 14 0
  let halo (k : Nat) : Bool := i.ctxs.any (fun y => decide (y.1.ctx = k) && decide (y.2.1.kind = 6) &&
    (decide (y.1.node = c.1.node) || y.1.node.isNone || c.1.node.isNone))
  if d.dist && decide (h ≤ c.1.ctx) && (rangeFrom h (c.1.ctx - h)).all halo then
    if c.2.1.kind = 6 then haloRounds d else if c.2.1.sums then sumRounds d else 0
  else 0

/-- Contexts and rounds (11 R312, R318; reasons 0x1503, 0x1504). -/
def Image.checkRounds (i : Image) : Option LoadFail :=
  let f : LoadFail := { status := stRefusedFit, reason := 0x1503, stage := 6 }
  let nodes := (i.ctxs.map (fun c => c.1.node)).eraseDups
  let count (n : Option Nat) : Nat := (i.ctxs.filter (fun c => decide (c.1.node = n) || c.1.node.isNone)).length
  firstOf [firstIn nodes (fun n => failIf (decide (4080 < count n)) { f with value := count n, limit := 4080 }),
    firstIn i.ctxs (fun c => failIf (decide (4095 < c.1.ctx)) { f with value := c.1.ctx, limit := 4095 }),
    firstIn i.ctxs (fun c =>
      let rounds := if c.2.1.kind = 6 || c.2.1.sums then
          (i.solves.map (fun v => i.solveRounds c v.2.1)).foldl (fun a b => a + b) 0
        else c.2.1.nRoundM1 + 1
      failIf (decide (2 ^ 24 ≤ rounds)) { f with reason := 0x1504, value := rounds, limit := 2 ^ 24 - 1
                                                 off := c.1.off, opId := c.2.1.opId })]

/-! ### Stage 7: range analysis (08 R217 to R219; 09 R250 to R252) -/

/-- The image with its solves' and dynamics' points, or the first class that has none (reason 0x1601; 15 R441). -/
def State.stage7 (s : State) (i : Image) (bs : List Byte) : Except LoadFail Image :=
  let f (e id c x o : Nat) : LoadFail :=
    { status := stRefusedRange, reason := 0x1601, stage := 7, entry := e, opId := id, cls := c, sect := x, off := o }
  let place (e : Nat) : Nat × Nat := match (i.parts.entries.getD e {}).kind with
    | .solve x o _ _ => (x, o)
    | .dynamics x o _ _ _ _ => (x, o)
    | _ => (0xFFFF, 0xFFFFFFFF)
  let sol := i.solves.map (fun v =>
    let d := s.withKeys v.2.1
    (v, analyse d (i.solveBounds bs (s.placeHue i) d v.2.2)))
  let dyn := i.dyns.map (fun v =>
    let b := match (i.parts.entries.getD v.1 {}).kind with
      | .dynamics _ _ _ _ bx bo => parseBounds ((sectFrom bs i.sects bx bo).take 64)
      | _ => []
    (v, dynPoints v.2.1 v.2.2.1 b))
  let bad1 := sol.filterMap (fun x => match x.2 with
    | .error c => some (place x.1.1, f x.1.1 x.1.2.1.opId (c - 1) (place x.1.1).1 (place x.1.1).2)
    | .ok _ => none)
  let bad2 := dyn.filterMap (fun x => match x.2 with
    | .error c => some (place x.1.1, f x.1.1 x.1.2.1.opId (15 + c) (place x.1.1).1 (place x.1.1).2)
    | .ok _ => none)
  match sortOn (fun x : (Nat × Nat) × LoadFail => x.1.1 * 2 ^ 64 + x.1.2) (bad1 ++ bad2) with
  | x :: _ => .error x.2
  | [] => .ok { i with
      solves := sol.map (fun x => match x.2 with | .ok d => (x.1.1, d, d.bnd) | .error _ => x.1)
      dyns := dyn.map (fun x => match x.2 with | .ok p => (x.1.1, x.1.2.1, x.1.2.2.1, p) | .error _ => x.1) }

/-! ### All the stages -/

/-- `LOAD_IMAGE`'s checks of an image of `len` bytes: the loaded image, or the first failure (15 R441). -/
def State.loadImage (s : State) (bs : List Byte) (len : Nat) (strict : Bool) (parts : ImageParts) : Except LoadFail Image :=
  let i := parseImage bs strict parts
  match firstOf [checkHeader bs len, checkSects bs len, s.checkArea len] with
  | some f => .error f
  | none => match firstOf [checkDigests bs, s.checkSignature bs strict, i.checkStrict, i.checkParams, s.stage5 i bs,
      i.checkGraph, i.checkVersions, i.checkRounds] with
    | some f => .error f
    | none => s.stage7 i bs

end Sys2Proof.Machine
end

