-- ==== Sys2Proof/Machine/Steps.lean ====
section
/-! DEFINITION. Steps: their start, the entries, their boundary and what happens at it (01 R20 to R26, 07 R178 to R191, 10
R300 to R302, 14 R421, 16 R449 to R461, 20 R533 to R539). -/

namespace Sys2Proof.Machine

/-! ### The start of a step (16 R451, 10 R295) -/

/-- Whether the armed halt stops the job before the next step (14 R421). -/
def State.haltDue (s : State) : Bool :=
  match s.job.haltAt with
  | some h => decide (h ≤ s.job.step.toNat)
  | none => false

/-- Whether the next step may start: a job runs, its Sable window is over, no change of operating point is pending, and its
hold has passed (16 R451, 17 R475, R476). -/
def State.startDue (s : State) : Bool :=
  s.job.bound.isSome && s.job.jobFault.isNone && s.runCmd.isSome && !s.job.inStep && !s.haltDue && s.pwr.opChange.isNone &&
    decide (s.pwr.holdUntil ≤ s.now) && (!s.job.inSable || decide (s.job.stepEnd + s.kvNat kSableLen ≤ s.now))

/-- A tile at a step's start: event bits, work and stops of the last step cleared (02 R69, 07 R176). -/
def Tile.beginStep (t : Tile) : Tile :=
  { t with u := { t.u with evNonfinite := false, evSatFwd := false, evSatBwd := false }, work := [], stopped := [], chain := {},
           cancelled := [], bad := [] }

/-- A step starts: every entry waits, event bits and bins are cleared, every arbiter pointer returns to 0, every context
begins at round 0 (16 R449, R451; 10 R295; 11 R318; 07 R176, R194; 20 R538). -/
def State.beginStep (s : State) : State :=
  let delay := if s.job.inSable then s.now - (s.job.stepEnd + s.kvNat kSableLen) else 0
  let n := match s.job.img with | some i => i.parts.entries.length | none => 0
  let j := { s.job with
    inStep := true, inSable := false, stepStart := s.now, bdelay := delay, ents := List.replicate n .waiting
    written := [], fault := s.job.faultNext, faultNext := false, sent := false, vFwd := false, combined := none
    swBins := List.replicate 16 0, swTiles := 0, swBufs := [], evRef := 0, evLink := 0
    events := if 0 < delay then BitVec.ofNat 32 (2 ^ 9) else 0 }
  let units := s.tiles.map (fun t => (t.1, t.2.beginStep))
  let arbs := s.mem.ports.map (fun p => (p.1, { p.2 with ptr := 0 }))
  let ctxs := s.exch.ctxs.map (fun c => (c.1, { c.2 with round := 0, complete := false }))
  { s with
    job := j
    tiles := units.filter (fun t => decide (t.2 ≠ {}))
    mem := { s.mem with ports := arbs.filter (fun p => decide (p.2 ≠ {})) }
    exch := { s.exch with ctxs := ctxs } }

/-- `STEP_START` (16 R451). -/
def execStepStart (s : State) : Host.Outcome State Fault Refusal := .next (if s.startDue then s.beginStep else s)

/-! ### Entries (16 R450, 01 R23) -/

/-- Cycles since the step's start. -/
def State.elapsed (s : State) : Nat := s.now - s.job.stepStart

/-- The planned start and the charge of an entry (16 R449). -/
def State.planOf (s : State) (e : Nat) : Nat × Nat := match s.job.bound with | some b => b.plan.getD e (0, 0) | none => (0, 0)

/-- Whether an entry of the step in progress has ended. -/
def State.endedEnt (s : State) (e : Nat) : Bool := match s.job.ents.getD e .waiting with | .ended _ _ => true | _ => false

/-- Whether a token's value for readers of this step is final: a constant, a versioned token's committed slot, or what its
producer has written (01 R23, 07 R188). -/
def State.final (s : State) (t : Nat) : Bool :=
  let d := s.tokDecl t
  bitOf d.flags 5 || bitOf d.flags 0 || s.endedEnt d.producer

/-- Whether two entries have a unit of this node in common. -/
def State.shareUnit (s : State) (a b : Nat) : Bool :=
  let ua := s.unitsOf (s.entryOf a)
  (s.unitsOf (s.entryOf b)).any (fun u => ua.contains u)

/-- Whether a running entry holds an engine that another needs (01 R20; 04 R100; 08 R203; 11 R318). -/
def State.clash (s : State) (a b : Nat) : Bool :=
  match (s.entryOf a).kind, (s.entryOf b).kind with
  | .product p, .product q => decide (p.arr = q.arr) && s.shareUnit a b
  | .stream _ _, .stream _ _ => s.shareUnit a b
  | .register _ _ _ _, .register _ _ _ _ => s.shareUnit a b
  | .exchange c, .exchange d => decide (c = d)
  | _, _ => false

/-- The engines of an entry's Umber operation, when enough are free (08 R203). -/
def State.umberFor (s : State) (e : Nat) : Option (List Nat) :=
  match s.job.img with
  | none => none
  | some i => match (s.entryOf e).kind with
    | .solve _ _ _ _ => match i.solves.find? (fun x => decide (x.1 = e)) with
      | some x => s.freeEngines (2 ^ x.2.1.engLog2)
      | none => none
    | .dynamics _ _ _ _ _ _ => match i.dyns.find? (fun x => decide (x.1 = e)) with
      | some x => s.freeEngines (2 ^ x.2.1.engLog2)
      | none => none
    | _ => some []

/-- Whether the micro-batches of the image let an entry start (04 R108, R112). -/
def State.turnCame (s : State) (e : Nat) : Bool :=
  match s.job.img with
  | none => true
  | some i => i.turnOf s.overlapBit (fun x => decide (s.job.ents.getD x .waiting ≠ .waiting)) s.endedEnt e

/-- Whether an entry may start: its planned start has come, every token it reads is final, its engine is free, and the
micro-batches' order lets it (16 R450; 04 R108). -/
def State.entryDue (s : State) (e : Nat) : Bool :=
  s.job.inStep && decide (s.job.ents[e]? = some .waiting) && decide ((s.planOf e).1 ≤ s.elapsed) &&
    (s.entryOf e).reads.all (fun t => s.final t) &&
    (List.range s.job.ents.length).all (fun x => !(s.running x && s.clash x e)) && (s.umberFor e).isSome && s.turnCame e

/-- A kernel enters a unit: cleared registers, `s1` the unit's first thread, `s2` its thread count, no vtype (06 R147). For
a unit that several triples of an explicit map name, whose threads R147 does not foresee as more than one range, `s1` is the
first thread of the first triple listed for it, also of one that holds no thread, and `s2` the sum of all their counts, also
where the ranges do not adjoin (DESIGN CHOICE, log 57). -/
def State.enterKernel (s : State) (e : Nat) (u : Nat) : State :=
  let en := s.entryOf e
  let g := s.nodeIndex * 224 + u
  let q := max 1 (ceilDiv (prodL en.space) (s.nodes * 224))
  let first := match en.map with
    | [] => g * q
    | m => match m.find? (fun x => decide (x.g = g)) with | some x => x.first | none => 0
  let l := s.tile u
  s.setSlate u { l.slate with
    v := [], m := [], vtype := none, vl := 0, pc := 0, run := .running, entry := e, fault := none, stored := []
    stall := 0
    x := Tab.set 0 1 (BitVec.ofNat 64 first) (Tab.set 0 2 (BitVec.ofNat 64 (s.threadsOf en u)) []) }

/-- What the start of an entry does on its engine (01 R20; 05 R116; 06 R147; 08 R203; 09 R264). -/
def State.engage (s : State) (e : Nat) : State :=
  let en := s.entryOf e
  match en.kind, s.umberFor e, s.job.img with
  | .stream _ _, _, _ =>
    (s.unitsOf en).foldl (fun x u => x.setTile u { x.tile u with chain := { entry := some e } }) s
  | .register _ _ _ _, _, _ => (s.unitsOf en).foldl (fun x u => x.enterKernel e u) s
  | .solve _ _ _ _, some fs, some i => match i.solves.find? (fun x => decide (x.1 = e)) with
    | some x => s.startSolve (.entry e) x.2.1 fs
    | none => s
  | .dynamics _ _ _ _ _ _, some fs, some i => match i.dyns.find? (fun x => decide (x.1 = e)) with
    | some x => s.startDyn (.entry e) x.2.1 x.2.2.1 x.2.2.2 fs
    | none => s
  | _, _, _ => s

/-- An entry starts (16 R450). -/
def State.startEntry (s : State) (e : Nat) : State :=
  let s1 := s.engage e
  { s1 with job := { s1.job with ents := setAt s1.job.ents e (.running s1.elapsed) } }

/-- `ENTRY_START` (16 R450). -/
def execEntryStart (entry : Nat) (s : State) : Host.Outcome State Fault Refusal :=
  .next (if s.entryDue entry then s.startEntry entry else s)

/-! ### The end of an entry (16 R450, 10 R282, 20 R533) -/

/-- Whether every write stream of an entry has had every line accepted (10 R283). -/
def State.writesAccepted (s : State) (e : Nat) : Bool :=
  (s.streamsOf e).all (fun r =>
    let x := s.slot r.1 r.2.1.slot
    !r.2.2.write || (x.follows r.2.2 e && decide (x.accepted = x.lines.length)))

/-- Whether an entry's own work on this node is complete, or its engine stopped (16 R450; 20 R533). -/
def State.workDone (s : State) (e : Nat) : Bool :=
  let en := s.entryOf e
  let us := s.unitsOf en
  let owned (u : Nat) : List Nat := (List.range (prodL en.space)).filter (fun t => s.owns en u t)
  match en.kind with
  | .product d => us.all (fun u => (s.tile u).stopped.contains (e, d.arr) ||
      (owned u).all (fun t => (s.tile u).work.contains (e, t)))
  | .stream _ _ => us.all (fun u => (s.tile u).chain.stopped || (owned u).all (fun t => (s.tile u).work.contains (e, t)))
  | .register _ _ _ _ => us.all (fun u => (s.tile u).slate.run ≠ .running)
  | .solve _ _ _ _ => !s.onEngine (.entry e)
  | .dynamics _ _ _ _ _ _ => !s.onEngine (.entry e)
  | .exchange c => decide ((s.ctx c).cfg.nRoundM1 < (s.ctx c).round) && !(s.ctx c).active

/-- A range of addresses with others taken out. -/
def cutOut (r : Nat × Nat) (cuts : List (Nat × Nat)) : List (Nat × Nat) :=
  cuts.foldl (fun rs c => rs.flatMap (fun x =>
    if overlaps x.1 x.2 c.1 c.2 then
      (if x.1 < c.1 then [(x.1, c.1)] else []) ++ (if c.2 < x.2 then [(c.2, x.2)] else [])
    else [x])) [r]

/-- The elements of a token that a stopped Product or Stream entry did not write on this node (20 R533). -/
def State.unwritten (s : State) (e t : Nat) : List Nat :=
  let en := s.entryOf e
  let missing (k : Nat) : Bool :=
    let g := unitOfThread en s.nodes k
    decide (g / 224 = s.nodeIndex) && !(s.tile (g % 224)).work.contains (e, k)
  match en.kind, s.chainOf e with
  | .product p, _ =>
    let v := s.opView 0 p.out true
    if p.out.tok = t then (List.range (tokElems (s.tokDecl t))).filter (fun el =>
      let ij := outRc v el
      missing (ij.2 / 64 + (prodTiles p).2 * (ij.1 / 32)))
    else []
  | .stream _ _, some r =>
    (r.outs.filter (fun o => decide (o.tok = t))).flatMap (fun o =>
      ((List.range (prodL r.ext)).filter missing).map (fun k => k + o.eBase))
  | _, _ => []

/-- The bytes of some elements undefined, scales included (20 R533). -/
def State.forgetElems (s : State) (t : Nat) (els : List Nat) : State :=
  let f := tokFmt (s.tokDecl t)
  els.foldl (fun x el =>
    let l := s.elemLoc t (s.slotOf t true) el
    let sp := ElemLoc.span f l
    let wipe (y : State) (lo n : Nat) : State := match l.tile with
      | some u => y.tileForget u lo (lo + n)
      | none => y.dramForget lo (lo + n)
    let y := wipe x sp.1 sp.2
    if Fmt.isBlock f then wipe y l.scale 1 else y) s

/-- The bytes that a stopped kernel did not store in a token it was to write (20 R533). -/
def State.forgetUnstored (s : State) (e t : Nat) : State :=
  let us := s.unitsOf (s.entryOf e)
  let cuts (u : Nat) (space : Bool) : List (Nat × Nat) :=
    ((s.tile u).slate.stored.filter (fun x => x.1 == space)).map (fun x => (x.2.1, x.2.1 + x.2.2))
  let p := s.placed t
  let slot := s.slotOf t true
  if (s.tokDecl t).home = 0 then
    (us.filter (fun u => (s.tile u).slate.run = .faulted)).foldl (fun x u =>
      let a := s.unitBase t u slot % tileSpan
      (cutOut (a, a + p.bytes) (cuts u false)).foldl (fun y r => y.tileForget u r.1 r.2) x) s
  else
    let all := us.flatMap (fun u => cuts u true)
    (p.ranges slot).foldl (fun x r => (cutOut r all).foldl (fun y q => y.dramForget q.1 q.2) x) s

/-- Whether some unit of this node stopped an entry at a fault (20 R533). -/
def State.stoppedEnt (s : State) (e : Nat) : Bool :=
  (s.unitsOf (s.entryOf e)).any (fun u => match (s.entryOf e).kind with
    | .product d => (s.tile u).stopped.contains (e, d.arr)
    | .stream _ _ => (s.tile u).chain.stopped
    | .register _ _ _ _ => (s.tile u).slate.run = .faulted
    | _ => false)

/-- The tokens of a stopped entry become final with the bytes it wrote; the others are undefined (20 R533). -/
def State.settle (s : State) (e : Nat) : State :=
  if !s.stoppedEnt e then s
  else (s.entryOf e).writes.foldl (fun x t => match (s.entryOf e).kind with
    | .register _ _ _ _ => x.forgetUnstored e t
    | _ => x.forgetElems t (s.unwritten e t)) s

/-- The landing-area bytes of each element of a stream: its first byte and its length (10 R280). -/
def landSpans (d : StreamDesc) : List (Nat × Nat) :=
  let f := (Fmt.ofNum d.fmt).getD .fp32
  (List.range (prodL d.ext)).map (fun i => (d.land + (elemPlace f i).1, elemSpan f i))

/-- A read stream cancelled: ungranted requests leave the queues, the unlanded bytes of its landing area are undefined,
each unlanded line counts, the slot is free (10 R282). -/
def State.cancelStream (s : State) (u k : Nat) : State :=
  let x := s.slot u k
  match x.desc with
  | none => s
  | some d =>
    if d.write then s
    else
      let un := x.lines.zipIdx.filter (fun l => !x.landed.contains l.2)
      let s1 := if un.isEmpty then s else
        (List.range (prodL d.ext)).foldl (fun (y : State) i =>
          if un.any (fun l => touches d i l.1) then
            let sp := (landSpans d).getD i (0, 0)
            y.tileForget u sp.1 (sp.1 + sp.2)
          else y) s
      let ps := s1.mem.ports.map (fun p => (p.1, { p.2 with pend := p.2.pend.filter (fun r =>
        !(decide (r.cls = 1) && decide (r.req = u) && un.any (fun l => decide (l.1 = r.addr / 64 * 64)))) }))
      let s2 := { s1 with mem := { s1.mem with ports := ps.filter (fun p => decide (p.2 ≠ ({} : ArbPort))) } }
      let s3 := s2.setTile u { s2.tile u with cancelled := (d.entry, k) :: (s2.tile u).cancelled }
      (s3.setSlot u k {}).count (kPfCancelled (u / 56)) un.length

/-- The streams of an entry end with it: unlanded read streams are cancelled, every slot is free (10 R282, R283). -/
def State.endStreams (s : State) (e : Nat) : State :=
  (s.streamsOf e).foldl (fun x r =>
    let y := x.slot r.1 r.2.1.slot
    if y.follows r.2.2 e then
      if r.2.2.write || decide (y.lines.length ≤ y.landed.length) then x.setSlot r.1 r.2.1.slot {}
      else x.cancelStream r.1 r.2.1.slot
    else x) s

/-- The Umber engines that an entry held until its charge ended are free (08 R241; 09 R266). -/
def State.freeEngine (s : State) (e : Nat) : State :=
  { s with engines := s.engines.map (fun x =>
      { x with solve := x.solve.filter (fun t => decide (t.src ≠ .entry e))
               dyn := x.dyn.filter (fun t => decide (t.src ≠ .entry e)) }) }

/-- An entry ends: what it wrote is final; its versioned tokens count for the flip; its engines are free (16 R450; 07
R189; 08 R241). -/
def State.endEntry (s : State) (e start : Nat) : State :=
  let en := s.entryOf e
  let s1 := ((s.settle e).endStreams e).freeEngine e
  let w := en.writes.filter (fun t => (s1.tokDecl t).versioned)
  { s1 with job := { s1.job with ents := setAt s1.job.ents e (.ended start s1.elapsed), written := s1.job.written ++ w } }

/-- The memory-wait cycles of an entry: those of its lanes, for a Register entry, the most of any unit; else what the
environment reports (06 R168; 16 R450). -/
def State.entryWaits (s : State) (e waits : Nat) : Nat :=
  match (s.entryOf e).kind with
  | .register _ _ _ _ => (s.unitsOf (s.entryOf e)).foldl (fun a u => max a (s.tile u).slate.stall) 0
  | _ => waits

/-- `ENTRY_END`: at the start plus the charge plus the memory-wait cycles, when its work is done (16 R450). -/
def execEntryEnd (entry waits : Nat) (s : State) : Host.Outcome State Fault Refusal :=
  .next (match s.job.ents[entry]? with
    | some (.running t) =>
      if s.job.inStep ∧ t + (s.planOf entry).2 + s.entryWaits entry waits ≤ s.elapsed ∧ s.workDone entry ∧
          s.writesAccepted entry then
        s.endEntry entry t
      else s
    | _ => s)

end Sys2Proof.Machine
end

