-- ==== Sys2Proof/Machine/Boundary.lean ====
section
/-! DEFINITION. The step boundary: outcome, loss scale, version flip, `verdict` token, timing record, fold, checkpoints,
Sable window, `RUN_STEPS`, operating point (01 R25; 02 R68; 07 R179 to R191; 10 R300 to R302; 14 R421; 16 R461; 17 R475;
20 R534 to R539). -/

namespace Sys2Proof.Machine

/-! ### Outcome and loss scale (07 R179, R183 to R185) -/

/-- Bits of `vd_ctl` (07 R201). -/
def State.skipOnSat (s : State) : Bool := bitOf (s.kvNat kVdCtl) 0
/-- `sw_alarm_skip` (07 R201). -/
def State.alarmSkip (s : State) : Bool := bitOf (s.kvNat kVdCtl) 1

/-- Whether a verdict skips for its numbers: not finite, or saturated backward with `skip_on_sat` (07 R179, R184). -/
def State.numSkip (s : State) (v : VerdictMsg) : Bool :=
  VerdictMsg.has v vfNonfinite || (VerdictMsg.has v vfSatBwd && s.skipOnSat)

/-- The outcome a combined verdict gives: the first row of the table that holds (07 R179). -/
def State.outcomeOf (s : State) (v : VerdictMsg) : Outc :=
  if VerdictMsg.has v vfLivery || VerdictMsg.has v vfAgree then .halt
  else if VerdictMsg.has v vfFault then .withhold
  else if s.numSkip v || (VerdictMsg.has v vfSwatch && s.alarmSkip) then .skip
  else .commit

/-- The loss-scale state: e, c, k (07 R183). -/
structure Scale where
  e : Int
  c : Nat
  k : Nat
deriving DecidableEq, Repr, Inhabited

/-- The keys that move the loss scale (07 R201). -/
structure ScaleCfg where
  step : Nat
  growth : Nat
  lo : Int
  hi : Int
deriving DecidableEq, Repr, Inhabited

/-- The loss-scale state after an outcome; `num` says that a skip is for numbers (07 R184). -/
def Scale.next (a : Scale) (g : ScaleCfg) (o : Outc) (num : Bool) : Scale :=
  match o with
  | .commit => if a.c + 1 = g.growth then { e := min (a.e + (g.step : Int)) g.hi, c := 0, k := 0 }
    else { a with c := a.c + 1, k := 0 }
  | .skip => if num then { e := max (a.e - (g.step : Int)) g.lo, c := 0, k := a.k + 1 } else { a with k := a.k + 1 }
  | _ => a

/-- The job's loss-scale state. -/
def State.scale (s : State) : Scale := { e := s.job.lsE, c := s.job.lsC, k := s.job.lsK }

/-- The keys of the loss scale. -/
def State.scaleCfg (s : State) : ScaleCfg :=
  { step := s.kvNat kLsStep, growth := s.kvNat kLsGrowth, lo := s.kvInt kLsMinExp, hi := s.kvInt kLsMaxExp }

/-- Code of an outcome (07 R179). -/
def Outc.code : Outc → Nat
  | .commit => 0
  | .skip => 1
  | .withhold => 2
  | .halt => 3
  | .ran => 0
  | .faulted => 2

/-! ### The `verdict` token (07 R181) -/

/-- The fields of the `verdict` token. -/
structure VerdictTok where
  e : Int := 0
  clip32 : Nat := 0
  unscale32 : Nat := 0
  clip64 : Nat := 0
  norm : Nat := 0
  flags : Nat := 0
  outcome : Nat := 0
  step : Nat := 0
  optStep : Nat := 0
  lag : Nat := 0
deriving DecidableEq, Repr, Inhabited

/-- The 64 bytes of the `verdict` token (07 R181). -/
def VerdictTok.encode (v : VerdictTok) : List Byte :=
  toLe 4 (pow2F32 v.e) ++ toLe 4 (pow2F32 (-v.e)) ++ toLe 4 v.clip32 ++ toLe 4 v.unscale32 ++ toLe 8 v.clip64 ++
    toLe 8 v.norm ++ toLe 4 v.flags ++ toLe 1 v.outcome ++ toLe 3 0 ++ toLe 8 v.step ++ toLe 8 v.optStep ++ toLe 4 v.lag ++
    toLe 4 0

/-- The `verdict` token written at its place (07 R181). -/
def State.putVerdict (s : State) (v : VerdictTok) : State := s.dramWr (s.placed verdictTok).addr0 v.encode

/-- FP32 1.0. -/
abbrev one32 : Nat := 0x3F800000

/-- The `verdict` token as `BIND` and `RESTORE` write it (07 R181, R200). -/
def State.firstVerdict (s : State) (step : Nat) : VerdictTok :=
  { e := s.job.lsE, clip32 := one32, unscale32 := one32, clip64 := one64, norm := 0, flags := 0, outcome := 0, step := step
    optStep := s.job.optStep.toNat, lag := s.job.lagClip }

/-! ### Applying the outcome (07 R182 to R191; 20 R534, R535) -/

/-- A job that stops at this boundary: the record and the reason (20 R539). -/
def State.haltJob (s : State) (reason sub : Nat) : State :=
  s.jobFaulted reason { sub := sub, cause := Config.faultCause reason % 256 }

/-- The version flip of the tokens written in the step (07 R189). -/
def State.flip (s : State) : State :=
  let act := s.job.written.eraseDups.foldl (fun a t => Tab.set false t (!Tab.get false t a) a) s.job.active
  { s with job := { s.job with active := act } }

/-- A withheld or faulted step counted; the limit halts the job (20 R534, R535). -/
def State.countFault (s : State) (withheld : Bool) : State :=
  let s1 := s.countNow kFltRun 1
  let s2 := if withheld then s1.countNow kFltWithheld 1 else s1
  if s2.kvNat kWithholdLimit ≤ s2.kvNat kFltRun then s2.haltJob 0x0605 0x0E else s2

/-- The step's combined verdict applied: outcome, loss scale, flip, `opt_step`, `lag_clip32`, the `verdict` token, the
last-verdict keys, the step number (07 R178 to R191; 20 R534). -/
def State.applyOutcome (s : State) (v : VerdictMsg) : State :=
  let o1 := s.outcomeOf v
  let sc := s.scale.next s.scaleCfg o1 (s.numSkip v)
  let o2 := if o1 = .skip ∧ s.kvNat kSkipLimit ≤ sc.k then .halt else o1
  let nc := normClip v.ssq v.lsExp (s.kvNat kClip)
  let s1 := { s with job := { s.job with lsE := sc.e, lsC := sc.c, lsK := sc.k } }
  let s2 := match o1, o2 with
    | .halt, _ => (s1.kvSet kFltRun 0).haltJob 0x0603 0x04
    | .skip, .halt => (s1.kvSet kFltRun 0).haltJob 0x0604 0x04
    | .withhold, _ => s1.countFault true
    | _, _ => s1.kvSet kFltRun 0
  let halted := decide (o2 = .halt) || (decide (o1 = .withhold) && s2.job.jobFault.isSome)
  let o := if halted then Outc.halt else o2
  let s3 := if o = .commit then
      { s2.flip with job := { s2.flip.job with lagClip := nc.clip32, optStep := s2.job.optStep + 1 } } else s2
  let s4 := if o = .skip then s3.countNow kStepsSkipped 1 else s3
  let s5 := s4.putVerdict
    { e := sc.e, clip32 := nc.clip32, unscale32 := nc.unscale32, clip64 := nc.clip64, norm := nc.norm
      flags := v.flags.toNat, outcome := o.code, step := s.job.step.toNat, optStep := s4.job.optStep.toNat
      lag := s4.job.lagClip }
  let s6 := ((s5.kvSet kLastNorm (BitVec.ofNat 64 nc.norm)).kvSet kLastClip (BitVec.ofNat 64 nc.clip64)).kvSet kLastFlags
    (BitVec.ofNat 64 v.flags.toNat)
  let s7 := (List.range 16).foldl (fun x k => x.kvSet (kSwHist0 + k) (BitVec.ofNat 64 (v.swBin.getD k 0))) s6
  { s7 with job := { s7.job with outcome := some o, lastRun := s.job.step
                                 step := if o = .halt then s.job.step else s.job.step + 1 } }

/-- The step of an image without a verdict: it ran, or it is recorded as faulted; its number advances (20 R535; 13 R401). -/
def State.applyPlain (s : State) : State :=
  let bad := s.job.fault
  let s1 := if bad then s.countFault false else s.kvSet kFltRun 0
  let s2 := if s.job.liveryMismatch && s1.job.jobFault.isNone then s1.haltJob 0x0603 0x09 else s1
  { s2 with job := { s2.job with outcome := some (if bad then .faulted else .ran), lastRun := s.job.step
                                 step := s.job.step + 1 } }

/-- A `FAULT_N` event with `fltn_act` 1 stops the job once the step's outcome is applied; its record is written already
(20 R538). -/
def State.applyFaultN (s : State) : State :=
  if s.job.fltnHalt && s.job.jobFault.isNone then
    { s with job := { s.job with fltnHalt := false, jobFault := some 0x0606 } }
  else { s with job := { s.job with fltnHalt := false } }

/-! ### The timing record (16 R456, R461) -/

/-- The largest excess of a hop port's `link_lat` over its charge (16 R456). -/
def State.latExcess (s : State) : Nat :=
  s.hopPorts.foldl (fun a p => max a (s.kvNat (kLinkLat p) - max (s.port p).latBind 288)) 0

/-- The timing record of the step that ends now (16 R461). -/
def State.timeRecord (s : State) (planLen : Nat) : State :=
  let len := s.elapsed
  let slip := len - planLen
  let put (x : State) (k v : Nat) : State := x.kvSet k (BitVec.ofNat 64 v)
  let s1 := put (put (put (put s kTmRecStep s.job.lastRun.toNat) kTmLastLen len) kTmLastSlip slip) kTmLastBdelay s.job.bdelay
  let s2 := put (put (put s1 kTmLastEvents s.job.events.toNat) kTmEvRef s.job.evRef) kTmEvLink s.job.evLink
  let s3 := put (put s2 kTmLatExcess (max (s2.kvNat kTmLatExcess) s.latExcess)) kTmMaxSlip (max (s2.kvNat kTmMaxSlip) slip)
  (s3.countNow kTmExact (b2n (decide (slip = 0) && decide (s.job.events = 0)))).countNow kTmSteps 1

/-! ### The Sable window (10 R300 to R302) -/

/-- The channels of a field: its HBM4 channels, then its LPDDR5X channels (10 R284, R285; log 12). -/
def fieldChans (f : Nat) : List Nat := rangeFrom (64 * f) 64 ++ rangeFrom (256 + 16 * f) 16

/-- Whether a scheduled retraining of a channel is due (10 R302). -/
def State.retrainDue (s : State) (c : Nat) : Bool :=
  let x := s.chan c
  !x.failed && !x.fenced && decide (1800000 * s.kvNat kRtPeriod + x.lastTrain < s.now)

/-- One channel's upkeep in a Sable window: its refresh debt repaid, its scrub position moved on (10 R300, R301). -/
def State.upkeep (s : State) (c : Nat) : State :=
  let x := s.chan c
  let at' := (x.scrubAt + s.kvNat kScrubLines) % max 1 (s.chanSize c / 64)
  s.setChan c { x with debt := 0, lastRefresh := s.now, scrubAt := at' }

/-- A scheduled retraining (10 R302). -/
def State.retrainChan (s : State) (c : Nat) : State :=
  (s.setChan c { s.chan c with lastTrain := s.now }).count (kRtCount c) 1

/-- Whether scrubbing reads the line at an address in this window: one of the `scrub_lines` lines of its channel from the
scrub position on, taken cyclically; not in a channel that is fenced or has failed (10 R301). -/
def State.scrubs (s : State) (a : Nat) : Bool :=
  match s.hueMap (a / 64 * 64) with
  | some (c, ca) =>
    let x := s.chan c
    let n := max 1 (s.chanSize c / 64)
    !x.fenced && !x.failed && decide ((ca / 64 + n - x.scrubAt % n) % n < s.kvNat kScrubLines)
  | none => false

/-- An error that scrubbing met: a corrected one counts and is written back, an uncorrectable one marks the line (10 R286,
R301). -/
def State.scrubErr (s : State) (e : Nat × Bool) : State :=
  if e.2 then (match s.hueMap (e.1 / 64 * 64) with | some (c, _) => s.memCe c | none => s) else s.memUe e.1

/-- The Sable window's own work: refresh debt, at most four scheduled retrainings in each field, scrubbing, then the host's
class 3 work (10 R301, R302). -/
def State.sableWork (s : State) (i : BoundaryInfo) : State :=
  let due := (List.range 4).flatMap (fun f => ((fieldChans f).filter (fun c => s.retrainDue c)).take 4)
  let s1 := (List.range 320).foldl State.upkeep s
  let s2 := due.foldl State.retrainChan s1
  ((i.scrub.filter (fun e => s.scrubs e.1)).foldl State.scrubErr s2).hostWork

/-! ### `RUN_STEPS` at a boundary (14 R421) -/

/-- The status a `RUN_STEPS` whose last step has just run retires with (14 R421). -/
def outcStatus (o : Option Outc) : Nat :=
  match o with
  | some .skip => stStepSkipped
  | some .withhold => stFaultContained
  | some .faulted => stFaultContained
  | _ => stOk

/-- The started command that satisfies a test. -/
def State.startedCmd (s : State) (p : HostOp → Bool) : Option Cmd :=
  s.hostIf.cmds.find? (fun c => c.started && p c.op)

/-- Whether a command is `UNLOAD`. -/
def HostOp.isUnload : HostOp → Bool
  | .unload => true
  | _ => false

/-- One step counted in the running `RUN_STEPS`. -/
def State.stepCounted (s : State) : State :=
  let inc (c : Cmd) : Cmd := match c.op with
    | .runSteps _ => if c.started then { c with done := c.done + 1 } else c
    | _ => c
  let cs := s.hostIf.cmds.map inc
  { s with hostIf := { s.hostIf with cmds := cs } }

/-- The running `RUN_STEPS` retires at a job fault, at an armed halt, for an `UNLOAD`, or after its count (14 R421; 20
R539). -/
def State.runEnds (s : State) : State :=
  match s.runCmd with
  | none => s
  | some c =>
    match s.job.jobFault with
    | some r => s.endRun stFaultJob r
    | none =>
      if s.haltDue then
        let s1 := s.endRun stOk 0
        { s1 with job := { s1.job with haltAt := none } }
      else if (s.startedCmd HostOp.isUnload).isSome then s.endRun stOk 0
      else match c.op with
        | .runSteps n => if 0 < n ∧ n ≤ c.done then s.endRun (outcStatus s.job.outcome) 0 else s
        | _ => s

/-- A waiting `UNLOAD` completes at the boundary (14 R421). -/
def State.unloadWaiting (s : State) : State :=
  match s.startedCmd HostOp.isUnload with
  | some c => s.unload c.hdr
  | none => s

/-! ### The boundary -/

/-- Whether the step in progress has reached its boundary: every entry ended, the verdict combined, the planned length
over (16 R449, R451; 07 R172). -/
def State.boundaryDue (s : State) : Bool :=
  s.job.inStep && s.entriesEnded && s.job.swBufs.isEmpty &&
    (!s.gradient || (s.job.sent && s.job.combined.isSome)) &&
    (match s.job.bound with | some b => decide (b.planLen ≤ s.elapsed) | none => false)

/-- The outcome of the step that ends (07 R179; 20 R535, R538). -/
def State.decideStep (s : State) : State :=
  (match s.job.combined with
    | some v => s.applyOutcome v
    | none => s.applyPlain).applyFaultN

/-- Context 0's round of the step ends: its arrival bits are cleared for the next (11 R318, R321). -/
def State.endVerdictRound (s : State) : State :=
  let x := s.ctx 0
  s.setCtx 0 { x with arrived := [], cfg := { x.cfg with seq := if x.peers.isEmpty then x.cfg.seq else s.roundSeq 0 } }

/-- The step closed: the record, the fold, the marks of the step cleared (02 R68; 16 R461; 13 R401). -/
def State.closeStep (s : State) (planLen : Nat) : State :=
  let s1 := (s.timeRecord planLen).kvSet kSwTiles (BitVec.ofNat 64 s.job.swTiles)
  let s2 := s1.fold.endVerdictRound
  { s2 with
    job := { s2.job with inStep := false, inSable := true, stepEnd := s.now, fault := false, liveryMismatch := false
                         combined := none, ents := [] }
    torus := { s2.torus with skewRaised := false, corrDone := false } }

/-- The operating point at the end of a step: readings, triggers, the point, its hold (17 R475 to R477, R486). -/
def State.pointAfterStep (s : State) (i : BoundaryInfo) (planLen : Nat) : State :=
  let s1 := (((s.takeReadings i).sensorTriggers).powerTrigger i.powerMw).kvSet kPwrStep (BitVec.ofNat 64 i.powerMw)
  s1.pointBoundary (s.now + s.kvNat kSableLen) planLen

/-- The boundary of a step, in the order of R25 and R198: outcome and flip, fold, checkpoints, Sable window, the operating
point, then the replies that fall due (01 R25; 07 R198; 14 R421). -/
def State.boundaryNow (s : State) (i : BoundaryInfo) : State :=
  let len := match s.job.bound with | some b => b.planLen | none => 0
  let s1 := (s.decideStep.closeStep len).captureAll
  let s2 := ((s1.sableWork i).pointAfterStep i len).stepCounted
  let s3 := s2.runEnds.unloadWaiting
  if s3.imageRuns then s3 else s3.fold

/-- `STEP_BOUNDARY` (16 R451). -/
def execStepBoundary (info : BoundaryInfo) (s : State) : Host.Outcome State Fault Refusal :=
  .next (if s.boundaryDue then (s.tileErrors info).boundaryNow info else s)

end Sys2Proof.Machine
end

