-- ==== Sys2Proof/Machine/Memory.lean ====
section
/-! DEFINITION. Memory requests, the shared arbiter, prefetch streams, refresh and retraining (10 R275 to R304, 12 R365). -/

namespace Sys2Proof.Machine

/-! ### Requests and the arbiter (10 R293 to R299) -/

/-- Whether a port serves the channel of an address: the channel's own input, or the slice that caches it (10 R275,
R293). -/
def State.servesAddr (s : State) (p a : Nat) : Bool :=
  match s.hueMap a with
  | some (c, _) => if p < 320 then decide (c = p) else decide (chanSlice c + 320 = p)
  | none => false

/-- Whether a request may arrive: class 3 stays out while an image runs outside a Sable window, and a requester with
`pend_depth` parked requests at the port waits (10 R297, R299). -/
def State.mayArrive (s : State) (r : MemReq) : Bool :=
  decide (r.port < 384) && s.servesAddr r.port r.addr && decide (r.cls < 4) &&
    (decide (r.cls ≠ 3) || !s.imageRuns || s.sable) &&
    s.room r.port r.req

/-- `MEMORY_REQUEST`: a request arrives at a channel input or a slice port; an unmapped address faults (10 R287, R294). -/
def execMemoryRequest (req : MemReq) (s : State) : Host.Outcome State Fault Refusal :=
  match s.hueMap req.addr with
  | none => .fault (.unmapped req.addr)
  | some _ => .next (if s.mayArrive req then s.park req else s)

/-- The class that slot `i` of a wheel names (10 R295, R311). -/
def wheelClass (wheel i : Nat) : Nat := bits wheel (2 * (i % 16)) 2

/-- The beats of one grant of a class (10 R296, R311). -/
def burstOf (v cls : Nat) : Nat := bits v (8 * cls) 8

/-- Whether a request goes before another: the older stamp, then the lower requester, then the lower class (10 R295). -/
def MemReq.before (a b : MemReq) : Bool :=
  decide (a.stamp < b.stamp) || (decide (a.stamp = b.stamp) && (decide (a.req < b.req) ||
    (decide (a.req = b.req) && decide (a.cls < b.cls))))

/-- The request that goes first; among equals the earlier one (10 R295). -/
def oldestReq : List MemReq → Option MemReq
  | [] => none
  | r :: rs => match oldestReq rs with
    | none => some r
    | some q => if MemReq.before q r then some q else some r

/-- Whether a Flosin output port can send a message now: its port is up, no other message that has begun holds its
virtual channel, a credit is held, and a message in transit is the first of its input's virtual channel (12 R359, R364,
R365; log 40). -/
def State.flReady (s : State) (p : Nat) (pend : List MemReq) (r : MemReq) : Bool :=
  let x := s.port p
  let vc := r.addr % 16
  x.up && x.maySend vc && (r.ce || !pend.any (fun q => q.ce && decide (q.addr % 16 = vc))) &&
    (decide (r.req < 4096) || r.ue ||
      decide (s.exch.inflight.find? (fun t => decide (t.1 = r.req - 4096) && decide (t.2.2 / 16 = r.addr / 16)) =
        some (r.req - 4096, p, r.addr)))

/-- Whether a port grants: a channel's input not while it is fenced or has failed (10 R303, R304). -/
def State.grants (s : State) (p : Nat) : Bool := decide (320 ≤ p) || s.chanUp p

/-- Whether a slice can take a request: the line is in Pearl, or its channel's input has room for the fetch (10 R297). -/
def State.sliceReady (s : State) (r : MemReq) : Bool :=
  match s.hueMap (r.addr / 64 * 64) with
  | some (c, _) => s.inPearl r.addr || s.room c r.req
  | none => true

/-- The requests eligible at a port: those that arrived in an earlier cycle (10 R294). -/
def State.eligible (s : State) (p : Nat) (pend : List MemReq) : List MemReq :=
  pend.filter (fun r => decide (r.stamp < s.now) &&
    (if p < 320 then true else if p < 384 then s.sliceReady r else s.flReady (p - 384) pend r))

/-- The request that wins at a port: of those parked when the channel's fence ended, the oldest; else the oldest of the
wheel's class, else the oldest (10 R295, R303). -/
def State.winner (s : State) (p : Nat) (es : List MemReq) : Option MemReq :=
  let cls := wheelClass (s.kvNat (if p < 384 then kArbWheel else kFlWheel)) (s.arb p).ptr
  let parked := if p < 320 then es.filter (fun r => decide (r.stamp ≤ (s.chan p).fenceAt)) else []
  match oldestReq parked, oldestReq (es.filter (fun r => decide (r.cls = cls))) with
  | some r, _ => some r
  | none, some r => some r
  | none, none => oldestReq es

/-- The access of a memory request granted at port `p`: Pearl at a slice port, a write's line, and the errors it meets (10
R276, R278, R286). -/
def State.access (s : State) (p : Nat) (r : MemReq) : State :=
  let s1 := if 320 ≤ p then s.pearlAccess { r with ue := false, ce := false } else s
  let s2 := match r.write with | some d => s1.dramWr (r.addr / 64 * 64) (d.take 64) | none => s1
  let s3 := if r.ue then s2.memUe r.addr else s2
  match s3.hueMap r.addr with
  | some (c, _) => if r.ce then s3.memCe c else s3
  | none => s3

/-- The grant in progress ends at its last beat; a memory request that the burst limit cut waits again, stamped with the
time of that beat (10 R296, R298). -/
def ArbPort.ended (a : ArbPort) (now : Nat) (memory : Bool) : ArbPort :=
  match a.cur with
  | some r =>
    if memory && decide (a.busyUntil ≤ now) then
      let back := if 0 < r.rest then [{ r with beats := r.rest, rest := 0, stamp := a.busyUntil }] else []
      { a with cur := none, pend := a.pend ++ back }
    else a
  | none => a

/-- A grant: the request leaves the queue for its beats, at most `burst_max` of its class; its access happens with its
last grant (10 R296). -/
def State.grant (s : State) (p : Nat) (r : MemReq) : State :=
  let a := s.arb p
  let n := min r.beats (max 1 (burstOf (s.kvNat (if p < 384 then kBurstMax else kFlBurst)) r.cls))
  let g := { r with beats := n, rest := r.beats - n }
  let s1 := s.setArb p { a with pend := a.pend.erase r, cur := some g, busyUntil := s.now + n }
  if p < 384 ∧ g.rest = 0 then s1.access p r else s1

/-- A decision of a port: the pointer's slot is read, the pointer advances, the winner is granted (10 R295). -/
def State.decideArb (s : State) (p : Nat) : State :=
  let a := (s.arb p).ended s.now (decide (p < 384))
  let s1 := s.setArb p a
  if a.cur.isSome || !s1.grants p then s1
  else match s1.winner p (s1.eligible p a.pend) with
    | none => s1
    | some r => (s1.setArb p { a with ptr := (a.ptr + 1) % 16 }).grant p r

/-- `ARBITER_DECISION` (10 R295 to R298; 12 R365). -/
def execArbiterDecision (port : Nat) (s : State) : Host.Outcome State Fault Refusal :=
  .next (if port < 392 then s.decideArb port else s)

/-! ### CXL.mem (10 R278, R299) -/

/-- A CXL.mem request: held while `host_hold` is 1 and an image runs outside a Sable window, else served, after those
held before it; one served in a step may delay other requests (10 R299; 16 R456). -/
def State.cxlMem (s : State) (r : CxlReq) : State :=
  if s.kvNat kHostHold = 1 ∧ s.imageRuns ∧ !s.sable then
    { s with hostIf := { s.hostIf with memHeld := s.hostIf.memHeld ++ [r] } }
  else
    let s1 := { s with hostIf := { s.hostIf with memHeld := s.hostIf.memHeld ++ [r] } }.serveHeld
    if s.kvNat kHostHold = 0 then s1.timing 7 else s1

/-- `CXL_MEM_ACCESS`: a request of the host inside the window, over a trained link (10 R278; 14 R403, R405). -/
def execCxlMemAccess (req : CxlReq) (s : State) : Host.Outcome State Fault Refusal :=
  .next (if s.hostIf.cxlUp ∧ req.addr / 64 * 64 + 64 ≤ s.kvNat kWinSize then s.cxlMem req else s)

/-! ### Prefetch streams (10 R279 to R283) -/

/-- The stream references of a slot of a unit of this node (10 R279). -/
def State.slotRefs (s : State) (u k : Nat) : List (StreamRef × StreamDesc) :=
  match s.job.img with
  | none => []
  | some i => i.streams.filter (fun x => decide (x.1.unit = s.nodeIndex * 224 + u) && decide (x.1.slot = k))

/-- How far the version in use of the token at a stream's address lies above its slot 0 (07 R188; 15 R445). -/
def State.streamShift (s : State) (d : StreamDesc) : Nat :=
  match s.job.bound with
  | none => 0
  | some b => match b.placed.find? (fun p => within d.mbase 1 (p.ranges false)) with
    | some p => s.slotShift p.tok d.write
    | none => 0

/-- The distinct lines of a stream in order of first touch (10 R280). -/
def streamLines (d : StreamDesc) : List Nat :=
  (List.range (prodL d.ext)).foldl (fun ls i =>
    let x := streamElem d i
    ls ++ (linesOf x.1 x.2).filter (fun l => !ls.contains l)) []

/-- A stream slot that follows a descriptor from its first line on, at the version in use (10 R279, R280). -/
def State.slotFor (s : State) (r : StreamRef × StreamDesc) : StreamSlot :=
  let d := { r.2 with mbase := r.2.mbase + s.streamShift r.2, entry := r.1.entry }
  { desc := some d, lines := streamLines d }

/-- Whether a stream's landing area holds operands that another entry's sampled tile keeps until its recompute ends
(07 R196). -/
def State.landKept (s : State) (u : Nat) (r : StreamRef × StreamDesc) : Bool :=
  s.job.swBufs.any (fun b => decide (b.unit = u) && decide (b.entry ≠ r.1.entry) &&
    (s.streamsOf b.entry).any (fun x => decide (x.1 = u) && landsMeet x.2.2 r.2))

/-- A free slot takes the stream of its first entry of the step that has not ended and whose stream was not cancelled, once
its landing area holds no operands of a sampled tile (07 R196; 10 R279, R282). -/
def State.activate (s : State) (u k : Nat) : State :=
  if (s.slot u k).desc.isSome || !s.job.inStep then s
  else match (s.slotRefs u k).find? (fun r => !s.endedEnt r.1.entry && !(s.tile u).cancelled.contains (r.1.entry, k)) with
    | some r => if s.landKept u r then s else s.setSlot u k (s.slotFor r)
    | none => s

/-- Lines of a unit's read streams requested and not yet landed (10 R281). -/
def State.outstanding (s : State) (u : Nat) : Nat :=
  ((s.tile u).streams.map (fun x => if (match x.2.desc with | some d => d.write | none => true) then 0
    else x.2.asked - x.2.landed.length)).foldl (fun a b => a + b) 0

/-- Whether the bytes of a line are final for a reading entry (10 R279; 01 R23). -/
def State.lineFinal (s : State) (e line : Nat) : Bool :=
  (s.entryOf e).reads.all (fun t =>
    !((s.placed t).ranges (s.slotOf t false)).any (fun r => overlaps line (line + 64) r.1 r.2) || s.final t)

/-- The request of a stream for a line, at its slice port: class 1 for a read, 2 for a write; a written line that the
elements do not cover whole is a partial write (10 R276, R280, R293). -/
def State.streamReq (s : State) (u : Nat) (d : StreamDesc) (line : Nat) : MemReq :=
  { port := s.slicePort line, cls := if d.write then 2 else 1, req := u, addr := line, store := d.write
    part := d.write && !wholeLine d line }

/-- Whether a stream may request its next line: a read stream within its depth and the tile's 2,048 lines, of final data; a
write stream of a running entry (10 R280, R281, R283). -/
def State.mayAsk (s : State) (u : Nat) (x : StreamSlot) (d : StreamDesc) : Bool :=
  let line := x.lines.getD x.asked 0
  let depth := if d.depth = 0 then s.kvNat kPfDepth else d.depth
  decide (x.asked < x.lines.length) && s.mayArrive (s.streamReq u d line) &&
    (if d.write then s.running d.entry
     else decide (x.asked - x.landed.length < depth) && decide (s.outstanding u < 2048) && s.lineFinal d.entry line)

/-- The next line of a stream requested at its slice port, at class 1 for a read and 2 for a write (10 R280). -/
def State.askLine (s : State) (u k : Nat) : State :=
  let x := s.slot u k
  match x.desc with
  | none => s
  | some d =>
    if s.mayAsk u x d then
      let line := x.lines.getD x.asked 0
      (s.setSlot u k { x with asked := x.asked + 1 }).park (s.streamReq u d line)
    else s

/-- `STREAM_LINE_REQUEST` (10 R280, R281). -/
def execStreamLineRequest (unit slot : Nat) (s : State) : Host.Outcome State Fault Refusal :=
  .next (if unit < 224 ∧ slot < 8 then (s.activate unit slot).askLine unit slot else s)

/-- Whether a request of a unit for a line still waits at its slice port or, to fetch it, at its channel's input. -/
def State.waits (s : State) (u cls line : Nat) : Bool :=
  let hit (r : MemReq) : Bool := decide (r.req = u) && decide (r.cls = cls) && decide (r.addr = line)
  (s.arb (s.slicePort line)).pend.any hit || (match s.hueMap line with
    | some (c, _) => (s.arb c).pend.any hit
    | none => false)

/-- The elements of a stream that a line completes: they touch it, and every line they touch is done (10 R280). -/
def completes (d : StreamDesc) (line : Nat) (ok : Nat → Bool) : List Nat :=
  (List.range (prodL d.ext)).filter (fun i => touches d i line && elemLines d i ok)

/-- A line landed: the elements it completes are copied to the landing area, packed in order of iota. An element of a
poisoned line leaves its bits there bad, for its reader to fault at (10 R280, R286). -/
def State.landLine (s : State) (u k j : Nat) (x : StreamSlot) (d : StreamDesc) : State :=
  let f := (Fmt.ofNum d.fmt).getD .fp32
  let line := x.lines.getD j 0
  let y := { x with landed := x.landed ++ [j] }
  let done := completes d line (y.lineDone y.landed)
  let s1 := done.foldl (fun (z : State) i =>
    let p := streamPos d i
    z.setTileElem u f d.land i (z.dramElem f p.1 p.2)) s
  let hit := done.filter (fun i => let e := streamElem d i; s.poisoned e.1 e.2)
  let bits := hit.map (fun i => let b := elemBits f d.land i; (b.1, b.1 + b.2))
  (s1.setTile u { s1.tile u with bad := (s1.tile u).bad ++ bits }).setSlot u k y

/-- `STREAM_LINE_LANDED`: a line requested and granted lands; an uncorrectable error leaves its line poisoned, and its
readers fault (10 R280, R286). -/
def execStreamLineLanded (unit slot line : Nat) (ue : Bool) (s : State) : Host.Outcome State Fault Refusal :=
  .next (
    let x := s.slot unit slot
    match x.desc with
    | none => s
    | some d =>
      let a := x.lines.getD line 0
      if !d.write && decide (line < x.asked) && !x.landed.contains line && !s.waits unit 1 a then
        (if ue then s.memUe a else s).landLine unit slot line x d
      else s)

/-- A line of a write stream written: the elements it completes go from the landing area to memory; a poisoned line that
they cover whole is no longer poisoned (10 R280, R283, R286). -/
def State.storeLine (s : State) (u k : Nat) (x : StreamSlot) (d : StreamDesc) : State :=
  let f := (Fmt.ofNum d.fmt).getD .fp32
  let line := x.lines.getD x.accepted 0
  let done := completes d line (x.lineDone (List.range (x.accepted + 1)))
  let s1 := done.foldl (fun (z : State) i =>
    let p := streamPos d i
    z.setDramElem f p.1 p.2 (z.tileElem u f d.land i)) s
  let s2 := if wholeLine d line then s1.clearPoison [(line, line + 64)] else s1
  s2.setSlot u k { x with accepted := x.accepted + 1 }

/-- `WRITE_STREAM_ACCEPTED`: the next line of a write stream is accepted at its Pearl slice (10 R283). -/
def execWriteStreamAccepted (unit slot : Nat) (s : State) : Host.Outcome State Fault Refusal :=
  .next (
    let x := s.slot unit slot
    match x.desc with
    | none => s
    | some d =>
      if d.write && decide (x.accepted < x.asked) && !s.waits unit 2 (x.lines.getD x.accepted 0) && s.running d.entry then
        s.storeLine unit slot x d
      else s)

/-- Whether an entry has reached its scheduled end: its start plus its charge (10 R282). -/
def State.pastEnd (s : State) (e : Nat) : Bool :=
  match s.job.ents[e]? with
  | some (.running t) => s.job.inStep && decide (t + (s.planOf e).2 ≤ s.elapsed)
  | _ => false

/-- `STREAM_CANCEL`: a read stream with lines not landed at its consumer's scheduled end (10 R282). -/
def execStreamCancel (unit slot : Nat) (s : State) : Host.Outcome State Fault Refusal :=
  .next (
    let x := s.slot unit slot
    match x.desc with
    | none => s
    | some d => if !d.write && decide (x.landed.length < x.lines.length) && s.pastEnd d.entry then s.cancelStream unit slot
      else s)

/-! ### Refresh and retraining (10 R300 to R304) -/

/-- The refresh interval of an HBM channel in cc: 3.9 us, or 1.95 us above 85 C (10 R300). -/
def Chan.interval (x : Chan) : Nat := if x.hot then 3510 else 7020

/-- Whether a refresh of a channel is due: an LPDDR5X device's interval is its own (10 R300; log 12). -/
def State.refreshDue (s : State) (c : Nat) : Bool :=
  let x := s.chan c
  decide (c < 320) && !x.fenced && !x.failed && (decide (256 ≤ c) || decide (x.lastRefresh + x.interval ≤ s.now))

/-- Whether a request waits at a channel or at the slice that caches it. -/
def State.anyWaits (s : State) (c : Nat) : Bool :=
  !(s.arb c).pend.isEmpty || !(s.arb (320 + chanSlice c)).pend.isEmpty

/-- A refresh operation that delays a request of the step (16 R461). -/
def State.refreshEvent (s : State) (c : Nat) : State :=
  if s.job.inStep && s.anyWaits c then
    let s1 := s.timing 0
    { s1 with job := { s1.job with evRef := s1.job.evRef + 1 } }
  else s

/-- A debt of 8 intervals refreshed at once (10 R300). -/
def State.forceRefresh (s : State) (c : Nat) : State :=
  ((s.setChan c { s.chan c with debt := 0, lastRefresh := s.now }).count (kRefForced (chanField c)) 1).timing 1

/-- The refresh of a channel whose interval has passed: in a step with `ref_mode` 1 it owes one more interval, or repays a
debt of 8 at once (10 R300). -/
def State.refresh (s : State) (c : Nat) : State :=
  let x := s.chan c
  if s.kvNat kRefMode = 1 ∧ s.job.inStep then
    if x.debt < 8 then s.setChan c { x with debt := x.debt + 1, lastRefresh := s.now } else s.forceRefresh c
  else (s.refreshEvent c).setChan c { x with lastRefresh := s.now }

/-- `REFRESH`: the interval at the temperature that the device reports now has passed, and the channel refreshes or defers;
`chan.hot` says above 85 C (10 R300). -/
def execRefresh (chan : ChanHeat) (s : State) : Host.Outcome State Fault Refusal :=
  .next (
    let c := chan.chan
    let s1 := if c < 320 then s.setChan c { s.chan c with hot := chan.hot } else s
    if s1.refreshDue c then s1.refresh c else s1)

/-- `FORCED_REFRESH`: a debt of 8 intervals is refreshed at once (10 R300). -/
def execForcedRefresh (chan : Nat) (s : State) : Host.Outcome State Fault Refusal :=
  .next (
    let x := s.chan chan
    if decide (chan < 320) && decide (8 ≤ x.debt) && !x.fenced then s.forceRefresh chan else s)

/-- The channels of one stack or of one LPDDR5X package share a number (10 R284, R285). -/
def chanGroup (c : Nat) : Nat := if c < 256 then c / 32 else 8 + (c - 256) / 4

/-- Whether a channel's corrected errors call for retraining: more than `rt_ce_thresh` within 2^20 cc, or its turn has not
come yet (10 R303). -/
def State.retrainTrigger (s : State) (c : Nat) : Bool :=
  let x := s.chan c
  x.waitTurn || decide (s.kvNat kRtCeThresh < x.ceTicks.countP (fun t => decide (s.now < ceWindow + t)))

/-- The channel fences itself, or waits for its turn while another of its stack or package retrains (10 R303). -/
def State.fence (s : State) (c : Nat) : State :=
  let x := s.chan c
  let busy := (List.range 320).any (fun d => decide (d ≠ c) && decide (chanGroup d = chanGroup c) && (s.chan d).fenced)
  if busy then s.setChan c { x with waitTurn := true }
  else
    let y := { x with fenced := true, fenceAt := s.now, waitTurn := false, ceTicks := [] }
    (((s.setChan c y).count (kRtUnsched (chanField c)) 1).count (kRtCount c) 1).timing 2

/-- `UNSCHEDULED_RETRAINING` (10 R303). -/
def execUnscheduledRetraining (chan : Nat) (s : State) : Host.Outcome State Fault Refusal :=
  .next (if decide (chan < 320) && !(s.chan chan).fenced && !(s.chan chan).failed && s.retrainTrigger chan
    then s.fence chan else s)

/-- The longest fence of a channel's field raised to this one's length (10 R311). -/
def State.fenceLength (s : State) (c n : Nat) : State :=
  let k := kRtFenceMax (chanField c)
  s.count k (n - (s.kvNat k + Tab.get 0 k s.acc))

/-- CXL.mem requests that waited for a line of the channel served, where none is held for the Sable window (10 R299,
R303). -/
def State.serveWaiting (s : State) : State :=
  if s.kvNat kHostHold = 1 ∧ s.imageRuns ∧ !s.sable then s else s.serveHeld

/-- The fence ends: the channel is trained and refreshed, and parked requests are served oldest first (10 R303). -/
def State.unfence (s : State) (c : Nat) : State :=
  let x := s.chan c
  ((s.setChan c { x with fenced := false, fenceAt := s.now, lastTrain := s.now, debt := 0, lastRefresh := s.now }).fenceLength
    c (s.now - x.fenceAt)).serveWaiting

/-- `UNFENCE`: at most 4,500 cc after the fence (10 R303). -/
def execUnfence (chan : Nat) (s : State) : Host.Outcome State Fault Refusal :=
  .next (if (s.chan chan).fenced && !(s.chan chan).failed && decide (s.now ≤ 4500 + (s.chan chan).fenceAt)
    then s.unfence chan else s)

/-- `CHANNEL_FAILED`: a retraining, unscheduled or in a Sable window, has failed; the package retires (10 R304; 20 R540). -/
def execChannelFailed (chan : Nat) (s : State) : Host.Outcome State Fault Refusal :=
  .next (
    if decide (chan < 320) && !(s.chan chan).failed && ((s.chan chan).fenced || s.sable) then
      (s.setChan chan { s.chan chan with failed := true }).retirePackage
        { sub := 0x06, inst := chan, cause := Config.faultCause 13 % 256 }
    else s)

end Sys2Proof.Machine
end

