-- ==== Sys2Proof/Machine/PortPlan.lean ====
section
/-! DEFINITION. Messages of the planned step on shared output ports: the flows of every exchange round on every node of the
block, and the arbiter played over them (11 R337, R338, R552; 10 R295, R296; 12 R362, R363, R365; 16 R458). What the rules
leave open of the planned injection times is log 18. -/

namespace Sys2Proof.Machine

/-- The excess of a hop over a port over `t_router` and 288 cycles: its `link_lat`, or the 128 slots of an elastic port
(12 R368, R372). -/
def State.portExcess (s : State) (p : Nat) : Nat :=
  if (s.port p).native then s.kvNat (kLinkLat p) - 288 else ceilDiv (128 * 144) 125

/-- The excess of the slowest hop port of this package (12 R368, R372; 16 R456, R458; log 18). -/
def State.hopExcess (s : State) : Nat := s.hopPorts.foldl (fun a p => max a (s.portExcess p)) 0

/-- The charge of a hop in cycles (16 R458). -/
def State.hopCc (s : State) : Nat := 126 + 288 + s.hopExcess

/-- A hop of a planned route: its output port, by package coordinates and link (six directions, then those of the further
links of a path around a hole), the direction, and the dateline bit of its virtual channel (12 R362, R363). -/
structure PlanHop where
  at' : Nat × Nat × Nat
  link : Nat
  dir : Nat
  dl : Nat
deriving DecidableEq, Repr, Inhabited

/-- The hops of the links of one axis step. -/
def axisHops (c : Nat × Nat × Nat) (dir dl links : Nat) : List PlanHop :=
  (List.range links).map (fun k => { at' := c, link := dir + 6 * k, dir := dir, dl := dl })

/-- The hops of a route from `c` to `d` of a message that began at `src`; `fuel` bounds them (12 R362, R363; 13 R391). -/
def State.routeHops (s : State) (src : Nat × Nat × Nat) : Nat → Nat × Nat × Nat → Nat × Nat × Nat → List PlanHop
  | 0, _, _ => []
  | fuel + 1, c, d =>
    let t := s.torus
    let b := s.blockOf
    let (mx, my, mz) := t.size
    if c.1 ≠ d.1 then
      let plus := axisDir mx b.ox b.sx c.1 d.1
      axisHops c (if plus then 0 else 1) (dlOf plus src.1 c.1 (crosses mx c.1 plus)) 1 ++
        State.routeHops s src fuel (axisMove mx c.1 plus, c.2.1, c.2.2) d
    else if c.2.1 ≠ d.2.1 then
      let plus := axisDir my b.oy b.sy c.2.1 d.2.1
      let y := axisMove my c.2.1 plus
      let n := match t.linkPath (t.slotAt c.1 c.2.1 c.2.2, c.2.1, c.2.2) (if plus then 2 else 3) c.1 y c.2.2 with
        | some p => p.length
        | none => 1
      axisHops c (if plus then 2 else 3) (dlOf plus src.2.1 c.2.1 (crosses my c.2.1 plus)) n ++
        State.routeHops s src fuel (c.1, y, c.2.2) d
    else if c.2.2 ≠ d.2.2 then
      let plus := axisDir mz b.oz b.sz c.2.2 d.2.2
      let z := axisMove mz c.2.2 plus
      let n := match t.linkPath (t.slotAt c.1 c.2.1 c.2.2, c.2.1, c.2.2) (if plus then 4 else 5) c.1 c.2.1 z with
        | some p => p.length
        | none => 1
      axisHops c (if plus then 4 else 5) (dlOf plus src.2.2 c.2.2 (crosses mz c.2.2 plus)) n ++
        State.routeHops s src fuel (c.1, c.2.1, z) d
    else []

/-- The hops between two nodes of the block. -/
def State.nodeHops (s : State) (m r : Nat) : List PlanHop :=
  let (mx, my, mz) := s.torus.size
  let c := s.machineCoord (s.blockOf.coord m)
  s.routeHops c (mx + my + mz) c (s.machineCoord (s.blockOf.coord r))

/-! ### What a round sends, and when (11 R317, R338) -/

/-- What one node sends to one peer in a round: payload lengths with the cycle, from the round's start, at which each is
injected. -/
structure PlanFlow where
  entry : Nat
  round : Nat
  node : Nat
  dst : Nat
  ctx : Nat
  cls : Nat
  msgs : List (Nat × Nat)
  hops : List PlanHop
deriving DecidableEq, Repr, Inhabited

/-- Bytes of a flow. -/
def PlanFlow.bytes (f : PlanFlow) : Nat := (f.msgs.map (fun m => m.1)).foldl (fun a b => a + b) 0

/-- The times in ns of the ring steps of the stages of an all-reduce's first half, axis by axis (11 R338). -/
def ringStepNs (rate : Nat) : List (Nat × Bool) → List Bool → Nat → List (List Nat)
  | [], _, _ => []
  | (n, w) :: rest, fold, v =>
    let folded := fold.headD false
    let h := if folded then 2 else if w then 1 else n - 1
    List.replicate (n - 1) (110 + h * 230 + ringBytesNs rate (ceilDiv v (2 * n)) (w && !folded) + 90) ::
      ringStepNs rate rest (fold.drop 1) (ceilDiv v n)

/-- The ring steps of a collective with their times in ns, in order (11 R338, R550). -/
def collSteps (rate kind : Nat) (ax : List (Nat × Bool)) (fold : List Bool) (v : Nat) : List Nat :=
  let t := ringStepNs rate ax fold v
  (if kind = 5 then [] else t.flatten) ++ (if kind = 4 then [] else t.reverse.flatten)

/-- The accumulator or output bytes a collective's charge counts (11 R338). -/
def State.collBytes (s : State) (r : CtxRec) (c : Nat) : Nat :=
  let len := s.collLen r c
  if r.kind = 5 then planeBytes ((Fmt.ofNum r.fmtOut).getD .fp32) (len * s.nodes) else len * r.width

/-- The fold bits of a context, by axis (11 R313). -/
def CtxRec.folds (r : CtxRec) : List Bool := [bitOf r.fold 0, bitOf r.fold 1, bitOf r.fold 2]

/-- The flows of one round of context `c` on node `m`: a collective's payloads are injected ring step by ring step, every
other payload at the round's start (11 R317, R336, R338; log 18). -/
def State.nodeFlows (s : State) (entry round m c : Nat) : List PlanFlow :=
  let x := s.nodeCtx m c
  let cut (n t : Nat) : List (Nat × Nat) :=
    (List.range (ceilDiv n msgMax)).map (fun k => (min msgMax (n - k * msgMax), t))
  let flow (r : Nat) (ms : List (Nat × Nat)) : PlanFlow :=
    { entry := entry, round := round, node := m, dst := r, ctx := c, cls := if x.1.kind = 6 then 0 else 1, msgs := ms
      hops := s.nodeHops m r }
  let peers := (x.2.map (fun p => (s.peerNode p, p.pctx))).eraseDups
  if 3 ≤ x.1.kind ∧ x.1.kind ≤ 5 then
    let steps := collSteps s.payRate x.1.kind (s.blockAxes s.blockOf) x.1.folds (s.collBytes x.1 c)
    (s.ringSends x.1.kind x.1.fold (s.collLen x.1 c) m).map (fun g =>
      flow (s.ringDst m g) (cut (g.len * x.1.width) (nsCc ((steps.take g.ph).foldl (fun a b => a + b) 0))))
  else peers.map (fun p =>
    flow p.1 ((s.plan m c x.1 x.2 p.1 p.2).flatMap (fun g => cut (groupSize g) 0)))

/-- The flows of a round, over every node of the block. -/
def State.roundFlows (s : State) (entry round c : Nat) : List PlanFlow :=
  ((List.range s.nodes).flatMap (fun m => s.nodeFlows entry round m c)).filter
    (fun f => decide (0 < f.bytes) && decide (f.node ≠ f.dst))

/-- Rounds of a context. -/
def State.roundsOf (s : State) (c : Nat) : Nat := (s.nodeCtx s.nodeIndex c).1.nRoundM1 + 1

/-- Every flow of the planned step with its round's start and length, from planned entries (start, charge): the rounds of
an entry follow each other evenly (16 R449; log 18). -/
def State.stepFlows (s : State) (i : Image) (plan : List (Nat × Nat)) : List (PlanFlow × Nat × Nat) :=
  i.parts.entries.zipIdx.flatMap (fun e => match e.1.kind with
    | .exchange c =>
      let n := s.roundsOf c
      let (t, w) := plan.getD e.2 (0, 0)
      (List.range n).flatMap (fun j => (s.roundFlows e.2 j c).map (fun f => (f, t + j * (w / n), w / n)))
    | _ => [])

/-- Whether two flows of overlapping rounds use one output port (11 R552). -/
def sharePort (a b : PlanFlow × Nat × Nat) : Bool :=
  decide (a.2.1 < b.2.1 + max 1 b.2.2) && decide (b.2.1 < a.2.1 + max 1 a.2.2) &&
    a.1.hops.any (fun h => b.1.hops.any (fun k => decide (h.at' = k.at' ∧ h.link = k.link)))

/-! ### The arbiter played (10 R295, R296; 11 R552; 12 R365) -/

/-- A message at an output port of the play: the round it belongs to, the hop and those after it, and its request, whose
times are in 1/125 cycle. -/
structure PlayReq where
  entry : Nat
  round : Nat
  hop : PlanHop
  next : List PlanHop
  rq : MemReq
deriving DecidableEq, Repr, Inhabited

/-- The play: waiting requests; per port the time it is free and its pointer; the last landing of each round. -/
structure Play where
  reqs : List PlayReq := []
  ports : List ((Nat × Nat × Nat) × Nat × Nat × Nat) := []
  landed : List (Nat × Nat × Nat) := []
deriving DecidableEq, Repr, Inhabited

/-- The port of a request. -/
def PlayReq.port (r : PlayReq) : (Nat × Nat × Nat) × Nat := (r.hop.at', r.hop.link)

/-- When a port of the play is free, and its pointer; both 0 before its first grant (10 R295). -/
def Play.at' (p : Play) (k : (Nat × Nat × Nat) × Nat) : Nat × Nat :=
  match p.ports.find? (fun x => decide ((x.1, x.2.1) = k)) with
  | some x => x.2.2
  | none => (0, 0)

/-- A landing of a round noted. -/
def Play.land (p : Play) (e r t : Nat) : Play :=
  { p with landed := (e, r, t) :: p.landed }

/-- The flits of a message of `n` body bytes (12 R360). -/
def flitsOf (n : Nat) : Nat := ceilDiv (32 + n) 240

/-- The requests the flows of the planned step make at their first ports: stamped `t_inj` after their injection (11 R337,
R552). -/
def playStart (fs : List (PlanFlow × Nat × Nat)) : List PlayReq :=
  fs.flatMap (fun f => match f.1.hops with
    | [] => []
    | h :: rest => f.1.msgs.map (fun m =>
        { entry := f.1.entry, round := f.1.round, hop := h, next := rest
          rq := { port := 0, cls := f.1.cls, req := f.1.ctx, beats := flitsOf m.1, addr := vcOf f.1.cls h.dl
                  stamp := 125 * (f.2.1 + m.2 + 198) } }))

/-- When the port of a request can decide: once it is free and the request has arrived. -/
def Play.ready (p : Play) (r : PlayReq) : Nat := max (p.at' r.port).1 r.rq.stamp

/-- The request whose port decides first. -/
def Play.first (p : Play) : List PlayReq → Option PlayReq
  | [] => none
  | r :: rs => match Play.first p rs with
    | none => some r
    | some q => if p.ready q < p.ready r then some q else some r

/-- One decision of the play: at the port that decides first, the wheel's class, else the oldest request, is granted at
most its burst; its head goes on to the next port, and what is left waits again with its last beat's time (10 R295, R296;
12 R365). `slot` is a flit's time, in 1/125 cycle. -/
def Play.turn (p : Play) (wheel burst hopCc slot : Nat) : Play :=
  match p.first p.reqs with
  | none => p
  | some f =>
    let k := f.port
    let t := p.ready f
    let ptr := (p.at' k).2
    let at' := p.reqs.filter (fun r => decide (r.port = k) && decide (r.rq.stamp ≤ t))
    let es := at'.filter (fun r => r.rq.ce || !at'.any (fun q => q.rq.ce && decide (q.rq.addr = r.rq.addr)))
    let rqs := es.map (fun r => r.rq)
    let cls := wheelClass wheel ptr
    let won := match oldestReq (rqs.filter (fun r => decide (r.cls = cls))) with
      | some r => some r
      | none => oldestReq rqs
    match won.bind (fun w => es.find? (fun r => decide (r.rq = w))) with
    | none => p
    | some r =>
      let n := min r.rq.beats (max 1 (burstOf burst r.rq.cls))
      let tEnd := t + slot * n
      let others := p.reqs.erase r
      let head := match r.next with
        | [] => []
        | h :: rest => if r.rq.ce then [] else
          [{ r with hop := h, next := rest
                    rq := { r.rq with req := 4096 + (if r.hop.dir % 2 = 0 then r.hop.dir + 1 else r.hop.dir - 1)
                                      addr := vcOf r.rq.cls h.dl, stamp := t + 125 * hopCc } }]
      let back := if n < r.rq.beats then [{ r with rq := { r.rq with beats := r.rq.beats - n, ce := true, stamp := tEnd } }]
        else []
      let q : Play :=
        { p with
            reqs := others ++ head ++ back
            ports := (k.1, k.2, tEnd, (ptr + 1) % 16) ::
              p.ports.filter (fun x => !decide ((x.1, x.2.1) = k)) }
      q.land r.entry r.round (tEnd + 125 * ((r.next.length + 1) * hopCc + 162))

/-- The play run until no request waits: `fuel` bounds the decisions. -/
def Play.run (wheel burst hopCc slot : Nat) : Nat → Play → Play
  | 0, p => p
  | fuel + 1, p => if p.reqs.isEmpty then p else Play.run wheel burst hopCc slot fuel (p.turn wheel burst hopCc slot)

/-- The play of a planned step. -/
def State.playStep (s : State) (fs : List (PlanFlow × Nat × Nat)) : Play :=
  let reqs := playStart fs
  let fuel := (reqs.map (fun r => r.rq.beats * (r.next.length + 1))).foldl (fun a b => a + b) 0
  Play.run (s.kvNat kFlWheel) (s.kvNat kFlBurst) s.hopCc (ceilDiv (144 * 3750) s.payRate) fuel { reqs := reqs }

/-- The last landing of a round in the play, in cycles. -/
def Play.landing (p : Play) (e r : Nat) : Nat :=
  ceilDiv ((p.landed.filter (fun x => decide (x.1 = e) && decide (x.2.1 = r))).foldl
    (fun a x => max a x.2.2) 0) 125

end Sys2Proof.Machine
end

