-- ==== Sys2Proof/Machine/Plan.lean ====
section
/-! DEFINITION. The planned timeline of a bound image: the charge of every entry, the planned starts, Swatch slots and the
verdict (16 R449 to R458; 04 R104; 05 R142, R143; 07 R197; 08 R241; 09 R266; 11 R337, R338). What the loader's planning
chooses where no rule binds it is log 18. -/

namespace Sys2Proof.Machine

/-- The most tiles that Swatch can sample among some ranges, for any offset (07 R192, R197). -/
def mostSampled (rs : List (Nat × Nat)) (n : Nat) : Nat :=
  ((List.range n).map (fun r => rs.foldl (fun a x =>
    a + ((x.2 + n - 1 - r) / n - (x.1 + n - 1 - r) / n)) 0)).foldl max 0

/-! ### Products and Swatch (04 R92, R104; 07 R197) -/

/-- The reference-order row of a product of an image. -/
def Image.rowOf (i : Image) (d : ProdDesc) : DotRow :=
  let fmt (o : OperandDesc) : Fmt := (Fmt.ofNum (i.tok o.tok).fmt).getD .fp32
  (prodRow d (fmt d.a) (fmt d.b)).getD .chain64

/-- `t_dr` of a product (04 R104). -/
def Image.drainOf (i : Image) (d : ProdDesc) : Nat := tDrain ((Fmt.ofNum (i.tok d.out.tok).fmt).getD .fp32)

/-- The cycles from a product's start to its first k position: `t_fill`, and `t_tf` when an operand is turned; a product with
K = 0 turns none (04 R104). -/
def prodLead (d : ProdDesc) : Nat := 24 + if prodTurned d ∧ d.k ≠ 0 then 32 else 0

/-- Cycles of one output tile of a product: the longer of its k stream and the drain, and the swap (04 R104). -/
def Image.tilePeriod (i : Image) (d : ProdDesc) : Nat := max (prodCTile d (i.rowOf d)) (i.drainOf d) + 2

/-- The time T of a product on a unit of `n` output tiles (04 R104). -/
def Image.prodTime (i : Image) (d : ProdDesc) (n : Nat) : Nat := prodLead d + n * i.tilePeriod d + i.drainOf d

/-- Tiles of a product that Swatch can sample on a unit (07 R192, R197). -/
def State.sampledOn (s : State) (i : Image) (e : Entry) (nodes g : Nat) : Nat :=
  match e.kind, s.swN with
  | .product d, some n => if DotRow.sampled (i.rowOf d) then mostSampled (gRanges e nodes g) n else 0
  | _, _ => 0

/-- The charge of a product: the largest time over its units, with one FP32 drain for each sampled tile (04 R104; 07
R197). -/
def State.prodCharge (s : State) (i : Image) (e : Entry) (d : ProdDesc) : Nat :=
  ((gUnits e s.nodes).map (fun g =>
    i.prodTime d (rangesLen (gRanges e s.nodes g)) + 64 * s.sampledOn i e s.nodes g)).foldl max 0

/-- The budget of a product's Swatch slot (07 R197). -/
def State.slotBudget (s : State) (i : Image) (e : Entry) : Nat :=
  match e.kind with
  | .product d =>
    let rate := if i.rowOf d = .float 4 64 then 32 else 64
    let n := ((gUnits e s.nodes).map (s.sampledOn i e s.nodes)).foldl max 0
    n * (ceilDiv (2048 * d.k) rate + 160)
  | _ => 0

/-! ### Chain operations (05 R142, R143) -/

/-- The operand bytes per cycle of a product's arrays, from its row and the widths of its operands (04 R92; log 18). -/
def Image.opBytes (i : Image) (d : ProdDesc) : Nat :=
  let fmt (o : OperandDesc) : Fmt := (Fmt.ofNum (i.tok o.tok).fmt).getD .fp32
  let per (f : Fmt) (n : Nat) : Nat := n * quarterBits f
  ceilDiv ((per (fmt d.a) 32 + per (fmt d.b) 64) * 16) (32 * max 1 (cycles16 (i.rowOf d)))

/-- What a product does on unit `g` in a cycle of the plan: whether it streams k positions, and whether it drains
(04 R104, R107). -/
def State.prodActs (s : State) (i : Image) (e : Entry) (d : ProdDesc) (start g c : Nat) : Bool × Bool :=
  let n := rangesLen (gRanges e s.nodes g)
  let p := i.tilePeriod d
  let ct := prodCTile d (i.rowOf d)
  let x := c - (start + prodLead d)
  let on := decide (start + prodLead d ≤ c) && decide (0 < n)
  (on && decide (x / p < n) && decide (x % p < ct),
    on && decide (p ≤ x) && decide ((x - p) / p < n) && decide ((x - p) % p < i.drainOf d))

/-- The chain's shares of the tile store's ports in a cycle of the plan: bytes read and bytes written (05 R142). `plan`
gives start and charge by entry. -/
def State.shares (s : State) (i : Image) (plan : List (Nat × Nat)) (g c : Nat) : Nat × Nat :=
  let acts := (i.parts.entries.zip plan).filterMap (fun x => match x.1.kind with
    | .product d => if x.2.1 ≤ c ∧ c < x.2.1 + x.2.2 then some (i.opBytes d, s.prodActs i x.1 d x.2.1 g c) else none
    | _ => none)
  let rd := (acts.filter (fun a => a.2.1)).foldl (fun v a => v + a.1) 0
  let dr := (acts.filter (fun a => a.2.2)).length
  (min 512 (1024 - 64 - rd), if 3 ≤ dr then 128 else 256)

/-- Cycles from cycle `c` whose shares first sum to at least `need` bytes: `fuel` bounds them (05 R143). -/
def cyclesFor (share : Nat → Nat) : Nat → Nat → Nat → Nat
  | 0, _, _ => 0
  | fuel + 1, c, need => if need = 0 then 0 else 1 + cyclesFor share fuel (c + 1) (need - share c)

/-- The cycles of a pass over `n` elements that begins at cycle `c` of the plan (05 R141 to R143). -/
def State.passAt (s : State) (i : Image) (plan : List (Nat × Nat)) (g : Nat) (r : ChainRec) (pass n c : Nat) : Nat :=
  let busy := (plan.map (fun p => p.1 + p.2)).foldl max 0
  if busy ≤ c then passCost r pass n
  else
    let inB := streamBytes (passIns r pass) n
    let outB := streamBytes (passOuts r pass) n
    max (ceilDiv n (passRate r pass))
      (max (cyclesFor (fun t => (s.shares i plan g t).1) (busy + inB) c inB)
        (cyclesFor (fun t => (s.shares i plan g t).2) (busy + outB) c outB))

/-- The elements of a unit's ranges, row by row: how many each row has there, in ascending order of the rows (05 R135,
R140). -/
def rowCounts (rs : List (Nat × Nat)) (e0 : Nat) : List Nat :=
  let rows := (rs.flatMap (fun r => rangeFrom (r.1 / e0) ((r.2 - 1) / e0 + 1 - r.1 / e0))).eraseDups
  rows.map (fun k => (rs.map (fun r => min r.2 ((k + 1) * e0) - max r.1 (k * e0))).foldl (fun a b => a + b) 0)

/-- The cycles from the second row's pass 1 to the end of the last row's pass 2, from cycle `c` (05 R143). -/
def State.rowsFrom (s : State) (i : Image) (plan : List (Nat × Nat)) (g : Nat) (r : ChainRec) (n : Nat) :
    List Nat → Nat → Nat
  | [], c => tRowProg r + s.passAt i plan g r 2 n (c + tRowProg r)
  | m :: rest, c =>
    let a := max (s.passAt i plan g r 1 m c) (tRowProg r)
    let b := s.passAt i plan g r 2 n (c + a)
    a + b + s.rowsFrom i plan g r m rest (c + a + b)

/-- The time T of a chain operation on a unit, started at cycle `c` (05 R143). -/
def State.chainTime (s : State) (i : Image) (plan : List (Nat × Nat)) (e : Entry) (r : ChainRec) (g c : Nat) : Nat :=
  let rs := gRanges e s.nodes g
  let e0 := max 1 ((ChainRec.ext r).headD 1)
  let pipe := 6 + 3 * r.nStage
  if !r.rowMode then 40 + s.passAt i plan g r 2 (rangesLen rs) (c + 40) + pipe
  else
    let counts := rowCounts rs e0
    let split := (counts.filter (fun n => decide (n ≠ e0))).length
    match counts with
    | [] => 40 + pipe
    | n :: rest =>
      let c1 := s.passAt i plan g r 1 n (c + 40)
      40 + c1 + s.rowsFrom i plan g r n rest (c + 40 + c1) + pipe + 400 * split

/-! ### Umber and Indigo (08 R239 to R241; 09 R266; 11 R337, R338; 16 R458) -/

/-- The configuration and engines that an entry of Umber takes: J or not, and E (08 R203, R204; 09 R264). -/
def Image.umberOf (i : Image) (e : Nat) : Option (Bool × Nat) :=
  match i.solves.find? (fun x => decide (x.1 = e)), i.dyns.find? (fun x => decide (x.1 = e)) with
  | some x, _ => some (false, 2 ^ x.2.1.engLog2)
  | none, some x => some (true, 2 ^ x.2.1.engLog2)
  | none, none => none

/-- An Umber engine as the plan sees it: its field, when it is free, its configuration. -/
abbrev PlanEngine := Nat × Nat × Bool

/-- The engines of the planned Umber entries, in order of planned start: each takes the free ones of lowest field number,
and each engine that changes its configuration is marked; then the engines as the step leaves them (08 R203). -/
def Image.planEngines (i : Image) (plan : List (Nat × Nat)) (j0 : List Bool) :
    List (Nat × List (Nat × Bool)) × List PlanEngine :=
  let es := (List.range i.parts.entries.length).filterMap (fun e => (i.umberOf e).map (fun u => (e, u)))
  let first : List PlanEngine := (List.range 4).map (fun f => (f, 0, j0.getD f false))
  (sortOn (fun x => (plan.getD x.1 (0, 0)).1) es).foldl (fun (acc : List (Nat × List (Nat × Bool)) × List PlanEngine) x =>
    let p := plan.getD x.1 (0, 0)
    let free := acc.2.filter (fun g => decide (g.2.1 ≤ p.1))
    let mine := (free ++ acc.2.filter (fun g => decide (p.1 < g.2.1))).take x.2.2
    (acc.1 ++ [(x.1, mine.map (fun g => (g.1, g.2.2 != x.2.1)))],
      acc.2.map (fun g => if mine.any (fun m => decide (m.1 = g.1)) then (g.1, p.1 + p.2, x.2.1) else g))) ([], first)

/-- The engine slots of a planned Umber entry: field, and whether its configuration changes there. What an engine was
before the step is its configuration at `BIND` in the first step, and what the step leaves it in afterwards: the first
entry on it pays for either (08 R203, R241; log 18). -/
def State.planSlots (s : State) (i : Image) (plan : List (Nat × Nat)) (e : Nat) : List (Nat × Bool) :=
  let at' (j0 : List Bool) : List (Nat × Bool) :=
    (((i.planEngines plan j0).1.find? (fun x => decide (x.1 = e))).map (fun x => x.2)).getD []
  let now := (List.range 4).map (fun f => (s.engine f).cfgJ)
  let left := (i.planEngines plan now).2.map (fun g => g.2.2)
  ((at' now).zip (at' left)).map (fun x => (x.1.1, x.1.2 || x.2.2))

/-- The stored entries of a node's rows where the pattern is no constant: its part of the declared entries, spread evenly
over the rows (08 R239; log 18). -/
def planStored (nnz n : Nat) : List Nat := (List.range n).map (fun r => (r + 1) * nnz / max 1 n - r * nnz / max 1 n)

/-- A solve as the plan sees it on node `k` of the block: its rows and stored entries, and the rates of its engines'
fields (08 R239 to R241). -/
def State.planSolve (s : State) (i : Image) (d : SolveDesc) (fields : List Nat) (k : Nat) : SolveSt :=
  let bs := s.dramRd s.imageBase i.len
  let n := (nodeRows d k s.nodes).2
  let x := match i.matrixRd bs (s.placeHue i) d d.pattern with
    | some rd => d.readRows rd n
    | none => (List.replicate n [], planStored (ceilDiv (d.nnz * n) (max 1 d.n)) n)
  { desc := d, rows := x.1, rowStored := x.2, rates := fields.map (fun f => s.dataClass f (d.slots.getD 0 0))
    tar := s.syncLatency }

/-- The time of a solve that takes every one of its `n_cap` iterations (08 R239 to R241); GMRES counts the steps of a cycle
from 1. -/
def SolveSt.fullTime (t : SolveSt) : Nat :=
  let d := t.desc
  let step (j : Nat) : Nat := ({ t with basis := List.replicate j [] }).tIter
  let iters := (List.range d.nCap).foldl (fun a k =>
    let j := k % d.restart + 1
    a + step (if d.method = 2 then j else 0) + (if d.method = 2 ∧ j = d.restart then t.tRestart else 0)) 0
  t.tPre + t.tInit + iters + t.tTrue + t.tOut

/-- The charge of a Solve entry in configuration S: a change of configuration, and its `n_cap` bound, or its deadline when
that is smaller; the largest over the nodes that share the solve (08 R203, R241). -/
def State.solveCharge (s : State) (i : Image) (d : SolveDesc) (slots : List (Nat × Bool)) : Nat :=
  let fields := slots.map (fun x => x.1)
  let full := ((List.range (if d.dist then s.nodes else 1)).map (fun k => (s.planSolve i d fields k).fullTime)).foldl max 0
  (if slots.any (fun x => x.2) then 1200 else 0) + (if d.deadline = 0 then full else min full d.deadline)

/-- The hops of an all-reduce's ring stages (11 R338). -/
def ringHops : List (Nat × Bool) → List Bool → Nat
  | [], _ => 0
  | (n, w) :: rest, fold =>
    let h := if fold.headD false then 2 else if w then 1 else n - 1
    (if n ≤ 1 then 0 else 2 * (n - 1) * h) + ringHops rest (fold.drop 1)

/-- The time of one round of a collective at idle ports (11 R338; 16 R458). -/
def State.collTime (s : State) (r : CtxRec) (c : Nat) : Nat :=
  let ax := s.blockAxes s.blockOf
  let ns := allReduceNs s.payRate ax r.folds (s.collBytes r c)
  let x := s.hopExcess * ringHops ax r.folds
  if r.kind = 3 then nsCc ns + x else nsCc (ceilDiv ns 2) + ceilDiv x 2

/-- The time of a flow at idle ports (11 R337; 16 R458). -/
def State.flowTime (s : State) (f : PlanFlow) : Nat := nsCc (110 + ceilDiv (10 * f.bytes) s.payRate + 90) + f.hops.length * s.hopCc

/-- The charge of one round of context `c` in a planned step: at idle ports the longest of its flows, or the collective's
time; where it shares an output port, the planned landing of its last message (11 R337, R338, R552); and the pass that
adds an accumulate round's pairs on the busiest node (11 R333). `fs` holds every flow of the step. -/
def State.roundCharge (s : State) (fs : List (PlanFlow × Nat × Nat)) (entry round c : Nat) : Nat :=
  let r := (s.nodeCtx s.nodeIndex c).1
  let coll := decide (3 ≤ r.kind) && decide (r.kind ≤ 5)
  let own := fs.filter (fun f => decide (f.1.entry = entry) && decide (f.1.round = round))
  let idle := if coll then s.collTime r c else (own.map (fun f => s.flowTime f.1)).foldl max 0
  let same (f g : PlanFlow × Nat × Nat) : Bool :=
    if coll then decide (g.1.entry = entry) && decide (g.1.round = round) else decide (g = f)
  let shared := own.any (fun f => fs.any (fun g => !same f g && sharePort f g))
  let start := (own.head?.map (fun f => f.2.1)).getD 0
  let add := if r.kind = 7 then ((List.range s.nodes).map (fun m =>
      ceilDiv (((s.nodeCtx m c).2.map (fun p => p.count)).foldl (fun a v => a + v) 0) 64)).foldl max 0 else 0
  (if shared then max idle ((s.playStep fs).landing entry round - start) else idle) + add

/-- The charge of an Exchange entry: its rounds, against a plan of the step (11 R318, R337, R338, R552). -/
def State.exchCharge (s : State) (i : Image) (plan : List (Nat × Nat)) (entry c : Nat) : Nat :=
  let fs := s.stepFlows i plan
  ((List.range (s.roundsOf c)).map (fun j => s.roundCharge fs entry j c)).foldl (fun a v => a + v) 0

/-- The hops H of the verdict's tree (11 R335, R338). -/
def State.verdictHops (s : State) : Nat :=
  (s.blockAxes s.blockOf).foldl (fun a x => a + (if x.2 then x.1 / 2 else x.1 - 1)) 0

/-- The verdict's time (11 R338; 16 R458). -/
def State.verdictTime (s : State) : Nat := nsCc (2 * s.verdictHops * 431) + 2 * s.verdictHops * s.hopExcess

/-! ### Planned starts (16 R449, R450; log 18) -/

/-- The charge of an entry, against a plan that gives the products' times (16 R449). -/
def State.entryCharge (s : State) (i : Image) (plan : List (Nat × Nat)) (e : Nat) : Nat :=
  let en := i.parts.entries.getD e {}
  match en.kind with
  | .product d => s.prodCharge i en d
  | .stream _ _ => match i.chains.find? (fun c => decide (c.1 = e)) with
    | some r => ((gUnits en s.nodes).map (fun g => s.chainTime i plan en r.2 g (plan.getD e (0, 0)).1)).foldl max 0
    | none => 0
  | .register _ _ _ b => b.getD 0
  | .solve _ _ _ _ => match i.solves.find? (fun x => decide (x.1 = e)) with
    | some x => s.solveCharge i x.2.1 (s.planSlots i plan e)
    | none => 0
  | .dynamics _ _ _ _ _ _ => match i.dyns.find? (fun x => decide (x.1 = e)) with
    | some x => dynTime x.2.1 x.2.2.1 (fun k => ((s.planSlots i plan e).getD k (0, false)).2)
    | none => 0
  | .exchange c => s.exchCharge i plan e c

/-- What is planned so far: entries with start and charge, and Swatch slots with start and budget. -/
structure PlanSt where
  ents : List (Nat × Nat × Nat) := []
  slots : List (Nat × Nat × Nat) := []
deriving DecidableEq, Repr, Inhabited

/-- Engines of Umber that an entry takes (08 R203, R204; 09 R264). -/
def Image.enginesOf (i : Image) (e : Nat) : Nat :=
  match i.solves.find? (fun x => decide (x.1 = e)), i.dyns.find? (fun x => decide (x.1 = e)) with
  | some x, _ => 2 ^ x.2.1.engLog2
  | none, some x => 2 ^ x.2.1.engLog2
  | none, none => 0

/-- Whether two entries have a global unit in common. -/
def shareG (a b : Entry) (nodes : Nat) : Bool :=
  let ua := gUnits a nodes
  (gUnits b nodes).any (fun g => ua.contains g)

/-- Whether two entries need one engine other than Umber's (01 R20; 04 R100; 11 R318). -/
def Image.clashG (i : Image) (nodes a b : Nat) : Bool :=
  let ea := i.parts.entries.getD a {}
  let eb := i.parts.entries.getD b {}
  match ea.kind, eb.kind with
  | .product p, .product q => decide (p.arr = q.arr) && shareG ea eb nodes
  | .stream _ _, .stream _ _ => shareG ea eb nodes
  | .register _ _ _ _, .register _ _ _ _ => shareG ea eb nodes
  | .exchange c, .exchange d => decide (c = d)
  | _, _ => false

/-- Whether streams of two entries land on a unit in areas that meet (10 R279). -/
def Image.shareLanding (i : Image) (a b : Nat) : Bool :=
  i.streams.any (fun x => decide (x.1.entry = a) &&
    i.streams.any (fun y => decide (y.1.entry = b) && decide (y.1.unit = x.1.unit) && landsMeet x.2 y.2))

/-- Whether an entry planned for [a, b) leaves the operands of sampled tiles in place: it does not overwrite their landing
areas between the product's start and the end of its Swatch slot (07 R196). -/
def Image.keepsOperands (i : Image) (p : PlanSt) (e a b : Nat) : Bool :=
  p.slots.all (fun x => decide (x.1 = e) || !i.shareLanding x.1 e ||
    (match p.ents.find? (fun y => decide (y.1 = x.1)) with
      | some y => !overlaps a b y.2.1 (x.2.1 + x.2.2)
      | none => true))

/-- The first time of some candidates, in ascending order, at which a test holds; the last one when none does. -/
def firstTime (ok : Nat → Bool) : List Nat → Nat
  | [] => 0
  | [t] => t
  | t :: rest => if ok t then t else firstTime ok rest

/-- The planned times that some entries take together: from the first start to the last end. -/
def PlanSt.hull (p : PlanSt) (es : List Nat) : Option (Nat × Nat) :=
  match p.ents.filter (fun x => es.contains x.1) with
  | [] => none
  | x :: t => some (t.foldl (fun a y => (min a.1 y.2.1, max a.2 (y.2.1 + max 1 y.2.2))) (x.2.1, x.2.1 + max 1 x.2.2))

/-- Whether an entry planned for [a, b) keeps Sienna 1 to a Tint group's adapter products of one micro-batch: no other layer's
weight-gradient product lies between the first and the last of them (04 R112). -/
def Image.keepsSienna (i : Image) (p : PlanSt) (e a b : Nat) : Bool :=
  i.batches.all (fun t =>
    let es := TintBatch.sienna1 t
    if es.contains e then
      let h := match p.hull es with | some h => (min h.1 a, max h.2 b) | none => (a, b)
      p.ents.all (fun x => !(i.isWeightGrad x.1 && overlaps x.2.1 (x.2.1 + max 1 x.2.2) h.1 h.2))
    else if i.isWeightGrad e then (match p.hull es with | some h => !overlaps a b h.1 h.2 | none => true)
    else true)

/-- The entry to plan next: the first whose predecessors are planned; while some of a Tint micro-batch's adapter products are
planned and some are not, a weight-gradient product comes after them (04 R112; 16 R449; log 18). -/
def PlanSt.nextEntry (p : PlanSt) (i : Image) (preds : List (Nat × Nat)) : Option Nat :=
  let known (e : Nat) : Bool := p.ents.any (fun x => decide (x.1 = e))
  let ready := (List.range i.parts.entries.length).filter (fun e => !known e &&
    (preds.filter (fun x => decide (x.2 = e))).all (fun x => known x.1))
  let part := i.batches.any (fun b => (TintBatch.sienna1 b).any known && !(TintBatch.sienna1 b).all known)
  ((ready.filter (fun e => !(part && i.isWeightGrad e))) ++ ready).head?

/-- The next entry planned: after the writers of what it reads and in the order of its micro-batches, when its engine is
free, and, apart from a layer's products, later by the loader's choice; a sampled product's Swatch slot follows it on the
lanes (04 R108, R112; 16 R449, R450; 07 R197; log 18). -/
def State.planOne (s : State) (i : Image) (charges : List Nat) (p : PlanSt) : PlanSt :=
  let preds := i.edges ++ i.order s.overlapBit
  match p.nextEntry i preds with
  | none => p
  | some e =>
    let en := i.parts.entries.getD e {}
    let c := charges.getD e 0
    let w := max 1 c
    let base := (p.ents.filter (fun x => preds.contains (x.1, e))).foldl (fun a x => max a (x.2.1 + x.2.2)) 0
    let ends := (p.ents ++ p.slots).map (fun x => x.2.1 + x.2.2)
    let cand := sortOn (fun t => t) (base :: ends.filter (fun t => decide (base < t)))
    let isReg := match en.kind with | .register _ _ _ _ => true | _ => false
    let free (t : Nat) : Bool :=
      let meets (x : Nat × Nat × Nat) : Bool := overlaps t (t + w) x.2.1 (x.2.1 + max 1 x.2.2)
      p.ents.all (fun x => !(meets x && i.clashG s.nodes x.1 e)) && i.keepsSienna p e t (t + w) &&
        i.keepsOperands p e t (t + w) &&
        p.slots.all (fun x => !(meets x && isReg && shareG (i.parts.entries.getD x.1 {}) en s.nodes)) &&
        (decide (i.enginesOf e = 0) ||
          decide ((p.ents.filter meets).foldl (fun a x => a + i.enginesOf x.1) (i.enginesOf e) ≤ 4))
    let start := firstTime free cand + (if i.inLayer e then 0 else Config.planSlack i.digest e)
    let b := s.slotBudget i en
    let lanes (t : Nat) : Bool :=
      let meets (x : Nat × Nat × Nat) : Bool := overlaps t (t + b) x.2.1 (x.2.1 + max 1 x.2.2)
      let same (x : Nat) : Bool := shareG (i.parts.entries.getD x {}) en s.nodes
      p.slots.all (fun x => !(meets x && same x.1)) && p.ents.all (fun x => !(meets x && same x.1 &&
        (match (i.parts.entries.getD x.1 {}).kind with | .register _ _ _ _ => true | _ => false)))
    let done := start + c
    let slotAt := firstTime lanes (sortOn (fun t => t) (done :: ends.filter (fun t => decide (done < t))))
    { ents := p.ents ++ [(e, start, c)], slots := if b = 0 then p.slots else p.slots ++ [(e, slotAt, b)] }

/-- A plan with given charges. -/
def State.planWith (s : State) (i : Image) (charges : List Nat) : PlanSt :=
  (List.range i.parts.entries.length).foldl (fun p _ => s.planOne i charges p) {}

/-- The start and charge of every entry, in entry order. -/
def PlanSt.rows (p : PlanSt) (n : Nat) : List (Nat × Nat) :=
  (List.range n).map (fun e => match p.ents.find? (fun x => decide (x.1 = e)) with
    | some x => x.2
    | none => (0, 0))

/-- The planned timeline: charges and starts settle together, since a chain's charge follows the products' planned times
(05 R142; 16 R449). -/
def State.planAll (s : State) (i : Image) : PlanSt :=
  let n := i.parts.entries.length
  let round (plan : List (Nat × Nat)) : PlanSt := s.planWith i ((List.range n).map (s.entryCharge i plan))
  (List.range (n + 1)).foldl (fun (p : PlanSt) _ => round (p.rows n)) (round (List.replicate n (0, 0)))

/-- `L_plan`: the end of the last entry and of the Swatch slots, and the verdict after them (16 R449). -/
def State.planLength (s : State) (i : Image) (p : PlanSt) : Nat :=
  let last := ((p.ents ++ p.slots).map (fun x => x.2.1 + x.2.2)).foldl max 0
  if bitOf i.mflags 0 then last + s.verdictTime else (p.ents.map (fun x => x.2.1 + x.2.2)).foldl max 0

end Sys2Proof.Machine
end

