-- ==== Sys2Proof/Machine/Gates.lean ====
section
/-! DEFINITION. Clock gates of tiles and their pre-rolls on the planned timeline, and the field PLLs (17 R473, R474). -/

namespace Sys2Proof.Machine

/-! ### Field PLLs (17 R473) -/

/-- Whether a field's PLL is locked. -/
def State.fieldPll (s : State) (f : Nat) : Bool := s.clk.fieldPll.getD f false

/-! ### Idle intervals (17 R473) -/

/-- The planned times in which some engine of unit `u` of this node works: entries with threads there, and Swatch slots. -/
def State.busyTimes (s : State) (i : Image) (p : PlanSt) (u : Nat) : List (Nat × Nat) :=
  let g := s.nodeIndex * 224 + u
  let here (e : Nat) : Bool := !(gRanges (i.parts.entries.getD e {}) s.nodes g).isEmpty
  let works (e : Nat) : Bool := match (i.parts.entries.getD e {}).kind with
    | .product _ | .stream _ _ | .register _ _ _ _ => true
    | _ => false
  sortOn (fun t => t.1) (((p.ents ++ p.slots).filter (fun x => works x.1 && here x.1)).map (fun x => (x.2.1, x.2.1 + x.2.2)))

/-- The idle intervals of at least 256 cc between some busy times in ascending order, from cycle `t` to cycle `stop`
(17 R473). -/
def idleTimes (stop : Nat) : List (Nat × Nat) → Nat → List (Nat × Nat)
  | [], t => if 256 + t ≤ stop then [(t, stop)] else []
  | (a, b) :: rest, t => (if 256 + t ≤ a then [(t, a)] else []) ++ idleTimes stop rest (max t b)

/-! ### Pre-rolls (17 R473, R474) -/

/-- The cycles at which the eight stages of a pre-roll that begins at `b` begin (17 R473). -/
def stageTimes (b : Nat) : List Nat := (List.range 8).map (fun k => b + 8 * k)

/-- Whether at most eight tiles begin a stage in any window of 8 cc, for pre-rolls of one field that begin at some cycles
(17 R474). -/
def stagesFit (bs : List Nat) : Bool :=
  let ts := bs.flatMap stageTimes
  ts.all (fun t => decide (ts.countP (fun x => decide (t ≤ x) && decide (x < t + 8)) ≤ 8))

/-- The latest begin from `b` down, and above `lo`, of a further pre-roll in a field: `fuel` bounds the search (17 R474). -/
def latestRoll (bs : List Nat) (lo : Nat) : Nat → Nat → Option Nat
  | 0, _ => none
  | fuel + 1, b => if b ≤ lo then none else if stagesFit (b :: bs) then some b else latestRoll bs lo fuel (b - 1)

/-- The pre-rolls of some idle intervals of one field, (unit, interval), in ascending order of the planned start and then of
the unit; an interval too short for one that fits stays clocked (17 R474; log 60). -/
def placeRolls (stop : Nat) (l : List (Nat × Nat × Nat)) : List PreRoll :=
  (l.foldl (fun (a : List PreRoll × List Nat) x =>
    if x.2.2 = stop then (a.1 ++ [{ unit := x.1, idle := x.2.1, start := stop, stop := stop }], a.2)
    else match latestRoll a.2 x.2.1 x.2.2 (x.2.2 - 64) with
      | some b => (a.1 ++ [{ unit := x.1, idle := x.2.1, start := b, stop := x.2.2 }], b :: a.2)
      | none => a) ([], [])).1

/-- The gated intervals and pre-rolls of this node's units in a plan (17 R473, R474). -/
def State.planRolls (s : State) (i : Image) (p : PlanSt) : List PreRoll :=
  let stop := s.planLength i p
  (List.range 4).flatMap (fun f =>
    let all := (rangeFrom (56 * f) 56).flatMap (fun u => (idleTimes stop (s.busyTimes i p u) 0).map (fun t => (u, t)))
    placeRolls stop (sortOn (fun x : Nat × Nat × Nat => x.2.2) all))

/-- Whether the clock of unit `u` is gated now: a step is in progress, the unit is idle, and its pre-roll has not begun
(17 R473). -/
def State.gated (s : State) (u : Nat) : Bool :=
  s.job.inStep && (match s.job.bound with
    | some b => b.rolls.any (fun r => decide (r.unit = u) && decide (r.idle ≤ s.elapsed) && decide (s.elapsed < r.start))
    | none => false)

/-- The stage, 0 to 7, of the pre-roll that unit `u` is in: the sequencer and tile store, Slate and Chroma, Ochre, and three
each for the Sienna arrays open in turn (17 R473). -/
def State.rollStage (s : State) (u : Nat) : Option Nat :=
  match s.job.bound with
  | some b => if s.job.inStep then
      (b.rolls.find? (fun r => decide (r.unit = u) && decide (r.start < r.stop) && decide (r.start ≤ s.elapsed) &&
        decide (s.elapsed < r.start + 64))).map (fun r => (s.elapsed - r.start) / 8)
    else none
  | none => none

end Sys2Proof.Machine
end

