-- ==== Sys2Proof/Machine/Bind.lean ====
section
/-! DEFINITION. `BIND`: the loader's stages 8 to 10, placement, and what a binding does (15 R441 to R446, R553; 13 R385 to
R391; 11 R314, R315, R327, R329, R551; 10 R277, R281); and `RESTORE` (14 R423; 07 R199, R200). -/

namespace Sys2Proof.Machine

/-! ### Failures of `BIND` -/

/-- A shape failure of stage 8 (15 R441). -/
def shape8 (reason : Nat) : LoadFail := { status := stRefusedShape, reason := reason, stage := 8, cmd := 1 }

/-- A fit failure of a stage (15 R441). -/
def fitFail (stage reason : Nat) : LoadFail := { status := stRefusedFit, reason := reason, stage := stage, cmd := 1 }

/-! ### Stage 8: the block and its ports (13 R385, R387, R390, R391; reason 0x1701) -/

/-- The rows (y, z) that a block contains (13 R385). -/
def State.blockRows (s : State) (b : Bound) : List (Nat × Nat) :=
  let (_, my, mz) := s.torus.size
  (List.range b.sy).flatMap (fun j => (List.range b.sz).map (fun k => ((b.oy + j) % my, (b.oz + k) % mz)))

/-- Whether the package may bind a block: sizes and origin on the machine, its own coordinates inside, every hop port in
`RUN`, no row with another map in a block shorter than the row, no lost row, no row pair without a path (13 R385, R387,
R390, R391). `s` is the state with the block proposed. -/
def State.blockOk (s : State) (b : Bound) : Bool :=
  let (mx, my, mz) := s.torus.size
  let rows := s.blockRows b
  let ax (o z m : Nat) : Bool := decide (1 ≤ z) && decide (z ≤ m) && decide (o < m)
  ax b.ox b.sx mx && ax b.oy b.sy my && ax b.oz b.sz mz && s.inBlock b &&
    s.blockHops.all (fun h => (s.hopPath h).isSome) &&
    s.hopPorts.all (fun p => decide ((s.port p).state = .run)) &&
    !(decide (b.sx < mx) && rows.any (fun r => (s.torus.hole r.1 r.2).isSome)) &&
    rows.all (fun r => !s.torus.lostRows.contains (r.1 * 32 + r.2)) &&
    !(rows.contains (s.torus.y, s.torus.z) && s.badPairs.any (fun r => rows.contains r))

/-! ### Stage 8: what units hold and need (15 R553) -/

/-- The bytes of an element and of its scale, at a plane's base and a position: (address, bytes). -/
def spanAt (f : Fmt) (base pos : Nat) : Nat × Nat := (base + (elemPlace f pos).1, elemSpan f pos)

/-- A stored element of a product operand: its bytes relative to its token (04 R94; 15 R553). -/
def State.operandSpan (s : State) (d : OperandDesc) (p q : Nat) : Nat × Nat :=
  let t := s.tokDecl d.tok
  let v : OpView := { fmt := tokFmt t, layout := d.layout, pitch := d.pitch, ext0 := t.ext.getD 0 1, base := d.base
                      sbase := d.sbase }
  spanAt v.fmt v.base (v.pos p q)

/-- An element of a chain descriptor: its bytes relative to its token (05 R121; 15 R553). -/
def streamSpan (d : TDesc) (iota : Nat) : Nat × Nat :=
  let f := (Fmt.ofNum d.fmt).getD .fp32
  let (b, k) := planeBase f d.base (d.offset (loopIdx d.ext iota))
  spanAt f b k

/-- The bytes of element `e` of a unit-home token where its producer puts it, relative to the token, with the scale's when
it has one (15 R553). -/
def State.elemSpans (s : State) (t e : Nat) : List (Nat × Nat) :=
  let decl := s.tokDecl t
  let f := tokFmt decl
  let sc (b : Nat) : List (Nat × Nat) := if Fmt.isBlock f then [(b, 1)] else []
  match (s.entryOf decl.producer).kind, s.chainOf decl.producer with
  | .product p, _ =>
    let v := s.opView 0 p.out true
    let ij := outRc v e
    s.operandSpan p.out ij.1 ij.2 :: sc (p.out.sbase + v.scalePos ij.1 ij.2)
  | .stream _ _, some r => match r.outs.find? (fun o => decide (o.tok = t)) with
    | some o =>
      streamSpan o (e - o.eBase) :: sc (scaleByte f o.sbase (o.offset (loopIdx r.ext (e - o.eBase))))
    | none => []
  | _, _ => []

/-- The elements of a token that global unit `g` holds (15 R553). -/
def State.heldBy (s : State) (t g : Nat) : List Nat :=
  (List.range (tokElems (s.tokDecl t))).filter (fun e => decide (s.writerG t e = g))

/-- The padding that a unit writes with its part of a unit-home token: in a product's tiles, and in a chain's blocks and
last group of four (02 R47, R48, R548; 04 R95; log 46). -/
def State.padSpans (s : State) (t g : Nat) : List (Nat × Nat) :=
  let decl := s.tokDecl t
  let f := tokFmt decl
  let en := s.entryOf decl.producer
  let threads := (gRanges en s.nodes g).flatMap (fun r => rangeFrom r.1 (r.2 - r.1))
  match en.kind, s.chainOf decl.producer with
  | .product p, _ =>
    let v : OpView := { fmt := f, layout := p.out.layout, pitch := p.out.pitch, ext0 := decl.ext.getD 0 1, base := p.out.base
                        sbase := p.out.sbase }
    let cols := (prodTiles p).2
    threads.flatMap (fun th =>
      (padPositions v p (th / cols) (th % cols)).map (fun x => spanAt f v.base (v.pos x.1 x.2)) ++
      (if Fmt.isBlock f then (padScales v p (th / cols) (th % cols)).map (fun k => (v.sbase + k, 1)) else []))
  | .stream _ _, some r =>
    let n : Int := ((if f = Fmt.fawn6 then 4 else (Fmt.block f).getD 1 : Nat) : Int)
    (r.outs.filter (fun o => decide (o.tok = t))).flatMap (fun o => threads.map (fun k =>
      let last := o.offset (loopIdx r.ext k) / n * n + n - 1
      let (b, i) := planeBase f o.base last
      spanAt f b i))
  | _, _ => []

/-- The bytes of a unit-home token that the threads of an entry on global unit `g` read, relative to the token
(15 R553). -/
def State.needs (s : State) (e t g : Nat) : List (Nat × Nat) :=
  let en := s.entryOf e
  let threads := (gRanges en s.nodes g).flatMap (fun r => rangeFrom r.1 (r.2 - r.1))
  match en.kind, s.chainOf e with
  | .product d, _ =>
    let cols := (prodTiles d).2
    threads.flatMap (fun th =>
      let ps := tilePositions d (th / cols) (th % cols)
      let rows := (ps.map (fun p => p.1)).eraseDups
      let js := (ps.map (fun p => p.2)).eraseDups
      let two (o : OperandDesc) (a b : Nat) : Nat × Nat := if o.trans then s.operandSpan o b a else s.operandSpan o a b
      (if d.a.tok = t then rows.flatMap (fun i => (List.range d.k).map (fun k => two d.a i k)) else []) ++
      (if d.b.tok = t then js.flatMap (fun j => (List.range d.k).map (fun k => two d.b k j)) else []) ++
      (match d.c with
        | some c => if c.tok = t then ps.map (fun p => s.operandSpan c p.1 p.2) else []
        | none => []))
  | .stream _ _, some r =>
    (r.ins.filter (fun d => decide (d.tok = t))).flatMap (fun d => threads.map (streamSpan d))
  | _, _ => []

/-- Whether every unit of the block holds what an entry's threads on it read of a unit-home token (15 R553). -/
def State.holdsNeeds (s : State) (e t : Nat) : Bool :=
  decide ((s.tokDecl t).home ≠ 0) || s.wholeUnit t ||
    (gUnits (s.entryOf e) s.nodes).all (fun g =>
      let held := (s.heldBy t g).flatMap (s.elemSpans t)
      (s.needs e t g).all (fun x => held.contains x))

/-! ### Stage 8: shape checks that the block decides -/

/-- Whether the default distribution splits a row of `e0` elements (05 R140). -/
def splitsRows (e : Entry) (nodes e0 : Nat) : Bool :=
  let t := prodL e.space
  let q := max 1 (ceilDiv t (nodes * 224))
  decide (q < t) && decide (q % e0 ≠ 0)

/-- An entry's checks against the block: the map's units, whole blocks, `ESUM` rows (01 R33; 02 R548; 05 R140). -/
def State.entryOnBlock (s : State) (i : Image) (x : Entry × Nat) : Option LoadFail :=
  let e := x.1
  let f (r : Nat) : LoadFail := { shape8 r with entry := x.2, opId := e.opId }
  let chain := (i.chains.find? (fun c => decide (c.1 = x.2))).map (fun c => c.2)
  firstOf [failIf (e.map.any (fun m => decide (s.nodes * 224 ≤ m.g))) { f 0x1403 with limit := s.nodes * 224 },
    match e.map.isEmpty, chain with
    | true, some r => firstOf [
        firstIn r.outs (fun d => failIf (!blocksWhole d (i.tok d.tok) (fun k => unitOfThread e s.nodes k))
          { f 0x1407 with tok := d.tok }),
        failIf (r.red.any (fun v => decide (v.rop = 4)) && splitsRows e s.nodes (max 1 ((ChainRec.ext r).headD 1))) (f 0x1405)]
    | _, _ => none]

/-- A verdict range against the block: a node of it, and one that holds every element of the range (07 R173). -/
def State.rangeOnBlock (s : State) (r : VRange) : Option LoadFail :=
  let f : LoadFail := { shape8 0x1408 with tok := r.tok, value := r.node, limit := s.nodes }
  firstOf [failIf (decide (s.nodes ≤ r.node)) f,
    failIf (decide ((s.tokDecl r.tok).home = 0) && !s.wholeUnit r.tok &&
      (rangeFrom r.lo (r.hi - r.lo)).any (fun e => decide (s.writerG r.tok e / 224 ≠ r.node))) f]

/-- Whether a context of a node agrees with the block and with the other nodes' contexts: peers in the block, source lists
that match the expert entries naming it, every node once in a collective, equal `bytes` of point-to-point partners
(11 R314, R327 to R329, R551). -/
def State.ctxOnBlock (s : State) (m c : Nat) (r : CtxRec) (ps : List Peer) : Bool :=
  let b := s.blockOf
  let inside := ps.all (fun p => decide (p.x < b.sx) && decide (p.y < b.sy) && decide (p.z < b.sz))
  let namers := s.allCtxs.flatMap (fun x => (x.2.2.2.filter (fun p => s.names m c p && decide (p.expert ≠ noExpert))).map
    (fun _ => x.1))
  let srcs := s.sources ps
  inside && (match r.kind with
    | 0 => ps.all (fun p =>
        let o := (s.nodeCtx (s.peerNode p) p.pctx).1
        decide (o.kind = 0) && decide (o.bytes = r.bytes))
    | 1 | 2 => decide (srcs.eraseDups = srcs) && namers.all (fun n => srcs.contains n) && srcs.all (fun n => namers.contains n)
    | 3 | 4 | 5 => decide (ps.map s.peerNode = List.range s.nodes)
    | _ => true)

/-- Whether the chunks that a node owns after a reduce-scatter into a block format hold whole blocks of the landing token
(02 R548; 11 R330). -/
def State.chunksWhole (s : State) (m c : Nat) (r : CtxRec) : Bool :=
  let d := s.tokDecl r.tok
  match Fmt.block ((Fmt.ofNum r.fmtOut).getD .fp32) with
  | some b =>
    let n0 := max 1 (d.ext.headD 1)
    let edge (e : Nat) : Bool := decide (e % n0 % b = 0) || decide (e = s.collLen r c)
    r.kind ≠ 4 || (s.ringOwned r.fold (s.collLen r c) m).all (fun q => edge q.1 && edge (q.1 + q.2))
  | none => true

/-- The stage-8 checks of a bound image, in the order of R441. `s` is the state with the block proposed. -/
def State.stage8 (s : State) (i : Image) (b : Bound) : Option LoadFail :=
  let es := i.parts.entries.zipIdx
  let sect := (indexOf (fun x => decide (x.stype = 6)) i.sects).getD 0xFFFF
  firstOf [failIf (!s.blockOk b) (fitFail 8 0x1701),
    firstIn es (s.entryOnBlock i),
    firstIn i.solves (fun v => failIf (v.2.1.dist &&
      tooLarge (i.solveShares (s.dramRd s.imageBase i.len) (s.placeHue i) v.2.1 s.nodes))
      { shape8 0x1409 with status := stRefusedFit, entry := v.1, opId := v.2.1.opId }),
    firstIn i.parts.vranges s.rangeOnBlock,
    firstIn es (fun e => firstIn e.1.reads (fun t =>
      failIf (!s.holdsNeeds e.2 t) { shape8 0x1501 with tok := t, entry := e.2, opId := e.1.opId })),
    firstIn s.allCtxs (fun x =>
      let f : LoadFail := { shape8 0x140A with
        sect := sect, opId := x.2.2.1.opId
        off := ((i.ctxs.find? (fun y => decide (y.1.ctx = x.2.1))).map (fun y => y.1.off)).getD 0xFFFFFFFF }
      firstOf [failIf (!s.ctxOnBlock x.1 x.2.1 x.2.2.1 x.2.2.2) f,
        failIf (!s.chunksWhole x.1 x.2.1 x.2.2.1) { f with reason := 0x1407 }])]

/-! ### Stage 9: locked keys (07 R183, R201, R202; reason 0x1801) -/

/-- The keys that `BIND` checks: the order of the loss-scale exponents, step and growth, the clipping threshold, `sw_n`. -/
def State.stage9 (s : State) : Option LoadFail :=
  let f (v : Nat) : LoadFail := { status := stRefusedShape, reason := 0x1801, stage := 9, cmd := 1, value := v }
  let lo := s.kvInt kLsMinExp
  let st := s.kvInt kLsStartExp
  let hi := s.kvInt kLsMaxExp
  let clip := f64.decode (s.kvNat kClip)
  let clipOk := match clip with
    | .nan _ => false
    | .inf n => !n
    | .zero _ => false
    | .fin n _ _ => !n
  let n := bits (s.kvNat kSwCtl) 0 5
  firstOf [failIf (!(decide (-126 ≤ lo) && decide (lo ≤ st) && decide (st ≤ hi) && decide (hi ≤ 127))) (f (unsigned 64 st)),
    failIf (decide (s.kvNat kLsStep < 1) || decide (4 < s.kvNat kLsStep)) { f (s.kvNat kLsStep) with limit := 4 },
    failIf (decide (s.kvNat kLsGrowth < 1) || decide (65535 < s.kvNat kLsGrowth)) { f (s.kvNat kLsGrowth) with limit := 65535 },
    failIf (!clipOk) (f (s.kvNat kClip)),
    failIf (decide (n < 6) || decide (16 < n)) { f n with limit := 16 }]

/-! ### Stage 10: placement and fit (15 R445, R553; reasons 0x1901 to 0x1905) -/

/-- Bytes of a unit's store for tokens, Swatch buffers and landing areas (15 R445). -/
abbrev unitSpace : Nat := 3080192

/-- The landing areas of a unit of this node: (start, end), each stream once (15 R445). -/
def State.landings (s : State) (i : Image) (u : Nat) : List (Nat × Nat) :=
  ((i.streams.filter (fun x => decide (x.1.unit = s.nodeIndex * 224 + u))).map (fun x => landSpan x.2)).eraseDups

/-- The lowest address from `a` on, a multiple of 256, at which `n` bytes meet none of some ranges: `fuel` bounds the
ranges passed (15 R445). -/
def clearOf (rs : List (Nat × Nat)) (n : Nat) : Nat → Nat → Nat
  | 0, a => alignUp a 256
  | fuel + 1, a =>
    let b := alignUp a 256
    match rs.find? (fun r => overlaps b (b + n) r.1 r.2) with
    | some r => clearOf rs n fuel r.2
    | none => b

/-- The lowest byte and the length of the part of a unit-home token that a unit of this node holds, with the padding that
it writes there (15 R553; log 46). -/
def State.unitPart (s : State) (i : Image) (t u : Nat) : Nat × Nat :=
  if s.wholeUnit t then (0, i.tokSize (s.tokDecl t))
  else
    let g := s.nodeIndex * 224 + u
    let sp := (s.heldBy t g).flatMap (s.elemSpans t) ++ s.padSpans t g
    match sp with
    | [] => (0, 0)
    | x :: _ =>
      let lo := sp.foldl (fun a y => min a y.1) x.1
      (lo, sp.foldl (fun a y => max a (y.1 + y.2)) 0 - lo)

/-- One unit's places for the unit-home tokens, in token-table order, and the end of the last (15 R445). -/
def State.placeUnit (s : State) (i : Image) (u : Nat) : List (Nat × UnitPlace) × Nat :=
  let ls := s.landings i u
  (i.toks.filter (fun d => decide (d.home = 0))).foldl (fun (a : List (Nat × UnitPlace) × Nat) d =>
    let part := s.unitPart i d.tok u
    if part.2 = 0 then (a.1 ++ [(d.tok, { a0 := alignUp a.2 256, a1 := alignUp a.2 256, low := part.1, len := 0 })], a.2)
    else
      let x := clearOf ls part.2 ls.length a.2
      let y := if bitOf d.flags 0 then clearOf ls part.2 ls.length (x + part.2) else x
      (a.1 ++ [(d.tok, { a0 := x, a1 := y, low := part.1, len := part.2 })], y + part.2)) ([], 0)

/-- The bytes of Swatch buffers that are live together at most on a unit of this node (07 R193, R197; 15 R445). -/
def State.swatchBytes (s : State) (i : Image) (p : PlanSt) (u : Nat) : Nat :=
  let live := p.slots.map (fun x =>
    let e := i.parts.entries.getD x.1 {}
    let start := match p.ents.find? (fun y => decide (y.1 = x.1)) with | some y => y.2.1 | none => 0
    let first := match e.kind with | .product d => start + prodLead d + prodCTile d (i.rowOf d) | _ => start
    (first, x.2.1 + x.2.2, 8192 * s.sampledOn i e s.nodes (s.nodeIndex * 224 + u)))
  (live.map (fun x => (live.filter (fun y => decide (y.1 ≤ x.1) && decide (x.1 < y.2.1))).foldl (fun a y => a + y.2.2) 0)).foldl
    max 0

/-- A unit's fit (15 R445, reason 0x1901). -/
def State.unitFits (s : State) (i : Image) (p : PlanSt) (u : Nat) : Option LoadFail :=
  let pl := s.placeUnit i u
  let land := (s.landings i u).foldl (fun a r => a + (r.2 - r.1)) 0
  let share := (max pl.2 ((s.landings i u).foldl (fun a r => max a r.2) 0)) + s.swatchBytes i p u
  failIf (decide (unitSpace < share) || decide (unitSpace < land))
    { fitFail 10 0x1901 with value := share, limit := unitSpace, unit := u }

/-- A kernel's code in the top 64 KiB (15 R445, reason 0x1901). -/
def Image.codeFits (i : Image) : Option LoadFail :=
  firstIn i.kernels (fun k => failIf (decide (65536 < 4 * k.2.length))
    { fitFail 10 0x1901 with value := 4 * k.2.length, limit := 65536, entry := k.1, opId := i.opIdOf k.1 })

/-- The space of a Hue home at one offset of every field (15 R445). -/
def State.homeSpace (s : State) (home : Nat) : Nat :=
  match home with
  | 1 => s.fieldSize
  | 2 => s.dieSize
  | _ => s.imageBase - capBase 0

/-- A Hue token's fit: its region and the window (15 R445; 14 R405; reasons 0x1902, 0x1905). -/
def State.hueFits (s : State) (p : Placed) : Option LoadFail :=
  let top := max p.addr0 p.addr1 + p.bytes
  let w := s.window
  firstOf [failIf (decide (s.homeSpace p.home < top))
      { fitFail 10 0x1902 with value := top, limit := s.homeSpace p.home, tok := p.tok, unit := if p.home = 2 then 0xFF else 0 },
    failIf (decide (w.1 < w.2) && (p.ranges false ++ p.ranges true).any (fun r => overlaps r.1 r.2 w.1 w.2))
      { fitFail 10 0x1905 with tok := p.tok, value := w.1 }]

/-- The stream depths of entries whose planned times meet, on one unit (10 R281, reason 0x1903). -/
def State.depthsFit (s : State) (i : Image) (plan : List (Nat × Nat)) : Option LoadFail :=
  let depth (d : StreamDesc) : Nat := if d.write then 0 else if d.depth = 0 then s.kvNat kPfDepth else d.depth
  firstIn i.streams (fun x =>
    let a := plan.getD x.1.entry (0, 0)
    let sum := (i.streams.filter (fun y =>
      let b := plan.getD y.1.entry (0, 0)
      decide (y.1.unit = x.1.unit) && decide (b.1 ≤ a.1) && decide (a.1 < b.1 + max 1 b.2))).foldl (fun v y => v + depth y.2) 0
    failIf (decide (2048 < sum)) { fitFail 10 0x1903 with value := sum, limit := 2048, unit := x.1.unit % 224
                                                          entry := x.1.entry, opId := x.2.opId })

/-- The lines of the Pearl-resident tokens (10 R277). -/
def residentLines (toks : List TokDecl) (ps : List Placed) : List Nat :=
  (ps.filter (fun p => toks.any (fun d => decide (d.tok = p.tok) && bitOf d.flags 4))).flatMap (fun p =>
    ((p.ranges false ++ p.ranges true).flatMap (fun r =>
      (rangeFrom (r.1 / 64) (ceilDiv r.2 64 - r.1 / 64)).map (fun l => 64 * l)))) |>.eraseDups

/-- The slice and set of a line (10 R275, R276). -/
def State.sliceSet (s : State) (line : Nat) : Option (Nat × Nat) :=
  (s.hueMap line).map (fun c => (chanSlice c.1, bits c.2 6 12))

/-- The pinned lines fit their ways (10 R277, reason 0x1904). -/
def State.pinsFit (s : State) (i : Image) (ps : List Placed) : Option LoadFail :=
  let w := s.kvNat kPearlPinWays
  let ls := residentLines i.toks ps
  firstIn ls (fun l =>
    let n := (ls.filter (fun x => decide (s.sliceSet x = s.sliceSet l))).length
    failIf (decide (w < n)) { fitFail 10 0x1904 with value := n, limit := w
                                                     tok := ((ps.find? (fun p => (p.ranges false ++ p.ranges true).any
                                                       (fun r => decide (r.1 ≤ l) && decide (l < r.2)))).map
                                                         (fun p => p.tok)).getD 0xFFFFFFFF })

/-- The placement of an image on a block, by a token table's entry: unit-home tokens with their place in every unit, and
the `verdict` token of a gradient-bearing image after the node-home ones (15 R445, R553; 07 R181; log 46). -/
def State.placeAll (s : State) (i : Image) : List Placed :=
  let units := (List.range 224).map (fun u => (s.placeUnit i u).1)
  let unit := (i.toks.filter (fun d => decide (d.home = 0))).map (fun d =>
    { tok := d.tok, home := 0, bytes := if s.wholeUnit d.tok then i.tokSize d else tokBytes d
      units := units.map (fun l => ((l.find? (fun x => decide (x.1 = d.tok))).map (fun x => x.2)).getD {}) : Placed })
  let hue := s.placeHue i
  let free := alignUp ((hue.filter (fun p => decide (p.home = 2))).foldl (fun a p => max a (p.addr1 + p.bytes)) 0) 256
  unit ++ hue ++ (if bitOf i.mflags 0 then
    [{ tok := verdictTok, home := 2, addr0 := free, addr1 := free, bytes := 64 : Placed }] else [])

/-- Stage 10: the first failure, over units, Hue tokens, stream depths and pinned lines (15 R441, R445; log 50). -/
def State.stage10 (s : State) (i : Image) (ps : List Placed) (p : PlanSt) : Option LoadFail :=
  firstOf [i.codeFits, firstIn (List.range 224) (s.unitFits i p), firstIn (ps.filter (fun x => decide (x.home ≠ 0))) s.hueFits,
    s.depthsFit i (p.rows i.parts.entries.length), s.pinsFit i ps]

/-! ### What a binding does (15 R444) -/

/-- The state with a block proposed for an image (15 R441). -/
def State.propose (s : State) (i : Image) (b : Bound) : State :=
  { s with job := { s.job with img := some i, bound := some b, active := [] } }

/-- The image with its products on their arrays, as the loader reads `arr_ctl` at `BIND` (04 R100, R114). -/
def State.placedImage (s : State) (i : Image) : Image := i.placeArrays s.passthrough

/-- The binding of an image, its products placed on their arrays, to a block, or the first failure of stages 8 to 10 (04
R100; 15 R441, R445, R449). -/
def State.checkBind (s : State) (img : Image) (b : Bound) : Except LoadFail Bound :=
  let i := s.placedImage img
  let p := s.propose i b
  match firstOf [p.stage8 i b, p.stage9] with
  | some f => .error f
  | none =>
    let plan := p.planAll i
    let ps := p.placeAll i
    match p.stage10 i ps plan with
    | some f => .error f
    | none => .ok { b with
        placed := ps, plan := plan.rows i.parts.entries.length, planLen := p.planLength i plan, rolls := p.planRolls i plan }

/-- The bytes of a constant token in the image area (15 R436). -/
def State.constBytes (s : State) (i : Image) (t : Nat) : List Byte :=
  match i.parts.consts.find? (fun c => decide (c.tok = t)) with
  | some c => s.dramRd (s.imageBase + (i.sects.getD c.sect {}).off + c.off) (s.placed t).bytes
  | none => []

/-- A constant token copied to its home: every unit, every field's region, or the node's region (15 R444, R553). -/
def State.copyConst (s : State) (i : Image) (d : TokDecl) : State :=
  let bs := s.constBytes i d.tok
  if d.home = 0 then s.tokWrite d.tok false bs
  else ((s.placed d.tok).ranges false).foldl (fun (x : State) r => x.dramWr r.1 bs) s

/-- Where the record of chain `k` of an image lies in a tile store: in the top 64 KiB, 768 B apart (05 R125; 15 R445;
log 58). -/
def recordAddr (k : Nat) : Nat := 0x2F0000 + 768 * (k % 85)

/-- The Chroma records written into the tile stores of the units that run their chains (05 R125; 15 R444). -/
def State.writeRecords (s : State) (i : Image) : State :=
  i.chains.zipIdx.foldl (fun (x : State) c =>
    let e := i.parts.entries.getD c.1.1 {}
    match e.kind with
    | .stream sect off =>
      let bs := s.dramRd (s.imageBase + (i.sects.getD sect {}).off + off) 656
      (s.unitsOf e).foldl (fun y u => y.tileWr u (recordAddr c.2) bs) x
    | _ => x) s

/-- Where a context's peer table lies: in the image's section of exchange contexts (11 R313; 15 R433). -/
def State.peerTabOf (s : State) (c : Nat) : Nat :=
  match s.job.img with
  | none => 0
  | some i => match i.ctxs.find? (fun x => decide (x.1.ctx = c) && x.1.node.getD s.nodeIndex = s.nodeIndex) with
    | some x => s.imageBase + ((i.sects.find? (fun y => decide (y.stype = 6))).getD {}).off + x.1.peerOff
    | none => 0

/-- The context of a record at `BIND`: epoch, default credits, no round run and so nothing granted (11 R313, R315, R319,
R320). -/
def State.openCtx (s : State) (c : Nat) (r : CtxRec) (ps : List Peer) (epoch : Nat) : CtxSt :=
  let n := if r.credits = 0 then s.kvNat kCredDefault else r.credits
  let t := tokElems (s.tokDecl r.routeTok) / (r.topk + 1)
  { cfg := { r with epoch := epoch, credits := n, seq := s.roundSeq 0, tokens := t, peerTab := s.peerTabOf c }, peers := ps
    send := ps.map (fun _ => {}) }

/-- The contexts of this node opened, and context 0 where the image has a verdict (11 R312, R315; 15 R444). -/
def State.openCtxs (s : State) (epoch : Nat) : State :=
  let s0 := { s with exch := { s.exch with ctxs := [] } }
  let s1 := if s.gradient then s0.setCtx 0 (s0.openVerdict epoch) else s0
  (s.allCtxs.filter (fun x => decide (x.1 = s.nodeIndex))).foldl (fun (x : State) c =>
    x.setCtx c.2.1 (x.openCtx c.2.1 c.2.2.1 c.2.2.2 epoch)) s1

/-- Pinned Pearl lines filled: the pinned ways of every set lose what they held, and take the resident lines (10 R277; 15
R444). -/
def State.pinLines (s : State) (i : Image) (ps : List Placed) : State :=
  let w := s.kvNat kPearlPinWays
  let clean := s.mem.pearl.map (fun p => { p with lines := p.lines.filter (fun l => decide (w ≤ l.way)) })
  (residentLines i.toks ps).foldl (fun (x : State) l => match x.sliceSet l with
    | some c =>
      let p := x.pearlSet c.1 c.2
      let rest := p.lines.filter (fun y => decide (y.addr ≠ l))
      x.setPearl { p with lines := (pearlFill 0 w rest { addr := l }).1 }
    | none => x) { s with mem := { s.mem with pearl := clean } }

/-- Whether a key is one that `BIND` clears (02 R67; 07 R201; 16 R461). -/
def clearsAtBind (k : Nat) : Bool := match keyRow k with | some r => r.atBind | none => false

/-- Whether a key is one that `RESTORE` clears (07 R200; 16 R461). -/
def clearsAtRestore (k : Nat) : Bool := match keyRow k with | some r => r.atRestore | none => false

/-- The state with some counters cleared, deferred counts and writes included (02 R67, R68). -/
def State.clearKeys (s : State) (p : Nat → Bool) : State :=
  { s with kv := s.kv.filter (fun x => !p x.1), acc := s.acc.filter (fun x => !p x.1)
           pendW := s.pendW.filter (fun x => !p x.1) }

/-- A port that serves a machine hop of the block is not isolated, and every other port is (13 R386). -/
def Port.edge (hop : Bool) (p : Port) : Port :=
  if hop then { p with isolate := false, state := if p.state = .isolated then .run else p.state }
  else { p with isolate := true, state := if p.state = .run then .isolated else p.state }

/-- The ports isolated or not by the block and the row maps in force (13 R386). -/
def State.edgePorts (s : State) : State :=
  let hops := s.hopPorts
  { s with ports := s.ports.zipIdx.map (fun x => x.1.edge (hops.contains x.2)) }

/-- Ports at `BIND`, or after a map change: the measured latency is kept, and the block's edges isolate (13 R386; 16 R456). -/
def State.isolatePorts (s : State) : State :=
  ({ s with ports := s.ports.zipIdx.map (fun (x : Port × Nat) => { x.1 with latBind := s.kvNat (kLinkLat x.2) }) }).edgePorts

/-- FP32 1.0 as `lag_clip32` stands before any commit (07 R181, R183). -/
def State.startScale (s : State) : State :=
  let e := s.kvInt kLsStartExp
  { s with job := { s.job with lsE := e, lsC := 0, lsK := 0, lagClip := one32 } }

/-- Every arbiter's class-wheel pointer at 0 (10 R295). -/
def State.resetWheels (s : State) : State :=
  let arbs := s.mem.ports.map (fun p => (p.1, { p.2 with ptr := 0 }))
  { s with mem := { s.mem with ports := arbs.filter (fun p => decide (p.2 ≠ ({} : ArbPort))) } }

/-- The `verdict` token written, when the image has one (07 R181). -/
def State.writeVerdict (s : State) (step : Nat) : State := if s.gradient then s.putVerdict (s.firstVerdict step) else s

/-- The effects of a `BIND` that passed every check, in the order of R444 (15 R444; 04 R100; 05 R125; 07 R183; 11 R319; 13 R386). -/
def State.bindWith (s : State) (img : Image) (b : Bound) (epoch : Nat) : State :=
  let i := s.placedImage img
  let s1 := (({ s with job := { noJob with img := some i, locked := s.job.locked, bound := some b, epoch := epoch } }).clearKeys
    clearsAtBind).startScale
  let s2 := (i.toks.filter (fun d => bitOf d.flags 5)).foldl (fun (x : State) d => x.copyConst i d) s1
  let s3 := (((s2.writeRecords i).openCtxs epoch).writeVerdict 0xFFFFFFFFFFFFFFFF).pinLines i b.placed
  s3.isolatePorts.resetWheels

/-! ### `RESTORE` (14 R423; 07 R199, R200; 11 R315, R318, R319) -/

/-- The tokens of a record's directory: identifier, length, offset (07 R199). -/
def recDir (bs : List Byte) (n : Nat) : List (Nat × Nat × Nat) :=
  (List.range n).map (fun k => let o := 128 + 32 * k; (fieldLe bs o 4, fieldLe bs (o + 4) 8, fieldLe bs (o + 12) 8))

/-- The contexts after `RESTORE`: nothing in flight, and the sequence and epoch of the restored job (11 R315, R318,
R319). -/
def State.resetCtxs (s : State) (epoch : Nat) : State :=
  let cs := s.exch.ctxs.map (fun c =>
    (c.1, { cfg := { c.2.cfg with epoch := epoch, seq := s.roundSeq 0 }, peers := c.2.peers
            send := c.2.peers.map (fun _ => if c.1 = 0 then { credits := c.2.cfg.credits } else {}) : CtxSt }))
  { s with exch := { s.exch with ctxs := cs } }

/-- The schedule planned again for the row maps in force (13 R388; 15 R449). -/
def State.replan (s : State) (i : Image) : State :=
  match s.job.bound with
  | none => s
  | some b =>
    let p := { s with job := { s.job with active := [] } }
    let plan := p.planAll i
    { s with job := { s.job with bound := some { b with
        plan := plan.rows i.parts.entries.length, planLen := p.planLength i plan, rolls := p.planRolls i plan } } }

/-- The held switch-in messages applied at a restore: the schedule's hop charges are computed again, and the ports and
contexts are those of the coordinates this package now has (13 R388; 20 R543). -/
def State.restoreMaps (s : State) (i : Image) (epoch : Nat) : State :=
  if s.torus.heldSwitch.isEmpty then s
  else ((s.applyHeld.isolatePorts.replan i)).openCtxs epoch

/-- The effects of a `RESTORE` of a record that passed every check, the row maps brought up to date first (07 R199, R200;
13 R388; 14 R423). -/
def State.restoreFrom (s0 : State) (i : Image) (bs : List Byte) (epoch : Nat) : State :=
  let s := s0.restoreMaps i epoch
  let valid := bitOf (fieldLe bs 12 4) 0
  let step := fieldLe bs 16 8
  let bit (k : Nat) : Bool := bitOf (fieldLe bs (ckVerOff i + k / 8) 1) (k % 8)
  let act := i.versioned.zipIdx.foldl (fun (a : Tab Bool) x => Tab.set false x.1.tok (bit x.2) a) []
  let dir := recDir bs i.saved.length
  let j := { s.job with
    step := BitVec.ofNat 64 step, optStep := BitVec.ofNat 64 (fieldLe bs 24 8), active := act, epoch := epoch, outcome := none
    jobFault := none, fault := false, faultNext := false, fltnHalt := false, liveryMismatch := false, written := [] }
  let s1 := ({ s with job := j }).clearKeys clearsAtRestore
  let s2 := if valid then
      { s1 with job := { s1.job with lsE := fieldS bs 56 1, lsC := fieldLe bs 58 2, lsK := fieldLe bs 60 2
                                     lagClip := fieldLe bs 64 4 } }
    else s1.startScale
  let s3 := dir.foldl (fun (x : State) d => x.tokWrite d.1 (Tab.get false d.1 act) ((bs.drop d.2.2).take d.2.1)) s2
  let s4 := (s3.writeVerdict ((step + 0xFFFFFFFFFFFFFFFF) % 2 ^ 64)).resetCtxs epoch
  (s4.liftW (fieldLe bs 48 8)).takeSnapshot

/-- The record checks of `RESTORE`, in their order: the refusal's status, or none (14 R423). -/
def State.checkRecord (s : State) (i : Image) (bs : List Byte) (epoch : Nat) : Option (Nat × Nat) :=
  let dir := recDir bs i.saved.length
  if fieldLe bs 0 8 ≠ 0x544B435000000001 ∨ fieldLe bs 8 4 ≠ 1 then some (stRefusedShape, 1)
  else if (bs.drop 96).take 32 ≠ (sha512 (bs.drop 128)).take 32 then some (stRefusedSignature, 2)
  else if fieldLe bs 32 8 ≠ i.jobSeed.toNat then some (stRefusedShape, 3)
  else if fieldLe bs 72 4 ≠ i.saved.length ∨ fieldLe bs 68 4 ≠ i.versioned.length ∨
      dir.map (fun d => (d.1, d.2.1)) ≠ i.saved.map (fun d => (d.tok, (s.placed d.tok).bytes)) then some (stRefusedShape, 4)
  else if fieldLe bs 40 8 ≠ s.livery then some (stRefusedFit, 5)
  else if epoch = 0 ∨ epoch = s.job.epoch then some (stRefusedShape, 6)
  else none

end Sys2Proof.Machine
end

