-- ==== Sys2Proof/Machine/Manage.lean ====
section
/-! DEFINITION. Management over I3C: addresses, SPDM, owner keys, PLDM, firmware update and debug tokens (19 R519 to R530). -/

namespace Sys2Proof.Machine

/-! ### The bus (19 R523) -/

/-- `ENTDAA`: the dynamic address (19 R523). -/
def execEntdaa (address : Nat) (s : State) : Host.Outcome State Fault Refusal :=
  .next (if s.clk.ashOut then { s with sec := { s.sec with i3cAddr := some (address % 128) } } else s)

/-- `ENDPOINT_ID`: the MCTP endpoint ID (19 R523). -/
def execEndpointId (id : Nat) (s : State) : Host.Outcome State Fault Refusal :=
  .next (if s.sec.i3cAddr.isSome then { s with sec := { s.sec with eid := some (id % 256) } } else s)

/-- A response sent over MCTP. -/
def State.reply (s : State) (r : MgmtResp) : State := { s with sec := { s.sec with tx := s.sec.tx ++ [r] } }

/-- A message of the management controller answered: the firmware that answers runs from the boot ROM's start of it on
(19 R513, R523). -/
def State.served (s : State) (f : State → MgmtResp × State) : State :=
  if s.sec.booted then (f s).2.reply (f s).1 else s

/-- One more refused token, failed verification or refused provisioning message (19 R530). -/
def State.authFail (s : State) : State := s.countNow kAuthFail 1

/-! ### SPDM (19 R517 to R522; log 49) -/

/-- The place of a transport's connection state (19 R520). -/
def Transport.index : Transport → Nat
  | .mctp => 0
  | .attest => 1

/-- A transport's connection state (19 R520). -/
def State.conn (s : State) (t : Transport) : SpdmConn := s.sec.conns.getD (Transport.index t) {}

/-- The state with a transport's connection state replaced. -/
def State.setConn (s : State) (t : Transport) (c : SpdmConn) : State :=
  { s with sec := { s.sec with conns := setAt s.sec.conns (Transport.index t) c } }

/-- An open session of a transport (19 R520). -/
def State.session (s : State) (t : Transport) (id : Nat) : Option SpdmSession :=
  s.sec.sessions.find? (fun x => decide (x.id = id) && decide (x.tr = t))

/-- A session replaced. -/
def State.setSession (s : State) (x : SpdmSession) : State :=
  { s with sec := { s.sec with sessions := s.sec.sessions.map (fun y => if y.id = x.id then x else y) } }

/-- The certificate chain of slot 0: the stored certificates and the alias certificate (19 R517, R518). -/
def State.chain0 (s : State) : List Byte :=
  Config.certChain s.sec.flash.cert s.sec.aliasKey s.sec.fwDigest s.sec.cfgDigest

/-- A signature with the alias key (19 R518; log 20). -/
def State.aliasSign (s : State) (msg : List Byte) : List Byte := Config.ed25519Sign s.sec.aliasKey msg

/-- Negotiation ended: what follows it may be asked (19 R520; log 49). -/
def State.negotiated (s : State) (t : Transport) (r : MgmtResp × State) : MgmtResp × State :=
  if (s.conn t).algs then r else (.errUnexpected, s)

/-- `GET_VERSION`: version 1.3; negotiation begins anew (19 R519). -/
def State.spdmVersion (s : State) (t : Transport) : MgmtResp × State :=
  (.version 0x13, s.setConn t { version := true })

/-- `GET_CAPABILITIES` (19 R519). -/
def State.spdmCaps (s : State) (t : Transport) : MgmtResp × State :=
  if (s.conn t).version then (.capabilities, s.setConn t { s.conn t with caps := true }) else (.errUnexpected, s)

/-- `NEGOTIATE_ALGORITHMS`: agreed when the requester offers what TK1 offers (19 R519). -/
def State.spdmAlgs (s : State) (t : Transport) (all : Bool) : MgmtResp × State :=
  if (s.conn t).caps then (.algorithms all, s.setConn t { s.conn t with algs := all }) else (.errUnexpected, s)

/-- `GET_DIGESTS`: the digest of slot 0's chain (19 R518, R519). -/
def State.spdmDigests (s : State) (t : Transport) : MgmtResp × State :=
  s.negotiated t (.digests (sha512 s.chain0), s)

/-- `GET_CERTIFICATE`: bytes of slot 0's chain, or an error for another slot or a certificate for another key (19 R517,
R519). -/
def State.spdmCert (s : State) (t : Transport) (slot off len : Nat) : MgmtResp × State :=
  s.negotiated t (if s.sec.certMismatch then (.errCert, s)
    else if slot ≠ 0 then (.errInvalid, s)
    else (.certificate ((s.chain0.drop off).take len), s))

/-- `CHALLENGE`: signed with the alias key (19 R518, R519). -/
def State.spdmChallenge (s : State) (t : Transport) (slot : Nat) (nonce : List Byte) : MgmtResp × State :=
  s.negotiated t (if slot ≠ 0 then (.errInvalid, s) else (.challengeAuth (s.aliasSign (nonce ++ sha512 s.chain0)), s))

/-- The measurements an index names: 0 their number, 1 to 8 one of them, 255 all (19 R522; log 49). -/
def State.measured (s : State) (i : Nat) : Option (List (List Byte)) :=
  if i = 0 then some [[8]]
  else if i = 255 then some s.sec.snapshot
  else if i ≤ 8 then some [s.sec.snapshot.getD (i - 1) []]
  else none

/-- `GET_MEASUREMENTS`: values of one snapshot, signed when asked (19 R522). -/
def State.spdmMeasure (s : State) (t : Transport) (i : Nat) (sign : Bool) (nonce : List Byte) : MgmtResp × State :=
  s.negotiated t (match s.measured i with
    | none => (.errInvalid, s)
    | some v => (.measurements v (if sign then some (s.aliasSign (nonce ++ v.flatten)) else none), s))

/-- `KEY_EXCHANGE`: a session opens; a fifth receives Busy (19 R520). -/
def State.spdmKeyExchange (s : State) (t : Transport) : MgmtResp × State :=
  s.negotiated t (if 4 ≤ s.sec.sessions.length then (.errBusy, s)
    else
      let id := s.sec.nextSession
      (.keyExchangeRsp id, { s with sec := { s.sec with
        sessions := s.sec.sessions ++ [{ id := id, tr := t : SpdmSession }], nextSession := id + 1 } }))

/-- `FINISH`: the session is established, or its verification fails and is counted (19 R520, R530). -/
def State.spdmFinish (s : State) (t : Transport) (id : Nat) (ok : Bool) : MgmtResp × State :=
  match s.session t id with
  | none => (.errUnexpected, s)
  | some x =>
    if x.finished then (.errUnexpected, s)
    else if ok then (.finishRsp id, s.setSession { x with finished := true })
    else (.errInvalid, s.authFail)

/-- A request inside an established session. -/
def State.inSession (s : State) (t : Transport) (id : Nat) (f : SpdmSession → MgmtResp × State) : MgmtResp × State :=
  match s.session t id with
  | none => (.errUnexpected, s)
  | some x => if x.finished then f x else (.errUnexpected, s)

/-- `END_SESSION` (19 R519, R520). -/
def State.spdmEnd (s : State) (t : Transport) (id : Nat) : MgmtResp × State :=
  s.inSession t id (fun x => (.endSessionAck id,
    { s with sec := { s.sec with sessions := s.sec.sessions.filter (fun y => decide (y.id ≠ x.id)) } }))

/-- An SPDM request answered on a transport (19 R519, R520). -/
def State.spdm (s : State) (t : Transport) (r : SpdmReq) : MgmtResp × State :=
  match r with
  | .getVersion => s.spdmVersion t
  | .getCapabilities => s.spdmCaps t
  | .negotiateAlgorithms a => s.spdmAlgs t a
  | .getDigests => s.spdmDigests t
  | .getCertificate slot off len => s.spdmCert t slot off len
  | .challenge slot nonce => s.spdmChallenge t slot nonce
  | .getMeasurements i sign nonce => s.spdmMeasure t i sign nonce
  | .keyExchange _ => s.spdmKeyExchange t
  | .finish id ok => s.spdmFinish t id ok
  | .heartbeat id => s.inSession t id (fun _ => (.heartbeatAck id, s))
  | .keyUpdate id => s.inSession t id (fun x => (.keyUpdateAck id, s.setSession { x with keyGen := x.keyGen + 1 }))
  | .endSession id => s.spdmEnd t id
  | .other _ => (.errUnsupported, s)

/-- `GET_VERSION` over MCTP (19 R519). -/
def execGetVersion (s : State) : Host.Outcome State Fault Refusal := .next (s.served (fun x => x.spdm .mctp .getVersion))

/-- `GET_CAPABILITIES` over MCTP (19 R519). -/
def execGetCapabilities (s : State) : Host.Outcome State Fault Refusal :=
  .next (s.served (fun x => x.spdm .mctp .getCapabilities))

/-- `NEGOTIATE_ALGORITHMS` over MCTP (19 R519). -/
def execNegotiateAlgorithms (offersAll : Bool) (s : State) : Host.Outcome State Fault Refusal :=
  .next (s.served (fun x => x.spdm .mctp (.negotiateAlgorithms offersAll)))

/-- `GET_DIGESTS` over MCTP (19 R519). -/
def execGetDigests (s : State) : Host.Outcome State Fault Refusal := .next (s.served (fun x => x.spdm .mctp .getDigests))

/-- `GET_CERTIFICATE` over MCTP (19 R517, R519). -/
def execGetCertificate (slot offset len : Nat) (s : State) : Host.Outcome State Fault Refusal :=
  .next (s.served (fun x => x.spdm .mctp (.getCertificate slot offset len)))

/-- `CHALLENGE` over MCTP (19 R519). -/
def execChallenge (slot : Nat) (nonce : List Byte) (s : State) : Host.Outcome State Fault Refusal :=
  .next (s.served (fun x => x.spdm .mctp (.challenge slot nonce)))

/-- `GET_MEASUREMENTS` over MCTP (19 R522). -/
def execGetMeasurements (index : Nat) (sign : Bool) (nonce : List Byte) (s : State) : Host.Outcome State Fault Refusal :=
  .next (s.served (fun x => x.spdm .mctp (.getMeasurements index sign nonce)))

/-- `KEY_EXCHANGE` over MCTP (19 R520). -/
def execKeyExchange (exchange : List Byte) (s : State) : Host.Outcome State Fault Refusal :=
  .next (s.served (fun x => x.spdm .mctp (.keyExchange exchange)))

/-- `FINISH` over MCTP (19 R519, R520). -/
def execFinish (session : Nat) (verifies : Bool) (s : State) : Host.Outcome State Fault Refusal :=
  .next (s.served (fun x => x.spdm .mctp (.finish session verifies)))

/-- `HEARTBEAT` over MCTP (19 R519). -/
def execHeartbeat (session : Nat) (s : State) : Host.Outcome State Fault Refusal :=
  .next (s.served (fun x => x.spdm .mctp (.heartbeat session)))

/-- `KEY_UPDATE` over MCTP (19 R519). -/
def execKeyUpdate (session : Nat) (s : State) : Host.Outcome State Fault Refusal :=
  .next (s.served (fun x => x.spdm .mctp (.keyUpdate session)))

/-- `END_SESSION` over MCTP (19 R519). -/
def execEndSession (session : Nat) (s : State) : Host.Outcome State Fault Refusal :=
  .next (s.served (fun x => x.spdm .mctp (.endSession session)))

/-- Any other SPDM request: `ERROR` UnsupportedRequest (19 R519). -/
def execUnsupportedRequest (code : Nat) (s : State) : Host.Outcome State Fault Refusal :=
  .next (s.served (fun x => x.spdm .mctp (.other code)))

/-! ### Owner keys (19 R509, R521) -/

/-- Whether owner slot `n` is usable: written and not revoked (19 R509). -/
def Fuses.ownerUsable (f : Fuses) (n : Nat) : Bool := !(f.owner.getD n []).isEmpty && !f.ownerRevoke.getLsbD n

/-- Whether revoking slot `n` would revoke the last usable owner slot (19 R521). -/
def Fuses.lastOwner (f : Fuses) (n : Nat) : Bool :=
  f.ownerUsable n && (List.range 4).all (fun i => decide (i = n) || !f.ownerUsable i)

/-- The fuses after a provisioning message, or none when it is refused: a slot is written once, and the last usable one is
not revoked (19 R509, R521). -/
def Fuses.provision (f : Fuses) (m : OwnerMsg) : Option Fuses :=
  let old := (List.range 4).map (fun i => f.owner.getD i [])
  match m.hash with
  | some h =>
    if (old.getD m.slot []).isEmpty && decide (h.length = 32) then some { f with owner := setAt old m.slot h } else none
  | none => if f.lastOwner m.slot then none
    else some { f with ownerRevoke := f.ownerRevoke ||| BitVec.ofNat 4 (2 ^ m.slot) }

/-- Whether a provisioning message is authentic: inside an established session on I3C, signed by a usable owner key, or by a
Nisel key while no owner slot is written (19 R521). -/
def State.ownerAuth (s : State) (m : OwnerMsg) : Bool :=
  (match m.session with
    | some id => (match s.session .mctp id with | some x => x.finished | none => false)
    | none => false) &&
  decide (m.slot < 4) && s.sec.fuses.ownerOk m.key && Config.ed25519Verify m.key m.message m.sig

/-- An owner-provisioning message: it takes effect at once and is written to the event log, or is refused and counted
(19 R521, R530). -/
def State.provision (s : State) (m : OwnerMsg) : MgmtResp × State :=
  match s.sec.fuses.provision m with
  | some f => if s.ownerAuth m then
      (.ownerOk, { s with sec := { s.sec with fuses := f }, flt := { s.flt with log := .owner m.slot :: s.flt.log } })
    else (.ownerRefused, s.authFail)
  | none => (.ownerRefused, s.authFail)

/-- `OWNER_PROVISIONING` (19 R521). -/
def execOwnerProvisioning (msg : OwnerMsg) (s : State) : Host.Outcome State Fault Refusal :=
  .next (s.served (fun x => x.provision msg))

/-! ### Debug tokens (19 R528, R529) -/

/-- Whether a token is accepted: policy, no image loaded, and every field of R528 (19 R528, R529). -/
def State.tokenOk (s : State) (t : DebugTok) : Bool :=
  s.sec.policy.allowDebug && s.job.img.isNone && decide (t.serial = s.sec.serial) &&
    decide (t.nonce = Config.freeWord freeNonce s.sec.nonceCtr) && decide (t.scope.toNat < 8) && decide (t.rsvd = 0) &&
    s.sec.policy.debugKeys.contains t.key && Config.ed25519Verify t.key t.message t.sig

/-- A debug token: accepted into `dbg_state`, or refused and counted; a new nonce either way (19 R529). -/
def State.token (s : State) (t : DebugTok) : MgmtResp × State :=
  let s1 := if s.tokenOk t then s.kvSet kDbgState (BitVec.ofNat 64 t.scope.toNat) else s.authFail
  (if s.tokenOk t then .debugOk else .debugRefused, { s1 with sec := { s1.sec with nonceCtr := s1.sec.nonceCtr + 1 } })

/-- `DEBUG_TOKEN` (19 R528, R529). -/
def execDebugToken (tok : DebugTok) (s : State) : Host.Outcome State Fault Refusal := .next (s.served (fun x => x.token tok))

/-! ### PLDM (19 R523 to R527) -/

/-- `PLDM_DISCOVERY`: Types 0, 2 and 5 (19 R523). -/
def execPldmDiscovery (s : State) : Host.Outcome State Fault Refusal :=
  .next (s.served (fun x => (.pldmTypes [0, 2, 5], x)))

/-- A numeric sensor's reading; none for an identifier that is no sensor (19 R524). -/
def State.sensor (s : State) (id : Nat) : MgmtResp × State :=
  if 1 ≤ id ∧ id ≤ 64 then (.sensor (s.pwr.sensors[id - 1]?), s)
  else if 65 ≤ id ∧ id ≤ 70 then (.sensor ((s.pwr.railMv[id - 65]?).map (fun v => (v : Int))), s)
  else if id = 71 then
    let (n, s1) := s.draw
    (.sensor (some ((s1.readKey n kVinCoreMa).toNat : Int)), s1)
  else if id = 72 then (.sensor (some (s.kvNat kPwrStep : Int)), s)
  else if id = 73 then (.sensor (some (s.kvNat kOpNow : Int)), s)
  else (.sensor none, s)

/-- `PLDM_SENSOR_READING` (19 R524). -/
def execPldmSensorReading (id : Nat) (s : State) : Host.Outcome State Fault Refusal :=
  .next (s.served (fun x => x.sensor id))

/-- The oldest event delivered: the overflow flag goes with it, and `ALERT_N` is released with the last one outside sleep
(19 R525; 18 R493). -/
def State.poll (s : State) : MgmtResp × State :=
  match s.flt.queue with
  | [] => (.platformEvent none false, s)
  | e :: rest =>
    let s1 := { s with flt := { s.flt with queue := rest, overflow := false } }
    (.platformEvent (some e) s.flt.overflow, s1.alert (!rest.isEmpty || s.clk.phase == .sleep))

/-- `POLL_FOR_PLATFORM_EVENT_MESSAGE` (19 R525). -/
def execPollForPlatformEventMessage (s : State) : Host.Outcome State Fault Refusal := .next (s.served State.poll)

/-- `RequestUpdate` (19 R526). -/
def State.requestUpdate (s : State) : MgmtResp × State :=
  if s.sec.updating.isSome then (.alreadyInUpdateMode, s)
  else (.updateAccepted, { s with sec := { s.sec with updating := some {} } })

/-- `REQUEST_UPDATE` (19 R526). -/
def execRequestUpdate (s : State) : Host.Outcome State Fault Refusal := .next (s.served State.requestUpdate)

/-- The non-preferred slot of a kind (19 R526). -/
def otherSlot (pref : Nat) : Nat := 1 - pref % 2

/-- The flash with a firmware slot written (19 R526). -/
def flashWithFw (f : Flash) (n : Nat) (x : FlashSlot) : Flash := if n = 0 then { f with fwA := x } else { f with fwB := x }

/-- The flash with a configuration slot written (19 R526). -/
def flashWithCfg (f : Flash) (n : Nat) (x : FlashSlot) : Flash :=
  if n = 0 then { f with cfgA := x } else { f with cfgB := x }

/-- A component written to the non-preferred slot of its kind and checked under R512; the directory stays (19 R526). -/
def State.component (s : State) (c : Nat) (x : FlashSlot) : MgmtResp × State :=
  match s.sec.updating with
  | none => (.notInUpdate, s)
  | some u =>
    let f := s.sec.flash
    if c = 1 then
      let n := otherSlot f.prefFw
      let ok := s.sec.fuses.accepts 1 x
      (.verifyComplete ok, { s with sec := { s.sec with
        flash := flashWithFw f n x, updating := some { u with fw := if ok then some n else none } } })
    else if c = 2 then
      let n := otherSlot f.prefCfg
      let ok := s.sec.fuses.accepts 2 x
      (.verifyComplete ok, { s with sec := { s.sec with
        flash := flashWithCfg f n x, updating := some { u with cfg := if ok then some n else none } } })
    else (.errInvalid, s)

/-- `COMPONENT_TRANSFER` (19 R526). -/
def execComponentTransfer (component : Nat) (content : FlashSlot) (s : State) : Host.Outcome State Fault Refusal :=
  .next (s.served (fun x => x.component component content))

/-- The slots an activation prefers: the verified new ones, the present ones where nothing new was verified (19 R527). -/
def Update.prefs (u : Update) (f : Flash) : Nat × Nat := (u.fw.getD f.prefFw, u.cfg.getD f.prefCfg)

/-- `ActivateFirmware`: the response; deferred while an image is loaded, else a warm reset follows (19 R527). -/
def State.activateFw (s : State) : State :=
  match s.sec.updating with
  | none => s.reply .notInUpdate
  | some u =>
    let wait := s.job.img.isSome
    let s1 := { s with sec := { s.sec with updating := none, activate := wait, pendPref := some (u.prefs s.sec.flash) } }
    let s2 := s1.reply (.activated wait)
    if wait then s2 else s2.activateNow

/-- `ACTIVATE_FIRMWARE` (19 R527). -/
def execActivateFirmware (s : State) : Host.Outcome State Fault Refusal :=
  .next (if s.sec.booted then s.activateFw else s)

end Sys2Proof.Machine
end

