-- ==== Sys2Proof/Machine/Commands.lean ====
section
/-! DEFINITION. The host's commands: a packet read from a ring, its checks, its acceptance, its start, and what each
command does (14 R409 to R430; 15 R441 to R448; 17 R481 to R485; 12 R376; 19 R520). -/

namespace Sys2Proof.Machine

/-! ### The command table (14 R418) -/

/-- The opcode of a command. -/
def HostOp.opcode : HostOp → Nat
  | .echo _ => 0x0001
  | .identify => 0x0010
  | .attest _ _ _ => 0x0011
  | .loadImage _ _ _ _ => 0x0020
  | .bind _ _ _ _ _ _ _ => 0x0021
  | .unload => 0x0022
  | .runSteps _ => 0x0030
  | .haltAtStep _ => 0x0031
  | .stepStatus => 0x0032
  | .checkpoint _ _ => 0x0040
  | .restore _ _ => 0x0041
  | .solve _ => 0x0050
  | .dynamics _ => 0x0051
  | .getParam _ _ => 0x0060
  | .setParam _ _ => 0x0061
  | .memCopy _ _ _ => 0x0070
  | .memFill _ _ _ => 0x0071
  | .portCtl _ _ _ _ => 0x0080
  | .powerCtl _ _ _ => 0x0090
  | .testTraffic _ _ _ _ _ _ _ _ => 0x00A0
  | .resetFunction _ => 0x00F0

/-- The parameter length of a command: the last byte its row names plus one, or what its data and n give. -/
def HostOp.plen : HostOp → Nat
  | .echo d => d.length
  | .attest _ _ _ => 12
  | .loadImage _ _ _ _ => 17
  | .bind _ _ _ _ _ _ _ => 8
  | .runSteps _ | .haltAtStep _ | .solve _ | .dynamics _ | .portCtl _ _ _ _ => 8
  | .checkpoint _ _ => 16
  | .restore _ _ => 10
  | .getParam _ ks => 4 + 4 * ks.length
  | .setParam _ ps => 4 + 12 * ps.length
  | .memCopy _ _ _ | .memFill _ _ _ => 24
  | .powerCtl _ _ _ => 3
  | .testTraffic _ _ _ _ _ _ _ _ => 44
  | .resetFunction _ => 1
  | .identify | .unload | .stepStatus => 0

/-- Whether the count in a parameter list is the one its length gives, where the count is in its range (14 R418). -/
def HostOp.countsAgree : HostOp → Bool
  | .getParam n ks => decide (n = ks.length) || decide (n = 0) || decide (16 < n)
  | .setParam n ps => decide (n = ps.length) || decide (n = 0) || decide (8 < n)
  | _ => true

/-- Whether a parameter field holds a value its row does not admit: a reserved bit, a count out of range, an address with
a bit that must be zero (14 R416 to R418, R428). -/
def HostOp.badField : HostOp → Bool
  | .getParam n _ => decide (n = 0) || decide (16 < n)
  | .setParam n _ => decide (n = 0) || decide (8 < n)
  | .loadImage a _ strict _ => (addrParam a).isNone || decide (1 < strict)
  | .attest a _ _ | .solve a | .dynamics a | .restore a _ | .checkpoint a _ => (addrParam a).isNone
  | .memCopy a b n => (addrParam a).isNone || (addrParam b).isNone || decide (n % 64 ≠ 0)
  | .memFill a n _ => (addrParam a).isNone || decide (n % 64 ≠ 0)
  | .testTraffic kind first count _ _ _ _ _ => decide (1 < kind) || decide ((if kind = 0 then 256 else 64) < first + count)
  | .portCtl p action _ _ => decide (7 < p) || decide (7 < action)
  | .resetFunction kind => decide (1 < kind)
  | _ => false

/-- The result length of a command in bytes (14 R418; 15 R448). A length that only the command's own effect gives counts
as 0 here. -/
def HostOp.resultLen : HostOp → Nat
  | .echo d => d.length
  | .identify => 512
  | .loadImage _ _ _ _ | .stepStatus => 64
  | .getParam n _ | .setParam n _ => 8 * n
  | .testTraffic _ _ count _ _ _ _ _ => 32 * count
  | _ => 0

/-- Whether a command is a job command (14 R419). -/
def HostOp.isJob : HostOp → Bool
  | .loadImage _ _ _ _ | .bind _ _ _ _ _ _ _ | .unload | .restore _ _ | .resetFunction _ | .runSteps _ => true
  | _ => false

/-- Whether a command is `RUN_STEPS`. -/
def HostOp.isRun : HostOp → Bool
  | .runSteps _ => true
  | _ => false

/-- Whether a command may start beside a running `RUN_STEPS` (14 R419). -/
def HostOp.actsOnRun : HostOp → Bool
  | .unload | .resetFunction _ => true
  | _ => false

/-- Whether a command is `SET_PARAM`. -/
def HostOp.isSet : HostOp → Bool
  | .setParam _ _ => true
  | _ => false

/-! ### Refusals common to the commands (14 R416, R417) -/

/-- A reason that the spec states no code for: 16 free bits, by a number for the cause (log 36). -/
def freeReason (n : Nat) : Nat := (Config.freeWord 6 n).toNat % 65536

/-- Whether bytes at an address parameter are mapped (14 R416, R417). -/
def State.spanOk (s : State) (a : Bool × Nat) (n : Nat) : Bool :=
  if a.1 then decide (a.2 + n ≤ 2 ^ 52) else s.mapped a.2 (max n 1)

/-- Whether a command may write bytes at an address parameter: mapped, outside the journal and the image area (14 R417,
R424; 15 R434; log 36). -/
def State.writeOk (s : State) (a : Bool × Nat) (n : Nat) : Bool :=
  s.spanOk a n && (a.1 || !overlaps a.2 (a.2 + n) s.imageBase s.journalEnd)

/-- Why the result bytes of a command cannot be written: the address, then `res_len`; a packet with `res_addr` 0 asks for
none (14 R414, R416, R417; log 36). -/
def State.resultRefusal (s : State) (h : Hdr) (n : Nat) : Option Answer :=
  if h.resAddr = 0 ∨ n = 0 then none
  else match addrParam h.resAddr with
    | none => some (refuse stRefusedShape 0x0003)
    | some a =>
      if !s.writeOk a n then some (refuse stRefusedShape 0x0005)
      else if h.resLen < n then some (refuse stRefusedFit 0x0006) else none

/-- Bytes that a command writes at `res_addr` only where there is room: the refusal record of `BIND`, `SOLVE` and
`DYNAMICS` (15 R448). -/
def HostOp.recordLen (op : HostOp) (h : Hdr) : Nat :=
  match op with
  | .bind _ _ _ _ _ _ _ | .solve _ | .dynamics _ => if 64 ≤ h.resLen then 64 else 0
  | _ => 0

/-- Whether a profile number names a profile (14 R417, R429). -/
def State.profNamed (s : State) (p : Nat) : Bool :=
  decide (p ≤ 1) || s.sec.policy.profiles.any (fun x => decide (x.1 = p))

/-- Whether a command takes key values from its profile (14 R429). -/
def HostOp.usesProf : HostOp → Bool
  | .loadImage _ _ _ _ | .solve _ | .dynamics _ | .testTraffic _ _ _ _ _ _ _ _ => true
  | _ => false

/-! ### The job's commands (14 R421, R423; 15 R441 to R448) -/

/-- The `RWL` lock as it follows from the image and the accepted loads (00 R7; 15 R442). -/
def State.relock (s : State) : State :=
  { s with job := { s.job with locked := s.job.img.isSome || s.hostIf.cmds.any (fun c => HostOp.isLoad c.op) } }

/-- `LOAD_IMAGE`: the image is read and checked, in strict mode where the command or the package's policy asks for it; loaded,
or refused with its record (14 R421; 15 R434, R440 to R442, R448). -/
def State.cmdLoad (s : State) (h : Hdr) (addr len strict : Nat) (parts : ImageParts) : State :=
  match addrParam addr with
  | none => (s.retire h (refuse stRefusedShape 0x0003)).relock
  | some a =>
    if s.job.img.isSome then (s.retire h (refuse stRefusedFit 0x0202)).relock
    else if !s.spanOk a len then (s.retire h (refuse stRefusedShape 0x0005)).relock
    else
      let bs := s.rdAt a (min len (4 * gib))
      match s.loadImage bs len (decide (strict = 1) || s.sec.policy.strict) parts with
      | .error f =>
        let s1 := if f.stage ≤ 1 then s else s.dramForget s.imageBase s.journalBase
        (s1.retire h (f.answer h (imageDigest bs))).relock
      | .ok i =>
        let s1 := s.dramWr s.imageBase bs
        ({ s1 with job := { noJob with img := some i, stepEnd := s1.job.stepEnd } }.retire h {}).relock

/-- `BIND`: the epoch, then the checks of stages 8 to 10; bound, or refused with its record. An earlier binding ends when
the new one stands (14 R421; 15 R441, R443, R444, R448; log 50). -/
def State.cmdBind (s : State) (h : Hdr) (o z : Nat × Nat × Nat) (epoch : Nat) : State :=
  match s.job.img with
  | none => s.retire h (refuse stRefusedFit 0x0201)
  | some i =>
    if epoch = 0 then s.retire h (refuse stRefusedShape 0x0003)
    else
      let s1 := if s.job.bound.isSome then s.unbind else s
      match s1.checkBind i { ox := o.1, oy := o.2.1, oz := o.2.2, sx := z.1, sy := z.2.1, sz := z.2.2 } with
      | .error f => s.retire h (f.answer h i.digest)
      | .ok b =>
        let s2 := (s1.bindWith i b epoch).takeSnapshot
        s2.retire h { result := s2.livery }

/-- `UNLOAD`: at the next boundary when steps run (14 R421). -/
def State.cmdUnload (s : State) (h : Hdr) : State :=
  if s.job.img.isNone then s.retire h (refuse stRefusedFit 0x0201)
  else if s.imageRuns then s
  else s.unload h

/-- The running `RUN_STEPS` retires at an armed halt when no step is in progress (14 R421). -/
def State.haltNow (s : State) : State :=
  if s.haltDue && !s.job.inStep && s.runCmd.isSome then
    let s1 := s.endRun stOk 0
    { s1 with job := { s1.job with haltAt := none } }
  else s

/-- `RUN_STEPS`: the steps run from then on, unless the armed halt stops them at once (14 R421; 20 R539). -/
def State.cmdRun (s : State) (h : Hdr) : State :=
  if s.job.bound.isNone then s.retire h (refuse stRefusedFit 0x0201)
  else if s.job.jobFault.isSome then s.retire h (refuse stRefusedFit 0x0202)
  else s.haltNow

/-- `HALT_AT_STEP`: arms a halt and retires at once (14 R421). -/
def State.cmdHalt (s : State) (h : Hdr) (step : Nat) : State :=
  if s.job.bound.isNone then s.retire h (refuse stRefusedFit 0x0201)
  else ({ s with job := { s.job with haltAt := some step } }.retire h { result := step }).haltNow

/-- The answer of `STEP_STATUS`: the outcome of the last verdict or step, a job fault with its reason, the next step to run,
and the `verdict` token (14 R421; 07 R179, R181; 20 R535, R539). -/
def State.stepAnswer (s : State) : Answer :=
  let bs := if s.gradient then s.dramRd (s.placed verdictTok).addr0 64 else List.replicate 64 0
  match s.job.jobFault with
  | some r => { status := stFaultJob, detail := r, result := s.job.step.toNat, bytes := bs }
  | none => { status := outcStatus s.job.outcome, result := s.job.step.toNat, bytes := bs }

/-- `STEP_STATUS` (14 R421). -/
def State.cmdStatus (s : State) (h : Hdr) : State :=
  if s.job.bound.isNone then s.retire h (refuse stRefusedFit 0x0201) else s.retire h s.stepAnswer

/-- `CHECKPOINT`: captured at the next boundary, or at once when no step runs (14 R422). -/
def State.cmdCheckpoint (s : State) (c : Cmd) (dest : Nat) : State :=
  if s.job.bound.isNone then s.retire c.hdr (refuse stRefusedFit 0x0201)
  else match addrParam dest with
    | some (false, a) =>
      if !s.ckDest a s.ckLen then s.retire c.hdr (refuse stRefusedShape 0x0005)
      else if s.imageRuns then s
      else s.capture c
    | _ => s.retire c.hdr (refuse stRefusedShape 0x0005)

/-- `RESTORE`: the record's checks, then its effects; the result is the step to run next (14 R423). -/
def State.cmdRestore (s : State) (h : Hdr) (record epoch : Nat) : State :=
  match s.job.img, addrParam record with
  | some i, some a =>
    if s.job.bound.isNone then s.retire h (refuse stRefusedFit 0x0201)
    else if s.imageRuns then s.retire h (refuse stRefusedFit 0x0202)
    else if !s.spanOk a 128 then s.retire h (refuse stRefusedShape 0x0005)
    else
      let head := s.rdAt a 128
      let n := fieldLe head 88 8
      let bs := if 128 ≤ n ∧ s.spanOk a n then s.rdAt a n else head
      match s.checkRecord i bs epoch with
      | some f => s.retire h (refuse f.1 (freeReason f.2))
      | none =>
        let s1 := s.restoreFrom i bs epoch
        s1.retire h { result := s1.job.step.toNat }
  | _, _ => s.retire h (refuse stRefusedFit 0x0201)

/-! ### Parameters (14 R427) -/

/-- `GET_PARAM`: every key's value, or the first key that names no key (14 R427). -/
def State.cmdGet (s : State) (h : Hdr) (keys : List Nat) : State :=
  match indexOf (fun k => (keyRow k).isNone) keys with
  | some i => s.retire h (refuse stRefusedShape 0x0103 i)
  | none =>
    let vs := keys.zipIdx.map (fun k => (s.readKey (s.fresh + k.2) k.1).toNat)
    { s with fresh := s.fresh + keys.length }.retire h { result := vs.headD 0, bytes := vs.flatMap (toLe 8) }

/-- The pairs of a `SET_PARAM` applied in list order, with the previous values; or why the pair at an index fails (14 R427;
10 R306). -/
def setPairs : List (Nat × Nat) → Nat → State → List Nat → Except Answer (State × List Nat)
  | [], _, s, prev => .ok (s, prev)
  | (k, v) :: t, i, s, prev =>
    let w := BitVec.ofNat 64 v
    match s.writeRefusal k w with
    | some f => .error (refuse f.1 f.2 i)
    | none =>
      if s.startRefused k w then .error (refuse stRefusedFit (freeReason 7) i)
      else setPairs t (i + 1) (s.writeKey k w) (prev ++ [(s.readKey s.fresh k).toNat])

/-- The pairs under a lock that holds for this command (14 R427): the `RWL` keys are locked while an image is loaded, and
from the acceptance of a `LOAD_IMAGE` accepted earlier. -/
def State.cmdSet (s : State) (h : Hdr) (pairs : List (Nat × Nat)) (locked : Bool) : State :=
  match setPairs pairs 0 { s with job := { s.job with locked := locked } } [] with
  | .error a => s.retire h a
  | .ok (s1, prev) =>
    { s1 with job := { s1.job with locked := s.job.locked } }.retire h
      { result := prev.headD 0, bytes := prev.flatMap (toLe 8) }

/-! ### Identity and attestation (14 R420; 19 R520) -/

/-- The 512-byte identity block (14 R420). -/
def State.identity (s : State) : List Byte :=
  let vs := [s.sec.serial.toNat, Config.partRevision.toNat, (flashFw s.sec.flash (b2n s.sec.fwSlot)).version.toNat] ++
    Config.params ++ [s.pins.strapWord.toNat, s.kvNat kLpGib, s.kvNat kCxlLink]
  (vs.flatMap (toLe 8) ++ List.replicate 512 0).take 512

/-- `ATTEST`: one SPDM request, its response at `res_addr` (14 R418; 19 R520). -/
def State.cmdAttest (s : State) (h : Hdr) (addr len : Nat) (req : SpdmReq) : State :=
  if !s.sec.policy.allowAttest then s.retire h (refuse stRefusedFit 0x0501)
  else if !(match addrParam addr with | some a => s.spanOk a len | none => false) then
    s.retire h (refuse stRefusedShape 0x0005)
  else
    let (r, s1) := s.spdm .attest req
    let bs := Config.spdmBytes r
    match s.resultRefusal h bs.length with
    | some a => s.retire h a
    | none => s1.retire h { result := bs.length, bytes := bs }

/-! ### Class 3 (14 R418, R419) -/

/-- `MEM_COPY` and `MEM_FILL`: done at once while no image runs, else in Sable windows (14 R417, R419; log 36). -/
def State.cmdBulk (s : State) (c : Cmd) : State :=
  let ok := match c.op with
    | .memCopy src dst n => (match addrParam src, addrParam dst with
      | some a, some b => s.spanOk a n && s.writeOk b n
      | _, _ => false)
    | .memFill dst n _ => (match addrParam dst with | some b => s.writeOk b n | none => false)
    | _ => false
  if !ok then s.retire c.hdr (refuse stRefusedShape 0x0005)
  else if s.imageRuns then s else s.bulk c

/-- The key writes of a `TEST_TRAFFIC` on one channel: range, seed, passes, then `tg_ctl` with `tg_go` (14 R418; 10 R305,
R311). -/
def testPairs (c ctl base len seed passes : Nat) : List (Nat × Nat) :=
  [(kTgBase c, base), (kTgLen c, len), (kTgSeed c, seed), (kTgPasses c, passes), (kTgCtl c, bits ctl 0 31 + 2 ^ 31)]

/-- `TEST_TRAFFIC`: the channels' keys written and their generators started, or nothing when one cannot start; it retires
when every generator has ended (14 R418; 10 R305, R306). -/
def State.cmdTest (s : State) (h : Hdr) (kind first count ctl base len seed passes : Nat) : State :=
  let ps := (testChans kind first count).flatMap (fun c => testPairs c ctl base len seed passes)
  match setPairs ps 0 s [] with
  | .error a => s.retire h (refuse a.status (a.detail % 65536))
  | .ok (s1, _) => s1.testsDone

/-! ### Ports (14 R428; 12 R373, R376) -/

/-- Whether a port serves a machine hop of the bound block (14 R428). -/
def State.boundHop (s : State) (p : Nat) : Bool := s.job.bound.isSome && s.hopPorts.contains p

/-- Why a `PORT_CTL` action is refused (14 R428; log 40). -/
def State.portRefusal (s : State) (p action : Nat) : Bool :=
  (decide (3 ≤ action) && decide (action ≤ 6) && s.imageRuns) ||
    ((decide (action = 0) || decide (action = 1) || decide (action = 3)) && s.boundHop p) ||
    (decide (action = 7) && (s.port p).state != .failed)

/-- A `PORT_CTL` action (14 R428; 12 R373 to R376). -/
def State.portAct (s : State) (p action pattern rate : Nat) : State :=
  let off := (s.portOff p 1).port p
  match action with
  | 0 =>
    let s1 := s.setPort p { s.port p with enabled := true }
    if (s.port p).loopback then s1 else s1.startPort p
  | 1 => (s.portOff p 1).setPort p { off with enabled := false }
  | 2 => s.retrain p 1
  | 3 => (s.portOff p 1).setPort p { off with loopback := true }
  | 4 => if (s.port p).loopback then (s.setPort p { s.port p with loopback := false }).startPort p else s
  | 5 => s.setPort p { s.port p with test := some (pattern, rate), testSent := 0 }
  | 6 => s.setPort p { s.port p with test := none }
  | _ => s.setPort p { s.port p with state := .off, enteredAt := s.now }

/-- `PORT_CTL`: the result is the port's state after the action (14 R418, R428). -/
def State.cmdPort (s : State) (h : Hdr) (p action pattern rate : Nat) : State :=
  if s.portRefusal p action then s.retire h (refuse stRefusedFit 0x0202)
  else
    let s1 := s.portAct p action pattern rate
    s1.retire h { result := (s1.port p).state.code }

/-! ### Power (17 R481 to R485) -/

/-- `result` of a `POWER_CTL` reply: the point in force for function 0, `OFF` for function 14, the state else (17 R483,
R484). -/
def State.fnResult (s : State) (f : Nat) : Nat :=
  if f = 0 then s.kvNat kOpNow else if f = 14 then 0 else (s.fn f).result

/-- Whether a function, action and point go together (17 R483, R484). -/
def fnValid (f action point : Nat) : Bool :=
  decide (f ≤ 14) && decide (action ≤ 3) &&
    (if f = 0 then decide (action = 0) || (decide (action = 3) && decide (point ≤ 3))
     else decide (action ≠ 3) && !(decide (f = 14) && decide (action = 1)))

/-- What the loaded image refuses: reason, or none (17 R481, R483; log 6). -/
def State.fnInUse (s : State) (f action : Nat) : Option Nat :=
  if s.job.img.isNone then none
  else if f = 0 ∧ (action = 1 ∨ action = 2) then some 0x0401
  else if f = 14 ∧ action = 2 then some 0x0202
  else if action = 1 ∧ 1 ≤ f ∧ f ≤ 13 then
    (if 5 ≤ f ∧ f ≤ 12 then (if s.boundHop (f - 5) then some 0x0401 else none) else some 0x0401)
  else none

/-- An enable request (17 R485). -/
def State.fnEnable (s : State) (f : Nat) (h : Hdr) : State :=
  let x := s.fn f
  match x.state with
  | .off => s.setFn f { x with state := .starting, waiters := [h], since := s.now }
  | .starting => (s.setFn f { x with waiters := x.waiters ++ [h], waitDis := [] }).fnWithdraw f x.waitDis
  | .on => s.retire h { result := x.result }
  | .stopping =>
    if x.waitEn.isEmpty then s.setFn f { x with waitEn := [h] }
    else s.retire h { status := stQueuedEnable, result := x.result }

/-- A disable request (17 R485). -/
def State.fnDisable (s : State) (f : Nat) (h : Hdr) : State :=
  let x := s.fn f
  match x.state with
  | .off => s.retire h { result := x.result }
  | .starting => s.setFn f { x with waitDis := x.waitDis ++ [h] }
  | .on => s.setFn f { x with state := .stopping, waiters := [h], since := s.now }
  | .stopping => (s.setFn f { x with waiters := x.waiters ++ [h], waitEn := [] }).fnWithdraw f x.waitEn

/-- The time from the reply of a sleep request to sleep: 1 ms (17 R481). -/
abbrev sleepDelay : Nat := 1800000

/-- `POWER_CTL` (17 R481 to R485). -/
def State.cmdPower (s : State) (h : Hdr) (f action point : Nat) : State :=
  match s.fnInUse f action with
  | some r => s.retire h { refuse stRefusedFit r with result := s.fnResult f }
  | none =>
    if !fnValid f action point then
      s.retire h { refuse stRefusedShape 0x0403 with result := if f ≤ 14 then s.fnResult f else 0 }
    else if f = 0 then
      let s1 := if action = 3 then s.writeKey kOpReq (BitVec.ofNat 64 point) else s
      s1.retire h { result := s1.fnResult 0 }
    else if f = 14 then
      if action = 0 then s.retire h {}
      else { s with pwr := { s.pwr with sleepAt := some (sleepDelay + s.now) } }.retire h {}
    else match action with
      | 0 => s.retire h { status := if (s.fn f).waitEn.isEmpty then stOk else stQueuedEnable, result := s.fnResult f }
      | 1 => s.fnDisable f h
      | _ => s.fnEnable f h

/-! ### Resets (14 R428) -/

/-- Kind 0: the reply is recorded, and a sequenced one posted after the reset under R426; then the warm reset (14 R426,
R428). -/
def State.cmdWarm (s : State) (h : Hdr) : State :=
  if h.seq = 0 then (s.retire h {}).warmReset
  else
    let s1 := s.modJournal h.seq (fun e => if e.state = 1 ∧ e.hdr = h then { e with state := 2, reply := answerReply h {} } else e)
    s1.raiseW.warmReset

/-- Kind 1: the job abandoned; the running `RUN_STEPS` retires with the last step whose boundary completed (14 R428). -/
def State.cmdAbandon (s : State) (h : Hdr) : State :=
  if s.job.bound.isNone then s.retire h (refuse stRefusedFit 0x0201)
  else (((s.endRun stOk 0).unbind).retire h {}).foldIfIdle

/-! ### Starting a command (14 R419) -/

/-- Whether a command may start: the previous command of its ring has retired, its fence holds, and a job command has its
turn; a `LOAD_IMAGE` also waits for every `SET_PARAM` accepted before it (14 R414, R419, R427). -/
def mayStart (cmds : List Cmd) (i : Nat) (c : Cmd) : Bool :=
  let earlier := cmds.take i
  let running := cmds.filter (fun d => d.started && (HostOp.isJob d.op))
  let turn := running.isEmpty && !earlier.any (fun d => HostOp.isJob d.op)
  earlier.all (fun d => decide (d.hdr.ring ≠ c.hdr.ring)) && (!c.hdr.fence || earlier.isEmpty) &&
    (!HostOp.isJob c.op || turn || (HostOp.actsOnRun c.op && !running.isEmpty && running.all (fun d => HostOp.isRun d.op))) &&
    (!HostOp.isLoad c.op || !earlier.any (fun d => HostOp.isSet d.op))

/-- A command's own effect as it starts; `locked` says whether the `RWL` keys are locked for it. A command that stays in
the list has work pending (14 R418 to R430). -/
def State.begin (s : State) (c : Cmd) (locked : Bool) : State :=
  let h := c.hdr
  match c.op with
  | .echo d => s.retire h { result := leNat (d.take 8), bytes := d }
  | .identify => s.retire h { result := s.sec.serial.toNat, bytes := s.identity }
  | .attest a n req => s.cmdAttest h a n req
  | .loadImage a n strict parts => s.cmdLoad h a n strict parts
  | .bind ox oy oz sx sy sz epoch => s.cmdBind h (ox, oy, oz) (sx, sy, sz) epoch
  | .unload => s.cmdUnload h
  | .runSteps _ => s.cmdRun h
  | .haltAtStep n => s.cmdHalt h n
  | .stepStatus => s.cmdStatus h
  | .checkpoint dest _ => s.cmdCheckpoint c dest
  | .restore r e => s.cmdRestore h r e
  | .solve _ | .dynamics _ => if s.imageRuns then s else s.takeEngines c
  | .getParam _ ks => s.cmdGet h ks
  | .setParam _ ps => s.cmdSet h ps locked
  | .memCopy _ _ _ | .memFill _ _ _ => s.cmdBulk c
  | .testTraffic kind first count ctl base len seed passes => s.cmdTest h kind first count ctl base len seed passes
  | .portCtl p action pattern rate => s.cmdPort h p action pattern rate
  | .powerCtl f action point => s.cmdPower h f action point
  | .resetFunction kind => if kind = 0 then s.cmdWarm h else s.cmdAbandon h

/-- A command starts: its fields, its result length and its profile are checked first (14 R417, R429). -/
def State.startCmd (s : State) (c : Cmd) (locked : Bool) : State :=
  if HostOp.badField c.op then (s.retire c.hdr (refuse stRefusedShape 0x0003)).relock
  else match s.resultRefusal c.hdr (HostOp.resultLen c.op + HostOp.recordLen c.op c.hdr) with
  | some a => (s.retire c.hdr a).relock
  | none =>
    if HostOp.usesProf c.op && !s.profNamed c.hdr.prof then (s.retire c.hdr (refuse stRefusedFit 0x0203)).relock
    else s.begin c locked

/-- A started command goes on while no step runs: what waited for a boundary, for engines or for class 3 (14 R419 to
R422). -/
def State.resume (s : State) (c : Cmd) : State :=
  if s.imageRuns then s
  else match c.op with
    | .unload => s.unload c.hdr
    | .checkpoint _ _ => s.capture c
    | .memCopy _ _ _ | .memFill _ _ _ => s.bulk c
    | .solve _ | .dynamics _ => s.takeEngines c
    | _ => s

/-- The accepted command at a place of the list starts when it may, or goes on (14 R419). -/
def State.startAt (s : State) (i : Nat) : State :=
  match s.hostIf.cmds[i]? with
  | none => s
  | some c =>
    if c.started then s.resume c
    else if mayStart s.hostIf.cmds i c then
      let locked := s.job.img.isSome || (s.hostIf.cmds.take i).any (fun d => HostOp.isLoad d.op)
      let cs := setAt s.hostIf.cmds i { c with started := true }
      { s with hostIf := { s.hostIf with cmds := cs } }.startCmd { c with started := true } locked
    else s

/-! ### Acceptance (14 R417, R424, R425, R429; 15 R442, R446) -/

/-- The opcodes of R418 (00 R11; 14 R418). -/
def opcodeList : List Nat :=
  [0x0001, 0x0010, 0x0011, 0x0020, 0x0021, 0x0022, 0x0030, 0x0031, 0x0032, 0x0040, 0x0041, 0x0050, 0x0051, 0x0060, 0x0061,
    0x0070, 0x0071, 0x0080, 0x0090, 0x00A0, 0x00F0]

/-- Why a packet is refused before it is accepted (14 R417). -/
def headerRefusal (h : Hdr) (op : HostOp) : Option Answer :=
  if h.opcode ≠ HostOp.opcode op then some (refuse stRefusedShape 0x0001)
  else if h.plen ≠ HostOp.plen op ∨ 224 < h.plen ∨ !HostOp.countsAgree op then some (refuse stRefusedShape 0x0002)
  else if h.rsvdHi ≠ 0 ∨ h.rsvdLo ≠ 0 then some (refuse stRefusedShape 0x0003)
  else none

/-- The `DUPLICATE` answer of a sequenced packet that the table of R425 does not run (14 R425). -/
def State.duplicate (s : State) (h : Hdr) : Option Answer :=
  match s.jentry h.seq with
  | some e =>
    if e.state = 1 then some { status := stDuplicate, detail := 0x100 }
    else some { status := stDuplicate, result := e.reply.result, detail := e.reply.status }
  | none => match s.hostIf.wm with
    | some w => if h.seq ≤ w then some { status := stDuplicate } else none
    | none => none

/-- A key of access `RW` or `RWL` that a profile lists, written at acceptance of `LOAD_IMAGE` (14 R429). -/
def State.writeProf (s : State) (k : Nat) (v : BitVec 64) : State :=
  match keyRow k with
  | some r => if r.acc = .rw ∨ (r.acc = .rwl ∧ !s.job.locked) then s.writeKey k (r.unreserved v) else s
  | none => s

/-- The values of a profile written: profile 1 lists every key at its reset value (14 R429). -/
def State.applyProf (s : State) (p : Nat) : State :=
  if p = 0 then s
  else if p = 1 then ((s.kv.map (fun x => x.1)) ++ (s.pendW.map (fun x => x.1))).eraseDups.foldl
    (fun x k => x.writeProf k (keyReset k)) s
  else match s.sec.policy.profiles.find? (fun x => decide (x.1 = p)) with
    | some l => l.2.foldl (fun x e => x.writeProf e.1 (BitVec.ofNat 64 e.2)) s
    | none => s

/-- A list with its last element changed. -/
def onLast {α : Type} (f : α → α) : List α → List α
  | [] => []
  | [x] => [f x]
  | x :: t => x :: onLast f t

/-- The command accepted last changed. -/
def State.modLast (s : State) (f : Cmd → Cmd) : State :=
  { s with hostIf := { s.hostIf with cmds := onLast f s.hostIf.cmds } }

/-- What acceptance itself does: a `LOAD_IMAGE` writes its profile and locks the keys; a `SOLVE` or `DYNAMICS` that its
checks refuse retires, and one that they pass keeps what Ivory read and analysed (09 R244; 14 R429; 15 R442, R446). -/
def State.atAcceptance (s : State) (h : Hdr) (op : HostOp) : State :=
  match op with
  | .loadImage _ _ _ _ =>
    let s1 := s.applyProf h.prof
    { s1 with job := { s1.job with locked := true } }
  | .solve a => if !s.profNamed h.prof then s else match s.checkSolve h.prof a with
    | .error f => s.retire h (f.answer h [])
    | .ok d => s.modLast (fun c => { c with solve := some d })
  | .dynamics a => if !s.profNamed h.prof then s else match s.checkDyn a with
    | .error f => s.retire h (f.answer h [])
    | .ok d => s.modLast (fun c => { c with dyn := some d })
  | _ => s

/-- A sequenced packet's journal entry; the first one accepted sets W (14 R424). -/
def State.journal (s : State) (h : Hdr) (op : HostOp) : State :=
  if h.seq = 0 then s
  else
    let e : JEntry := { hdr := h, op := op, state := 1, slot := s.freeSlot }
    let s1 := (s.setRing h.ring { s.ring h.ring with lastSeq := h.seq }).countNow kCmdAccepted 1
    { s1 with hostIf := { s1.hostIf with journal := s1.hostIf.journal ++ [e], wm := some (s1.hostIf.wm.getD (h.seq - 1)) } }

/-- A packet accepted: its journal entry, the interim reply, what acceptance does, and its start where it may start
(14 R414, R419, R424). -/
def State.accept (s : State) (h : Hdr) (op : HostOp) : State :=
  let s1 := s.journal h op
  let c : Cmd := { hdr := h, op := op }
  let s2 := { s1 with hostIf := { s1.hostIf with cmds := s1.hostIf.cmds ++ [c] } }
  let s3 := if h.early then s2.interim h else s2
  let s4 := s3.atAcceptance h op
  let s5 := if s4.hostIf.cmds.length = s2.hostIf.cmds.length then s4.startAt (s2.hostIf.cmds.length - 1) else s4
  s5.checkJournal

/-- A packet that was read: refused, answered as a duplicate, refused for its order, or accepted (14 R417, R425). -/
def State.receive (s : State) (h : Hdr) (op : HostOp) : State :=
  match headerRefusal h op with
  | some a => s.answer h a
  | none =>
    if h.seq = 0 then s.accept h op
    else match s.duplicate h with
      | some a => s.answer h a
      | none => if h.seq ≤ (s.ring h.ring).lastSeq then s.answer h (refuse stRefusedShape 0x0004) else s.accept h op

/-- Whether a header's opcode and a command's parameters can be one packet: the opcode is the command's, or none of R418,
whose packet is refused whatever its parameters are (00 R11; 14 R417; log 17). -/
def isPacket (h : Hdr) (op : HostOp) : Bool := decide (h.opcode = HostOp.opcode op) || !opcodeList.contains h.opcode

/-- A command packet at the head of its ring: Ivory reads it when it reads packets and the ring is the one it serves next; a
failed read of the slot stops the ring (14 R409, R411, R412, R424). -/
def State.submit (s : State) (h : Hdr) (op : HostOp) : State :=
  if s.reads && decide (s.nextRing = some h.ring) && isPacket h op then
    (if h.slotFail then s.stopRing h.ring 2 else (s.takePacket h.ring).receive h op)
  else s

/-! ### The commands -/

/-- `ECHO` (14 R418). -/
def execEcho (h : Hdr) (data : List Byte) (s : State) : Host.Outcome State Fault Refusal := .next (s.submit h (.echo data))

/-- `IDENTIFY` (14 R418, R420). -/
def execIdentify (h : Hdr) (s : State) : Host.Outcome State Fault Refusal := .next (s.submit h .identify)

/-- `ATTEST` (14 R418; 19 R520). -/
def execAttest (h : Hdr) (reqAddr reqLen : Nat) (req : SpdmReq) (s : State) : Host.Outcome State Fault Refusal :=
  .next (s.submit h (.attest reqAddr reqLen req))

/-- `LOAD_IMAGE` (14 R421; 15 R441). -/
def execLoadImage (h : Hdr) (addr len strict : Nat) (parts : ImageParts) (s : State) : Host.Outcome State Fault Refusal :=
  .next (s.submit h (.loadImage addr len strict parts))

/-- `BIND` (14 R421; 15 R444). -/
def execBind (h : Hdr) (ox oy oz sx sy sz epoch : Nat) (s : State) : Host.Outcome State Fault Refusal :=
  .next (s.submit h (.bind ox oy oz sx sy sz epoch))

/-- `UNLOAD` (14 R421). -/
def execUnload (h : Hdr) (s : State) : Host.Outcome State Fault Refusal := .next (s.submit h .unload)

/-- `RUN_STEPS` (14 R421). -/
def execRunSteps (h : Hdr) (count : Nat) (s : State) : Host.Outcome State Fault Refusal := .next (s.submit h (.runSteps count))

/-- `HALT_AT_STEP` (14 R421). -/
def execHaltAtStep (h : Hdr) (step : Nat) (s : State) : Host.Outcome State Fault Refusal :=
  .next (s.submit h (.haltAtStep step))

/-- `STEP_STATUS` (14 R421). -/
def execStepStatus (h : Hdr) (s : State) : Host.Outcome State Fault Refusal := .next (s.submit h .stepStatus)

/-- `CHECKPOINT` (14 R422). -/
def execCheckpoint (h : Hdr) (dest capacity : Nat) (s : State) : Host.Outcome State Fault Refusal :=
  .next (s.submit h (.checkpoint dest capacity))

/-- `RESTORE` (14 R423). -/
def execRestore (h : Hdr) (record epoch : Nat) (s : State) : Host.Outcome State Fault Refusal :=
  .next (s.submit h (.restore record epoch))

/-- `SOLVE` (14 R418; 08 R207). -/
def execSolve (h : Hdr) (desc : Nat) (s : State) : Host.Outcome State Fault Refusal := .next (s.submit h (.solve desc))

/-- `DYNAMICS` (14 R418; 09 R262). -/
def execDynamics (h : Hdr) (desc : Nat) (s : State) : Host.Outcome State Fault Refusal := .next (s.submit h (.dynamics desc))

/-- `GET_PARAM` (14 R427). -/
def execGetParam (h : Hdr) (n : Nat) (keys : List Nat) (s : State) : Host.Outcome State Fault Refusal :=
  .next (s.submit h (.getParam n keys))

/-- `SET_PARAM` (14 R427). -/
def execSetParam (h : Hdr) (n : Nat) (pairs : List (Nat × Nat)) (s : State) : Host.Outcome State Fault Refusal :=
  .next (s.submit h (.setParam n pairs))

/-- `MEM_COPY` (14 R418). -/
def execMemCopy (h : Hdr) (src dst len : Nat) (s : State) : Host.Outcome State Fault Refusal :=
  .next (s.submit h (.memCopy src dst len))

/-- `MEM_FILL` (14 R418). -/
def execMemFill (h : Hdr) (dst len pattern : Nat) (s : State) : Host.Outcome State Fault Refusal :=
  .next (s.submit h (.memFill dst len pattern))

/-- `TEST_TRAFFIC` (14 R418; 10 R305, R306). -/
def execTestTraffic (h : Hdr) (kind first count ctl base len seed passes : Nat) (s : State) :
    Host.Outcome State Fault Refusal :=
  .next (s.submit h (.testTraffic kind first count ctl base len seed passes))

/-- `PORT_CTL` action 0 (14 R428). -/
def execPortCtlEnable (h : Hdr) (port pattern rate : Nat) (s : State) : Host.Outcome State Fault Refusal :=
  .next (s.submit h (.portCtl port 0 pattern rate))

/-- `PORT_CTL` action 1 (14 R428). -/
def execPortCtlDisable (h : Hdr) (port pattern rate : Nat) (s : State) : Host.Outcome State Fault Refusal :=
  .next (s.submit h (.portCtl port 1 pattern rate))

/-- `PORT_CTL` action 2 (14 R428). -/
def execPortCtlRetrain (h : Hdr) (port pattern rate : Nat) (s : State) : Host.Outcome State Fault Refusal :=
  .next (s.submit h (.portCtl port 2 pattern rate))

/-- `PORT_CTL` action 3 (14 R428). -/
def execPortCtlLoopbackStart (h : Hdr) (port pattern rate : Nat) (s : State) : Host.Outcome State Fault Refusal :=
  .next (s.submit h (.portCtl port 3 pattern rate))

/-- `PORT_CTL` action 4 (14 R428). -/
def execPortCtlLoopbackStop (h : Hdr) (port pattern rate : Nat) (s : State) : Host.Outcome State Fault Refusal :=
  .next (s.submit h (.portCtl port 4 pattern rate))

/-- `PORT_CTL` action 5 (14 R428). -/
def execPortCtlTestStart (h : Hdr) (port pattern rate : Nat) (s : State) : Host.Outcome State Fault Refusal :=
  .next (s.submit h (.portCtl port 5 pattern rate))

/-- `PORT_CTL` action 6 (14 R428). -/
def execPortCtlTestStop (h : Hdr) (port pattern rate : Nat) (s : State) : Host.Outcome State Fault Refusal :=
  .next (s.submit h (.portCtl port 6 pattern rate))

/-- `PORT_CTL` action 7 (14 R428). -/
def execPortCtlReturnFromFailed (h : Hdr) (port pattern rate : Nat) (s : State) : Host.Outcome State Fault Refusal :=
  .next (s.submit h (.portCtl port 7 pattern rate))

/-- `POWER_CTL` action 0 (17 R483). -/
def execPowerCtlQuery (h : Hdr) (fn point : Nat) (s : State) : Host.Outcome State Fault Refusal :=
  .next (s.submit h (.powerCtl fn 0 point))

/-- `POWER_CTL` action 1 (17 R485). -/
def execPowerCtlDisable (h : Hdr) (fn point : Nat) (s : State) : Host.Outcome State Fault Refusal :=
  .next (s.submit h (.powerCtl fn 1 point))

/-- `POWER_CTL` action 2 (17 R485). -/
def execPowerCtlEnable (h : Hdr) (fn point : Nat) (s : State) : Host.Outcome State Fault Refusal :=
  .next (s.submit h (.powerCtl fn 2 point))

/-- `POWER_CTL` action 3 (17 R483). -/
def execPowerCtlSetPoint (h : Hdr) (fn point : Nat) (s : State) : Host.Outcome State Fault Refusal :=
  .next (s.submit h (.powerCtl fn 3 point))

/-- `POWER_CTL` function 14 with action 2 (17 R481). -/
def execPowerCtlSleep (h : Hdr) (point : Nat) (s : State) : Host.Outcome State Fault Refusal :=
  .next (s.submit h (.powerCtl 14 2 point))

/-- `RESET_FUNCTION` kind 0 (14 R428). -/
def execResetFunctionWarm (h : Hdr) (s : State) : Host.Outcome State Fault Refusal := .next (s.submit h (.resetFunction 0))

/-- `RESET_FUNCTION` kind 1 (14 R428). -/
def execAbandonJob (h : Hdr) (s : State) : Host.Outcome State Fault Refusal := .next (s.submit h (.resetFunction 1))

/-- `QUEUED_COMMAND_START`: an accepted command that waits starts, or one that has started goes on (14 R419 to R422). -/
def execQueuedCommandStart (index : Nat) (s : State) : Host.Outcome State Fault Refusal :=
  .next (if s.clk.phase = .run then s.startAt index else s)

end Sys2Proof.Machine
end

