-- ==== Sys2Proof/Machine/SlateMem.lean ====
section
/-! DEFINITION. Slate memory instructions and the end of a Slate budget (06 R161 to R168). -/

namespace Sys2Proof.Machine

/-- The element or record a memory instruction stops at: its index, the faulting address, the cause, and where the access
falls (06 R162, R166). -/
structure MemStop where
  elem : Nat
  addr : Nat
  cause : Nat
  pos : Nat := 0
deriving DecidableEq, Repr, Inhabited

/-- The byte ranges, first and next byte, of one slot of a token in a space: in the memory, or in unit `u`'s store. -/
def Placed.slotRanges (p : Placed) (u : Nat) (space slot : Bool) : List (Nat × Nat) :=
  if space then p.ranges slot
  else if p.home = 0 then
    let x := p.units.getD u {}
    let a := if slot then x.a1 else x.a0
    if x.len = 0 then [] else [(a, a + x.len)]
  else []

/-- The address at which a kernel's access falls: an address in either slot of a versioned token names the byte of the slot
in use, the active one for reads and the other for writes, so that a kernel reads every token from one slot (06 R166;
07 R188; log 28). -/
def State.inUse (s : State) (u : Nat) (space write : Bool) (a : Nat) : Nat :=
  match s.job.bound with
  | none => a
  | some b => (b.placed.findSome? (fun p =>
      if (s.tokDecl p.tok).versioned then
        ((p.slotRanges u space false).zip (p.slotRanges u space true)).findSome? (fun r =>
          let base := if s.slotOf p.tok write then r.2.1 else r.1.1
          if decide (r.1.1 ≤ a) && decide (a < r.1.2) then some (base + (a - r.1.1))
          else if decide (r.2.1 ≤ a) && decide (a < r.2.2) then some (base + (a - r.2.1))
          else none)
      else none)).getD a

/-- Whether bytes of a unit's tile store hold a bit that a poisoned line landed (10 R286). -/
def State.badBytes (s : State) (u a n : Nat) : Bool := !landedBytes (s.tile u).bad a n

/-- The cause an access of `n` bytes meets, in the order of the cause table. `pos` is where the access falls; a load meets
the data error of a poisoned line; `bad` says the environment reports an uncorrectable data error (06 R166; 10 R286;
log 34). -/
def State.memCause (s : State) (u : Nat) (space load : Bool) (entry n addr pos : Nat) (bad : Bool) : Option Nat :=
  if !space && decide (0x2FFFFF < addr) then some 0x01
  else if space && !s.inTokens entry addr n then some 0x02
  else if addr % n ≠ 0 then some 0x03
  else if bad || (load && (if space then s.poisoned pos n else s.badBytes u pos n)) then some 0x04
  else none

/-- The cause an element of `vlhost` meets (06 R166). -/
def hostCause (n addr : Nat) (bad : Bool) : Option Nat :=
  if addr % n ≠ 0 then some 0x03 else if bad then some 0x05 else none

/-- The accesses that commit, and the lowest faulting one (06 R162): an access is an element or record index and its
addresses. -/
def scanMem (cause : Nat → Nat → Option Nat) : List (Nat × List Nat) → List (Nat × List Nat) × Option MemStop
  | [] => ([], none)
  | (i, as) :: t =>
    match as.find? (fun a => (cause i a).isSome) with
    | some a => ([], some { elem := i, addr := a, cause := (cause i a).getD 0 })
    | none => let (d, st) := scanMem cause t; ((i, as) :: d, st)

/-- Bytes at an address of the space a memory instruction names. -/
def State.spaceRd (s : State) (u : Nat) (space : Bool) (a n : Nat) : Nat :=
  leNat (if space then s.dramRd a n else s.tileRd u a n)

/-- The state with bytes written in the space a memory instruction names; the kernel's stores are kept for what a fault
leaves of its tokens (20 R533). -/
def State.spaceWr (s : State) (u : Nat) (space : Bool) (a n v : Nat) : State :=
  let s1 := if space then s.dramWr a (toLe n v) else s.tileWr u a (toLe n v)
  let l := (s1.tile u).slate
  s1.setSlate u { l with stored := (space, a, n) :: l.stored }

/-- A Slate fault: the record, the end of the kernel, and the contained fault (06 R162, R166; 20 R531, R532). -/
def State.slateFault (s : State) (u : Nat) (st : MemStop) : State :=
  let l := (s.tile u).slate
  let op := (s.entryOf l.entry).opId
  let r : SlateFault := { addr := st.addr, opId := op, pc := l.pc, elem := st.elem, cause := st.cause, unit := u
                          step := s.job.step }
  (s.setSlate u { l with run := .faulted, fault := some r }).contained
    { addr := BitVec.ofNat 64 st.addr, opId := op, pc := l.pc, elem := st.elem, inst := u, sub := 0x03
      cause := st.cause }

/-- How a memory instruction ends: it falls through, or it faults (06 R162). An uncorrectable error met in the memory
space counts in its channel (10 R286). -/
def State.endMem (s : State) (u : Nat) (space : Bool) : Option MemStop → State
  | none => s.setSlate u (s.tile u).slate.next
  | some st =>
    let s1 := if space && decide (st.cause = 0x04) && !s.poisoned st.pos 1 then s.memUe st.pos else s
    s1.slateFault u st

/-- Distinct 64 B lines of some accesses of the memory space. -/
def accLines (d : List (Nat × List Nat)) : List Nat := ((d.flatMap (fun x => x.2)).map (fun a => a / 64 * 64)).eraseDups

/-- `sl_lines`: lines requested by indexed and strided accesses of the memory space (06 R169). -/
def State.countLines (s : State) (u : Nat) (space : Bool) (d : List (Nat × List Nat)) : State :=
  if space then s.count (kSlLines u) (accLines d).length else s

/-- The accesses of a memory instruction that commit, at the addresses at which they fall, and the element it stops at
(06 R162, R166). -/
def State.scanFor (s : State) (u : Nat) (o : MOps) (load write : Bool) (n e : Nat) (as : List (Nat × List Nat)) :
    List (Nat × List Nat) × Option MemStop :=
  let x := scanMem (fun i a => s.memCause u o.space load e n a (s.inUse u o.space write a) (o.ue == some i)) as
  (x.1.map (fun p => (p.1, p.2.map (s.inUse u o.space write))),
    x.2.map (fun st => { st with pos := s.inUse u o.space write st.addr }))

/-- Whether accesses can happen now: lines of the memory are ready, and a load waits for what streams of its entry have not
landed (10 R280, R297, R303). -/
def State.memReady (s : State) (u : Nat) (o : MOps) (load : Bool) (n e : Nat) (acc : List (Nat × List Nat)) : Bool :=
  if o.space then (accLines acc).all (s.lineReady u)
  else !load || acc.all (fun p => p.2.all (fun a => landedBytes (s.unlanded u e) a n))

/-- The cycles by which an access of the memory exceeds its `t_lat`: they do not count against the budget (06 R168,
R169). -/
def State.stallBy (s : State) (u : Nat) (o : MOps) : State :=
  if o.space then
    let l := (s.tile u).slate
    (s.setSlate u { l with stall := l.stall + o.late }).count (kSlMemStall u) o.late
  else s

/-- The requests of committed accesses of the memory, one for each line: class 0 for a load, class 2 for a store; the lines
a store covers whole are no longer poisoned (10 R286, R293). -/
def State.askMem (s : State) (u : Nat) (o : MOps) (write : Bool) (n : Nat) (acc : List (Nat × List Nat)) : State :=
  if o.space then
    let s1 := s.askLines u (if write then 2 else 0) (accLines acc)
    if write then s1.clearPoison ((acc.flatMap (fun p => p.2)).map (fun a => (a, a + n))) else s1
  else s

/-- A memory instruction: it acts while a kernel runs and a vtype is in force (06 R147, R149). -/
def State.memOp (s : State) (u : Nat) (f : VType → Slate → State) : State :=
  if s.laneRuns u then
    match (s.tile u).slate.vtype with
    | none => s
    | some t => f t (s.tile u).slate
  else s

/-- Element addresses are 64-bit values (06 R161, R166; log 34). -/
def wrapAddr (a : Int) : Nat := (a % ((2 ^ 64 : Nat) : Int)).toNat

/-- Addresses of a unit-stride access with `f` fields per record (06 R161). -/
def unitAddrs (l : Slate) (o : MOps) (n f : Nat) : List (Nat × List Nat) :=
  (l.actives o.mu o.msk).map (fun i =>
    (i, (List.range f).map (fun t => wrapAddr (((l.xreg o.a).toNat + (f * i + t) * n : Nat) : Int))))

/-- Addresses of a strided access: stride in `sb` bytes, signed (06 R153). -/
def strideAddrs (l : Slate) (o : MOps) : List (Nat × List Nat) :=
  (l.actives o.mu o.msk).map (fun i =>
    (i, [wrapAddr (((l.xreg o.a).toNat : Int) + (i : Int) * (l.xreg o.b).toInt)]))

/-- Addresses of an indexed access: `sa` + idx·ew/8, idx a signed INT32 or INT16 (06 R153). -/
def indexAddrs (l : Slate) (o : MOps) (n : Nat) : List (Nat × List Nat) :=
  let w := if o.idx16 then 16 else 32
  (l.actives o.mu o.msk).map (fun i =>
    (i, [wrapAddr (((l.xreg o.a).toNat : Int) + signed w (l.elem o.b w i) * (n : Int))]))

/-- The registers after a load of the committed accesses: field t of an access goes to group `vd` + t·g (06 R161). -/
def loadAll (rd : Nat → Nat) (t : VType) (d : Nat) (l : Slate) (acc : List (Nat × List Nat)) : Slate :=
  acc.foldl (fun x p =>
    (p.2.zip (List.range p.2.length)).foldl (fun y q => y.setElem (d + q.2 * t.g) (Fmt.bits t.fmt) p.1 (rd q.1)) x) l

/-- The memories after a store of the committed accesses, in ascending index (06 R161, R164). -/
def State.storeAll (s : State) (u : Nat) (space : Bool) (t : VType) (d : Nat) (l : Slate)
    (acc : List (Nat × List Nat)) : State :=
  acc.foldl (fun x p =>
    (p.2.zip (List.range p.2.length)).foldl (fun y q =>
      y.spaceWr u space q.1 (Fmt.bits t.fmt / 8) (l.elem (d + q.2 * t.g) (Fmt.bits t.fmt) p.1)) x) s

/-- A memory instruction that loads or stores: when its accesses can happen, the committed ones take effect and are
requested, the stall counts, and the instruction ends (06 R161, R162, R168). -/
def State.moveOp (s : State) (u : Nat) (o : MOps) (load write counted : Bool)
    (addrs : VType → Slate → List (Nat × List Nat)) (f : VType → Slate → List (Nat × List Nat) → State) : State :=
  s.memOp u (fun t l =>
    let n := Fmt.bits t.fmt / 8
    let (acc, st) := s.scanFor u o load write n l.entry (addrs t l)
    if s.memReady u o load n l.entry acc then
      let s1 := (f t l acc).askMem u o write n acc
      ((if counted then s1.countLines u o.space acc else s1).stallBy u o).endMem u o.space st
    else s)

/-- A load: the committed elements enter the registers (06 R161, R162). -/
def State.loadOp (s : State) (u : Nat) (o : MOps) (counted : Bool) (addrs : VType → Slate → List (Nat × List Nat)) :
    State :=
  s.moveOp u o true false counted addrs (fun t l acc =>
    s.setSlate u (loadAll (fun a => s.spaceRd u o.space a (Fmt.bits t.fmt / 8)) t o.d l acc))

/-- A store (06 R161, R162). -/
def State.storeOp (s : State) (u : Nat) (o : MOps) (counted : Bool) (addrs : VType → Slate → List (Nat × List Nat)) :
    State :=
  s.moveOp u o false true counted addrs (fun t l acc => s.storeAll u o.space t o.d l acc)

/-- `vl` (06 R153, R161). -/
def execVl (unit : Nat) (o : MOps) (s : State) : Host.Outcome State Fault Refusal :=
  .next (s.loadOp unit o false (fun t l => unitAddrs l o (Fmt.bits t.fmt / 8) 1))

/-- `vs` (06 R153, R161). -/
def execVs (unit : Nat) (o : MOps) (s : State) : Host.Outcome State Fault Refusal :=
  .next (s.storeOp unit o false (fun t l => unitAddrs l o (Fmt.bits t.fmt / 8) 1))

/-- `vls` (06 R153). -/
def execVls (unit : Nat) (o : MOps) (s : State) : Host.Outcome State Fault Refusal :=
  .next (s.loadOp unit o true (fun _ l => strideAddrs l o))

/-- `vss` (06 R153). -/
def execVss (unit : Nat) (o : MOps) (s : State) : Host.Outcome State Fault Refusal :=
  .next (s.storeOp unit o true (fun _ l => strideAddrs l o))

/-- `vlseg` (06 R153, R161). -/
def execVlseg (unit : Nat) (o : MOps) (fields : Nat) (s : State) : Host.Outcome State Fault Refusal :=
  .next (s.loadOp unit o false (fun t l => unitAddrs l o (Fmt.bits t.fmt / 8) fields))

/-- `vsseg` (06 R153, R161). -/
def execVsseg (unit : Nat) (o : MOps) (fields : Nat) (s : State) : Host.Outcome State Fault Refusal :=
  .next (s.storeOp unit o false (fun t l => unitAddrs l o (Fmt.bits t.fmt / 8) fields))

/-- `vlx` (06 R153, R162). -/
def execVlx (unit : Nat) (o : MOps) (s : State) : Host.Outcome State Fault Refusal :=
  .next (s.loadOp unit o true (fun t l => indexAddrs l o (Fmt.bits t.fmt / 8)))

/-- The result mask of `vlxs`: 1 for the active elements below the stop, 0 for the others below vl (06 R163). -/
def Slate.resultMask (l : Slate) (mres : Nat) (acc : List (Nat × List Nat)) : Slate :=
  (List.range l.vl).foldl (fun x i => x.setMbit mres i (acc.any (fun p => decide (p.1 = i)))) l

/-- `vlxs`: an address fault masks the elements from it on; a data error is fatal (06 R163, R166). -/
def execVlxs (unit : Nat) (o : MOps) (mres : Nat) (s : State) : Host.Outcome State Fault Refusal :=
  .next (s.memOp unit (fun t l =>
    let n := Fmt.bits t.fmt / 8
    let (acc, st) := s.scanFor unit o true false n l.entry (indexAddrs l o n)
    let l1 := loadAll (fun a => s.spaceRd unit o.space a n) t o.d l acc
    let after (x : Slate) : State := (((s.setSlate unit x).askMem unit o false n acc).countLines unit o.space acc).stallBy unit o
    if s.memReady unit o true n l.entry acc then
      match st with
      | some ⟨_, _, 0x04, _⟩ => (after l1).endMem unit o.space st
      | st =>
        let s1 := after (l1.resultMask mres acc)
        (if st.isSome then s1.count (kSlSpecMasked unit) 1 else s1).endMem unit o.space none
    else s))

/-- `vsx`: in ascending index, so the highest index wins (06 R164). -/
def execVsx (unit : Nat) (o : MOps) (s : State) : Host.Outcome State Fault Refusal :=
  .next (s.storeOp unit o true (fun t l => indexAddrs l o (Fmt.bits t.fmt / 8)))

/-- One scatter-add: integers wrap, floating formats round once (06 R153, R164). -/
def scatterAdd (f : Fmt) (old v : Nat) : Nat × Ev :=
  if Fmt.isInt f then ((old + v) % 2 ^ Fmt.bits f, {}) else laneFp f (fun F xs => fAdd F .tiesToEven (xs.getD 0 0) (xs.getD 1 0)) [old, v]

/-- Scatter-adds of the committed accesses in a given order (06 R164). -/
def State.addAll (s : State) (u : Nat) (o : MOps) (t : VType) (l : Slate) (acc : List (Nat × List Nat)) : State :=
  acc.foldl (fun x p =>
    let a := p.2.headD 0
    let n := Fmt.bits t.fmt / 8
    let (c, ev) := scatterAdd t.fmt (x.spaceRd u o.space a n) (l.elem o.d (Fmt.bits t.fmt) p.1)
    (x.spaceWr u o.space a n c).raise u (x.declOf l.entry) ev) s

/-- The accesses in order of arrival: those `order` names first, then the rest (06 R164). -/
def arrival (order : List Nat) (acc : List (Nat × List Nat)) : List (Nat × List Nat) :=
  let named := order.eraseDups.filterMap (fun i => acc.find? (fun p => decide (p.1 = i)))
  named ++ acc.filter (fun p => !order.contains p.1)

/-- A scatter-add instruction: it reads and writes the slot that writes use (06 R162, R164). -/
def State.scatterAddOp (s : State) (u : Nat) (o : MOps) (order : List Nat) : State :=
  s.moveOp u o true true true (fun t l => indexAddrs l o (Fmt.bits t.fmt / 8))
    (fun t l acc => s.addAll u o t l (arrival order acc))

/-- `vsxadd`: in ascending index (06 R164). -/
def execVsxadd (unit : Nat) (o : MOps) (s : State) : Host.Outcome State Fault Refusal :=
  .next (s.scatterAddOp unit o [])

/-- `vsxadda`: in the order of arrival at the bank or slice (06 R164). -/
def execVsxadda (unit : Nat) (o : MOps) (order : List Nat) (s : State) : Host.Outcome State Fault Refusal :=
  .next (s.scatterAddOp unit o order)

/-- `vlhost`: a unit-stride load from host memory; the address is a host physical address (06 R153, R166; log 34). -/
def execVlhost (unit : Nat) (o : MOps) (s : State) : Host.Outcome State Fault Refusal :=
  .next (s.memOp unit (fun t l =>
    let n := Fmt.bits t.fmt / 8
    let (acc, st) := scanMem (fun i a => hostCause n a (o.ue == some i)) (unitAddrs l o n 1)
    (s.setSlate unit (loadAll (fun a => leNat (s.hostRd (a % 2 ^ 52) n)) t o.d l acc)).endMem unit false st))

/-- The end of a Slate budget: when it has come, a kernel still running stops with cause 0x06, and the step is contained
(06 R168). -/
def execSlateBudgetEnd (unit : Nat) (s : State) : Host.Outcome State Fault Refusal :=
  .next (if (s.tile unit).slate.run = .running ∧ s.budgetOver unit then
      s.slateFault unit { elem := 0, addr := 0, cause := 0x06 }
    else s)

end Sys2Proof.Machine
end

