-- ==== Sys2Proof/Machine/Dispatch.lean ====
section
/-! DEFINITION. The meaning of every command: one arm per constructor, each one direct call of its meaning. -/

namespace Sys2Proof.Machine

/-- The effect of a command on everything but the queue (00 R1): each arm names the command's own meaning. -/
def exec (i : Instr) (s : State) : Host.Outcome State Fault Refusal :=
  match i with
  | .echo h data => Sys2Proof.Machine.execEcho h data s
  | .identify h => Sys2Proof.Machine.execIdentify h s
  | .attest h reqAddr reqLen req => Sys2Proof.Machine.execAttest h reqAddr reqLen req s
  | .loadImage h addr len strict parts => Sys2Proof.Machine.execLoadImage h addr len strict parts s
  | .bind h ox oy oz sx sy sz epoch => Sys2Proof.Machine.execBind h ox oy oz sx sy sz epoch s
  | .unload h => Sys2Proof.Machine.execUnload h s
  | .runSteps h count => Sys2Proof.Machine.execRunSteps h count s
  | .haltAtStep h step => Sys2Proof.Machine.execHaltAtStep h step s
  | .stepStatus h => Sys2Proof.Machine.execStepStatus h s
  | .checkpoint h dest capacity => Sys2Proof.Machine.execCheckpoint h dest capacity s
  | .restore h record epoch => Sys2Proof.Machine.execRestore h record epoch s
  | .solve h desc => Sys2Proof.Machine.execSolve h desc s
  | .dynamics h desc => Sys2Proof.Machine.execDynamics h desc s
  | .getParam h n keys => Sys2Proof.Machine.execGetParam h n keys s
  | .setParam h n pairs => Sys2Proof.Machine.execSetParam h n pairs s
  | .memCopy h src dst len => Sys2Proof.Machine.execMemCopy h src dst len s
  | .memFill h dst len pattern => Sys2Proof.Machine.execMemFill h dst len pattern s
  | .testTraffic h kind first count ctl base len seed passes => Sys2Proof.Machine.execTestTraffic h kind first count ctl base len seed passes s
  | .portCtlEnable h port pattern rate => Sys2Proof.Machine.execPortCtlEnable h port pattern rate s
  | .portCtlDisable h port pattern rate => Sys2Proof.Machine.execPortCtlDisable h port pattern rate s
  | .portCtlRetrain h port pattern rate => Sys2Proof.Machine.execPortCtlRetrain h port pattern rate s
  | .portCtlLoopbackStart h port pattern rate => Sys2Proof.Machine.execPortCtlLoopbackStart h port pattern rate s
  | .portCtlLoopbackStop h port pattern rate => Sys2Proof.Machine.execPortCtlLoopbackStop h port pattern rate s
  | .portCtlTestStart h port pattern rate => Sys2Proof.Machine.execPortCtlTestStart h port pattern rate s
  | .portCtlTestStop h port pattern rate => Sys2Proof.Machine.execPortCtlTestStop h port pattern rate s
  | .portCtlReturnFromFailed h port pattern rate => Sys2Proof.Machine.execPortCtlReturnFromFailed h port pattern rate s
  | .powerCtlQuery h fn point => Sys2Proof.Machine.execPowerCtlQuery h fn point s
  | .powerCtlDisable h fn point => Sys2Proof.Machine.execPowerCtlDisable h fn point s
  | .powerCtlEnable h fn point => Sys2Proof.Machine.execPowerCtlEnable h fn point s
  | .powerCtlSetPoint h fn point => Sys2Proof.Machine.execPowerCtlSetPoint h fn point s
  | .powerCtlSleep h point => Sys2Proof.Machine.execPowerCtlSleep h point s
  | .resetFunctionWarm h => Sys2Proof.Machine.execResetFunctionWarm h s
  | .abandonJob h => Sys2Proof.Machine.execAbandonJob h s
  | .queuedCommandStart index => Sys2Proof.Machine.execQueuedCommandStart index s
  | .ringEnable ring value => Sys2Proof.Machine.execRingEnable ring value s
  | .ringDisable ring value => Sys2Proof.Machine.execRingDisable ring value s
  | .registerWrite target => Sys2Proof.Machine.execRegisterWrite target s
  | .ringLineSnoop ring cmdProd cplCons => Sys2Proof.Machine.execRingLineSnoop ring cmdProd cplCons s
  | .ringPoll lines => Sys2Proof.Machine.execRingPoll lines s
  | .journalResume => Sys2Proof.Machine.execJournalResume s
  | .replyPost post => Sys2Proof.Machine.execReplyPost post s
  | .cxlMemAccess req => Sys2Proof.Machine.execCxlMemAccess req s
  | .stepStart => Sys2Proof.Machine.execStepStart s
  | .entryStart entry => Sys2Proof.Machine.execEntryStart entry s
  | .entryEnd entry waits => Sys2Proof.Machine.execEntryEnd entry waits s
  | .stepBoundary info => Sys2Proof.Machine.execStepBoundary info s
  | .opChangeDone => Sys2Proof.Machine.execOpChangeDone s
  | .idleBoundary info => Sys2Proof.Machine.execIdleBoundary info s
  | .verdictContribution => Sys2Proof.Machine.execVerdictContribution s
  | .verdictMessage msg head => Sys2Proof.Machine.execVerdictMessage msg head s
  | .productOutputTile unit entry ti tj ue => Sys2Proof.Machine.execProductOutputTile unit entry ti tj ue s
  | .swatchRecompute unit entry ti tj => Sys2Proof.Machine.execSwatchRecompute unit entry ti tj s
  | .chainElementPass unit entry pass iota ue => Sys2Proof.Machine.execChainElementPass unit entry pass iota ue s
  | .rowProgram unit entry row => Sys2Proof.Machine.execRowProgram unit entry row s
  | .splitRowCombine unit entry row => Sys2Proof.Machine.execSplitRowCombine unit entry row s
  | .setvl unit d a fmt lg => Sys2Proof.Machine.execSetvl unit d a fmt lg s
  | .sli unit d imm => Sys2Proof.Machine.execSli unit d imm s
  | .slui unit d imm => Sys2Proof.Machine.execSlui unit d imm s
  | .salu unit d a b op => Sys2Proof.Machine.execSalu unit d a b op s
  | .sbnz unit a off => Sys2Proof.Machine.execSbnz unit a off s
  | .send unit => Sys2Proof.Machine.execSend unit s
  | .scsr unit d stepNo => Sys2Proof.Machine.execScsr unit d stepNo s
  | .srdtime unit d => Sys2Proof.Machine.execSrdtime unit d s
  | .vi unit o op => Sys2Proof.Machine.execVi unit o op s
  | .vf unit o rm op => Sys2Proof.Machine.execVf unit o rm op s
  | .vfma unit o rm op => Sys2Proof.Machine.execVfma unit o rm op s
  | .vcmp unit o c => Sys2Proof.Machine.execVcmp unit o c s
  | .vsel unit o => Sys2Proof.Machine.execVsel unit o s
  | .vmlog unit o table => Sys2Proof.Machine.execVmlog unit o table s
  | .vwmul unit o rm acc => Sys2Proof.Machine.execVwmul unit o rm acc s
  | .vdot unit o rm four => Sys2Proof.Machine.execVdot unit o rm four s
  | .vcvt unit o cvt dst => Sys2Proof.Machine.execVcvt unit o cvt dst s
  | .vred unit o op => Sys2Proof.Machine.execVred unit o op s
  | .vmaxi unit o => Sys2Proof.Machine.execVmaxi unit o s
  | .vperm unit o op => Sys2Proof.Machine.execVperm unit o op s
  | .vmcnt unit o first => Sys2Proof.Machine.execVmcnt unit o first s
  | .vl unit o => Sys2Proof.Machine.execVl unit o s
  | .vs unit o => Sys2Proof.Machine.execVs unit o s
  | .vls unit o => Sys2Proof.Machine.execVls unit o s
  | .vss unit o => Sys2Proof.Machine.execVss unit o s
  | .vlseg unit o fields => Sys2Proof.Machine.execVlseg unit o fields s
  | .vsseg unit o fields => Sys2Proof.Machine.execVsseg unit o fields s
  | .vlx unit o => Sys2Proof.Machine.execVlx unit o s
  | .vlxs unit o mres => Sys2Proof.Machine.execVlxs unit o mres s
  | .vsx unit o => Sys2Proof.Machine.execVsx unit o s
  | .vsxadd unit o => Sys2Proof.Machine.execVsxadd unit o s
  | .vsxadda unit o order => Sys2Proof.Machine.execVsxadda unit o order s
  | .vlhost unit o => Sys2Proof.Machine.execVlhost unit o s
  | .slateBudgetEnd unit => Sys2Proof.Machine.execSlateBudgetEnd unit s
  | .umberSIteration field => Sys2Proof.Machine.execUmberSIteration field s
  | .umberSPrepass field => Sys2Proof.Machine.execUmberSPrepass field s
  | .umberJGroup field ue => Sys2Proof.Machine.execUmberJGroup field ue s
  | .memoryRequest req => Sys2Proof.Machine.execMemoryRequest req s
  | .arbiterDecision port => Sys2Proof.Machine.execArbiterDecision port s
  | .streamLineRequest unit slot => Sys2Proof.Machine.execStreamLineRequest unit slot s
  | .streamLineLanded unit slot line ue => Sys2Proof.Machine.execStreamLineLanded unit slot line ue s
  | .writeStreamAccepted unit slot => Sys2Proof.Machine.execWriteStreamAccepted unit slot s
  | .streamCancel unit slot => Sys2Proof.Machine.execStreamCancel unit slot s
  | .refresh chan => Sys2Proof.Machine.execRefresh chan s
  | .forcedRefresh chan => Sys2Proof.Machine.execForcedRefresh chan s
  | .unscheduledRetraining chan => Sys2Proof.Machine.execUnscheduledRetraining chan s
  | .unfence chan => Sys2Proof.Machine.execUnfence chan s
  | .channelFailed chan => Sys2Proof.Machine.execChannelFailed chan s
  | .tgStart chan => Sys2Proof.Machine.execTgStart chan s
  | .tgStop chan => Sys2Proof.Machine.execTgStop chan s
  | .tgLine chan ecc => Sys2Proof.Machine.execTgLine chan ecc s
  | .roundStart ctx => Sys2Proof.Machine.execRoundStart ctx s
  | .messageSend ctx peer => Sys2Proof.Machine.execMessageSend ctx peer s
  | .messageReceived msg => Sys2Proof.Machine.execMessageReceived msg s
  | .acknowledgement ctx peer seq segment => Sys2Proof.Machine.execAcknowledgement ctx peer seq segment s
  | .ackTimeout ctx peer segment => Sys2Proof.Machine.execAckTimeout ctx peer segment s
  | .peerReplay x y z => Sys2Proof.Machine.execPeerReplay x y z s
  | .accumulateAddPass ctx => Sys2Proof.Machine.execAccumulateAddPass ctx s
  | .flitSlot port => Sys2Proof.Machine.execFlitSlot port s
  | .syncFlitSend port => Sys2Proof.Machine.execSyncFlitSend port s
  | .codewordReceived port corrected uncorrectable => Sys2Proof.Machine.execCodewordReceived port corrected uncorrectable s
  | .flitRelease port => Sys2Proof.Machine.execFlitRelease port s
  | .flitReceived port flit => Sys2Proof.Machine.execFlitReceived port flit s
  | .nakRepeat port => Sys2Proof.Machine.execNakRepeat port s
  | .replay port => Sys2Proof.Machine.execReplay port s
  | .pmdTrainDone port => Sys2Proof.Machine.execPmdTrainDone port s
  | .blockLockDone port reversed inverted => Sys2Proof.Machine.execBlockLockDone port reversed inverted s
  | .identityRecord port rec => Sys2Proof.Machine.execIdentityRecord port rec s
  | .alignProbe port carried => Sys2Proof.Machine.execAlignProbe port carried s
  | .alignMaxima port partner => Sys2Proof.Machine.execAlignMaxima port partner s
  | .alignConfirm port lat => Sys2Proof.Machine.execAlignConfirm port lat s
  | .alignCheckDone port ok => Sys2Proof.Machine.execAlignCheckDone port ok s
  | .portStateTimeout port => Sys2Proof.Machine.execPortStateTimeout port s
  | .lossOfSignal port lane => Sys2Proof.Machine.execLossOfSignal port lane s
  | .portFailed port => Sys2Proof.Machine.execPortFailed port s
  | .retireRecordReceived port => Sys2Proof.Machine.execRetireRecordReceived port s
  | .switchIn y z slot mapGen => Sys2Proof.Machine.execSwitchIn y z slot mapGen s
  | .syncWordReceived port word arrival => Sys2Proof.Machine.execSyncWordReceived port word arrival s
  | .cobaltCorrection => Sys2Proof.Machine.execCobaltCorrection s
  | .cobaltHoldover => Sys2Proof.Machine.execCobaltHoldover s
  | .syncPpsEdge validated => Sys2Proof.Machine.execSyncPpsEdge validated s
  | .railGood rail => Sys2Proof.Machine.execRailGood rail s
  | .railLost rail => Sys2Proof.Machine.execRailLost rail s
  | .powerOnReset => Sys2Proof.Machine.execPowerOnReset s
  | .warmReset cause => Sys2Proof.Machine.execWarmReset cause s
  | .ashPllLock => Sys2Proof.Machine.execAshPllLock s
  | .ashResetRelease => Sys2Proof.Machine.execAshResetRelease s
  | .bootRomVerify flash => Sys2Proof.Machine.execBootRomVerify flash s
  | .fastRailsReady => Sys2Proof.Machine.execFastRailsReady s
  | .corePllLock => Sys2Proof.Machine.execCorePllLock s
  | .ivorySelfTestDone badTile => Sys2Proof.Machine.execIvorySelfTestDone badTile s
  | .memoryTrainingDone densities failed => Sys2Proof.Machine.execMemoryTrainingDone densities failed s
  | .bootLimitExceeded => Sys2Proof.Machine.execBootLimitExceeded s
  | .sleepEntry => Sys2Proof.Machine.execSleepEntry s
  | .wakeInput pin => Sys2Proof.Machine.execWakeInput pin s
  | .functionPowerUpDone fn => Sys2Proof.Machine.execFunctionPowerUpDone fn s
  | .functionShutdownDone fn => Sys2Proof.Machine.execFunctionShutdownDone fn s
  | .thermalTrip readings => Sys2Proof.Machine.execThermalTrip readings s
  | .tripClear readings => Sys2Proof.Machine.execTripClear readings s
  | .throttleN low => Sys2Proof.Machine.execThrottleN low s
  | .faultN => Sys2Proof.Machine.execFaultN s
  | .eventWindowEnd pin level => Sys2Proof.Machine.execEventWindowEnd pin level s
  | .stuck pin => Sys2Proof.Machine.execStuck pin s
  | .stuckRecheck active => Sys2Proof.Machine.execStuckRecheck active s
  | .ivoryLockstepMismatch => Sys2Proof.Machine.execIvoryLockstepMismatch s
  | .entdaa address => Sys2Proof.Machine.execEntdaa address s
  | .getVersion => Sys2Proof.Machine.execGetVersion s
  | .getCapabilities => Sys2Proof.Machine.execGetCapabilities s
  | .negotiateAlgorithms offersAll => Sys2Proof.Machine.execNegotiateAlgorithms offersAll s
  | .getDigests => Sys2Proof.Machine.execGetDigests s
  | .getCertificate slot offset len => Sys2Proof.Machine.execGetCertificate slot offset len s
  | .challenge slot nonce => Sys2Proof.Machine.execChallenge slot nonce s
  | .getMeasurements index sign nonce => Sys2Proof.Machine.execGetMeasurements index sign nonce s
  | .keyExchange exchange => Sys2Proof.Machine.execKeyExchange exchange s
  | .finish session verifies => Sys2Proof.Machine.execFinish session verifies s
  | .heartbeat session => Sys2Proof.Machine.execHeartbeat session s
  | .keyUpdate session => Sys2Proof.Machine.execKeyUpdate session s
  | .endSession session => Sys2Proof.Machine.execEndSession session s
  | .unsupportedRequest code => Sys2Proof.Machine.execUnsupportedRequest code s
  | .ownerProvisioning msg => Sys2Proof.Machine.execOwnerProvisioning msg s
  | .debugToken tok => Sys2Proof.Machine.execDebugToken tok s
  | .pldmDiscovery => Sys2Proof.Machine.execPldmDiscovery s
  | .pldmSensorReading id => Sys2Proof.Machine.execPldmSensorReading id s
  | .pollForPlatformEventMessage => Sys2Proof.Machine.execPollForPlatformEventMessage s
  | .requestUpdate => Sys2Proof.Machine.execRequestUpdate s
  | .componentTransfer component content => Sys2Proof.Machine.execComponentTransfer component content s
  | .activateFirmware => Sys2Proof.Machine.execActivateFirmware s
  | .lossOfLock port => Sys2Proof.Machine.execLossOfLock port s
  | .strapClockEdge bit merged => Sys2Proof.Machine.execStrapClockEdge bit merged s
  | .configurationRequest => Sys2Proof.Machine.execConfigurationRequest s
  | .cxlLinkTrained lanes rate => Sys2Proof.Machine.execCxlLinkTrained lanes rate s
  | .endpointId id => Sys2Proof.Machine.execEndpointId id s

end Sys2Proof.Machine
end

