-- ==== Sys2Proof/Machine/Tick.lean ====
section
/-! DEFINITION. The passing of time: what one step on an empty queue does (log 22). -/

namespace Sys2Proof.Machine

/-- The core clock's frequency in Hz at a cycle: with `ssc_en` it is spread down by a triangular profile of the Cobalt time,
of period 2^16 cycles (17 R471). -/
def State.coreHz (s : State) : Rat :=
  let t := s.now % 65536
  let tri : Rat := if t < 32768 then (2 * t : Nat) / 65536 else 2 - (2 * t : Nat) / 65536
  if s.kvNat kSscEn = 1 then 1800000000 * (1 - 3 / 1000 * tri) else 1800000000

/-- One core clock tick: Cobalt advances by 18 per tick while Ash drives it (before the core PLL locks) and by 1 after;
it stands while Ash is in reset. A change of operating point that takes no time comes in force at its moment (13 R393,
17 R472, R476; log 22). -/
def clockTick (s : State) : State :=
  if s.clk.ashOut then
    { s with clk := { s.clk with cobalt := s.clk.cobalt + (if s.clk.corePll then 1 else 18) } }.settlePoint
  else s

end Sys2Proof.Machine
end

