-- ==== Sys2Proof/Safety.lean ====
section
/-! DEFINITION. What counts as a well-formed state, and the terms the statements use: the state in which a host command's own
effect begins, a packet that is served at once, and what a reply does. -/

namespace Sys2Proof.Machine

/-! ### Well-formed states -/

/-- Every memory is in canonical form. -/
def State.memOk (s : State) : Bool := s.mem.dram.wf && s.mem.tile.all (fun p => p.2.wf) && s.mem.host.wf

/-- The parts whose number the package fixes: 16 rings (14 R406), 15 functions (17 R483), 6 Shade inputs (18 R493),
4 Umber engines (08 R203), 8 ports (12 R340). -/
def State.partsOk (s : State) : Bool :=
  decide (s.hostIf.rings.length = 16) && decide (s.pwr.fns.length = 15) && decide (s.pins.inp.length = 6) &&
  decide (s.engines.length = 4) && decide (s.ports.length = 8)

/-- The well-formed states: the package's parts, and memories in canonical form. -/
def State.ok (s : State) : Bool := s.partsOk && s.memOk

/-! ### Host commands (14 R409 to R426) -/

/-- The state in which Ivory accepts a packet: taken from its slot, journaled when it is sequenced, and last in the list of
accepted commands (14 R414, R419, R424). -/
def State.listed (s : State) (h : Hdr) (op : HostOp) : State :=
  let s1 := (s.takePacket h.ring).journal h op
  let c : Cmd := { hdr := h, op := op }
  { s1 with hostIf := { s1.hostIf with cmds := s1.hostIf.cmds ++ [c] } }

/-- The state once a packet is accepted, and what acceptance itself does done (14 R429; 15 R442, R446). -/
def State.accepted (s : State) (h : Hdr) (op : HostOp) : State := (s.listed h op).atAcceptance h op

/-- The command as acceptance leaves it in the list: with what Ivory read and analysed of a `SOLVE` or `DYNAMICS` (09 R244; 15
R446). -/
def State.kept (s : State) (h : Hdr) (op : HostOp) : Cmd :=
  let c : Cmd := { hdr := h, op := op }
  match op with
  | .solve a => { c with solve := ((s.listed h op).checkSolve h.prof a).toOption }
  | .dynamics a => { c with dyn := ((s.listed h op).checkDyn a).toOption }
  | _ => c

/-- The state in which the own effect of a packet that starts at once begins: accepted, and started behind the commands
accepted before it (14 R419). -/
def State.begun (s : State) (h : Hdr) (op : HostOp) : State :=
  let s1 := s.accepted h op
  { s1 with hostIf := { s1.hostIf with cmds := s.hostIf.cmds ++ [{ s.kept h op with started := true }] } }

/-- A packet that is accepted: Ivory reads packets, the ring is the one it serves next, its slot is read, and no check of
the header or of the order refuses the packet (14 R409, R411, R417, R425). -/
structure Accepted (s : State) (h : Hdr) (op : HostOp) : Prop where
  reads : s.reads = true
  turn : s.nextRing = some h.ring
  slot : h.slotFail = false
  header : headerRefusal h op = none
  order : h.seq = 0 ∨ (s.duplicate h = none ∧ (s.ring h.ring).lastSeq < h.seq)

/-- A packet served at once: it is accepted, asks for no interim reply, is not ended by acceptance itself, may start, and
neither a field nor the result length nor the profile refuses it (14 R415, R417, R419, R429). -/
structure Served (s : State) (h : Hdr) (op : HostOp) : Prop extends Accepted s h op where
  early : h.early = false
  stays : (s.accepted h op).hostIf.cmds = s.hostIf.cmds ++ [s.kept h op]
  may : mayStart (s.hostIf.cmds ++ [s.kept h op]) s.hostIf.cmds.length (s.kept h op) = true
  fields : HostOp.badField op = false
  room : (s.begun h op).resultRefusal h (HostOp.resultLen op + HostOp.recordLen op h) = none
  named : HostOp.usesProf op = false ∨ (s.begun h op).profNamed h.prof = true

/-- Whether the `RWL` keys are locked for a packet that is served: an image is loaded, or a `LOAD_IMAGE` accepted earlier
waits (00 R7; 14 R427; 15 R442). -/
def State.lockedFor (s : State) (h : Hdr) (op : HostOp) : Bool :=
  (s.accepted h op).job.img.isSome || s.hostIf.cmds.any (fun d => HostOp.isLoad d.op)

/-- The state after a command's answer: it retires (14 R426), and the journal's room is checked (14 R424). -/
def State.answered (s : State) (h : Hdr) (a : Answer) : State := (s.retire h a).checkJournal

/-! ### A warm reset (17 R480) -/

/-- What a warm reset leaves: nothing runs, no command waits, the links are down, the fast domains are off and what HBM4 and the
tile stores held is undefined anew; Cobalt time, the journal, W, host memory and LPDDR5X stay, and the start-up resumes at the
verification row (10 R310; 14 R424, R428; 17 R480). -/
structure Restarted (s t : State) : Prop where
  boot : t.clk.phase = .boot ∧ t.clk.row = .verify ∧ t.clk.cold = false ∧ t.clk.corePll = false
  time : t.clk.cobalt = s.clk.cobalt
  attachment : t.hostIf.ready = false ∧ t.hostIf.inReset = true ∧ t.hostIf.cxlUp = false ∧ t.hostIf.cmds = []
  journal : t.hostIf.journal = s.hostIf.journal ∧ t.hostIf.wm = s.hostIf.wm
  job : t.job.img = none ∧ t.job.bound = none ∧ t.exch.ctxs = []
  power : t.pwr.regs = false ∧ t.pwr.clamps = true ∧ t.pwr.lpSelfRefresh = true ∧ t.pwr.sleepAt = none
  tiles : ∀ u, u < 224 → t.tile u = {} ∧ ∃ g, s.mem.memGen < g ∧ t.tileMem u = freshTile u g
  hbm : ∃ g, s.mem.memGen < g ∧ ∀ a, a < 2 ^ 40 → t.mem.dram.read a = Config.freeByte g a
  rest : t.mem.host = s.mem.host ∧ ∀ a, 2 ^ 40 ≤ a → t.mem.dram.read a = s.mem.dram.read a

/-! ### The arrays and the chain (04 R101, 05 R117) -/

/-- Output tile (i, j) of entry `e`'s product `d` may finish in unit `u`: the entry runs, the unit owns the tile, has not
finished it and has not stopped, and what it reads has landed (04 R101, R103; 10 R280). -/
structure TileDue (s : State) (u e : Nat) (d : ProdDesc) (i j : Nat) : Prop where
  runs : s.running e = true
  inside : i < (prodTiles d).1 ∧ j < (prodTiles d).2
  own : s.owns (s.entryOf e) u (j + (prodTiles d).2 * i) = true
  going : (s.tile u).stopped.contains (e, d.arr) = false
  fresh : (s.tile u).work.contains (e, j + (prodTiles d).2 * i) = false
  landed : s.tileAvoids u d i j (s.unlanded u e) = true

/-- Chain element `n` of entry `e` may pass in unit `u`: the operation runs, the unit owns the element, has not finished it and
has not stopped, the element before it has passed, and its inputs have landed (05 R117, R124; 10 R280). -/
structure ElemDue (s : State) (u e : Nat) (r : ChainRec) (p n : Nat) : Prop where
  runs : s.running e = true
  own : s.owns (s.entryOf e) u n = true
  going : (s.tile u).chain.stopped = false
  fresh : (s.tile u).work.contains (e, n) = false
  turn : s.inTurn u e r p n = true
  landed : s.elemAvoids u r p n (s.unlanded u e) = true

/-! ### The Slate lanes (06 R146 to R168) -/

/-- A kernel runs on a unit, with vtype `t` and the lanes `l` (06 R147, R149). -/
structure Lanes (s : State) (u : Nat) (t : VType) (l : Slate) : Prop where
  runs : s.laneRuns u = true
  lanes : (s.tile u).slate = l
  vtype : l.vtype = some t

/-- Whether `n` elements of width `dw` from register `d` on lie in the 32 vector registers (06 R148). -/
abbrev fitsV (d dw n : Nat) : Prop := 2048 * d + n * dw ≤ 65536

/-- The lanes after an instruction that writes elements of width `dw` of the group at register `d`: element i below `n`
that `act` admits holds `r i`, every other element and register is as it was, and so is everything but the pc, which moves
on by one word (06 R148, R151). -/
structure Slate.Wrote (l l' : Slate) (d dw n : Nat) (act : Nat → Bool) (r : Nat → Nat) : Prop where
  elems : ∀ i, fitsV d dw (i + 1) → l'.elem d dw i = if i < n ∧ act i = true then r i % 2 ^ dw else l.elem d dw i
  below : ∀ k, k < d → l'.vreg k = l.vreg k
  rest : { l' with v := l.v } = { l with pc := l.pc + 4 }

/-- The lanes after an instruction that writes bits of mask register `d`: bit i below `n` that `act` admits holds `r i`,
every other mask bit is as it was, and so is everything but the pc; a mask has 2,048 bits (06 R146, R151). -/
structure Slate.Marked (l l' : Slate) (d n : Nat) (act : Nat → Bool) (r : Nat → Bool) : Prop where
  bits : ∀ k i, l'.mbit k i = if k = d ∧ i < min n 2048 ∧ act i = true then r i else l.mbit k i
  rest : { l' with m := l.m } = { l with pc := l.pc + 4 }

/-- The lanes after an instruction that writes scalar register `d`: it holds `v`, unless it is s0, which discards writes;
every other register is as it was, and so is everything but the pc (06 R146). -/
structure Slate.Set (l l' : Slate) (d : Nat) (v : BitVec 64) : Prop where
  regs : ∀ k, l'.xreg k = if k = d ∧ d ≠ 0 then v else l.xreg k
  rest : { l' with x := l.x } = { l with pc := l.pc + 4 }

/-- The accesses of a memory instruction at the addresses at which they fall: in the active slot of a versioned token for
reads, in the other for writes (06 R166; 07 R188). -/
def State.fallen (s : State) (u : Nat) (o : MOps) (write : Bool) (acc : List (Nat × List Nat)) : List (Nat × List Nat) :=
  acc.map (fun p => (p.1, p.2.map (s.inUse u o.space write)))

/-- The accesses of a memory instruction happen now and meet no cause of a fault (06 R162, R166; 10 R280, R297, R303). -/
structure Clear (s : State) (u : Nat) (o : MOps) (load write : Bool) (n entry : Nat) (acc : List (Nat × List Nat)) : Prop where
  cause : ∀ p ∈ acc, ∀ a ∈ p.2,
    s.memCause u o.space load entry n a (s.inUse u o.space write a) (o.ue == some p.1) = none
  ready : s.memReady u o load n entry (s.fallen u o write acc) = true

/-- The bytes that a kernel's read of `n` bytes at an address gives (06 R161, R166). -/
def State.slotRd (s : State) (u : Nat) (o : MOps) (a n : Nat) : Nat := s.spaceRd u o.space (s.inUse u o.space false a) n

/-- What the requests of a load leave alone: every byte of every memory (06 R161). -/
def sameBytes (s t : State) : Prop := t.mem.dram = s.mem.dram ∧ t.mem.tile = s.mem.tile ∧ t.mem.host = s.mem.host

/-- What a load of a Slate kernel leaves: the elements of width `dw` from register `d` on as `Slate.Wrote` says, the stall of
its accesses counted, and every byte of memory, every other unit and the job as they were (06 R151, R161, R168). -/
structure Loaded (s t : State) (u : Nat) (o : MOps) (l : Slate) (dw : Nat) (r : Nat → Nat) : Prop where
  lanes : l.Wrote { (t.tile u).slate with stall := l.stall } o.d dw l.vl (fun i => l.active o.mu o.msk i) r
  stall : (t.tile u).slate.stall = l.stall + (if o.space then o.late else 0)
  bytes : sameBytes s t
  units : ∀ v, v ≠ u → t.tile v = s.tile v
  job : t.job = s.job

/-- Where byte `a` of the space that a memory instruction names lies: at `a` in device memory, at its place in unit `u`'s tile
store. -/
def spaceAddr (u : Nat) (space : Bool) (a : Nat) : Nat := if space then a else tileAddr u a

/-- The byte at a place of device memory, or of unit `u`'s tile store. -/
def State.spaceByte (s : State) (u : Nat) (space : Bool) (b : Nat) : Byte :=
  if space then s.mem.dram.read b else (s.tileMem u).read b

/-- Whether the `n` bytes at address `a` of a space hold the byte at a place. -/
def holdsByte (u : Nat) (space : Bool) (n a b : Nat) : Prop := spaceAddr u space a ≤ b ∧ b < spaceAddr u space a + n

/-- Whether some access of `n` bytes holds the byte at a place. -/
def touched (u : Nat) (space : Bool) (n : Nat) (acc : List (Nat × List Nat)) (b : Nat) : Prop :=
  ∃ p ∈ acc, ∃ a ∈ p.2, holdsByte u space n a b

/-- Whether no access of another element that `after` names takes a byte that the access of `n` bytes at `a` takes. -/
def alone (u : Nat) (space : Bool) (n : Nat) (acc : List (Nat × List Nat)) (after : Nat → Prop) (a : Nat) : Prop :=
  ∀ p ∈ acc, after p.1 → ∀ c ∈ p.2, ∀ b, holdsByte u space n a b → ¬ holdsByte u space n c b

/-- What a store of a Slate kernel leaves: every byte outside its accesses, every other unit, the other memories, and the
lanes but for the pc, the stall of its accesses and the list of stores kept for a fault (06 R161 to R164, R168). -/
structure Stored (s t : State) (u : Nat) (o : MOps) (n : Nat) (acc : List (Nat × List Nat)) : Prop where
  bytes : ∀ b, ¬ touched u o.space n acc b → t.spaceByte u o.space b = s.spaceByte u o.space b
  lanes : { (t.tile u).slate with stored := [] } =
    { (s.tile u).slate with
      pc := (s.tile u).slate.pc + 4
      stall := (s.tile u).slate.stall + (if o.space then o.late else 0)
      stored := [] }
  units : ∀ v, v ≠ u → t.tile v = s.tile v ∧ t.tileMem v = s.tileMem v
  store : o.space = true → t.tileMem u = s.tileMem u
  device : o.space = false → t.mem.dram = s.mem.dram
  host : t.mem.host = s.mem.host
  job : t.job = s.job

/-- A Slate memory instruction that loads, stores or adds: its unit and operands, whether it reads and writes the memory, and
the addresses of its active elements in ascending index (06 R153, R161, R164). `vlxs` and `vlhost` are not of this shape. -/
def Instr.access (l : Slate) (n : Nat) : Instr → Option (Nat × MOps × Bool × Bool × List (Nat × List Nat))
  | .vl u o => some (u, o, true, false, unitAddrs l o n 1)
  | .vls u o => some (u, o, true, false, strideAddrs l o)
  | .vlx u o => some (u, o, true, false, indexAddrs l o n)
  | .vlseg u o f => some (u, o, true, false, unitAddrs l o n f)
  | .vs u o => some (u, o, false, true, unitAddrs l o n 1)
  | .vss u o => some (u, o, false, true, strideAddrs l o)
  | .vsx u o => some (u, o, false, true, indexAddrs l o n)
  | .vsseg u o f => some (u, o, false, true, unitAddrs l o n f)
  | .vsxadd u o | .vsxadda u o _ => some (u, o, true, true, indexAddrs l o n)
  | _ => none

/-- A kernel stopped by a fault: its lanes hold the record of R166, the kernel has ended, the step in progress is contained,
and no other unit changed (06 R162, R166; 20 R532). -/
structure Stopped (s t : State) (u : Nat) (l : Slate) (elem addr cause : Nat) : Prop where
  run : (t.tile u).slate.run = .faulted
  record : (t.tile u).slate.fault = some { addr := addr, opId := (s.entryOf l.entry).opId, pc := l.pc, elem := elem
                                           cause := cause, unit := u, step := s.job.step }
  contained : s.job.inStep = true → t.job.fault = true
  units : ∀ v, v ≠ u → t.tile v = s.tile v

/-- The unit of a Slate instruction that works on registers alone (06 R153). -/
def Instr.registerUnit : Instr → Option Nat
  | .setvl u _ _ _ _ | .sli u _ _ | .slui u _ _ | .salu u _ _ _ _ | .sbnz u _ _ | .scsr u _ _ | .srdtime u _ | .vi u _ _
  | .vf u _ _ _ | .vfma u _ _ _ | .vcmp u _ _ | .vsel u _ | .vmlog u _ _ | .vwmul u _ _ _ | .vdot u _ _ _ | .vcvt u _ _ _
  | .vred u _ _ | .vmaxi u _ | .vperm u _ _ | .vmcnt u _ _ => some u
  | _ => none

/-- The unit of a Slate instruction that accesses a memory (06 R153). -/
def Instr.memoryUnit : Instr → Option Nat
  | .vl u _ | .vs u _ | .vls u _ | .vss u _ | .vlseg u _ _ | .vsseg u _ _ | .vlx u _ | .vlxs u _ _ | .vsx u _ | .vsxadd u _
  | .vsxadda u _ _ | .vlhost u _ => some u
  | _ => none

/-- The unit of a Slate instruction that needs no vtype (06 R149, R153). -/
def Instr.scalarUnit : Instr → Option Nat
  | .setvl u _ _ _ _ | .sli u _ _ | .slui u _ _ | .salu u _ _ _ _ | .sbnz u _ _ | .scsr u _ _ | .srdtime u _ => some u
  | _ => none

/-- The unit of a Slate instruction that can raise no IEEE flag and no conversion event: the scalar ones, and the ones on
integers, masks and bits (06 R153 to R155). -/
def Instr.quietUnit : Instr → Option Nat
  | .setvl u _ _ _ _ | .sli u _ _ | .slui u _ _ | .salu u _ _ _ _ | .sbnz u _ _ | .scsr u _ _ | .srdtime u _ | .vi u _ _
  | .vsel u _ | .vmlog u _ _ | .vmaxi u _ | .vperm u _ _ | .vmcnt u _ _ => some u
  | _ => none

end Sys2Proof.Machine
end

