-- ==== Sys2Proof/Certificates/Slice0/Obligations.lean ====
section
/-! DEFINITION. The statements for the provers. Every completion statement says, for the commands it names, that `exec`
answers a next state, and which one. -/

open Sys2Proof Sys2Proof.Machine

/-! ### The step, the queue, reset -/

/-- A step runs the command at the front of the queue, on the state whose queue is the rest. -/
def Obligations.StepRunsFrontCommand : Prop :=
  ∀ (s : State) (c : Instr) (rest : List Instr), s.pending = c :: rest → step s = exec c { s with pending := rest }

/-- On an empty queue one tick of the clock passes (the model's choice: log 22): while Ash is out of reset Cobalt time
moves on by 18 before the core PLL has locked and by 1 after, then a change of operating point whose moment has come,
the guard band staying, comes in force; while Ash is in reset nothing changes (13 R393; 17 R472, R476). -/
def Obligations.EmptyQueueTicks : Prop :=
  (∀ s : State, s.pending = [] → s.clk.ashOut = true → ∃ u : State,
    u = { s with clk := { s.clk with cobalt := s.clk.cobalt + (if s.clk.corePll then 1 else 18) } } ∧
    (s.pwr.opChange = none → step s = .next u) ∧
    (∀ p d, s.pwr.opChange = some (p, d) → u.now < d ∨ guardDiffers p (s.kvNat kOpNow) = true → step s = .next u) ∧
    (∀ p d, s.pwr.opChange = some (p, d) → d ≤ u.now → guardDiffers p (s.kvNat kOpNow) = false →
      step s = .next (u.takePoint p))) ∧
  (∀ s : State, s.pending = [] → s.clk.ashOut = false → step s = .next s)

/-- No command touches the queue of waiting commands. -/
def Obligations.CommandsKeepTheQueue : Prop :=
  ∀ (c : Instr) (s t : State), exec c s = .next t → t.pending = s.pending

/-- The reset state is well formed: the package's parts are there, and every memory is in canonical form. At reset
every ring is as R406 says, no command is accepted, no image is loaded, the ports and the functions are off, and every
parameter key reads its reset value. -/
def Obligations.ResetState : Prop :=
  (State.reset.ok = true) ∧
  (∀ r, r < 16 → (State.reset.ring r).crBase = 0 ∧ (State.reset.ring r).cqBase = 0 ∧ (State.reset.ring r).rlAddr = 0 ∧
    (State.reset.ring r).slAddr = 0 ∧ (State.reset.ring r).en = false ∧ (State.reset.ring r).rRun = false ∧
    (State.reset.ring r).rErr = false ∧ (State.reset.ring r).cqLog2 = 0 ∧ (State.reset.ring r).crLog2 = 0 ∧
    (State.reset.ring r).vec = r) ∧
  State.reset.hostIf.ready = false ∧ State.reset.hostIf.jfull = false ∧ State.reset.hostIf.inReset = false ∧
  State.reset.hostIf.cmds = [] ∧ State.reset.job.img = none ∧
  (∀ p, p < 8 → (State.reset.port p).state = .off) ∧ (∀ f, f < 15 → (State.reset.fn f).state = .off) ∧
  (∀ k, State.reset.kvGet k = keyReset k)

/-- Every step keeps the well-formed states: the numbers of rings, functions, pins, engines and ports, and the
canonical form of the device, tile and host memories. -/
def Obligations.StepsKeepWellFormedStates : Prop :=
  ∀ s t : State, s.ok = true → step s = .next t → t.ok = true

/-! ### Host commands (14 R409 to R430) -/

/-- `ECHO`, `IDENTIFY`, `STEP_STATUS`, `GET_PARAM` and `ATTEST` only answer: the reply's result and the bytes for
`res_addr`. `STEP_STATUS` without a binding, `GET_PARAM` of a key that does not exist (the reply's detail names the
first one), and `ATTEST` that the policy forbids, of an unmapped request or with no room for the response are refused
(14 R418, R420, R427; 19 R520). `SET_PARAM` applies its pairs in list order and answers the previous values; the lock
of the `RWL` keys is as it was; a pair that may not be written ends it with that pair's refusal, and no pair takes
effect (14 R418, R427). -/
def Obligations.QueriesAndParameters : Prop :=
  (∀ s h d, Served s h (.echo d) →
    exec (.echo h d) s = .next ((s.begun h (.echo d)).answered h { result := leNat (d.take 8), bytes := d })) ∧
  (∀ s h, Served s h .identify →
    exec (.identify h) s = .next ((s.begun h .identify).answered h
      { result := s.sec.serial.toNat, bytes := (s.begun h .identify).identity })) ∧
  (∀ s h u, Served s h .stepStatus → u = s.begun h .stepStatus →
    (s.job.bound.isSome = true → exec (.stepStatus h) s = .next (u.answered h u.stepAnswer)) ∧
    (s.job.bound = none → exec (.stepStatus h) s = .next (u.answered h { status := 0x10, detail := 0x0201 }))) ∧
  (∀ s h n ks u, Served s h (.getParam n ks) → u = s.begun h (.getParam n ks) →
    ((∀ k ∈ ks, (keyRow k).isSome = true) →
      ∃ vs : List Nat, vs = ks.zipIdx.map (fun k => (u.readKey (s.fresh + k.2) k.1).toNat) ∧
        exec (.getParam h n ks) s = .next (State.answered { u with fresh := s.fresh + ks.length } h
          { result := vs.headD 0, bytes := vs.flatMap (toLe 8) })) ∧
    (∀ i, i < ks.length → (keyRow (ks.getD i 0)).isNone = true → (∀ j, j < i → (keyRow (ks.getD j 0)).isSome = true) →
      exec (.getParam h n ks) s = .next (u.answered h { status := 0x14, detail := i % 256 * 16777216 + 0x0103 }))) ∧
  (∀ s h a n req u, Served s h (.attest a n req) → u = s.begun h (.attest a n req) →
    (s.sec.policy.allowAttest = false →
      exec (.attest h a n req) s = .next (u.answered h { status := 0x10, detail := 0x0501 })) ∧
    (∀ x, s.sec.policy.allowAttest = true → addrParam a = some x → u.spanOk x n = false →
      exec (.attest h a n req) s = .next (u.answered h { status := 0x14, detail := 0x0005 })) ∧
    (∀ x r v, s.sec.policy.allowAttest = true → addrParam a = some x → u.spanOk x n = true → u.spdm .attest req = (r, v) →
      (∀ e, u.resultRefusal h (Config.spdmBytes r).length = some e →
        exec (.attest h a n req) s = .next (u.answered h e)) ∧
      (u.resultRefusal h (Config.spdmBytes r).length = none → exec (.attest h a n req) s =
        .next (v.answered h { result := (Config.spdmBytes r).length, bytes := Config.spdmBytes r })))) ∧
  (∀ s h n ps u, Served s h (.setParam n ps) →
    u = { s.begun h (.setParam n ps) with job := { s.job with locked := s.lockedFor h (.setParam n ps) } } →
    (∀ v prev, setPairs ps 0 u [] = .ok (v, prev) → exec (.setParam h n ps) s =
      .next (State.answered { v with job := { v.job with locked := s.job.locked } } h
        { result := prev.headD 0, bytes := prev.flatMap (toLe 8) })) ∧
    (∀ e, setPairs ps 0 u [] = .error e → exec (.setParam h n ps) s = .next ((s.begun h (.setParam n ps)).answered h e))) ∧
  (∀ (s : State) k v i l prev, s.writeRefusal k (BitVec.ofNat 64 v) = none → s.startRefused k (BitVec.ofNat 64 v) = false →
    setPairs ((k, v) :: l) i s prev =
      setPairs l (i + 1) (s.writeKey k (BitVec.ofNat 64 v)) (prev ++ [(s.readKey s.fresh k).toNat])) ∧
  (∀ (s : State) k v i l prev st r, s.writeRefusal k (BitVec.ofNat 64 v) = some (st, r) →
    setPairs ((k, v) :: l) i s prev = .error { status := st, detail := i % 256 * 16777216 + r }) ∧
  (∀ (s : State) k v, (keyRow k).isNone = true → s.writeRefusal k v = some (0x14, 0x0103)) ∧
  (∀ (s : State) k v r, keyRow k = some r → r.acc = .ro → s.writeRefusal k v = some (0x14, 0x0101)) ∧
  (∀ (s : State) k v r, keyRow k = some r → r.acc = .rwl → s.job.locked = true → s.writeRefusal k v = some (0x14, 0x0102))

/-- `LOAD_IMAGE` loads an image that passes every check, in strict mode where the command or the policy asks for it:
it is the loaded image, nothing is bound, no step has run, and the `RWL` keys are locked. An image that fails a check
leaves none loaded, and the refusal's record is the answer. With an image loaded, or with bytes that are not mapped,
it is refused (14 R421; 15 R434, R440 to R442, R448). -/
def Obligations.LoadImageLoads : Prop :=
  ∀ s h a n strict parts x u, Served s h (.loadImage a n strict parts) → u = s.begun h (.loadImage a n strict parts) →
    addrParam a = some x →
    (s.job.img.isSome = true → ∃ t, exec (.loadImage h a n strict parts) s = .next t ∧ t.job.img = s.job.img ∧
      t = (u.retire h { status := 0x10, detail := 0x0202 }).relock.checkJournal) ∧
    (s.job.img = none → u.spanOk x n = false → exec (.loadImage h a n strict parts) s =
      .next (u.retire h { status := 0x14, detail := 0x0005 }).relock.checkJournal) ∧
    (∀ bs m, s.job.img = none → u.spanOk x n = true → bs = u.rdAt x (min n 4294967296) →
      m = (decide (strict = 1) || s.sec.policy.strict) →
      (∀ i, u.loadImage bs n m parts = .ok i → ∃ t v : State, exec (.loadImage h a n strict parts) s = .next t ∧
        v = u.dramWr u.imageBase bs ∧
        t = (State.retire { v with job := { noJob with img := some i, stepEnd := s.job.stepEnd } } h {}).relock.checkJournal ∧
        t.job.img = some i ∧ t.job.bound = none ∧ t.job.locked = true ∧ t.job.inStep = false ∧ t.job.step = 0 ∧
        t.job.lastRun = 0xFFFFFFFFFFFFFFFF) ∧
      (∀ f, u.loadImage bs n m parts = .error f → ∃ t v : State, exec (.loadImage h a n strict parts) s = .next t ∧
        v = (if f.stage ≤ 1 then u else u.dramForget u.imageBase u.journalBase) ∧
        t = (v.retire h (f.answer h (imageDigest bs))).relock.checkJournal ∧ t.job.img = none))

/-- `BIND` binds a loaded image that passes the checks of stages 8 to 10: the placed image, the block and its plan
stand, the epoch is the command's, the loss scale starts anew, no step has run, and the answer is the job's livery; an
earlier binding ends first. Without an image, with epoch 0, or where a check fails it is refused, and an earlier
binding stays (07 R183; 14 R421; 15 R441, R443, R444, R448). -/
def Obligations.BindBinds : Prop :=
  ∀ s h ox oy oz sx sy sz epoch u, Served s h (.bind ox oy oz sx sy sz epoch) →
    u = s.begun h (.bind ox oy oz sx sy sz epoch) →
    (s.job.img = none → exec (.bind h ox oy oz sx sy sz epoch) s =
      .next (u.answered h { status := 0x10, detail := 0x0201 })) ∧
    (∀ i, s.job.img = some i → epoch = 0 → exec (.bind h ox oy oz sx sy sz epoch) s =
      .next (u.answered h { status := 0x14, detail := 0x0003 })) ∧
    (∀ i w c, s.job.img = some i → epoch ≠ 0 → w = (if s.job.bound.isSome then u.unbind else u) →
      c = w.checkBind i { ox := ox, oy := oy, oz := oz, sx := sx, sy := sy, sz := sz } →
      (∀ f, c = .error f → exec (.bind h ox oy oz sx sy sz epoch) s = .next (u.answered h (f.answer h i.digest))) ∧
      (∀ b, c = .ok b → ∃ t v, exec (.bind h ox oy oz sx sy sz epoch) s = .next t ∧
        v = (w.bindWith i b epoch).takeSnapshot ∧ t = v.answered h { result := v.livery } ∧ t.job.bound = some b ∧
        t.job.img = some (w.placedImage i) ∧ t.job.epoch = epoch ∧ t.job.lsC = 0 ∧ t.job.lsK = 0 ∧ t.job.step = 0))

/-- `HALT_AT_STEP` arms the halt and answers with it; where no step is in progress and the halt's step has come, the
running `RUN_STEPS` ends at once with the last step run, and the halt is disarmed. `RUN_STEPS` without a job fault
starts: from then on steps may run; where an armed halt's step has come and no step is in progress, it ends at once.
Neither acts without a binding, and `RUN_STEPS` not after a job fault: they are refused (14 R421; 20 R539). `UNLOAD`
with no steps running releases the image and answers the last step run: no image is loaded, nothing is bound, no
context is open; with steps running it waits in the list of commands; without an image it is refused. Kind 1 of
`RESET_FUNCTION` ends the running `RUN_STEPS` and the binding and leaves the image loaded; without a binding it is
refused (11 R315; 14 R421, R428). -/
def Obligations.JobControl : Prop :=
  (∀ s h n, Served s h (.haltAtStep n) → s.job.bound.isSome = true → ∃ u : State,
    u = State.retire { s.begun h (.haltAtStep n) with job := { s.job with haltAt := some n } } h { result := n } ∧
    (s.job.inStep = true ∨ s.job.step.toNat < n ∨ u.runCmd = none → exec (.haltAtStep h n) s = .next u.checkJournal) ∧
    (∀ c, s.job.inStep = false → n ≤ s.job.step.toNat → u.runCmd = some c →
      exec (.haltAtStep h n) s = .next (State.checkJournal
        { u.retire c.hdr { result := s.job.lastRun.toNat } with job := { s.job with haltAt := none } }))) ∧
  (∀ s h n, Served s h (.runSteps n) → s.job.bound.isSome = true → s.job.jobFault = none →
    s.job.inStep = true ∨ s.job.haltAt = none ∨ (∃ k, s.job.haltAt = some k ∧ s.job.step.toNat < k) →
    exec (.runSteps h n) s = .next (s.begun h (.runSteps n)).checkJournal ∧
    (s.begun h (.runSteps n)).checkJournal.imageRuns = true) ∧
  (∀ s h n k, Served s h (.runSteps n) → s.job.bound.isSome = true → s.job.jobFault = none → s.job.inStep = false →
    s.job.haltAt = some k → k ≤ s.job.step.toNat →
    exec (.runSteps h n) s = .next (State.checkJournal
      { (s.begun h (.runSteps n)).retire h { result := s.job.lastRun.toNat } with
        job := { s.job with haltAt := none } })) ∧
  (∀ s h n, Served s h (.runSteps n) → s.job.bound.isSome = true → s.job.jobFault.isSome = true →
    exec (.runSteps h n) s = .next ((s.begun h (.runSteps n)).answered h { status := 0x10, detail := 0x0202 })) ∧
  (∀ s h n, s.job.bound = none →
    (Served s h (.haltAtStep n) → exec (.haltAtStep h n) s =
      .next ((s.begun h (.haltAtStep n)).answered h { status := 0x10, detail := 0x0201 })) ∧
    (Served s h (.runSteps n) → exec (.runSteps h n) s =
      .next ((s.begun h (.runSteps n)).answered h { status := 0x10, detail := 0x0201 }))) ∧
  (∀ s h, Served s h .unload → s.job.img.isSome = true → s.imageRuns = false →
    exec (.unload h) s = .next ((s.begun h .unload).unload h).checkJournal ∧
    ∃ t : State, t = ((s.begun h .unload).unload h).checkJournal ∧ t.job.img = none ∧ t.job.bound = none ∧
      t.job.inStep = false ∧ t.exch.ctxs = [] ∧
      (s.sec.activate = false → t = ((State.takeSnapshot (((s.begun h .unload).release.retire h
        { result := s.job.lastRun.toNat }).applyHeld))).checkJournal)) ∧
  (∀ s h, Served s h .unload → s.job.img.isSome = true → s.imageRuns = true →
    exec (.unload h) s = .next (s.begun h .unload).checkJournal) ∧
  (∀ s h, Served s h .unload → s.job.img = none →
    exec (.unload h) s = .next ((s.begun h .unload).answered h { status := 0x10, detail := 0x0201 })) ∧
  (∀ s h, Served s h (.resetFunction 1) → s.job.bound.isSome = true →
    (s.begun h (.resetFunction 1)).runCmd = none →
    ∃ t : State, exec (.abandonJob h) s = .next t ∧
      t = (State.foldIfIdle ((s.begun h (.resetFunction 1)).unbind.retire h {})).checkJournal ∧ t.job.img = s.job.img ∧
      t.job.bound = none ∧ t.job.inStep = false ∧ t.exch.ctxs = []) ∧
  (∀ s h c, Served s h (.resetFunction 1) → s.job.bound.isSome = true → (s.begun h (.resetFunction 1)).runCmd = some c →
    ∃ t : State, exec (.abandonJob h) s = .next t ∧
      t = (State.foldIfIdle (((s.begun h (.resetFunction 1)).retire c.hdr { result := s.job.lastRun.toNat }).unbind.retire h
        {})).checkJournal ∧
      t.job.img = s.job.img ∧ t.job.bound = none ∧ t.job.inStep = false ∧ t.exch.ctxs = []) ∧
  (∀ s h, Served s h (.resetFunction 1) → s.job.bound = none →
    exec (.abandonJob h) s = .next ((s.begun h (.resetFunction 1)).answered h { status := 0x10, detail := 0x0201 }))

/-- `CHECKPOINT` with no step running writes its record at the destination and answers its length; with steps running
it waits; without a binding, at a destination that may not take it, or with no room it is refused; a poisoned saved
line leaves the record up to that token's data, and the answer says so (07 R198, R199; 14 R422; 20 R536). `RESTORE` of
a record that passes every check restores it and answers the next step; a record that fails one, a job that runs, or
no binding is refused (07 R200; 14 R423). -/
def Obligations.CheckpointAndRestore : Prop :=
  (∀ s h dest cap u, Served s h (.checkpoint dest cap) → u = s.begun h (.checkpoint dest cap) →
    (s.job.bound = none → exec (.checkpoint h dest cap) s = .next (u.answered h { status := 0x10, detail := 0x0201 })) ∧
    (∀ i b, s.job.img = some i → s.job.bound = some b →
      (u.ckDest dest u.ckLen = false ∨ 2 ^ 48 ≤ dest → exec (.checkpoint h dest cap) s =
        .next (u.answered h { status := 0x14, detail := 0x0005 })) ∧
      (dest < 2 ^ 48 → u.ckDest dest u.ckLen = true →
        (s.imageRuns = true → exec (.checkpoint h dest cap) s = .next u.checkJournal) ∧
        (s.imageRuns = false → cap < u.ckLen → exec (.checkpoint h dest cap) s =
          .next (u.answered h { status := 0x10, detail := 0x0006 })) ∧
        (s.imageRuns = false → u.ckLen ≤ cap → u.ckPoison i = none → exec (.checkpoint h dest cap) s =
          .next ((u.dramWr dest (u.ckHeader i ((sha512 (u.ckBody i)).take 32) ++ u.ckBody i)).answered h
            { result := u.ckLen })) ∧
        (∀ k off, s.imageRuns = false → u.ckLen ≤ cap → u.ckPoison i = some (k, off) → exec (.checkpoint h dest cap) s =
          .next (State.answered ((u.dramWr dest (u.ckHeader i (List.replicate 32 0) ++ (u.ckBody i).take (off - 128))).record
            { sub := 0x0A, cause := Config.faultCause 15 % 256, cls := 1, seq := BitVec.ofNat 64 h.seq }) h
            { status := 0x40 }))))) ∧
  (∀ s h r e a u, Served s h (.restore r e) → u = s.begun h (.restore r e) → addrParam r = some a →
    (s.job.bound = none ∨ s.job.img = none → exec (.restore h r e) s =
      .next (u.answered h { status := 0x10, detail := 0x0201 })) ∧
    (∀ i, s.job.img = some i → s.job.bound.isSome = true →
      (s.imageRuns = true → exec (.restore h r e) s = .next (u.answered h { status := 0x10, detail := 0x0202 })) ∧
      (s.imageRuns = false → u.spanOk a 128 = false →
        exec (.restore h r e) s = .next (u.answered h { status := 0x14, detail := 0x0005 })) ∧
      (∀ n bs, s.imageRuns = false → u.spanOk a 128 = true → n = fieldLe (u.rdAt a 128) 88 8 →
        bs = u.rdAt a (if 128 ≤ n ∧ u.spanOk a n = true then n else 128) →
        (∀ st k, u.checkRecord i bs e = some (st, k) → ∃ d, exec (.restore h r e) s =
          .next (u.answered h { status := st, detail := d })) ∧
        (u.checkRecord i bs e = none → ∃ v, v = u.restoreFrom i bs e ∧
          exec (.restore h r e) s = .next (v.answered h { result := v.job.step.toNat })))))

/-- `SOLVE` and `DYNAMICS` whose descriptors pass the checks of their acceptance take the engines they need, with what
was analysed then, when no steps run and enough engines are free, and begin there; with steps running, or with too few
free engines, they wait in the list of commands. A descriptor that a check refuses is answered at acceptance (08 R203,
R207; 09 R244, R264; 14 R419; 15 R446). -/
def Obligations.SolveAndDynamicsTakeEngines : Prop :=
  (∀ s h a d, Served s h (.solve a) → (s.listed h (.solve a)).checkSolve h.prof a = .ok d →
    (∀ fs, s.imageRuns = false → (s.begun h (.solve a)).onEngine (.cmd h) = false →
      (s.begun h (.solve a)).freeEngines (2 ^ d.engLog2) = some fs →
      exec (.solve h a) s = .next ((s.begun h (.solve a)).startSolve (.cmd h) d fs).checkJournal) ∧
    (s.imageRuns = true ∨ (s.begun h (.solve a)).onEngine (.cmd h) = true ∨
      (s.begun h (.solve a)).freeEngines (2 ^ d.engLog2) = none →
      exec (.solve h a) s = .next (s.begun h (.solve a)).checkJournal)) ∧
  (∀ s h a d m p, Served s h (.dynamics a) → (s.listed h (.dynamics a)).checkDyn a = .ok (d, m, p) →
    (∀ fs, s.imageRuns = false → (s.begun h (.dynamics a)).onEngine (.cmd h) = false →
      (s.begun h (.dynamics a)).freeEngines (2 ^ d.engLog2) = some fs →
      exec (.dynamics h a) s = .next ((s.begun h (.dynamics a)).startDyn (.cmd h) d m p fs).checkJournal) ∧
    (s.imageRuns = true ∨ (s.begun h (.dynamics a)).onEngine (.cmd h) = true ∨
      (s.begun h (.dynamics a)).freeEngines (2 ^ d.engLog2) = none →
      exec (.dynamics h a) s = .next (s.begun h (.dynamics a)).checkJournal)) ∧
  (∀ s h a f, Accepted s h (.solve a) → h.early = false → s.profNamed h.prof = true →
    (s.listed h (.solve a)).checkSolve h.prof a = .error f →
    exec (.solve h a) s = .next ((s.listed h (.solve a)).answered h (f.answer h []))) ∧
  (∀ s h a f, Accepted s h (.dynamics a) → h.early = false → s.profNamed h.prof = true →
    (s.listed h (.dynamics a)).checkDyn a = .error f →
    exec (.dynamics h a) s = .next ((s.listed h (.dynamics a)).answered h (f.answer h [])))

/-- `MEM_FILL` with no steps running writes the 8-byte pattern again and again over the destination, in device or host
memory, and answers the length. `MEM_COPY` with no steps running copies its lines in ascending order, each read before
it is written, and answers the length; a poisoned source line in device memory stops it, with the lines before it
copied, and the answer says so. With steps running both wait; a range that is not mapped or may not be written is
refused (14 R417 to R419; 20 R536). -/
def Obligations.FillAndCopy : Prop :=
  (∀ s h dst n pat b, Served s h (.memFill dst n pat) → addrParam dst = some b →
    (s.begun h (.memFill dst n pat)).writeOk b n = true →
    (s.imageRuns = false → exec (.memFill h dst n pat) s = .next
      (((s.begun h (.memFill dst n pat)).wrAt b ((List.range (n / 8)).flatMap (fun _ => toLe 8 pat))).answered h
        { result := n })) ∧
    (s.imageRuns = true → exec (.memFill h dst n pat) s = .next (s.begun h (.memFill dst n pat)).checkJournal)) ∧
  (∀ s h src dst n a b u k, Served s h (.memCopy src dst n) → addrParam src = some a → addrParam dst = some b →
    (s.begun h (.memCopy src dst n)).spanOk a n = true → (s.begun h (.memCopy src dst n)).writeOk b n = true →
    (s.imageRuns = true → exec (.memCopy h src dst n) s = .next (s.begun h (.memCopy src dst n)).checkJournal) ∧
    (s.imageRuns = false → (s.begun h (.memCopy src dst n)).copyLines (n / 64) a b 0 = (u, k, none) →
      exec (.memCopy h src dst n) s = .next (u.answered h { result := n })) ∧
    (∀ x, s.imageRuns = false → (s.begun h (.memCopy src dst n)).copyLines (n / 64) a b 0 = (u, k, some x) →
      exec (.memCopy h src dst n) s = .next (State.answered (u.record
        { sub := 0x0A, cause := Config.faultCause 14 % 256, cls := 1, addr := BitVec.ofNat 64 x, seq := BitVec.ofNat 64 h.seq }) h
        { status := 0x40, result := 64 * k }))) ∧
  (∀ s h dst n pat b, Served s h (.memFill dst n pat) → addrParam dst = some b →
    (s.begun h (.memFill dst n pat)).writeOk b n = false → exec (.memFill h dst n pat) s =
      .next ((s.begun h (.memFill dst n pat)).answered h { status := 0x14, detail := 0x0005 })) ∧
  (∀ s h src dst n a b, Served s h (.memCopy src dst n) → addrParam src = some a → addrParam dst = some b →
    (s.begun h (.memCopy src dst n)).spanOk a n = false ∨ (s.begun h (.memCopy src dst n)).writeOk b n = false →
    exec (.memCopy h src dst n) s = .next ((s.begun h (.memCopy src dst n)).answered h
      { status := 0x14, detail := 0x0005 })) ∧
  (∀ (s : State) a b k, s.copyLines 0 a b k = (s, k, none)) ∧
  (∀ (s : State) m a b k, a.1 = true ∨ s.poisoned a.2 64 = false →
    s.copyLines (m + 1) a b k =
      (s.wrAt b (s.devRd a 64)).copyLines m (a.1, a.2 + 64) (b.1, b.2 + 64) (k + 1)) ∧
  (∀ (s : State) m a b k, a.1 = false → s.poisoned a.2 64 = true → s.copyLines (m + 1) a b k = (s, k, some a.2))

/-- `PORT_CTL` answers the port's state after its action: 0 enables the port, which starts its bring-up from `OFF`
outside loopback; 1 disables it and takes it to `OFF`; 2 retrains a port that is up; 3 takes it to `OFF` in loopback;
4 ends a loopback and starts the bring-up; 5 starts a test pattern and 6 ends it, in the state the port is in; 7
returns a failed port to `OFF`. An action on a port that the bound block uses (0, 1, 3), during a run (3 to 6), or 7
on a port that has not failed is refused, and the port stays (12 R373, R376; 14 R428). -/
def Obligations.PortControl : Prop :=
  (∀ s h p act a b c u, Served s h (.portCtl p act a b) → u = s.begun h (.portCtl p act a b) →
    (act, c) ∈ [(0, Instr.portCtlEnable h p a b), (1, .portCtlDisable h p a b), (2, .portCtlRetrain h p a b),
      (3, .portCtlLoopbackStart h p a b), (4, .portCtlLoopbackStop h p a b), (5, .portCtlTestStart h p a b),
      (6, .portCtlTestStop h p a b), (7, .portCtlReturnFromFailed h p a b)] →
    (u.portRefusal p act = true → exec c s = .next (u.answered h { status := 0x10, detail := 0x0202 })) ∧
    (u.portRefusal p act = false → ∃ t v : State, exec c s = .next t ∧ v = u.portAct p act a b ∧
      t = v.answered h { result := (v.port p).state.code } ∧ (t.port p).state = (v.port p).state ∧
      (p < s.ports.length →
        (act = 0 → (t.port p).enabled = true) ∧
        (act = 0 → (s.port p).loopback = true → v = u.setPort p { s.port p with enabled := true }) ∧
        (act = 0 → (s.port p).loopback = false → v = (u.setPort p { s.port p with enabled := true }).startPort p) ∧
        (act = 1 → (t.port p).enabled = false ∧ (t.port p).state = .off) ∧
        (act = 2 → (s.port p).up = true → (t.port p).state = .retrain) ∧
        (act = 2 → (s.port p).up = false → v = u) ∧
        (act = 3 → (t.port p).loopback = true ∧ (t.port p).state = .off) ∧
        (act = 4 → (t.port p).loopback = false) ∧
        (act = 5 → (t.port p).test = some (a, b) ∧ (t.port p).state = (s.port p).state) ∧
        (act = 6 → (t.port p).test = none ∧ (t.port p).state = (s.port p).state) ∧
        (act = 7 → (s.port p).state = .failed ∧ (t.port p).state = .off)))) ∧
  (∀ (u : State) p act, u.portRefusal p act = true ↔
    (3 ≤ act ∧ act ≤ 6 ∧ u.imageRuns = true) ∨ ((act = 0 ∨ act = 1 ∨ act = 3) ∧ u.boundHop p = true) ∨
      (act = 7 ∧ (u.port p).state ≠ .failed))

/-- `POWER_CTL`: a query answers the state; an enable takes a function that is off to starting, joins the waiters of
one that is starting, is answered at once by one that is on, and waits, once, for one that is stopping; a disable does
the same with on and off changed round. What is in use by the loaded image, and what does not go together, is refused.
A point is written to `op_req`; function 0 answers the point in force; sleep is due 1 ms after its reply (17 R481 to
R485). -/
def Obligations.PowerControl : Prop :=
  (∀ s h f act point c u, Served s h (.powerCtl f act point) → u = s.begun h (.powerCtl f act point) →
    (act, c) ∈ [(0, Instr.powerCtlQuery h f point), (1, .powerCtlDisable h f point), (2, .powerCtlEnable h f point),
      (3, .powerCtlSetPoint h f point)] →
    (∀ r, u.fnInUse f act = some r → exec c s =
      .next (u.answered h { status := 0x10, detail := r, result := u.fnResult f })) ∧
    (u.fnInUse f act = none → fnValid f act point = false → exec c s =
      .next (u.answered h { status := 0x14, detail := 0x0403, result := if f ≤ 14 then u.fnResult f else 0 })) ∧
    (u.fnInUse f act = none → fnValid f act point = true →
      (act = 0 → 1 ≤ f → f ≤ 13 → exec c s = .next (u.answered h
        { status := if (s.fn f).waitEn.isEmpty then 0x00 else 0x31, result := (s.fn f).result })) ∧
      (act = 0 → f = 0 → exec c s = .next (u.answered h { result := u.kvNat kOpNow })) ∧
      (act = 0 → f = 14 → exec c s = .next (u.answered h {})) ∧
      (act = 1 → exec c s = .next (u.fnDisable f h).checkJournal) ∧
      (act = 2 → f ≤ 13 → exec c s = .next (u.fnEnable f h).checkJournal) ∧
      (act = 3 → ∃ v, v = u.writeKey kOpReq (BitVec.ofNat 64 point) ∧
        exec c s = .next (v.answered h { result := v.kvNat kOpNow })))) ∧
  (∀ (u : State) f h x, x = u.fn f →
    (x.state = .on → u.fnDisable f h = u.setFn f { x with state := .stopping, waiters := [h], since := u.now } ∧
      u.fnEnable f h = u.retire h { result := x.result }) ∧
    (x.state = .off → u.fnEnable f h = u.setFn f { x with state := .starting, waiters := [h], since := u.now } ∧
      u.fnDisable f h = u.retire h { result := x.result }) ∧
    (x.state = .starting → u.fnDisable f h = u.setFn f { x with waitDis := x.waitDis ++ [h] } ∧
      u.fnEnable f h = (u.setFn f { x with waiters := x.waiters ++ [h], waitDis := [] }).fnWithdraw f x.waitDis) ∧
    (x.state = .stopping →
      u.fnDisable f h = (u.setFn f { x with waiters := x.waiters ++ [h], waitEn := [] }).fnWithdraw f x.waitEn ∧
      (x.waitEn = [] → u.fnEnable f h = u.setFn f { x with waitEn := [h] }) ∧
      (x.waitEn ≠ [] → u.fnEnable f h = u.retire h { status := 0x31, result := x.result }))) ∧
  (∀ s h point u, Served s h (.powerCtl 14 2 point) → u = s.begun h (.powerCtl 14 2 point) →
    (s.job.img = none → ∃ t, exec (.powerCtlSleep h point) s = .next t ∧
      t = State.answered { u with pwr := { u.pwr with sleepAt := some (1800000 + s.now) } } h {} ∧
      t.pwr.sleepAt = some (1800000 + s.now) ∧ t.pwr.fns = s.pwr.fns) ∧
    (s.job.img.isSome = true → exec (.powerCtlSleep h point) s =
      .next (u.answered h { status := 0x10, detail := 0x0202, result := 0 })))

/-- `TEST_TRAFFIC` writes the keys of its channels in order and starts their generators, and retires when all have
ended; where one cannot start, it is refused. `TG_START` starts a generator whose range it may use, at its first line,
and changes nothing else where it may not; `TG_STOP` writes `tg_go` 0 and stops a running one at its next line;
`TG_LINE` of a generator told to stop ends it; else it posts a class 3 request at the channel and writes the line's
data, or reads the line and checks it, and the generator moves on; one that is not running, or that its rate, the
step, or its channel holds back, does nothing (10 R293, R305 to R307, R311; 14 R418). -/
def Obligations.TrafficGenerators : Prop :=
  (∀ s h kind first count ctl base len seed passes w u,
    Served s h (.testTraffic kind first count ctl base len seed passes) →
    u = s.begun h (.testTraffic kind first count ctl base len seed passes) →
    w = setPairs ((testChans kind first count).flatMap (fun c => testPairs c ctl base len seed passes)) 0 u [] →
    (∀ v prev, w = .ok (v, prev) →
      exec (.testTraffic h kind first count ctl base len seed passes) s = .next v.testsDone.checkJournal) ∧
    (∀ e, w = .error e → exec (.testTraffic h kind first count ctl base len seed passes) s =
      .next (u.answered h { status := e.status, detail := e.detail % 65536 }))) ∧
  (∀ s c, (s.tgAllowed c (s.tgCfg c) = false → exec (.tgStart c) s = .next s) ∧
    (s.tgAllowed c (s.tgCfg c) = true → exec (.tgStart c) s = .next ((s.writeGo c true).tgGo c true)) ∧
    ((s.chan c).tgRun = false → s.tgAllowed c (s.tgCfg c) = true → s.tgGo c true = s.tgRunNow c) ∧
    ((s.chan c).tgRun = true → s.tgGo c true = s)) ∧
  (∀ s c, ((s.chan c).tgRun = true →
      exec (.tgStop c) s = .next ((s.writeGo c false).setChan c { s.chan c with tgStop := true })) ∧
    ((s.chan c).tgRun = false → exec (.tgStop c) s = .next (s.writeGo c false))) ∧
  (∀ s c ce p, (s.chan c).tgRun = false ∨ s.tgMay c = false → exec (.tgLine c ⟨ce, p⟩) s = .next s) ∧
  (∀ s c ce p, (s.chan c).tgRun = true → s.tgMay c = true → (s.chan c).tgStop = true →
    exec (.tgLine c ⟨ce, p⟩) s = .next (s.setChan c { s.chan c with tgRun := false, tgStop := false }).testsDone) ∧
  (∀ s c ce p g x la a u v, (s.chan c).tgRun = true → s.tgMay c = true → (s.chan c).tgStop = false → g = s.tgCfg c →
    x = s.chan c → la = g.base + 64 * g.visit x.tgIdx → a = s.chanAddr c la →
    u = s.post { port := c, cls := 3, req := reqTg, addr := a, store := !x.tgRead } → v = (if ce then u.memCe c else u) →
    (x.tgRead = false → ∃ w : State, w = v.dramWr a (g.data la) ∧ exec (.tgLine c ⟨ce, p⟩) s =
      .next (w.setChan c { tgNext g (w.chan c) with tgTicks := s.now :: s.tgRecent c }).testsDone) ∧
    (x.tgRead = true → ∃ w : State, w = (if p && !v.poisoned a 64 then v.memUe a else v).tgCheck c la g ∧
      exec (.tgLine c ⟨ce, p⟩) s =
        .next (w.setChan c { tgNext g (w.chan c) with tgTicks := s.now :: s.tgRecent c }).testsDone))

/-- An accepted command that waits starts once it may: it is marked started, and its checks and effect follow; one
that may not start stays; a started one goes on while no step runs (14 R419 to R422). A command that a check of its
own fields refuses answers `REFUSED_SHAPE` and `0x0003`; one whose result does not fit answers what the check of
`res_addr` and `res_len` gives; one whose profile does not exist answers `REFUSED_FIT` and `0x0203`; nothing else of
its effect happens (14 R417, R429). -/
def Obligations.CommandsStart : Prop :=
  (∀ (s : State) i, s.clk.phase ≠ .run ∨ s.hostIf.cmds[i]? = none → exec (.queuedCommandStart i) s = .next s) ∧
  (∀ (s : State) i c, s.clk.phase = .run → s.hostIf.cmds[i]? = some c →
    (c.started = false → mayStart s.hostIf.cmds i c = false → exec (.queuedCommandStart i) s = .next s) ∧
    (c.started = false → mayStart s.hostIf.cmds i c = true → exec (.queuedCommandStart i) s = .next (State.startCmd
      { s with hostIf := { s.hostIf with cmds := setAt s.hostIf.cmds i { c with started := true } } }
      { c with started := true }
      (s.job.img.isSome || (s.hostIf.cmds.take i).any (fun d => HostOp.isLoad d.op)))) ∧
    (c.started = true → s.imageRuns = true → exec (.queuedCommandStart i) s = .next s) ∧
    (c.started = true → s.imageRuns = false →
      (c.op = .unload → exec (.queuedCommandStart i) s = .next (s.unload c.hdr)) ∧
      (∀ d n, c.op = .checkpoint d n → exec (.queuedCommandStart i) s = .next (s.capture c)) ∧
      (∀ a b n, c.op = .memCopy a b n ∨ c.op = .memFill a b n → exec (.queuedCommandStart i) s = .next (s.bulk c)) ∧
      (∀ a, c.op = .solve a ∨ c.op = .dynamics a → exec (.queuedCommandStart i) s = .next (s.takeEngines c)))) ∧
  (∀ (s : State) (c : Cmd) l, HostOp.badField c.op = true →
    s.startCmd c l = (s.retire c.hdr { status := 0x14, detail := 0x0003 }).relock) ∧
  (∀ (s : State) (c : Cmd) l a, HostOp.badField c.op = false →
    s.resultRefusal c.hdr (HostOp.resultLen c.op + HostOp.recordLen c.op c.hdr) = some a →
    s.startCmd c l = (s.retire c.hdr a).relock) ∧
  (∀ (s : State) (c : Cmd) l, HostOp.badField c.op = false →
    s.resultRefusal c.hdr (HostOp.resultLen c.op + HostOp.recordLen c.op c.hdr) = none →
    (HostOp.usesProf c.op = true → s.profNamed c.hdr.prof = false →
      s.startCmd c l = (s.retire c.hdr { status := 0x10, detail := 0x0203 }).relock) ∧
    (HostOp.usesProf c.op = false ∨ s.profNamed c.hdr.prof = true → s.startCmd c l = s.begin c l))

/-! ### Rings, replies, registers (14 R406 to R413, R424) -/

/-- A write of `en` from 0 to 1 sets the fields and clears `r_err` where its bit is 1, unless Ivory set it in the same
cycle; with no error left the ring starts: on a device that is ready it latches the ring's registers, clears its
counts and lines and sets `r_run`, and on one that is not it waits for `ready`; with an error left it does not start.
A write of `en` = 0 clears `r_run` (00 R7; 14 R406, R407). A host write of a BAR0 base register keeps the address bits
of its field, and reads back so; one of a ring's control register acts as 14 R406 says; of an offset outside the rings
or between registers it has no effect; a key write takes effect under its access code, and one that may not be written
has none (00 R6, R7; 14 R406, R427). -/
def Obligations.RingRegisters : Prop :=
  (∀ s r v g, r < s.hostIf.rings.length → bitOf v.toNat 31 = true → (s.ring r).en = false →
    g = { s.ring r with
      en := true, rErr := (s.ring r).errAfter s.now (bitOf v.toNat 29), cqLog2 := bits v.toNat 20 4
      crLog2 := bits v.toNat 16 4, vec := bits v.toNat 0 5 } →
    (g.rErr = true → exec (.ringEnable r v) s = .next (s.setRing r g)) ∧
    (g.rErr = false → s.hostIf.ready = false → exec (.ringEnable r v) s = .next (s.setRing r { g with enWait := true })) ∧
    (g.rErr = false → s.hostIf.ready = true → ∃ t, exec (.ringEnable r v) s = .next t ∧
      t.ring r = { g with
        lCr := g.crBase, lCq := g.cqBase, lRl := g.rlAddr, lSl := g.slAddr, lCrLog2 := g.crLog2, lCqLog2 := g.cqLog2
        lVec := g.vec, enWait := false, prodSeen := 0, cons := 0, cplProd := 0, cplCons := 0, errcode := 0, lastSeq := 0
        rRun := true } ∧
      (∀ q, q ≠ r → t.ring q = s.ring q) ∧ t.hostRd (hostAddr g.slAddr) 64 = List.replicate 64 0 ∧
      (hostAddr g.rlAddr + 8 ≤ hostAddr g.slAddr ∨ hostAddr g.slAddr + 64 ≤ hostAddr g.rlAddr →
        t.hostRd (hostAddr g.rlAddr) 8 = List.replicate 8 0))) ∧
  (∀ s r v, bitOf v.toNat 31 = true → (s.ring r).en = true → exec (.ringEnable r v) s = .next s) ∧
  (∀ s r v, r < s.hostIf.rings.length → bitOf v.toNat 31 = false →
    exec (.ringDisable r v) s = .next (s.setRing r { s.ring r with
      en := false, rRun := false, enWait := false, rErr := (s.ring r).errAfter s.now (bitOf v.toNat 29)
      cqLog2 := bits v.toNat 20 4, crLog2 := bits v.toNat 16 4, vec := bits v.toNat 0 5 })) ∧
  (∀ (g : Ring) now, g.errAfter now false = g.rErr ∧ (g.errAt ≠ some now → g.errAfter now true = false) ∧
    (g.errAt = some now → g.errAfter now true = g.rErr)) ∧
  (∀ s r v m, r < 16 → m = BitVec.ofNat 64 0xFFFFFFFFFFFFF000 →
    (exec (.registerWrite (.bar (256 * r) v)) s = .next (s.setRing r { s.ring r with crBase := v &&& m })) ∧
    (exec (.registerWrite (.bar (256 * r + 0x08) v)) s = .next (s.setRing r { s.ring r with cqBase := v &&& m })) ∧
    (r < s.hostIf.rings.length → (s.setRing r { s.ring r with crBase := v &&& m }).readBar (256 * r) = v &&& m ∧
      (s.setRing r { s.ring r with cqBase := v &&& m }).readBar (256 * r + 0x08) = v &&& m)) ∧
  (∀ s r v m, r < 16 → m = BitVec.ofNat 64 0xFFFFFFFFFFFFFFC0 →
    (exec (.registerWrite (.bar (256 * r + 0x10) v)) s = .next (s.setRing r { s.ring r with rlAddr := v &&& m })) ∧
    (exec (.registerWrite (.bar (256 * r + 0x18) v)) s = .next (s.setRing r { s.ring r with slAddr := v &&& m })) ∧
    (r < s.hostIf.rings.length → (s.setRing r { s.ring r with rlAddr := v &&& m }).readBar (256 * r + 0x10) = v &&& m ∧
      (s.setRing r { s.ring r with slAddr := v &&& m }).readBar (256 * r + 0x18) = v &&& m)) ∧
  (∀ s r v, r < 16 → exec (.registerWrite (.bar (256 * r + 0x20) v)) s = .next (s.writeCtl r (v.truncate 32))) ∧
  (∀ s off v, 0x1000 ≤ off ∨ off % 256 ∉ [0x00, 0x08, 0x10, 0x18, 0x20] →
    exec (.registerWrite (.bar off v)) s = .next s) ∧
  (∀ s k v, s.writeRefusal k v = none → s.startRefused k v = false →
    exec (.registerWrite (.key k v)) s = .next (s.writeKey k v)) ∧
  (∀ s k v, (s.writeRefusal k v).isSome = true ∨ s.startRefused k v = true →
    exec (.registerWrite (.key k v)) s = .next s) ∧
  (∀ (r : KeyRow) (old v : BitVec 64), (r.acc = .ro → r.newValue old v = old) ∧
    (r.acc = .w1c → r.newValue old v = old &&& ~~~(v &&& ~~~(BitVec.ofNat 64 r.roBits))) ∧
    (r.acc = .rw ∨ r.acc = .rwl → ∀ k, k < 64 →
      (r.newValue old v).getLsbD k = if r.roBits.testBit k then old.getLsbD k else v.getLsbD k))

/-- A ring line that the host writes is read again: its counts are taken, the host's line holds them, `snoop_wake`
counts; an overrun stops the ring with error code 1. `RING_POLL`, once `ring_poll` microseconds have passed, reads the
lines of running rings again, one after the other, and counts `poll_wake` for each with new work; before that, and for
a ring that is stopped, nothing changes (14 R408, R410, R412, R430). A held reply is posted once the completion ring
has room: `cpl_prod` moves on, the reply leaves the queue, and its 32 bytes stand in its slot where the status line
does not lie over it; without one, or without room, nothing changes; a completion write that fails stops the ring with
error code 3 (14 R408, R412, R413, R415). A full journal frees the entries that R424 says before packets are read
again; one that is not full stays (14 R424). -/
def Obligations.RingTraffic : Prop :=
  (∀ s r p c u, r < s.hostIf.rings.length → (s.ring r).rRun = true →
    u = (s.hostWr (hostAddr (s.ring r).lRl) (toLe 4 p ++ toLe 4 c)).countNow kSnoopWake 1 →
    exec (.ringLineSnoop r p c) s = .next (u.rereadLine r p c)) ∧
  (∀ s r p c, (s.ring r).rRun = false → exec (.ringLineSnoop r p c) s = .next s ∧ s.pollLine (r, p, c) = s) ∧
  (∀ (s : State) r p c, r < s.hostIf.rings.length →
    cntDiff (p % 2 ^ 32) (s.ring r).cons ≤ ringSlots (s.ring r).lCrLog2 →
    s.rereadLine r p c = s.setRing r { s.ring r with prodSeen := p % 2 ^ 32, cplCons := c % 2 ^ 32 }) ∧
  (∀ (s : State) r p c, r < s.hostIf.rings.length →
    ringSlots (s.ring r).lCrLog2 < cntDiff (p % 2 ^ 32) (s.ring r).cons → ∃ t, t = s.rereadLine r p c ∧
      t.ring r = { s.ring r with
        prodSeen := p % 2 ^ 32, cplCons := c % 2 ^ 32, rErr := true, errAt := some s.now, errcode := 1, rRun := false } ∧
      t.hostRd (hostAddr (s.ring r).lSl) 12 = toLe 4 (s.ring r).cons ++ toLe 4 (s.ring r).cplProd ++ toLe 4 1) ∧
  (∀ s ls, (s.now < 1800 * s.kvNat kRingPoll + s.hostIf.lastPoll → exec (.ringPoll ls) s = .next s) ∧
    (1800 * s.kvNat kRingPoll + s.hostIf.lastPoll ≤ s.now → exec (.ringPoll ls) s =
      .next (ls.foldl State.pollLine { s with hostIf := { s.hostIf with lastPoll := s.now } }))) ∧
  (∀ (s : State) r p c, (s.ring r).rRun = true →
    (p % 2 ^ 32 ≠ (s.ring r).prodSeen → s.pollLine (r, p, c) = (s.countNow kPollWake 1).rereadLine r p c) ∧
    (p % 2 ^ 32 = (s.ring r).prodSeen → s.pollLine (r, p, c) = s.rereadLine r p c)) ∧
  (∀ s r x rest a, r < s.hostIf.rings.length → (s.ring r).held = x :: rest → (s.ring r).room = true →
    a = hostAddr (s.ring r).lCq + 32 * ((s.ring r).cplProd % ringSlots (s.ring r).lCqLog2) →
    ∃ t, exec (.replyPost ⟨r, false⟩) s = .next t ∧ t = (s.setRing r { s.ring r with held := rest }).postReply r x ∧
      t.ring r = { s.ring r with held := rest, cplProd := ((s.ring r).cplProd + 1) % 2 ^ 32 } ∧
      (a + 32 ≤ hostAddr (s.ring r).lSl ∨ hostAddr (s.ring r).lSl + 12 ≤ a → t.hostRd a 32 =
        x.encode (decide ((s.ring r).cplProd / ringSlots (s.ring r).lCqLog2 % 2 = 0)))) ∧
  (∀ s r x rest, (s.ring r).held = x :: rest → (s.ring r).room = true → (s.ring r).rRun = true →
    exec (.replyPost ⟨r, true⟩) s = .next (s.stopRing r 3)) ∧
  (∀ s r b, (s.ring r).held = [] ∨ (s.ring r).room = false → exec (.replyPost ⟨r, b⟩) s = .next s) ∧
  (∀ (s : State) r k, r < s.hostIf.rings.length → ∃ t, t = s.stopRing r k ∧
    t.ring r = { s.ring r with rErr := true, errAt := some s.now, errcode := k, rRun := false }) ∧
  (∀ s j, j = freeEntries s.hostIf.wm s.hostIf.journal → s.hostIf.jfull = true →
    journalMax ≤ s.hostIf.journal.length → exec .journalResume s =
      .next { s with hostIf := { s.hostIf with journal := j, jfull := decide (journalMax ≤ j.length) } }) ∧
  (∀ s, s.hostIf.jfull = true → s.hostIf.journal.length < journalMax →
    exec .journalResume s = .next { s with hostIf := { s.hostIf with jfull := false } }) ∧
  (∀ s, s.hostIf.jfull = false → exec .journalResume s = .next s)

/-! ### Rails, start-up and resets (17 R463 to R486) -/

/-- A rail that comes up is added to the rails that are good. A lost rail leaves them: an always-on one takes the
package to the off state; a fast one while the fast domains are off changes nothing else; while they are on it engages
the clamps, stops the regulators and stops Ash's start-up with the report `RAIL_LOST`, and the package is retired (17
R466, R469; 20 R541). `POWER_ON_RESET` with both always-on rails good begins a cold start: no parameter keeps its
value, no image is loaded, memory is undefined anew, Ash's PLL is awaited; with one of them missing nothing happens
(17 R466, R480). -/
def Obligations.RailsAndPowerOn : Prop :=
  (∀ (s : State) r, (s.pwr.rails.contains r = true → exec (.railGood r) s = .next s) ∧
    (s.pwr.rails.contains r = false → exec (.railLost r) s = .next s ∧
      exec (.railGood r) s = .next { s with pwr := { s.pwr with rails := s.pwr.rails ++ [r] } })) ∧
  (∀ (s : State) r, s.pwr.rails.contains r = true → r = .vaon ∨ r = .vioAon →
    ∃ t, exec (.railLost r) s = .next t ∧ t.clk.phase = .off ∧ t.pwr.rails = s.pwr.rails.filter (fun q => q != r) ∧
      t.hostIf.ready = false ∧ t.job.img = none ∧ t.pending = s.pending) ∧
  (∀ (s : State) r, s.pwr.rails.contains r = true → r ≠ .vaon → r ≠ .vioAon → s.pwr.regs = false →
    exec (.railLost r) s = .next { s with pwr := { s.pwr with rails := s.pwr.rails.filter (fun q => q != r) } }) ∧
  (∀ (s : State) r, s.pwr.rails.contains r = true → r ≠ .vaon → r ≠ .vioAon → s.pwr.regs = true →
    ∃ t, exec (.railLost r) s = .next t ∧ t.pwr.clamps = true ∧ t.pwr.regs = false ∧ t.clk.phase = .ash ∧
      t.clk.row = .stopped ∧ t.clk.report = some .railLost ∧ t.job.img = none ∧ t.flt.retired = true ∧
      t.pwr.rails = s.pwr.rails.filter (fun q => q != r)) ∧
  (∀ s : State, s.pwr.rails.contains .vaon = true → s.pwr.rails.contains .vioAon = true →
    ∃ t, exec .powerOnReset s = .next t ∧ t.kv = [] ∧ t.acc = [] ∧ t.job.img = none ∧ t.hostIf.journal = [] ∧
      t.clk.phase = .ash ∧ t.clk.row = .ref ∧ t.clk.cold = true ∧ t.pwr.rails = s.pwr.rails ∧
      t.sec.fuses = s.sec.fuses ∧ t.sec.flash = s.sec.flash ∧ t.flt.log = s.flt.log ∧ t.mem.host = s.mem.host ∧
      ∀ a, a < 2 ^ 48 → t.mem.dram.read a = Config.freeByte (s.mem.memGen + 1) a) ∧
  (∀ s : State, s.pwr.rails.contains .vaon = false ∨ s.pwr.rails.contains .vioAon = false →
    exec .powerOnReset s = .next s)

/-- The rows of the cold-start table up to the boot ROM: the Ash PLL locks, each strap clock edge shifts one bit into
the strap word and counts, a merged one counts no bit and sets `SHD0`'s `CHATTER`, and Ash leaves reset with Cobalt
time 0, at the verification row when the strap word is well formed and stopped with `STRAP_BAD` when it is not;
outside their row they do nothing (13 R381; 17 R482; 18 R494, R496). The boot ROM starts the preferred slots when it
accepts them, otherwise the other ones; with neither it stops with `IMAGE_BAD`. In a cold start the package takes its
place from the strap word when it agrees with the table it names, and stops with `STRAP_BAD` when it does not or names
none; in a warm start it keeps its place. Outside its row it does nothing (13 R380 to R382; 17 R482; 19 R512, R513).
-/
def Obligations.StrapAndBootRom : Prop :=
  (∀ s : State, (s.clk.phase = .ash → s.clk.row = .ref →
      exec .ashPllLock s = .next { s with clk := { s.clk with row := .strap, ashPll := true } }) ∧
    (s.clk.phase ≠ .ash ∨ s.clk.row ≠ .ref → exec .ashPllLock s = .next s)) ∧
  (∀ (s : State) b, s.clk.row = .strap → s.clk.ashPll = true →
    ∃ t, exec (.strapClockEdge b false) s = .next t ∧ t.pins.strapWord.getLsbD 63 = b ∧
      (∀ i, i < 63 → t.pins.strapWord.getLsbD i = s.pins.strapWord.getLsbD (i + 1)) ∧
      t.kvNat kStrapBits = satAdd (s.kvNat kStrapBits) 1 ∧ t.kvNat kPinEvents = satAdd (s.kvNat kPinEvents) 1 ∧
      t.pins.strapMerged = s.pins.strapMerged ∧ t.clk = s.clk) ∧
  (∀ (s : State) b, s.clk.row = .strap → s.clk.ashPll = true →
    ∃ t, exec (.strapClockEdge b true) s = .next t ∧ t.pins.strapWord = s.pins.strapWord ∧ t.pins.strapMerged = true ∧
      (t.kvGet kPinStatus).getLsbD 0 = true ∧ t.kvNat kStrapBits = s.kvNat kStrapBits ∧ t.clk = s.clk) ∧
  (∀ (s : State) b m, s.clk.row ≠ .strap ∨ s.clk.ashPll = false →
    exec (.strapClockEdge b m) s = .next s ∧ exec .ashResetRelease s = .next s) ∧
  (∀ s : State, s.clk.row = .strap → s.clk.ashPll = true →
    ∃ t, exec .ashResetRelease s = .next t ∧ t.clk.ashOut = true ∧ t.clk.cobalt = 0 ∧ t.clk.verifyAt = 0 ∧
      t.pins.strapWord = s.pins.strapWord ∧
      (s.strapOk = true → t.clk.row = .verify ∧ t.clk.report = s.clk.report) ∧
      (s.strapOk = false → t.clk.row = .stopped ∧ t.clk.report = some .strapBad)) ∧
  (∀ (s : State) fl f fw cfg u, s.clk.row = .verify → s.clk.ashOut = true → f = (if s.sec.flash = {} then fl else s.sec.flash) →
    pickSlot (fun n => s.sec.fuses.accepts 1 (flashFw f n)) f.prefFw = some fw →
    pickSlot (fun n => s.sec.fuses.accepts 2 (flashCfg f n)) f.prefCfg = some cfg → u = s.startFw f fw cfg →
    (u.sec.booted = true ∧ u.sec.fwSlot = fw ∧ u.sec.cfgSlot = cfg ∧ u.sec.flash = f ∧
      u.sec.policy = (flashCfg f cfg).cfg ∧
      u.sec.fallback = (decide (fw ≠ f.prefFw % 2) || decide (cfg ≠ f.prefCfg % 2))) ∧
    (∀ t, s.clk.cold = true → (flashCfg f cfg).cfg.tables[bits s.pins.strapWord.toNat 48 8]? = some t →
      strapFits s.pins.strapWord.toNat t = true → ∃ v, exec (.bootRomVerify fl) s = .next v ∧
        v = (u.takePlace t).toRow .rails ∧ v.sec = u.sec ∧ v.torus.table = t ∧
        v.torus.role = bits s.pins.strapWord.toNat 36 4) ∧
    (∀ t, s.clk.cold = true → (flashCfg f cfg).cfg.tables[bits s.pins.strapWord.toNat 48 8]? = some t →
      strapFits s.pins.strapWord.toNat t = false →
      exec (.bootRomVerify fl) s = .next (u.stopBoot .strapBad .strapBad)) ∧
    (s.clk.cold = true → (flashCfg f cfg).cfg.tables[bits s.pins.strapWord.toNat 48 8]? = none →
      exec (.bootRomVerify fl) s = .next (u.stopBoot .strapBad .strapBad)) ∧
    (s.clk.cold = false → ∃ t, t = (flashCfg f cfg).cfg.tables[bits s.pins.strapWord.toNat 48 8]?.getD {} ∧
      exec (.bootRomVerify fl) s = .next (State.toRow { u with torus := { u.torus with table := t } } .rails))) ∧
  (∀ (s : State) fl f, s.clk.row = .verify → s.clk.ashOut = true → f = (if s.sec.flash = {} then fl else s.sec.flash) →
    (s.sec.fuses.accepts 1 f.fwA = false ∧ s.sec.fuses.accepts 1 f.fwB = false) ∨
      (s.sec.fuses.accepts 2 f.cfgA = false ∧ s.sec.fuses.accepts 2 f.cfgB = false) →
    ∃ u, exec (.bootRomVerify fl) s = .next u ∧ u.clk.row = .stopped ∧ u.clk.report = some .imageBad) ∧
  (∀ (s : State) fl, s.clk.row ≠ .verify ∨ s.clk.ashOut = false → exec (.bootRomVerify fl) s = .next s) ∧
  (∀ ok p, pickSlot ok p = some (p % 2) ↔ ok (p % 2) = true) ∧
  (∀ ok p, ok (p % 2) = false → ok (1 - p % 2) = true → pickSlot ok p = some (1 - p % 2)) ∧
  (∀ ok p, ok (p % 2) = false → ok (1 - p % 2) = false → pickSlot ok p = none)

/-- The rows from the rails to `ready`: the regulators come up once every rail is good, Cobalt counting passes to the
core clock at a multiple of 18 with the field PLLs locked, the spare tiles are mapped and the ports start to train
after the self-test, and memory training with the population's density ends in `ready`; a bad tile, a bad channel, a
package of another density and an exceeded limit stop the boot with the row's report; outside their row, or before the
limit, nothing happens (01 R15; 10 R309; 17 R472, R473, R482). -/
def Obligations.BootToReady : Prop :=
  (∀ s : State, s.clk.row = .rails → (∀ r ∈ allRails, s.pwr.rails.contains r = true) →
    exec .fastRailsReady s = .next { s with
      pwr := { s.pwr with regs := true, clamps := false }
      clk := { s.clk with phase := .boot, row := .plls, railsAt := s.now } }) ∧
  (∀ s : State, s.clk.row ≠ .rails ∨ (∃ r ∈ allRails, s.pwr.rails.contains r = false) →
    exec .fastRailsReady s = .next s) ∧
  (∀ s : State, (s.clk.row = .plls → exec .corePllLock s = .next { s with clk := { s.clk with
      row := .selfTest, corePll := true, fieldPll := [true, true, true, true]
      cobalt := BitVec.ofNat 64 (alignUp s.now 18) } }) ∧
    (s.clk.row ≠ .plls → exec .corePllLock s = .next s)) ∧
  (∀ s : State, s.clk.row = .selfTest → s.ok = true →
    ∃ t, exec (.ivorySelfTestDone none) s = .next t ∧ t.clk.row = .memTrain ∧
      t.sec.spares = s.sec.policy.repair.filter (fun r => decide (r.1 < 224)) ∧
      (∀ f, 1 ≤ f → f ≤ 12 → (t.fn f).state = .on) ∧
      ∀ p, p < 8 → (s.port p).state = .off →
        (t.port p).state = if t.mayTrain p = true ∧ s.flt.retired = false then .pmdTrain else .off) ∧
  (∀ (s : State) b, s.clk.row = .selfTest →
    ∃ t, exec (.ivorySelfTestDone (some b)) s = .next t ∧ t.clk.row = .stopped ∧ t.clk.report = some (.tileBist (some b))) ∧
  (∀ (s : State) b, s.clk.row ≠ .selfTest → exec (.ivorySelfTestDone b) s = .next s) ∧
  (∀ (s : State) ds, s.clk.row = .memTrain → wrongPackage s.sec.policy.lpGib ds = none →
    ∃ t, exec (.memoryTrainingDone ds none) s = .next t ∧ t.hostIf.ready = true ∧ t.hostIf.inReset = false ∧
      t.clk.phase = .run ∧ t.clk.row = .done ∧ t.kvNat kLpGib = s.sec.policy.lpGib ∧
      t.sec.fuses.svFw = max s.sec.fuses.svFw (flashFw s.sec.flash s.sec.fwSlot).secver ∧
      t.sec.fuses.svCfg = max s.sec.fuses.svCfg (flashCfg s.sec.flash s.sec.cfgSlot).secver) ∧
  (∀ n ds, wrongPackage n ds = none ↔ (n = 32 ∨ n = 64 ∨ n = 128) ∧ ∀ k, k < 16 → ds.getD k 0 = n) ∧
  (∀ (s : State) ds c, s.clk.row = .memTrain →
    (∃ t, exec (.memoryTrainingDone ds (some c)) s = .next t ∧ t.clk.row = .stopped ∧
      t.clk.report = some (.memTrain (some c))) ∧
    (wrongPackage s.sec.policy.lpGib ds = some c → ∃ t, exec (.memoryTrainingDone ds none) s = .next t ∧
      t.clk.row = .stopped ∧ t.clk.report = some (.memTrain (some c)))) ∧
  (∀ (s : State) ds c, s.clk.row ≠ .memTrain → exec (.memoryTrainingDone ds c) s = .next s) ∧
  (∀ (s : State) r e, s.clk.phase ≠ .off → s.rowLimit ≤ s.now → s.rowReport = some (r, e) →
    ∃ t, exec .bootLimitExceeded s = .next t ∧ t.clk.row = .stopped ∧ t.clk.report = some r) ∧
  (∀ s : State, s.clk.phase = .off ∨ s.now < s.rowLimit ∨ s.rowReport = none → exec .bootLimitExceeded s = .next s)

/-- A warm reset, from `PERST#`, a wake or `RESET_FUNCTION` kind 0: reading stops, the CXL link and the fast domains
go down, no image is loaded, nothing is in HBM4 or the tile stores any more; Cobalt time, LPDDR5X, the journal and W
stay, and the start-up resumes at the verification row. The reply of kind 0 is recorded before it. A wake acts only in
sleep, and neither acts while Ash is in reset, without a strap word, retired or tripped (10 R310; 14 R424, R426, R428;
17 R480). Sleep is entered 1 ms after its reply with no image loaded: the fast domains and the CXL link go off and
`ALERT_N` is low; before that, or with an image, nothing happens. A falling event of `SHD3` or `SHD5` in sleep that is
armed and outside a window performs a warm reset; a merged or masked change only changes the pin, and outside sleep
nothing happens (17 R479, R481; 18 R493, R496 to R498). -/
def Obligations.ResetsAndSleep : Prop :=
  (∀ s : State, Restarted s s.warmReset) ∧
  (∀ s : State, s.canWarm = true → exec (.warmReset .perst) s = .next s.warmReset ∧
    (s.clk.phase = .sleep → exec (.warmReset .wake) s = .next s.warmReset) ∧
    (s.clk.phase ≠ .sleep → exec (.warmReset .wake) s = .next s)) ∧
  (∀ (s : State) c, s.canWarm = false → exec (.warmReset c) s = .next s) ∧
  (∀ s h u, Served s h (.resetFunction 0) → u = s.begun h (.resetFunction 0) →
    (h.seq = 0 → exec (.resetFunctionWarm h) s = .next (u.retire h {}).warmReset.checkJournal) ∧
    (h.seq ≠ 0 → exec (.resetFunctionWarm h) s = .next (State.checkJournal (State.warmReset (State.raiseW
      (u.modJournal h.seq (fun e => if e.state = 1 ∧ e.hdr = h then
        { e with state := 2, reply := answerReply h {} } else e))))))) ∧
  (∀ (s : State) d, s.pwr.sleepAt = some d → d ≤ s.now → s.job.img = none → s.clk.phase = .run →
    ∃ t, exec .sleepEntry s = .next t ∧ t.clk.phase = .sleep ∧ t.pins.alert = true ∧ t.hostIf.ready = false ∧
      t.hostIf.cxlUp = false ∧ t.pwr.sleepAt = none ∧ t.pwr.lpSelfRefresh = true ∧ t.pwr.regs = false ∧
      t.clk.corePll = false ∧ t.clk.cobalt = s.clk.cobalt) ∧
  (∀ s : State, s.pwr.sleepAt = none ∨ (∃ d, s.pwr.sleepAt = some d ∧ s.now < d) ∨ s.job.img.isSome = true ∨
    s.clk.phase ≠ .run → exec .sleepEntry s = .next s) ∧
  (∀ (s : State) n, s.clk.phase = .sleep → n = 3 ∨ n = 5 →
    (s.pinFree n = true → ((s.pinChange n false).pin n).armed = true →
      exec (.wakeInput n) s = .next (s.pinChange n false).warmReset) ∧
    (s.pinFree n = false ∨ ((s.pinChange n false).pin n).armed = false →
      exec (.wakeInput n) s = .next (s.pinChange n false))) ∧
  (∀ (s : State) n, s.clk.phase ≠ .sleep ∨ (n ≠ 3 ∧ n ≠ 5) → exec (.wakeInput n) s = .next s) ∧
  (∀ (s : State) n, n < s.pins.inp.length → s.pinFree n = true → ((s.pinChange n false).pin n).armed = true)

/-- A function that has powered up, after its time, is on, with its field's PLL locked or its port training; one that
has shut down is off with its tiles, engine and PLL lock, or its port; the commands that waited are answered, and a
request of the other kind that waited begins at once. Before that time, and in another state, nothing happens (17
R473, R483 to R485). The operating point: a change of guard band that is due puts the new point in force, and not
before; every 2^20 Cobalt ticks without a running image the tile-store errors are counted, the readings are taken and
the point is evaluated: it comes in force at once where the guard band stays, and after `t_op_change` where it does
not (01 R25; 10 R273; 17 R475 to R477). -/
def Obligations.FunctionsAndPoint : Prop :=
  (∀ (s : State) f, f < s.pwr.fns.length → (s.fn f).state = .starting → upTime f + (s.fn f).since ≤ s.now →
    ∃ t u, exec (.functionPowerUpDone f) s = .next t ∧
      u = (State.fnReply (s.setFn f { s.fn f with state := .on, waiters := [] }) f (s.fn f).waiters).fnUp f ∧
      ((s.fn f).waitDis = [] → t = u ∧ t.fn f = { s.fn f with state := .on, waiters := [] }) ∧
      ((s.fn f).waitDis ≠ [] → t = u.setFn f { state := .stopping, waiters := (s.fn f).waitDis, since := s.now }) ∧
      (∀ g, g ≠ f → t.fn g = s.fn g) ∧ (1 ≤ f → f ≤ 4 → f ≤ s.clk.fieldPll.length → t.fieldPll (f - 1) = true)) ∧
  (∀ (s : State) f, f < s.pwr.fns.length → (s.fn f).state = .stopping → downTime f + (s.fn f).since ≤ s.now →
    ∃ t u, exec (.functionShutdownDone f) s = .next t ∧
      u = State.fnReply (State.fnOff (s.setFn f { state := .off }) f) f (s.fn f).waiters ∧
      ((s.fn f).waitEn = [] → t = u ∧ t.fn f = { state := .off }) ∧
      ((s.fn f).waitEn ≠ [] → t = u.setFn f { state := .starting, waiters := (s.fn f).waitEn, since := s.now }) ∧
      (1 ≤ f → f ≤ 4 → f ≤ s.engines.length → t.engine (f - 1) = {} ∧ t.fieldPll (f - 1) = false ∧
        ∀ v, 56 * (f - 1) ≤ v → v < 56 * f → t.tile v = {}) ∧
      (5 ≤ f → f ≤ 12 → f ≤ s.ports.length + 4 → (t.port (f - 5)).state = .off)) ∧
  (∀ (s : State) f, (s.fn f).state ≠ .starting ∨ s.now < upTime f + (s.fn f).since →
    exec (.functionPowerUpDone f) s = .next s) ∧
  (∀ (s : State) f, (s.fn f).state ≠ .stopping ∨ s.now < downTime f + (s.fn f).since →
    exec (.functionShutdownDone f) s = .next s) ∧
  (∀ (s : State) p d, s.pwr.opChange = some (p, d) → d ≤ s.now → p ≤ 3 →
    ∃ t, exec .opChangeDone s = .next t ∧ t.kvNat kOpNow = p ∧ t.pwr = { s.pwr with opChange := none } ∧
      ∀ k, k ≠ kOpNow → t.kvGet k = s.kvGet k) ∧
  (∀ s : State, s.pwr.opChange = none ∨ (∃ p d, s.pwr.opChange = some (p, d) ∧ s.now < d) →
    exec .opChangeDone s = .next s) ∧
  (∀ (s : State) i, s.imageRuns = false → s.clk.phase = .run → s.now % 2 ^ 20 = 0 → s.pwr.opChange = none →
    ∃ u t, u = ((s.tileErrors i).takeReadings i).sensorTriggers ∧ exec (.idleBoundary i) s = .next t ∧
      t.kvNat kOpCause = u.causeBits ∧
      (guardDiffers u.pointNow (s.kvNat kOpNow) = false → t.kvNat kOpNow = u.pointNow ∧ t.pwr.opChange = none) ∧
      (guardDiffers u.pointNow (s.kvNat kOpNow) = true → t.kvNat kOpNow = s.kvNat kOpNow ∧
        t.pwr.opChange = some (u.pointNow, s.now + s.kvNat kTOpChange))) ∧
  (∀ (s : State) i, s.imageRuns = true ∨ s.clk.phase ≠ .run ∨ s.now % 2 ^ 20 ≠ 0 ∨ s.pwr.opChange ≠ none →
    exec (.idleBoundary i) s = .next s) ∧
  (∀ s : State, s.pointNow = max (min 3 (s.kvNat kOpReq)) (max (if s.pwr.throttle = true ∨ s.pwr.trig100 = true then 2 else 0)
    (max (if s.pwr.trig105 = true then 3 else 0) (s.pwr.trigPwr.getD 0))))

/-- A sensor at or above 110 °C trips the package: `trips` counts, clamps engage, the regulators stop, no image is
loaded and the package is retired. The trip clears once the hottest sensor reads below 90 °C. Readings short of that,
a second trip, and one without regulators change nothing (17 R478; 20 R541). A mismatch of Ivory's lockstep cores
after the self-test retires the package by Ash: the CXL controller is held in reset, the device is not ready, no
command is left, and `ALERT_N` is low; before the self-test, and in a package retired already, nothing changes (20
R541). -/
def Obligations.AshRetires : Prop :=
  (∀ (s : State) rs, (∃ r ∈ rs, 110 * 16 ≤ r) → s.pwr.regs = true → s.pwr.tripped = false →
    ∃ t, exec (.thermalTrip rs) s = .next t ∧ t.pwr.tripped = true ∧ t.pwr.clamps = true ∧ t.pwr.regs = false ∧
      t.pwr.sensors = rs ∧ t.flt.retired = true ∧ t.job.img = none ∧ t.clk.phase = .ash ∧ t.clk.row = .stopped ∧
      t.kvNat kTrips = satAdd (s.kvNat kTrips) 1) ∧
  (∀ (s : State) rs, (∀ r ∈ rs, r < 110 * 16) ∨ s.pwr.regs = false ∨ s.pwr.tripped = true →
    exec (.thermalTrip rs) s = .next s) ∧
  (∀ (s : State) rs, rs ≠ [] → (∀ r ∈ rs, r < 90 * 16) → s.pwr.tripped = true →
    exec (.tripClear rs) s = .next { s with pwr := { s.pwr with sensors := rs, tripped := false } }) ∧
  (∀ (s : State) rs, rs = [] ∨ (∃ r ∈ rs, 90 * 16 ≤ r) ∨ s.pwr.tripped = false → exec (.tripClear rs) s = .next s) ∧
  (∀ s : State, s.clk.row = .memTrain ∨ s.clk.phase = .run → s.flt.retired = false →
    ∃ t, exec .ivoryLockstepMismatch s = .next t ∧ t.flt.retired = true ∧ t.flt.ivoryStopped = true ∧
      t.hostIf.cxlHeld = true ∧ t.hostIf.cxlUp = false ∧ t.hostIf.ready = false ∧ t.hostIf.cmds = [] ∧
      t.pins.alert = true) ∧
  (∀ s : State, (s.clk.row ≠ .memTrain ∧ s.clk.phase ≠ .run) ∨ s.flt.retired = true →
    exec .ivoryLockstepMismatch s = .next s)

/-- `THROTTLE_N` and `FAULT_N`: a filtered change outside a window, of a pin not masked, is an event: the pin has the
level, a window of 1,000 ac opens, and the event is counted; in a window it is merged and sets `CHATTER`. The throttle
trigger follows `THROTTLE_N`; a `FAULT_N` event acts by `fltn_act`, on a job that runs: it ends the step in progress
or the next one, stops the job at the boundary, or retires the package; without a job that runs it writes a record.
Outside the run phase neither acts (17 R477; 18 R496 to R498; 20 R538). The end of a pin's window with the level its
last event left closes it; another level is a new event, and either shows a merged change where the level differs from
the last one. An input active for more than 100 ms is masked, its `STUCK` bit set and the event reported; a masked
input that is sampled inactive is unmasked, and one sampled active stays masked; none of it happens before its time
(18 R496, R497). The latched Cobalt time at a validated edge of `SYNC_PPS` that is an event becomes `pps_tick`; an
edge in the pin's window only changes the pin; one that the filter does not validate, of a masked pin, or outside the
run phase changes nothing (18 R496, R497, R499). -/
def Obligations.ShadeInputs : Prop :=
  (∀ (s : State) low, s.ok = true → s.pinPhase = 2 → s.pinFree 5 = true → (s.pin 5).level = low →
    ∃ t, exec (.throttleN low) s = .next t ∧ (t.pin 5).level = !low ∧ t.pwr.throttle = low ∧
      (t.pin 5).windowEnd = some (eventWindow + s.now) ∧ t.kvNat kPinEvents = satAdd (s.kvNat kPinEvents) 1 ∧
      ∀ n, n ≠ 5 → t.pin n = s.pin n) ∧
  (∀ (s : State) low, s.pinPhase = 2 → s.pinFree 5 = false → (s.pin 5).masked = false → (s.pin 5).level = low →
    exec (.throttleN low) s = .next (s.mergePin 5 (!low)).throttlePin) ∧
  (∀ (s : State) low, s.pinPhase = 2 → (s.pin 5).masked = true →
    exec (.throttleN low) s = .next (s.setPin 5 { s.pin 5 with level := !low }).throttlePin) ∧
  (∀ (s : State) low, s.pinPhase ≠ 2 ∨ ((s.pin 5).masked = false ∧ (s.pin 5).level = !low) →
    exec (.throttleN low) s = .next s) ∧
  (∀ s : State, s.ok = true → s.pinPhase = 2 → s.pinFree 3 = true → s.flt.retired = false →
    exec .faultN s = .next (s.pinChange 3 false).faultN) ∧
  (∀ s : State, s.pinPhase = 2 → s.pinFree 3 = false ∨ s.flt.retired = true →
    exec .faultN s = .next (s.pinChange 3 false)) ∧
  (∀ s : State, s.pinPhase ≠ 2 → exec .faultN s = .next s) ∧
  (∀ s : State, s.imageRuns = true →
    (s.kvNat kFltnAct = 0 → s.job.inStep = true → s.faultN = s.contained (faultNRec 1)) ∧
    (s.kvNat kFltnAct = 0 → s.job.inStep = false →
      ∃ u, u = s.record (faultNRec 1) ∧ s.faultN = { u with job := { u.job with faultNext := true } }) ∧
    (s.kvNat kFltnAct = 1 →
      ∃ u, u = s.record (faultNRec 2) ∧ s.faultN = { u with job := { u.job with fltnHalt := true } }) ∧
    (2 ≤ s.kvNat kFltnAct → s.faultN = s.retirePackage (faultNRec 3))) ∧
  (∀ s : State, s.imageRuns = false → s.faultN = s.record (faultNRec (s.kvNat kFltnAct + 1))) ∧
  (∀ (s : State) n w l u, n < s.pins.inp.length → (s.pin n).windowEnd = some w → w ≤ s.now → s.pinPhase ≠ 1 →
    (s.pin n).masked = false → u = (if (s.pin n).level = l then s else s.mergePin n l) →
    (l = (s.pin n).evLevel → exec (.eventWindowEnd n l) s = .next (u.setPin n { u.pin n with windowEnd := none })) ∧
    (l ≠ (s.pin n).evLevel → exec (.eventWindowEnd n l) s =
      .next (((u.setPin n ((u.pin n).take n s.now l)).countNow kPinEvents 1).pinAct n l))) ∧
  (∀ (s : State) n l, (s.pin n).windowEnd = none ∨ (∃ w, (s.pin n).windowEnd = some w ∧ s.now < w) ∨ s.pinPhase = 1 ∨
    (s.pin n).masked = true → exec (.eventWindowEnd n l) s = .next s) ∧
  (∀ (s : State) n a, s.ok = true → (s.pin n).activeSince = some a → s.pinPhase ≠ 1 → 3 ≤ n → n ≤ 5 →
    (s.pin n).masked = false → stuckTime + a < s.now →
    ∃ t, exec (.stuck n) s = .next t ∧ (t.pin n).masked = true ∧ (t.pin n).activeSince = none ∧
      (t.kvGet kPinStatus).getLsbD (8 + n) = true ∧ (∀ m, m ≠ n → t.pin m = s.pin m) ∧ t.pins.alert = true) ∧
  (∀ (s : State) n, (s.pin n).activeSince = none ∨ (∃ a, (s.pin n).activeSince = some a ∧ s.now ≤ stuckTime + a) ∨
    (s.pin n).masked = true ∨ n < 3 ∨ 5 < n ∨ s.pinPhase = 1 → exec (.stuck n) s = .next s) ∧
  (∀ (s : State) act n, s.ok = true → 3 ≤ n → n ≤ 5 →
    ∃ t, exec (.stuckRecheck act) s = .next t ∧ (t.pin n).masked = ((s.pin n).masked && act.contains n) ∧
      ((s.pin n).masked = true → act.contains n = false → (t.kvGet kPinStatus).getLsbD (8 + n) = false) ∧
      ((s.pin n).masked = false ∨ act.contains n = true → t.pin n = s.pin n)) ∧
  (∀ s : State, s.pinPhase = 2 → (s.pin 4).masked = false → s.pinFree 4 = true →
    ∃ t u, exec (.syncPpsEdge true) s = .next t ∧ u = s.pinChange 4 true ∧
      t = { u with pins := { u.pins with ppsTick := s.clk.cobalt, ppsValid := true } }) ∧
  (∀ s : State, s.pinPhase = 2 → (s.pin 4).masked = false → s.pinFree 4 = false →
    exec (.syncPpsEdge true) s = .next (s.pinChange 4 true)) ∧
  (∀ (s : State) v, v = false ∨ (s.pin 4).masked = true ∨ s.pinPhase ≠ 2 → exec (.syncPpsEdge v) s = .next s)

/-- A configuration request is served when the device is ready and retried before; a held controller answers nothing.
A trained CXL link reports its lanes and rate; one of another width or rate, before memory training, in sleep or with
a held controller does not come up (14 R403, R430; 17 R482; 20 R541). A CXL.mem request inside the window over a
trained link: held while `host_hold` is 1 and an image runs outside a Sable window; else it takes its turn behind
those held, and is served once its line can be had, with a class 3 request at the line's slice: a write of a line
stands in device memory at the window's base plus its address, and a read answers the line there and whether it is
poisoned. Outside the window, or without the link, nothing happens (10 R278, R286, R293, R299; 14 R405). -/
def Obligations.HostLinkAndMemory : Prop :=
  (∀ s : State, (s.hostIf.cxlHeld = false → exec .configurationRequest s = .next { s with hostIf := { s.hostIf with
      cfgReplies := s.hostIf.cfgReplies ++ [s.hostIf.ready] } }) ∧
    (s.hostIf.cxlHeld = true → exec .configurationRequest s = .next s)) ∧
  (∀ (s : State) n r, s.clk.row = .memTrain ∨ s.clk.row = .done → s.hostIf.cxlHeld = false → n = 16 ∨ n = 8 →
    r = 64 ∨ r = 32 ∨ r = 16 → s.clk.phase ≠ .sleep →
    ∃ t, exec (.cxlLinkTrained n r) s = .next t ∧ t.hostIf.cxlUp = true ∧ t.kvNat kCxlLink = n + r * 256 ∧
      ∀ k, k ≠ kCxlLink → t.kvGet k = s.kvGet k) ∧
  (∀ (s : State) n r, (s.clk.row ≠ .memTrain ∧ s.clk.row ≠ .done) ∨ s.hostIf.cxlHeld = true ∨ n ∉ [16, 8] ∨
    r ∉ [64, 32, 16] ∨ s.clk.phase = .sleep → exec (.cxlLinkTrained n r) s = .next s) ∧
  (∀ (s : State) r, s.hostIf.cxlUp = true → r.addr / 64 * 64 + 64 ≤ s.kvNat kWinSize → s.kvNat kHostHold = 1 →
    s.imageRuns = true → s.sable = false →
    exec (.cxlMemAccess r) s = .next { s with hostIf := { s.hostIf with memHeld := s.hostIf.memHeld ++ [r] } }) ∧
  (∀ (s : State) r, s.hostIf.cxlUp = false ∨ s.kvNat kWinSize < r.addr / 64 * 64 + 64 →
    exec (.cxlMemAccess r) s = .next s) ∧
  (∀ (s : State) r u, s.hostIf.cxlUp = true → r.addr / 64 * 64 + 64 ≤ s.kvNat kWinSize →
    s.kvNat kHostHold ≠ 1 ∨ s.imageRuns = false ∨ s.sable = true →
    u = State.serveHeld { s with hostIf := { s.hostIf with memHeld := s.hostIf.memHeld ++ [r] } } →
    exec (.cxlMemAccess r) s = .next (if s.kvNat kHostHold = 0 then u.timing 7 else u)) ∧
  (∀ (s : State) r b, s.hostIf.memHeld = [r] → b = s.kvNat kWinBase + r.addr / 64 * 64 →
    (s.lineReady reqCxl b = false → s.serveHeld = s) ∧
    (∀ d, s.lineReady reqCxl b = true → r.data = some d → d.length = 64 → ∃ t, t = s.serveHeld ∧
      t.hostIf.memHeld = [] ∧ t.dramRd b 64 = d ∧ t.hostIf.memReplies = s.hostIf.memReplies ∧
      ∀ a, a < b ∨ b + 64 ≤ a → t.mem.dram.read a = s.mem.dram.read a) ∧
    (s.lineReady reqCxl b = true → r.data = none → ∃ t, t = s.serveHeld ∧ t.hostIf.memHeld = [] ∧
      t.mem.dram = s.mem.dram ∧ t.hostIf.memReplies = s.hostIf.memReplies ++ [s.dramRd b 64] ∧
      t.hostIf.memPoison = s.hostIf.memPoison ++ [s.poisoned b 64])) ∧
  (∀ (s : State) r, ∃ u, u = s.post
      { port := s.slicePort (s.cxlLine r), cls := 3, req := reqCxl, addr := s.cxlLine r, store := r.data.isSome } ∧
    (∀ d, r.data = some d → s.serveCxl r = u.dramWr (s.cxlLine r) (d.take 64)) ∧
    (r.data = none → s.serveCxl r = { u with hostIf := { u.hostIf with
      memReplies := u.hostIf.memReplies ++ [u.dramRd (s.cxlLine r) 64]
      memPoison := u.hostIf.memPoison ++ [u.poisoned (s.cxlLine r) 64] } }))

/-! ### Management (chapter 19) -/

/-- The management bus: with Ash out of reset `ENTDAA` gives the dynamic address, and a device with an address takes
its endpoint ID; nothing else changes. In reset, and without an address, they have no effect (19 R523). SPDM
negotiation over MCTP: `GET_VERSION` answers 1.3 and begins anew, `GET_CAPABILITIES` follows it,
`NEGOTIATE_ALGORITHMS` follows that; out of order each is answered with an error and changes nothing else. No message
is answered before the boot ROM has started the firmware (19 R513, R519, R520, R523). SPDM attestation over MCTP after
negotiation: the digest and the bytes of slot 0's chain, the challenge signed with the alias key, and the values of
the measurement snapshot, signed where the request asks for it; another slot or index is invalid, a certificate for
another key is an error, and before negotiation each is unexpected; nothing but the response is produced (19 R517 to
R520, R522). SPDM sessions over MCTP: at most four are open, a fifth is answered Busy; `FINISH` establishes one or
counts a failed verification, and is unexpected for one that is established or unknown; heartbeat, key update and end
need an established one, and the end closes it (19 R519, R520, R530). -/
def Obligations.ManagementAnswers : Prop :=
  (∀ (s : State) a, (s.clk.ashOut = true →
      exec (.entdaa a) s = .next { s with sec := { s.sec with i3cAddr := some (a % 128) } }) ∧
    (s.clk.ashOut = false → exec (.entdaa a) s = .next s)) ∧
  (∀ (s : State) n, (s.sec.i3cAddr.isSome = true →
      exec (.endpointId n) s = .next { s with sec := { s.sec with eid := some (n % 256) } }) ∧
    (s.sec.i3cAddr = none → exec (.endpointId n) s = .next s)) ∧
  (∀ s : State, s.sec.booted = true →
    exec .getVersion s = .next ((s.setConn .mctp { version := true }).reply (.version 0x13))) ∧
  (∀ s : State, s.sec.booted = true → (s.conn .mctp).version = true →
    exec .getCapabilities s = .next ((s.setConn .mctp { s.conn .mctp with caps := true }).reply .capabilities)) ∧
  (∀ s : State, s.sec.booted = true → (s.conn .mctp).version = false →
    exec .getCapabilities s = .next (s.reply .errUnexpected)) ∧
  (∀ (s : State) all, s.sec.booted = true → (s.conn .mctp).caps = true →
    exec (.negotiateAlgorithms all) s =
      .next ((s.setConn .mctp { s.conn .mctp with algs := all }).reply (.algorithms all))) ∧
  (∀ (s : State) all, s.sec.booted = true → (s.conn .mctp).caps = false →
    exec (.negotiateAlgorithms all) s = .next (s.reply .errUnexpected)) ∧
  (∀ (s : State) n, s.sec.booted = true → exec (.unsupportedRequest n) s = .next (s.reply .errUnsupported)) ∧
  (∀ (s : State) a b k o n x sg ok id c, s.sec.booted = false →
    c ∈ [Instr.getVersion, .getCapabilities, .negotiateAlgorithms a, .getDigests, .getCertificate k o n, .challenge k x,
      .getMeasurements k sg x, .keyExchange x, .finish id ok, .heartbeat id, .keyUpdate id, .endSession id,
      .unsupportedRequest b] → exec c s = .next s) ∧
  (∀ s : State, s.sec.booted = true → (s.conn .mctp).algs = true →
    exec .getDigests s = .next (s.reply (.digests (sha512 s.chain0)))) ∧
  (∀ (s : State) k o n, s.sec.booted = true → (s.conn .mctp).algs = true →
    (s.sec.certMismatch = false → k = 0 →
      exec (.getCertificate k o n) s = .next (s.reply (.certificate ((s.chain0.drop o).take n)))) ∧
    (s.sec.certMismatch = false → k ≠ 0 → exec (.getCertificate k o n) s = .next (s.reply .errInvalid)) ∧
    (s.sec.certMismatch = true → exec (.getCertificate k o n) s = .next (s.reply .errCert))) ∧
  (∀ (s : State) k n, s.sec.booted = true → (s.conn .mctp).algs = true →
    (k = 0 → exec (.challenge k n) s =
      .next (s.reply (.challengeAuth (Config.ed25519Sign s.sec.aliasKey (n ++ sha512 s.chain0))))) ∧
    (k ≠ 0 → exec (.challenge k n) s = .next (s.reply .errInvalid))) ∧
  (∀ (s : State) i sg n v, s.sec.booted = true → (s.conn .mctp).algs = true →
    (i = 0 ∧ v = [[8]]) ∨ (1 ≤ i ∧ i ≤ 8 ∧ v = [s.sec.snapshot.getD (i - 1) []]) ∨ (i = 255 ∧ v = s.sec.snapshot) →
    exec (.getMeasurements i sg n) s = .next (s.reply (.measurements v
      (if sg = true then some (Config.ed25519Sign s.sec.aliasKey (n ++ v.flatten)) else none)))) ∧
  (∀ (s : State) i sg n, s.sec.booted = true → (s.conn .mctp).algs = true → 8 < i → i ≠ 255 →
    exec (.getMeasurements i sg n) s = .next (s.reply .errInvalid)) ∧
  (∀ (s : State) k o n x sg c, s.sec.booted = true → (s.conn .mctp).algs = false →
    c ∈ [Instr.getDigests, .getCertificate k o n, .challenge k x, .getMeasurements k sg x, .keyExchange x] →
    exec c s = .next (s.reply .errUnexpected)) ∧
  (∀ (s : State) x, s.sec.booted = true → (s.conn .mctp).algs = true → s.sec.sessions.length < 4 →
    ∃ t, exec (.keyExchange x) s = .next t ∧ t.sec.tx = s.sec.tx ++ [.keyExchangeRsp s.sec.nextSession] ∧
      t.sec.sessions = s.sec.sessions ++ [{ id := s.sec.nextSession, tr := .mctp : SpdmSession }] ∧
      t.sec.nextSession = s.sec.nextSession + 1) ∧
  (∀ (s : State) x, s.sec.booted = true → (s.conn .mctp).algs = true → 4 ≤ s.sec.sessions.length →
    exec (.keyExchange x) s = .next (s.reply .errBusy)) ∧
  (∀ (s : State) id x, s.sec.booted = true → s.session .mctp id = some x → x.finished = false →
    exec (.finish id true) s = .next ((s.setSession { x with finished := true }).reply (.finishRsp id)) ∧
    exec (.finish id false) s = .next (s.authFail.reply .errInvalid) ∧
    s.authFail.kvNat kAuthFail = satAdd (s.kvNat kAuthFail) 1 ∧ s.authFail.sec = s.sec) ∧
  (∀ (s : State) id x ok, s.sec.booted = true → s.session .mctp id = some x → x.finished = true →
    exec (.finish id ok) s = .next (s.reply .errUnexpected) ∧
    exec (.heartbeat id) s = .next (s.reply (.heartbeatAck id)) ∧
    exec (.keyUpdate id) s = .next ((s.setSession { x with keyGen := x.keyGen + 1 }).reply (.keyUpdateAck id)) ∧
    ∃ t, exec (.endSession id) s = .next t ∧ t.sec.sessions = s.sec.sessions.filter (fun y => decide (y.id ≠ id)) ∧
      t.sec.tx = s.sec.tx ++ [.endSessionAck id]) ∧
  (∀ (s : State) id ok c, s.sec.booted = true → s.session .mctp id = none →
    c ∈ [Instr.finish id ok, .heartbeat id, .keyUpdate id, .endSession id] → exec c s = .next (s.reply .errUnexpected)) ∧
  (∀ (s : State) id x c, s.sec.booted = true → s.session .mctp id = some x → x.finished = false →
    c ∈ [Instr.heartbeat id, .keyUpdate id, .endSession id] → exec c s = .next (s.reply .errUnexpected))

/-- An authentic owner-provisioning message writes an empty slot once or revokes a slot that is not the last usable
one, and is logged; any other is refused, counted, and changes no fuse; before the firmware runs it is not answered
(19 R509, R521, R530). A debug token that policy admits, made for this device and its current nonce, with an allowed
scope and a good signature, sets `dbg_state`; any other is refused and counted. Either way the nonce is replaced;
before the firmware runs it is not answered (19 R528 to R530). -/
def Obligations.AuthenticatedMessages : Prop :=
  (∀ (s : State) m h, s.sec.booted = true → s.ownerAuth m = true → m.hash = some h → h.length = 32 →
    s.sec.fuses.owner.getD m.slot [] = [] →
    ∃ t, exec (.ownerProvisioning m) s = .next t ∧ t.sec.fuses.owner.getD m.slot [] = h ∧
      (∀ i, i < 4 → i ≠ m.slot → t.sec.fuses.owner.getD i [] = s.sec.fuses.owner.getD i []) ∧
      t.sec.fuses.ownerRevoke = s.sec.fuses.ownerRevoke ∧ t.flt.log = .owner m.slot :: s.flt.log ∧
      t.sec.tx = s.sec.tx ++ [.ownerOk]) ∧
  (∀ (s : State) m, s.sec.booted = true → s.ownerAuth m = true → m.hash = none → s.sec.fuses.lastOwner m.slot = false →
    ∃ t, exec (.ownerProvisioning m) s = .next t ∧ t.sec.fuses.owner = s.sec.fuses.owner ∧
      t.sec.fuses.ownerRevoke.getLsbD m.slot = true ∧
      (∀ i, i ≠ m.slot → t.sec.fuses.ownerRevoke.getLsbD i = s.sec.fuses.ownerRevoke.getLsbD i) ∧
      t.flt.log = .owner m.slot :: s.flt.log ∧ t.sec.tx = s.sec.tx ++ [.ownerOk]) ∧
  (∀ (s : State) m, s.sec.booted = true →
    s.ownerAuth m = false ∨ (m.hash = none ∧ s.sec.fuses.lastOwner m.slot = true) ∨
      (∃ h, m.hash = some h ∧ (h.length ≠ 32 ∨ (m.slot < 4 ∧ s.sec.fuses.owner.getD m.slot [] ≠ []))) →
    exec (.ownerProvisioning m) s = .next (s.authFail.reply .ownerRefused) ∧ s.authFail.sec = s.sec ∧
      s.authFail.kvNat kAuthFail = satAdd (s.kvNat kAuthFail) 1) ∧
  (∀ (s : State) m, s.sec.booted = false → exec (.ownerProvisioning m) s = .next s) ∧
  (∀ (s : State) k, s.sec.booted = true → s.sec.policy.allowDebug = true → s.job.img = none →
    k.serial = s.sec.serial → k.nonce = Config.freeWord freeNonce s.sec.nonceCtr → k.scope.toNat < 8 → k.rsvd = 0 →
    k.key ∈ s.sec.policy.debugKeys → Config.ed25519Verify k.key k.message k.sig = true →
    ∃ t, exec (.debugToken k) s = .next t ∧ t.kvNat kDbgState = k.scope.toNat ∧
      t.kvNat kAuthFail = s.kvNat kAuthFail ∧ t.sec.nonceCtr = s.sec.nonceCtr + 1 ∧ t.sec.tx = s.sec.tx ++ [.debugOk]) ∧
  (∀ (s : State) k, s.sec.booted = true → s.sec.policy.allowDebug = false ∨ s.job.img.isSome = true ∨
      k.serial ≠ s.sec.serial ∨ k.nonce ≠ Config.freeWord freeNonce s.sec.nonceCtr ∨ 8 ≤ k.scope.toNat ∨ k.rsvd ≠ 0 ∨
      k.key ∉ s.sec.policy.debugKeys ∨ Config.ed25519Verify k.key k.message k.sig = false →
    ∃ t, exec (.debugToken k) s = .next t ∧ t.kvNat kDbgState = s.kvNat kDbgState ∧
      t.kvNat kAuthFail = satAdd (s.kvNat kAuthFail) 1 ∧ t.sec.nonceCtr = s.sec.nonceCtr + 1 ∧
      t.sec.tx = s.sec.tx ++ [.debugRefused]) ∧
  (∀ (s : State) k, s.sec.booted = false → exec (.debugToken k) s = .next s)

/-- PLDM: the types, the readings of the numeric sensors (none for an identifier that is no sensor), and the event
queue delivered oldest first, the overflow flag with the next event, `ALERT_N` released with the last one outside
sleep; before the firmware runs nothing is answered (18 R493; 19 R513, R523 to R525). A firmware update: it is entered
once; a component goes to the slot of its kind that is not preferred, and is remembered when it verifies; the
directory stays. Activation names the new slots and is deferred while an image is loaded, else a warm reset follows;
outside an update a component and an activation are refused; before the firmware runs nothing is answered (19 R513,
R526, R527). -/
def Obligations.PldmAndUpdate : Prop :=
  (∀ s : State, s.sec.booted = true → exec .pldmDiscovery s = .next (s.reply (.pldmTypes [0, 2, 5]))) ∧
  (∀ (s : State) i, s.sec.booted = true → 1 ≤ i → i ≤ 64 →
    exec (.pldmSensorReading i) s = .next (s.reply (.sensor (s.pwr.sensors[i - 1]?)))) ∧
  (∀ (s : State) i, s.sec.booted = true → 65 ≤ i → i ≤ 70 →
    exec (.pldmSensorReading i) s = .next (s.reply (.sensor ((s.pwr.railMv[i - 65]?).map (fun v => (v : Int)))))) ∧
  (∀ (s : State) n u, s.sec.booted = true → s.draw = (n, u) → exec (.pldmSensorReading 71) s =
    .next (u.reply (.sensor (some ((u.readKey n kVinCoreMa).toNat : Int))))) ∧
  (∀ s : State, s.sec.booted = true →
    exec (.pldmSensorReading 72) s = .next (s.reply (.sensor (some (s.kvNat kPwrStep : Int)))) ∧
    exec (.pldmSensorReading 73) s = .next (s.reply (.sensor (some (s.kvNat kOpNow : Int))))) ∧
  (∀ (s : State) i, s.sec.booted = true → i = 0 ∨ 73 < i →
    exec (.pldmSensorReading i) s = .next (s.reply (.sensor none))) ∧
  (∀ (s : State) e rest, s.sec.booted = true → s.flt.queue = e :: rest →
    ∃ t, exec .pollForPlatformEventMessage s = .next t ∧ t.flt.queue = rest ∧ t.flt.overflow = false ∧
      t.sec.tx = s.sec.tx ++ [.platformEvent (some e) s.flt.overflow] ∧
      t.pins.alert = (!rest.isEmpty || s.clk.phase == .sleep)) ∧
  (∀ s : State, s.sec.booted = true → s.flt.queue = [] →
    exec .pollForPlatformEventMessage s = .next (s.reply (.platformEvent none false))) ∧
  (∀ (s : State) i, s.sec.booted = false → exec .pldmDiscovery s = .next s ∧ exec (.pldmSensorReading i) s = .next s ∧
    exec .pollForPlatformEventMessage s = .next s) ∧
  (∀ s : State, s.sec.booted = true →
    (s.sec.updating = none → ∃ t, exec .requestUpdate s = .next t ∧ t.sec.updating = some {} ∧
      t.sec.tx = s.sec.tx ++ [.updateAccepted]) ∧
    (s.sec.updating.isSome = true → exec .requestUpdate s = .next (s.reply .alreadyInUpdateMode))) ∧
  (∀ (s : State) u x p, s.sec.booted = true → s.sec.updating = some u → p = s.sec.flash.prefFw % 2 →
    ∃ t, exec (.componentTransfer 1 x) s = .next t ∧ flashFw t.sec.flash (1 - p) = x ∧
      flashFw t.sec.flash p = flashFw s.sec.flash p ∧ t.sec.flash.prefFw = s.sec.flash.prefFw ∧
      t.sec.updating = some { u with fw := if s.sec.fuses.accepts 1 x then some (1 - p) else none } ∧
      t.sec.tx = s.sec.tx ++ [.verifyComplete (s.sec.fuses.accepts 1 x)]) ∧
  (∀ (s : State) u x p, s.sec.booted = true → s.sec.updating = some u → p = s.sec.flash.prefCfg % 2 →
    ∃ t, exec (.componentTransfer 2 x) s = .next t ∧ flashCfg t.sec.flash (1 - p) = x ∧
      flashCfg t.sec.flash p = flashCfg s.sec.flash p ∧ t.sec.flash.prefCfg = s.sec.flash.prefCfg ∧
      t.sec.updating = some { u with cfg := if s.sec.fuses.accepts 2 x then some (1 - p) else none } ∧
      t.sec.tx = s.sec.tx ++ [.verifyComplete (s.sec.fuses.accepts 2 x)]) ∧
  (∀ (s : State) u x c, s.sec.booted = true → s.sec.updating = some u → c ≠ 1 → c ≠ 2 →
    exec (.componentTransfer c x) s = .next (s.reply .errInvalid)) ∧
  (∀ (s : State) u, s.sec.booted = true → s.sec.updating = some u → s.job.img.isSome = true →
    ∃ t, exec .activateFirmware s = .next t ∧ t.sec.activate = true ∧ t.sec.updating = none ∧
      t.sec.pendPref = some (u.fw.getD s.sec.flash.prefFw, u.cfg.getD s.sec.flash.prefCfg) ∧ t.clk = s.clk ∧
      t.sec.flash = s.sec.flash ∧ t.sec.tx = s.sec.tx ++ [.activated true]) ∧
  (∀ (s : State) u, s.sec.booted = true → s.sec.updating = some u → s.job.img = none →
    ∃ t, exec .activateFirmware s = .next t ∧ t.clk.phase = .boot ∧ t.clk.row = .verify ∧
      t.sec.flash.prefFw = u.fw.getD s.sec.flash.prefFw ∧ t.sec.flash.prefCfg = u.cfg.getD s.sec.flash.prefCfg ∧
      t.sec.tx = s.sec.tx ++ [.activated false]) ∧
  (∀ (s : State) c x, s.sec.booted = true → s.sec.updating = none →
    exec .activateFirmware s = .next (s.reply .notInUpdate) ∧
    exec (.componentTransfer c x) s = .next (s.reply .notInUpdate)) ∧
  (∀ (s : State) c x, s.sec.booted = false → exec .requestUpdate s = .next s ∧ exec .activateFirmware s = .next s ∧
    exec (.componentTransfer c x) s = .next s)

/-! ### The torus and time (chapter 13) -/

/-- A switch-in with the next `map_gen` is applied at once when no image is bound, and held while one is; a member of
the block that it names is lost, and so is the block with a row that it leaves incomplete; the loss of the time master
is remembered; one with another number changes nothing but the event queue (13 R388 to R390, R394; 20 R542). A sync
word over a port that runs is kept as the partner's; from the time parent its estimate, where it gives one, joins the
others, its correction is kept and the depth is one more than the word's; a word of the bound block whose Livery
digest differs is a difference of digests; a port that does not run takes none (13 R396, R398, R401). A correction
that is due, with a deputy that takes over from a lost master first: the master has depth 0 and moves nothing; another
package moves Cobalt time by its next correction and begins with no estimate; one without a parent is in holdover. The
correction is the mean's reverse plus the parent's, within `cob_max` while an image is bound, but for the first. Four
corrections without an estimate are holdover; a correction that is not due, and fewer, do nothing (13 R394, R397,
R398). -/
def Obligations.TorusAndTime : Prop :=
  (∀ (s : State) y z k u g, g = s.torus.mapGen + s.torus.heldSwitch.length + 1 →
    u = { s with torus := { s.torus with
      masterLost := s.torus.masterLost || decide (coordOf s.torus.table.master = (k, y, z)) } } →
    (s.job.bound = none → exec (.switchIn y z k g) s = .next (u.applySwitch (y, z, k, g))) ∧
    (∀ v, s.job.bound.isSome = true →
      (∃ c, s.memberAt y z k = some c ∧ v = u.memberLost c.1 c.2.1 c.2.2) ∨
        (s.memberAt y z k = none ∧ s.rowLost y z k = true ∧ v = u.memberLost ((s.torus.xAt k y z).getD 0) y z) ∨
        (s.memberAt y z k = none ∧ s.rowLost y z k = false ∧ v = u) →
      exec (.switchIn y z k g) s =
        .next { v with torus := { v.torus with heldSwitch := v.torus.heldSwitch ++ [(y, z, k, g)] } })) ∧
  (∀ (s : State) y z k g, ∃ t, t = s.applySwitch (y, z, k, g) ∧ t.torus.mapGen = g ∧
    t.torus.holes = (s.torus.lose y z k).holes ∧ t.torus.lostRows = (s.torus.lose y z k).lostRows ∧
    t.torus.heldSwitch = s.torus.heldSwitch ∧ t.clk = s.clk ∧ t.job = s.job) ∧
  (∀ (s : State) y z k g, g ≠ s.torus.mapGen + s.torus.heldSwitch.length + 1 →
    exec (.switchIn y z k g) s = .next (s.event (.switchIgnored g))) ∧
  (∀ (s : State) p w a, (s.port p).up = false → exec (.syncWordReceived p w a) s = .next s) ∧
  (∀ (s : State) p w a u, (s.port p).up = true → s.parentPort ≠ some p ∨ s.isMaster = true →
    u = s.setPort p { s.port p with partnerWord := some w } →
    exec (.syncWordReceived p w a) s =
      .next (if u.compares p w = true ∧ w.livery.toNat ≠ s.livery then u.liverySkew else u)) ∧
  (∀ (s : State) p w a u v, (s.port p).up = true → s.parentPort = some p → s.isMaster = false →
    v = s.setPort p { s.port p with partnerWord := some w } →
    u = State.kvSet { v with torus := (match s.estimate p w a with
      | some e => { s.torus with
          parent := some p, parentCorr := w.corr, ests := s.torus.ests ++ [e], holdover := false, noEst := 0 }
      | none => { s.torus with parent := some p, parentCorr := w.corr }) } kCobDepth (BitVec.ofNat 64 (w.depth + 1)) →
    exec (.syncWordReceived p w a) s =
      .next (if u.compares p w = true ∧ w.livery.toNat ≠ s.livery then u.liverySkew else u)) ∧
  (∀ s : State, ∃ t, t = s.liverySkew ∧ t.torus = { s.torus with skewRaised := true } ∧
    t.job = { s.job with liveryMismatch := true } ∧ t.pins.alert = true ∧ t.flt.log = .liverySkew :: s.flt.log) ∧
  (∀ s : State, s.corrDue = false → exec .cobaltCorrection s = .next s) ∧
  (∀ s u : State, s.corrDue = true → u = s.elect →
    (u.isMaster = true → ∃ t, exec .cobaltCorrection s = .next t ∧ t.clk = s.clk ∧ t.torus.master = true ∧
      t.torus.holdover = false ∧ t.torus.ests = [] ∧ t.kvNat kCobDepth = 0) ∧
    (u.isMaster = false → u.parentPort = none → exec .cobaltCorrection s =
      .next { u with torus := { u.torus with master := false, parent := none, holdover := true } }) ∧
    (u.isMaster = false → u.parentPort.isSome = true →
      ∃ t, exec .cobaltCorrection s = .next t ∧ t.clk.cobalt = s.clk.cobalt + BitVec.ofInt 64 u.nextCorr ∧
        t.torus.ests = [] ∧ t.kvGet kCobLastCorr = BitVec.ofInt 64 u.nextCorr ∧
        t.torus.noEst = (if s.torus.ests = [] then s.torus.noEst + 1 else 0))) ∧
  (∀ s : State, s.elect = { s with torus := { s.torus with
    deputy := s.torus.deputy || s.torus.masterLost, corrDone := true } }) ∧
  (∀ s : State, s.isMaster = false → s.parentPort.isSome = true →
    (s.corrClamps = false → s.nextCorr = s.rawCorr) ∧
    (s.corrClamps = true → s.nextCorr = if s.rawCorr < 0 then -(s.kvNat kCobMax : Int) else (s.kvNat kCobMax : Int))) ∧
  (∀ s : State, s.isMaster = true ∨ s.parentPort = none → s.nextCorr = 0) ∧
  (∀ s : State, (4 ≤ s.torus.noEst →
      exec .cobaltHoldover s = .next { s with torus := { s.torus with holdover := true } }) ∧
    (s.torus.noEst < 4 → exec .cobaltHoldover s = .next s))

/-! ### The Flosin ports (chapter 12) -/

/-- Every slot of a port that runs carries one flit, with the port's acknowledgement and `nak`: `IDLE` around a
correction, a `SYNC` at a multiple of 4,096 ticks in native mode, `IDLE` where the slot may carry no data or a replay
is awaited, then a flit of a replay, which counts and, where it is data, spends a credit; then a flit of the arbiter's
grant where there is a credit and room to keep it; then a test flit; then a due `SYNC`; then `IDLE`. A slot that has
not begun sends nothing. `SYNC_FLIT_SEND` sends a `SYNC` that is due in a slot that has begun, outside a correction
(12 R346, R351 to R354, R359, R365, R366, R369, R371, R376). A `nak` that no good flit followed within 2 µs is
repeated once; a requested replay takes, `t_rewind` after its `nak`, every buffered flit from the requested number on,
and gives the credits of its data flits back; before their time, and without an episode or a request, nothing changes
(12 R353, R354, R359). -/
def Obligations.FlitsSent : Prop :=
  (∀ (s : State) p f, p < s.ports.length → (s.slotFlit p f).port p = { s.port p with
    txQueue := (s.port p).txQueue ++ [(s.port p).header f], nakOut := false, slot := (s.port p).slot + 1 } ∧
    ((s.port p).header f).ackSeq = (s.port p).rxAck ∧ ((s.port p).header f).nak = (s.port p).nakOut ∧
    ((s.port p).header f).body = f.body ∧ ((s.port p).header f).fseq = f.fseq) ∧
  (∀ (s : State) p, p < s.ports.length → ∃ t, t = s.syncSlot p ∧ t.port p = { s.port p with
    txQueue := (s.port p).txQueue ++ [(s.port p).header { body := .sync (s.syncWord p) }], nakOut := false
    slot := (s.port p).slot + 1, lastSync := 4096 * (s.now / 4096), syncCount := ((s.port p).syncCount + 1) % 2 ^ 32 }) ∧
  (∀ (s : State) p, s.slotDue p = false → exec (.flitSlot p) s = .next s) ∧
  (∀ (s : State) p, s.slotDue p = true → s.corrQuiet = true → exec (.flitSlot p) s = .next (s.slotFlit p {})) ∧
  (∀ (s : State) p x, s.slotDue p = true → s.corrQuiet = false → x = s.port p →
    (x.native = true ∨ x.state = .isolated → s.syncDue p = true → exec (.flitSlot p) s = .next (s.syncSlot p)) ∧
    ((x.native = false ∧ x.state ≠ .isolated) ∨ s.syncDue p = false →
      (x.idleOnly = true ∨ x.replayFrom.isSome = true → exec (.flitSlot p) s = .next (s.slotFlit p {})) ∧
      (x.idleOnly = false → x.replayFrom = none →
        (∀ f rest, x.replayLeft = f :: rest →
          (Flit.isData f = true → x.credit.getD f.vc 0 = 0 → exec (.flitSlot p) s = .next (s.slotFlit p {})) ∧
          (Flit.isData f = true → 0 < x.credit.getD f.vc 0 → exec (.flitSlot p) s =
            .next (((State.spend (s.setPort p { x with replayLeft := rest }) p f.vc).count (kRetries p) 1).slotFlit p f)) ∧
          (Flit.isData f = false → exec (.flitSlot p) s =
            .next ((State.count (s.setPort p { x with replayLeft := rest }) (kRetries p) 1).slotFlit p f))) ∧
        (∀ r, x.replayLeft = [] → (s.arb (flArb p)).cur = some r →
          (x.maySend (r.addr % 16) = false → exec (.flitSlot p) s = .next (s.slotFlit p {})) ∧
          (x.maySend (r.addr % 16) = true → r.req < 4096 → exec (.flitSlot p) s = .next (s.injectFlit p r)) ∧
          (x.maySend (r.addr % 16) = true → 4096 ≤ r.req → exec (.flitSlot p) s = .next (s.transitFlit p r))) ∧
        (∀ pat rate b, x.replayLeft = [] → (s.arb (flArb p)).cur = none → x.test = some (pat, rate) →
          b = (!s.imageRuns && testSlot rate x.slot && decide (x.retry.length < retryMaxFlits)) →
          (b = true → exec (.flitSlot p) s = .next (State.sequenced (s.setPort p { x with testSent := x.testSent + 1 }) p
            { body := .test (testPayload pat x.testSent), vc := 6 })) ∧
          (b = false → exec (.flitSlot p) s = .next (if s.syncDue p then s.syncSlot p else s.slotFlit p {}))) ∧
        (x.replayLeft = [] → (s.arb (flArb p)).cur = none → x.test = none →
          exec (.flitSlot p) s = .next (if s.syncDue p then s.syncSlot p else s.slotFlit p {}))))) ∧
  (∀ (s : State) p, (s.slotDue p = true → s.syncDue p = true → s.corrQuiet = false →
      exec (.syncFlitSend p) s = .next (s.syncSlot p)) ∧
    (s.slotDue p = false ∨ s.syncDue p = false ∨ s.corrQuiet = true → exec (.syncFlitSend p) s = .next s)) ∧
  (∀ (s : State) p x, x = s.port p →
    (x.up = true → x.rxEpisode = true → x.nakTwice = false → nakWait + x.nakAt ≤ s.now →
      exec (.nakRepeat p) s = .next (s.setPort p { x with nakOut := true, nakTwice := true })) ∧
    (x.up = false ∨ x.rxEpisode = false ∨ x.nakTwice = true ∨ s.now < nakWait + x.nakAt →
      exec (.nakRepeat p) s = .next s)) ∧
  (∀ (s : State) p x q l, x = s.port p → x.replayFrom = some q → l = x.retry.filter (fun f => seqCovers f.fseq q) →
    (x.up = true → rewindTime + x.replayAt ≤ s.now →
      exec (.replay p) s = .next (s.setPort p { x.recover l with replayFrom := none, replayLeft := l })) ∧
    (x.up = false ∨ s.now < rewindTime + x.replayAt → exec (.replay p) s = .next s)) ∧
  (∀ (s : State) p, (s.port p).replayFrom = none → exec (.replay p) s = .next s) ∧
  (∀ (x : Port) vc, vc < x.credit.length → ∀ l : List Flit,
    (x.recover l).credit.getD vc 0 = x.credit.getD vc 0 + l.countP (fun f => Flit.isData f && decide (f.vc = vc)))

/-- Reception: corrected and uncorrectable codewords count, and too many retrain the port; the flits of a codeword
enter the crossing; a native port's crossing releases its oldest flit at its tick, and one past its tick is
`ALIGN_LOST`; an elastic port's releases it at any time, a late one as a timing event; a bad flit is counted and the
first opens an episode; a good flit's header is taken, and the flit is used when it is the next in order, which closes
the episode; another number is discarded, and an isolated port refuses data (12 R346, R347, R350 to R356, R367, R370
to R374; 16 R454). -/
def Obligations.FlitsReceived : Prop :=
  (∀ (s : State) p k b, (s.port p).up = false → exec (.codewordReceived p k b) s = .next s) ∧
  (∀ (s : State) p k b u w n x, (s.port p).up = true →
    u = (if b = true then s.count (kFecUncorr p) 1 else if 0 < k then (s.count (kFecCorrSym p) k).corrected else s) →
    x = u.port p → n = x.cwWindow + (if b = true then 1 else 0) →
    w = u.setPort p { x with
      codewordBad := if b then 40 else 0
      cwPeriods := if x.cwPeriods + 1 = 2 ^ 20 then 0 else x.cwPeriods + 1
      cwWindow := if x.cwPeriods + 1 = 2 ^ 20 then 0 else n } →
    exec (.codewordReceived p k b) s = .next (if w.kvNat kFecUeThresh < n then w.retrain p 4
      else if x.native then w.enterCrossing p else w.enterElastic p)) ∧
  (∀ (s : State) p, (s.port p).crossing = [] → exec (.flitRelease p) s = .next s) ∧
  (∀ (s : State) p d k rest u, (s.port p).crossing = (d, k) :: rest →
    u = s.setPort p { s.port p with crossing := rest } →
    (d = s.now → exec (.flitRelease p) s = .next u) ∧
    ((s.port p).native = true → d < s.now → exec (.flitRelease p) s = .next ((s.event (.alignLost p)).retrain p 3)) ∧
    ((s.port p).native = true → s.now < d → exec (.flitRelease p) s = .next s) ∧
    ((s.port p).native = false → d ≠ s.now → exec (.flitRelease p) s =
      .next (if s.hopPorts.contains p = true ∧ elasticCharge + d < s.now then u.timing 8 else u))) ∧
  (∀ (s : State) p f, (s.port p).up = false → exec (.flitReceived p f) s = .next s) ∧
  (∀ (s : State) p f u, (s.port p).up = true → u = s.setPort p { s.port p with codewordBad := (s.port p).codewordBad - 1 } →
    ((s.port p).badFlit f = true → exec (.flitReceived p f) s = .next (u.badRx p f)) ∧
    ((s.port p).badFlit f = false → ∃ v, v = u.headerRx p f ∧
      (∀ b, f.body = .data b → exec (.flitReceived p f) s =
        .next (if (v.port p).state = .run then v.sequencedRx p f else v)) ∧
      (∀ b, f.body = .test b → exec (.flitReceived p f) s = .next (if (v.port p).up = true then v.sequencedRx p f else v)) ∧
      ((∀ b, f.body ≠ .data b) → (∀ b, f.body ≠ .test b) → exec (.flitReceived p f) s = .next v))) ∧
  (∀ (s : State) p f, p < s.ports.length → (s.port p).rxEpisode = false → ∃ t, t = s.badRx p f ∧
    t.port p = { s.port p with rxEpisode := true, nakOut := true, nakAt := s.now, nakTwice := false }) ∧
  (∀ (s : State) p f, p < s.ports.length → (s.port p).rxEpisode = true → (s.badRx p f).port p = s.port p) ∧
  (∀ (s : State) p f x, x = s.port p →
    (f.fseq ≠ (if x.rxAckV then seqNext x.rxAck else 0) → s.sequencedRx p f = s) ∧
    (∀ b, f.fseq = (if x.rxAckV then seqNext x.rxAck else 0) → f.body = .test b →
      s.sequencedRx p f = s.setPort p { x with rxAck := f.fseq, rxAckV := true, rxEpisode := false }) ∧
    (∀ b, f.fseq = (if x.rxAckV then seqNext x.rxAck else 0) → f.body = .data b →
      s.sequencedRx p f =
        State.dataRx (s.setPort p { x with rxAck := f.fseq, rxAckV := true, rxEpisode := false }) p f b)) ∧
  (∀ (x : Port) f, (f.ackV = true → (x.ack f).retry = x.retry.filter (fun g => !seqCovers f.ackSeq g.fseq)) ∧
    (f.ackV = false → x.ack f = x))

/-- Bring-up: `PMD_TRAIN` to `BLOCK_LOCK` with the mode `fl_mode` holds, to `IDENT` with the identity record sent, and
on a matching record to `ALIGN`, or in elastic mode to `RUN` (`ISOLATED` at a block edge or without coordinates);
another record is reported and holds the port; in any other state, or where the port may not train, nothing changes
(12 R341, R343, R371, R373; 13 R383, R384, R386). The alignment ceremony: each probe is answered with one and
measured, after 256 the maxima are exchanged, `link_lat` follows from both maxima and the margin, both ends confirm
it, 256 probes are checked against it, and the checked port runs with it; an end that does not agree, a probe that
comes too late and a failed check repeat the ceremony at most three times and then retrain with reason 7; outside its
stage nothing changes (12 R367, R373; 13 R386). -/
def Obligations.BringUp : Prop :=
  (∀ (s : State) p, (s.port p).state = .pmdTrain ∨ (s.port p).state = .retrain → s.mayTrain p = true →
    exec (.pmdTrainDone p) s = .next (s.setPort p { s.port p with
      state := .blockLock, native := !bitOf (s.kvNat (kFlMode p)) 1, enteredAt := s.now, txEq := s.portEq p })) ∧
  (∀ (s : State) p, ((s.port p).state ≠ .pmdTrain ∧ (s.port p).state ≠ .retrain) ∨ s.mayTrain p = false →
    exec (.pmdTrainDone p) s = .next s) ∧
  (∀ (s : State) p r v, p < s.ports.length → p < 8 → (s.port p).state = .blockLock →
    ∃ t f, exec (.blockLockDone p r v) s = .next t ∧ f.body = .train (.identity (s.ownIdentity p)) ∧
      t.port p = { s.port p with
        state := .ident, enteredAt := s.now, attempts := 0, txQueue := (s.port p).txQueue ++ [f] } ∧
      t.kvNat (kLaneMap p) = v.toNat + (if r then 65536 else 0)) ∧
  (∀ (s : State) p r v, (s.port p).state ≠ .blockLock → exec (.blockLockDone p r v) s = .next s) ∧
  (∀ (s : State) p i, p < s.ports.length → (s.port p).state = .ident → (s.cabling p i).1 = 1 →
    ∃ t, exec (.identityRecord p i) s = .next t ∧ (t.port p).partner = some i ∧
      ((s.port p).native = true → (t.port p).state = .align ∧ (t.port p).stage = 1 ∧ (t.port p).probes = 0 ∧
        (t.port p).dMax = none) ∧
      ((s.port p).native = false → (t.port p).state =
        (if (s.port p).isolate = true ∨ s.torus.hasCoord = false then .isolated else .run))) ∧
  (∀ (s : State) p i, p < s.ports.length → (s.port p).state = .ident → (s.cabling p i).1 ≠ 1 →
    ∃ t, exec (.identityRecord p i) s = .next t ∧ t.port p = { s.port p with partner := some i } ∧ t.pins.alert = true ∧
      t.flt.log = .cabling p (s.cabling p i).1 i :: s.flt.log) ∧
  (∀ (s : State) p i, (s.port p).state ≠ .ident → exec (.identityRecord p i) s = .next s) ∧
  (∀ (s : State) p c x d u, p < s.ports.length → x = s.port p → x.state = .align → x.stage = 1 →
    d = (match x.dMax with | some m => max m ((s.now : Int) - c) | none => (s.now : Int) - c) →
    u = s.train p (.probe s.now) →
    (x.probes + 1 ≠ 256 →
      exec (.alignProbe p c) s = .next (u.setPort p { u.port p with dMax := some d, probes := x.probes + 1 })) ∧
    (x.probes + 1 = 256 → exec (.alignProbe p c) s = .next (State.train
      (u.setPort p { u.port p with dMax := some d, probes := 256, stage := 2 }) p (.maxima d)))) ∧
  (∀ (s : State) p c x u, x = s.port p → x.state = .align → x.stage = 4 → u = s.train p (.probe s.now) →
    (4 + s.now ≤ c + x.alLat → exec (.alignProbe p c) s = .next (u.setPort p { u.port p with probes := x.probes + 1 })) ∧
    (c + x.alLat < 4 + s.now → exec (.alignProbe p c) s = .next (s.alignFailed p))) ∧
  (∀ (s : State) p own partner, (s.port p).state = .align → (s.port p).stage = 2 → (s.port p).dMax = some own →
    ∃ lat u, lat = linkLatOf own partner (s.kvNat kAlMargin) ∧ u = s.setPort p { s.port p with alLat := lat, stage := 3 } ∧
      exec (.alignMaxima p partner) s = .next (u.train p (.confirm lat))) ∧
  (∀ (s : State) p lat, (s.port p).state = .align → (s.port p).stage = 3 →
    (lat = (s.port p).alLat →
      exec (.alignConfirm p lat) s = .next (s.setPort p { s.port p with stage := 4, probes := 0 })) ∧
    (lat ≠ (s.port p).alLat → exec (.alignConfirm p lat) s = .next (s.alignFailed p))) ∧
  (∀ (s : State) p, p < s.ports.length → p < 8 → (s.port p).state = .align → (s.port p).stage = 4 →
    (s.port p).probes = 256 → ∃ t, exec (.alignCheckDone p true) s = .next t ∧
      (t.port p).state = (if (s.port p).isolate = true ∨ s.torus.hasCoord = false then .isolated else .run) ∧
      (t.port p).refTick = s.now ∧ t.kvGet (kLinkLat p) = BitVec.ofNat 64 (s.port p).alLat) ∧
  (∀ (s : State) p, (s.port p).state = .align → (s.port p).stage = 4 →
    exec (.alignCheckDone p false) s = .next (s.alignFailed p) ∧
    ((s.port p).probes ≠ 256 → exec (.alignCheckDone p true) s = .next s)) ∧
  (∀ (s : State) p x, x = s.port p → (x.attempts ≤ 3 → s.alignFailed p = s.setPort p { x with
      stage := 1, probes := 0, dMax := none, attempts := x.attempts + 1, enteredAt := s.now }) ∧
    (3 < x.attempts → p < s.ports.length → p < 8 → ∃ t, t = s.alignFailed p ∧ (t.port p).state = .retrain ∧
      t.kvNat (kFlReason p) = 7)) ∧
  (∀ (s : State) p c m l b, (s.port p).state ≠ .align ∨ (s.port p).stage ∉ [1, 2, 3, 4] →
    exec (.alignProbe p c) s = .next s ∧ exec (.alignMaxima p m) s = .next s ∧ exec (.alignConfirm p l) s = .next s ∧
    exec (.alignCheckDone p b) s = .next s)

/-- Losses: a state past its limit is reported; loss of signal on a lane, or of lock at the partner, takes a running
port to `RETRAIN` with its reason and discards its buffers; a port past a limit of R375, or that receives a retire
record while it runs, is `FAILED`, and the loss of its partner is that of a member where the port serves a hop of the
block, and of the time master where it is the partner; otherwise nothing changes (12 R342, R373 to R375; 13 R388,
R394; 20 R540, R542). -/
def Obligations.PortLosses : Prop :=
  (∀ (s : State) p, (∀ n, stateLimit (s.port p).state = some n → n + (s.port p).enteredAt ≤ s.now →
      exec (.portStateTimeout p) s = .next (s.event (.portReport p))) ∧
    (∀ n, stateLimit (s.port p).state = some n → s.now < n + (s.port p).enteredAt →
      exec (.portStateTimeout p) s = .next s) ∧
    (stateLimit (s.port p).state = none → exec (.portStateTimeout p) s = .next s)) ∧
  (∀ (s : State) p l, (l < 16 → exec (.lossOfSignal p l) s = .next (s.retrain p 5)) ∧
    (16 ≤ l → exec (.lossOfSignal p l) s = .next s) ∧ exec (.lossOfLock p) s = .next (s.retrain p 6)) ∧
  (∀ (s : State) p r, (s.port p).up = false → s.retrain p r = s) ∧
  (∀ (s : State) p r, p < s.ports.length → p < 8 → (s.port p).up = true → ∃ t, t = s.retrain p r ∧
    (t.port p).state = .retrain ∧ t.kvGet (kFlReason p) = BitVec.ofNat 64 r ∧ (t.port p).rxBuf = [] ∧
    (t.port p).retry = [] ∧ (t.port p).leftRunAt = some s.now ∧ (t.port p).enteredAt = s.now ∧
    t.kvNat (kLinkLat p) = 0) ∧
  (∀ (s : State) p, (s.overLimit p = true → exec (.portFailed p) s = .next (s.failPort p)) ∧
    (s.overLimit p = false → exec (.portFailed p) s = .next s) ∧
    ((s.port p).up = true → exec (.retireRecordReceived p) s = .next (s.failPort p)) ∧
    ((s.port p).up = false → exec (.retireRecordReceived p) s = .next s)) ∧
  (∀ (s : State) p, p < s.ports.length → s.hopPorts.contains p = false ∨ s.partnerCoord p = none → ∃ t, t = s.failPort p ∧
    (t.port p).state = .failed ∧ t.torus.masterLost = (s.torus.masterLost ||
      decide (s.torus.linkTo (s.torus.slot, s.torus.y, s.torus.z) p = coordOf s.torus.table.master))) ∧
  (∀ (s : State) p c, p < s.ports.length → s.hopPorts.contains p = true → s.partnerCoord p = some c → ∃ u : State,
    s.failPort p = u.memberLost c.1 c.2.1 c.2.2 ∧ (u.port p).state = .failed)

/-! ### Steps (chapters 07 and 16) -/

/-- A step that is due starts: every entry waits, event marks, bins, stops and written tokens are cleared, every
arbiter pointer returns to 0 and every context is before its first round; a step that is not due does not start (07
R176, R194; 10 R295; 11 R318; 16 R449, R451). -/
def Obligations.StepStarts : Prop :=
  (∀ s : State, s.startDue = false → exec .stepStart s = .next s) ∧
  (∀ s : State, s.startDue = true →
    ∃ t, exec .stepStart s = .next t ∧ t.job.inStep = true ∧ t.job.inSable = false ∧ t.job.stepStart = s.now ∧
      t.job.step = s.job.step ∧ t.job.bound = s.job.bound ∧
      t.job.ents = List.replicate (match s.job.img with | some i => i.parts.entries.length | none => 0) .waiting ∧
      t.job.written = [] ∧ t.job.swBins = List.replicate 16 0 ∧ t.job.swBufs = [] ∧
      t.job.fault = s.job.faultNext ∧ t.job.faultNext = false ∧ t.job.sent = false ∧ t.job.vFwd = false ∧
      t.job.combined = none ∧ (∀ p, (t.arb p).ptr = 0) ∧
      (∀ c, (t.ctx c).round = 0 ∧ (t.ctx c).complete = false) ∧
      (∀ u, (t.tile u).work = [] ∧ (t.tile u).stopped = [] ∧ (t.tile u).chain = {} ∧ (t.tile u).bad = [] ∧
        (t.tile u).cancelled = [] ∧ (t.tile u).u.evNonfinite = false ∧ (t.tile u).u.evSatFwd = false ∧
        (t.tile u).u.evSatBwd = false) ∧
      t.kv = s.kv ∧ t.mem.dram = s.mem.dram ∧ t.mem.tile = s.mem.tile ∧ t.hostIf = s.hostIf)

/-- An entry that is due runs from now on, on its engine, and no other entry's state changes; a kernel enters its unit
with cleared registers, `s1` its first thread and `s2` its thread count. An entry whose charge, memory waits, work and
writes are done ends, and what it wrote of versioned tokens counts for the flip; before, neither happens (06 R147; 07
R189; 16 R450). -/
def Obligations.EntriesStartAndEnd : Prop :=
  (∀ (s : State) e, s.entryDue e = false → exec (.entryStart e) s = .next s) ∧
  (∀ (s : State) e, s.entryDue e = true → ∃ t, exec (.entryStart e) s = .next t ∧ t = s.startEntry e ∧
    t.job.ents = setAt s.job.ents e (.running (s.now - s.job.stepStart)) ∧ t.running e = true) ∧
  (∀ (s : State) e n v m b, (s.entryOf e).kind = .register n v m b →
    s.engage e = (s.unitsOf (s.entryOf e)).foldl (fun x u => x.enterKernel e u) s) ∧
  (∀ (s : State) e u, ∃ t l, t = s.enterKernel e u ∧ l = (t.tile u).slate ∧ l.run = .running ∧ l.entry = e ∧ l.pc = 0 ∧
    l.vl = 0 ∧ l.vtype = none ∧ l.fault = none ∧ (∀ k, l.vreg k = 0 ∧ l.mreg k = 0) ∧
    l.xreg 2 = BitVec.ofNat 64 (s.threadsOf (s.entryOf e) u) ∧ (∀ k, k ≠ 1 → k ≠ 2 → l.xreg k = 0) ∧
    (∀ v, v ≠ u → t.tile v = s.tile v) ∧ { t with tiles := s.tiles } = s) ∧
  (∀ (s : State) e w a, s.job.ents[e]? = some (.running a) →
    exec (.entryEnd e w) s = .next (if s.job.inStep = true ∧
      a + (s.planOf e).2 + s.entryWaits e w ≤ s.now - s.job.stepStart ∧ s.workDone e = true ∧ s.writesAccepted e = true
      then s.endEntry e a else s)) ∧
  (∀ (s : State) e w, (∀ a, s.job.ents[e]? ≠ some (.running a)) → exec (.entryEnd e w) s = .next s) ∧
  (∀ (s : State) e a, e < s.job.ents.length → ∃ t, t = s.endEntry e a ∧
    t.job.ents = setAt s.job.ents e (.ended a (s.now - s.job.stepStart)) ∧ t.endedEnt e = true ∧
    t.job.written = s.job.written ++ (s.entryOf e).writes.filter (fun k => (s.tokDecl k).versioned))

/-- A step's boundary ends the step: its outcome is decided first (07 R179), then the record and the fold, the
checkpoints, the Sable window, the operating point, and the replies that fall due, in this order; no step is in
progress then. A boundary that is not due does not happen (01 R25; 07 R198; 14 R421; 16 R451). -/
def Obligations.StepBoundary : Prop :=
  (∀ (s : State) i, s.boundaryDue = false → exec (.stepBoundary i) s = .next s) ∧
  (∀ (s : State) i, s.boundaryDue = true → exec (.stepBoundary i) s = .next ((s.tileErrors i).boundaryNow i)) ∧
  (∀ (s : State) i b, s.job.bound = some b → ∃ x y z : State, x = (s.decideStep.closeStep b.planLen).captureAll ∧
    y = ((x.sableWork i).pointAfterStep i b.planLen).stepCounted ∧ z = y.runEnds.unloadWaiting ∧
    s.boundaryNow i = if z.imageRuns then z else z.fold) ∧
  (∀ (s : State) v, s.job.combined = some v → s.decideStep = (s.applyOutcome v).applyFaultN) ∧
  (∀ s : State, s.job.combined = none → s.decideStep = s.applyPlain.applyFaultN) ∧
  (∀ s : State, s.decideStep.job.outcome.isSome = true) ∧
  (∀ (s : State) n, ∃ t, t = s.closeStep n ∧ t.job.inStep = false ∧ t.job.inSable = true ∧ t.job.stepEnd = s.now ∧
    t.job.fault = false ∧ t.job.liveryMismatch = false ∧ t.job.combined = none ∧ t.job.ents = [] ∧
    t.job.step = s.job.step) ∧
  (∀ (s : State) i, (s.boundaryNow i).job.inStep = false)

/-- The outcome of a combined verdict: the first row of R179's table that holds. A commit advances `step` and
`opt_step` and ends a run of withheld steps, a skip advances `step` and counts, and halts once the run of skips
reaches its limit, a withheld step advances `step` and counts, and halts at its limit, a halt leaves `step` and
records the reason; of these only a commit flips versions (07 R179, R184 to R189; 20 R534). -/
def Obligations.StepOutcomes : Prop :=
  (∀ (s : State) v, VerdictMsg.has v vfLivery = true ∨ VerdictMsg.has v vfAgree = true → s.outcomeOf v = .halt) ∧
  (∀ (s : State) v, VerdictMsg.has v vfLivery = false → VerdictMsg.has v vfAgree = false →
    VerdictMsg.has v vfFault = true → s.outcomeOf v = .withhold) ∧
  (∀ (s : State) v, VerdictMsg.has v vfLivery = false → VerdictMsg.has v vfAgree = false →
    VerdictMsg.has v vfFault = false → s.outcomeOf v =
      if VerdictMsg.has v vfNonfinite = true ∨ (VerdictMsg.has v vfSatBwd = true ∧ bitOf (s.kvNat kVdCtl) 0 = true) ∨
        (VerdictMsg.has v vfSwatch = true ∧ bitOf (s.kvNat kVdCtl) 1 = true) then .skip else .commit) ∧
  (∀ (s t : State) v, t = s.applyOutcome v → s.outcomeOf v = .commit →
    t.job.outcome = some .commit ∧ t.job.step = s.job.step + 1 ∧ t.job.optStep = s.job.optStep + 1 ∧
    t.kvNat kFltRun = 0 ∧ t.job.active = s.flip.job.active ∧ t.job.jobFault = s.job.jobFault) ∧
  (∀ (s t : State) v, t = s.applyOutcome v → s.outcomeOf v = .skip → s.job.lsK + 1 < s.kvNat kSkipLimit →
    t.job.outcome = some .skip ∧ t.job.step = s.job.step + 1 ∧ t.job.optStep = s.job.optStep ∧
    t.job.active = s.job.active ∧ t.kvNat kStepsSkipped = satAdd (s.kvNat kStepsSkipped) 1 ∧ t.job.lsK = s.job.lsK + 1 ∧
    t.kvNat kFltRun = 0) ∧
  (∀ (s t : State) v, t = s.applyOutcome v → s.outcomeOf v = .skip → s.kvNat kSkipLimit ≤ s.job.lsK + 1 →
    t.job.outcome = some .halt ∧ t.job.step = s.job.step ∧ t.job.optStep = s.job.optStep ∧
    t.job.active = s.job.active ∧ t.job.jobFault = some 0x0604) ∧
  (∀ (s t : State) v n, t = s.applyOutcome v → s.outcomeOf v = .withhold → n = satAdd (s.kvNat kFltRun) 1 →
    t.kvNat kFltRun = n ∧ t.kvNat kFltWithheld = satAdd (s.kvNat kFltWithheld) 1 ∧ t.job.optStep = s.job.optStep ∧
    t.job.active = s.job.active ∧ t.job.lsE = s.job.lsE ∧
    (n < s.kvNat kWithholdLimit → s.job.jobFault = none → t.job.outcome = some .withhold ∧ t.job.jobFault = none ∧
      t.job.step = s.job.step + 1) ∧
    (s.job.jobFault ≠ none → t.job.outcome = some .halt ∧ t.job.step = s.job.step) ∧
    (s.kvNat kWithholdLimit ≤ n → t.job.outcome = some .halt ∧ t.job.jobFault = some 0x0605 ∧
      t.job.step = s.job.step)) ∧
  (∀ (s t : State) v, t = s.applyOutcome v → s.outcomeOf v = .halt →
    t.job.outcome = some .halt ∧ t.job.step = s.job.step ∧ t.job.optStep = s.job.optStep ∧
    t.job.active = s.job.active ∧ t.job.jobFault = some 0x0603)

/-- The loss scale after each outcome, row by row of R184's table, and the `verdict` token that a verdict's outcome
leaves holds the new scale and its inverse (07 R184). -/
def Obligations.LossScale : Prop :=
  (∀ (a : Scale) g num, a.c + 1 ≠ g.growth → Scale.next a g .commit num = { e := a.e, c := a.c + 1, k := 0 }) ∧
  (∀ (a : Scale) g num, a.c + 1 = g.growth →
    Scale.next a g .commit num = { e := min (a.e + (g.step : Int)) g.hi, c := 0, k := 0 }) ∧
  (∀ (a : Scale) g, Scale.next a g .skip true = { e := max (a.e - (g.step : Int)) g.lo, c := 0, k := a.k + 1 }) ∧
  (∀ (a : Scale) g, Scale.next a g .skip false = { e := a.e, c := a.c, k := a.k + 1 }) ∧
  (∀ (a : Scale) g num, Scale.next a g .withhold num = a ∧ Scale.next a g .halt num = a) ∧
  (∀ (a : Scale) g, a.e = g.lo → (Scale.next a g .skip true).e = g.lo ∧
    (Scale.next a g .skip true).k = a.k + 1) ∧
  (∀ (s : State) v, s.numSkip v = (VerdictMsg.has v vfNonfinite ||
    (VerdictMsg.has v vfSatBwd && bitOf (s.kvNat kVdCtl) 0))) ∧
  (∀ (s : State) v, ∃ x : Scale, x = s.scale.next s.scaleCfg (s.outcomeOf v) (s.numSkip v) ∧
    (s.applyOutcome v).job.lsE = x.e ∧ (s.applyOutcome v).job.lsC = x.c ∧ (s.applyOutcome v).job.lsK = x.k ∧
    (s.applyOutcome v).dramRd (s.placed verdictTok).addr0 8 = toLe 4 (pow2F32 x.e) ++ toLe 4 (pow2F32 (-x.e)))

/-- Two verdict messages combine field by field, and every combination is commutative and associative (07 R177). -/
def Obligations.VerdictCombination : Prop :=
  (∀ a b : VerdictMsg, VerdictMsg.combine a b = VerdictMsg.combine b a) ∧
  (∀ a b c : VerdictMsg, VerdictMsg.combine (VerdictMsg.combine a b) c = VerdictMsg.combine a (VerdictMsg.combine b c)) ∧
  (∀ a b : VerdictMsg, (VerdictMsg.combine a b).ssq = a.ssq + b.ssq ∧
    (∀ k, k < 16 → (VerdictMsg.combine a b).swBin.getD k 0 = min (a.swBin.getD k 0 + b.swBin.getD k 0) (2 ^ 48 - 1)) ∧
    (VerdictMsg.combine a b).nContrib = a.nContrib + b.nContrib ∧
    (∀ k, k < 32 → (VerdictMsg.combine a b).flags.getLsbD k = (a.flags.getLsbD k || b.flags.getLsbD k ||
      (decide (k = 5) && (decide (a.step ≠ b.step) || decide (a.lsExp ≠ b.lsExp))) ||
      (decide (k = 4) && decide (a.livery ≠ b.livery)))) ∧
    (a.step ≤ b.step → (VerdictMsg.combine a b).step = a.step) ∧
    (a.livery ≤ b.livery → (VerdictMsg.combine a b).livery = a.livery) ∧
    (a.lsExp ≤ b.lsExp → (VerdictMsg.combine a b).lsExp = a.lsExp))

/-- Verdicts: once every entry has ended, this node's contribution is joined; with every node below in, what is joined
goes on toward the root, or at the root becomes the combined verdict. A message of this round from below is joined and
counted, the root's is evaluated and becomes the combined verdict, both acknowledged; a duplicate is acknowledged, a
stale one counted (07 R172, R177, R178; 11 R321, R335). -/
def Obligations.Verdicts : Prop :=
  (∀ s : State, exec .verdictContribution s = .next (if s.job.inStep = true ∧ s.gradient = true ∧ s.job.sent = false ∧
      s.entriesEnded = true ∧ s.job.swBufs = [] then
    (State.joinVerdict { s with job := { s.job with sent := true, ssq := s.contribution.ssq } }
      s.contribution).forwardVerdict else s)) ∧
  (∀ (s : State) m, (s.joinVerdict m).job.part =
    some (match s.job.part with | some p => VerdictMsg.combine p m | none => m)) ∧
  (∀ s : State, s.job.part = none ∨ s.job.sent = false ∨ s.job.vFwd = true ∨
    s.job.vGot < (s.vChildren s.rel).length → s.forwardVerdict = s) ∧
  (∀ (s u : State) m, s.job.part = some m → s.job.sent = true → s.job.vFwd = false →
    (s.vChildren s.rel).length ≤ s.job.vGot →
    u = { s with job := { s.job with part := none, vGot := 0, vFwd := true } } →
    s.forwardVerdict = match u.vParent u.rel with | some p => u.sendVerdict m p | none => u.applyVerdict m) ∧
  (∀ (s : State) m, (s.applyVerdict m).job.combined = some (s.evaluate m) ∧
    (s.applyVerdict m).job.step = s.job.step ∧ (s.evaluate m).ssq = m.ssq ∧
    VerdictMsg.has (s.evaluate m) vfAgree = (VerdictMsg.has m vfAgree || decide (m.nContrib ≠ s.nodes)) ∧
    VerdictMsg.has (s.evaluate m) vfSwatch = (VerdictMsg.has m vfSwatch || s.swatchAlarm m)) ∧
  (∀ (s : State) src seq epoch m h, h = ({ src := src, seq := seq, epoch := epoch, lenM1 := 199 } : MsgHdr) →
    exec (.verdictMessage m ⟨src, seq, epoch⟩) s = .next (
      if epoch ≠ s.job.epoch ∨ s.job.bound.isNone = true then s.count kIxStale 1
      else if seqEarlier seq (s.roundSeq 0) = true then (s.count kIxDup 1).sendAck h
      else if seq ≠ s.roundSeq 0 then s.count kIxStale 1
      else if (s.ctx 0).arrived.contains (src, 0) = true then (s.count kIxDup 1).sendAck h
      else if s.verdictDue src = true then (s.landVerdict src m).sendAck h
      else s.count kIxStale 1)) ∧
  (∀ (s u : State) src m, u = s.setCtx 0 { s.ctx 0 with arrived := (s.ctx 0).arrived ++ [(src, 0)] } →
    (s.vParent s.rel = some (s.blockOf.coord src) → s.landVerdict src m = u.applyVerdict m) ∧
    (s.vParent s.rel ≠ some (s.blockOf.coord src) → ∃ v, v = u.joinVerdict m ∧
      s.landVerdict src m = State.forwardVerdict { v with job := { v.job with vGot := v.job.vGot + 1 } }))

/-! ### The arrays and the chain (chapters 04, 05, 07) -/

/-- An output tile that is due finishes: the drained tile enters the unit's tile store, the array's banks swap, the
tile is done, and no other unit, no other memory and no command is touched. On an uncorrectable error, met or landed,
the array's product stops and the step is contained. A tile that is not due does nothing (04 R91, R101, R103, R107; 10
R280, R286; 20 R533). A sampled tile whose accumulators wait is recomputed: its distances enter the bins, its buffer
is free, and nothing else changes; without such a buffer nothing happens (07 R193, R194, R197). -/
def Obligations.ProductTiles : Prop :=
  (∀ (s : State) u e i j ue, s.prodOf e = none → exec (.productOutputTile u e i j ue) s = .next s) ∧
  (∀ (s : State) u e i j d row, s.prodOf e = some (d, row) →
    (¬ TileDue s u e d i j → ∀ ue, exec (.productOutputTile u e i j ue) s = .next s) ∧
    (TileDue s u e d i j → s.tileAvoids u d i j (s.tile u).bad = true → ∃ t accs, accs = (tileAccs s u d row i j).1 ∧
      exec (.productOutputTile u e i j false) s = .next t ∧ t.tileMem u = (drainTile s u d row i j accs).1 ∧
      (t.tile u).work = (e, j + (prodTiles d).2 * i) :: (s.tile u).work ∧
      { t.tile u with u := {}, work := [] } = { (s.tile u).swapArr d.arr (cellsOf accs) with u := {}, work := [] } ∧
      (∀ v, v ≠ u → t.tile v = s.tile v ∧ t.tileMem v = s.tileMem v) ∧ t.mem.dram = s.mem.dram ∧
      t.mem.host = s.mem.host ∧ t.hostIf = s.hostIf ∧ t.job.step = s.job.step ∧
      t.job.swTiles = s.job.swTiles + (if s.swSampled d row i j then 1 else 0)) ∧
    (TileDue s u e d i j → ∀ ue, ue = true ∨ s.tileAvoids u d i j (s.tile u).bad = false → ∃ t,
      exec (.productOutputTile u e i j ue) s = .next t ∧ (t.tile u).stopped = (e, d.arr) :: (s.tile u).stopped ∧
      (t.tile u).work = (s.tile u).work ∧ t.job.fault = true ∧ t.mem = s.mem)) ∧
  (∀ (s : State) u e i j b d row,
    s.job.swBufs.find? (fun x => decide (x.unit = u ∧ x.entry = e ∧ x.ti = i ∧ x.tj = j)) = some b →
    s.prodOf e = some (d, row) →
    exec (.swatchRecompute u e i j) s = .next { s with job := { s.job with
      swBins := (tilePositions d i j).foldl (fun l p =>
        binAdd l (swBinOf (f32.decode (b.acc.getD (p.1 % 32 * 64 + p.2 % 64) 0)) (swRef s u d row p.1 p.2))) s.job.swBins
      swBufs := s.job.swBufs.filter (fun x => !decide (x.unit = u ∧ x.entry = e ∧ x.ti = i ∧ x.tj = j)) } }) ∧
  (∀ (s : State) u e i j,
    s.job.swBufs.find? (fun x => decide (x.unit = u ∧ x.entry = e ∧ x.ti = i ∧ x.tj = j)) = none ∨ s.prodOf e = none →
    exec (.swatchRecompute u e i j) s = .next s)

/-- A chain element that is due passes: without row mode, or in pass 2 once the row program has run, its outputs are
written and it is done; in pass 1 it joins its row. On an uncorrectable error, met or landed, the operation stops and
the step is contained. The row program runs once the unit holds the whole row; a row that lies on several units is
combined by the one that holds position 0, and its results stand on every unit that holds a part. Otherwise nothing
happens (05 R117, R124, R133, R135, R139, R140, R145). -/
def Obligations.ChainOperations : Prop :=
  (∀ (s : State) u e p n ue, s.chainOf e = none → exec (.chainElementPass u e p n ue) s = .next s) ∧
  (∀ (s : State) u e p n r row, s.chainOf e = some r → row = s.rowSt u (n / r.ext.headD 1) →
    (¬ ElemDue s u e r p n → ∀ ue, exec (.chainElementPass u e p n ue) s = .next s) ∧
    (ElemDue s u e r p n → ∀ ue, ue = true ∨ s.elemAvoids u r p n (s.tile u).bad = false → ∃ t,
      exec (.chainElementPass u e p n ue) s = .next t ∧ (t.tile u).chain.stopped = true ∧
      (t.tile u).work = (s.tile u).work ∧ t.mem = s.mem ∧ t.job.fault = true) ∧
    (ElemDue s u e r p n → s.elemAvoids u r p n (s.tile u).bad = true →
      (r.rowMode = false ∨ (p ≠ 1 ∧ row.ready = true) →
        exec (.chainElementPass u e p n false) s = .next (passTwo s u e r n) ∧
        ((passTwo s u e r n).tile u).work = (e, n) :: (s.tile u).work) ∧
      (r.rowMode = true → p = 1 → row.ready = false → row.has (n % r.ext.headD 1) = false → ∃ t x,
        exec (.chainElementPass u e p n false) s = .next t ∧ x.pos = n % r.ext.headD 1 ∧
        (t.rowSt u (n / r.ext.headD 1)).elems = row.elems ++ [x] ∧ (t.tile u).work = (s.tile u).work ∧ t.mem = s.mem) ∧
      (r.rowMode = true → (p = 1 ∧ (row.ready = true ∨ row.has (n % r.ext.headD 1) = true)) ∨
          (p ≠ 1 ∧ row.ready = false) →
        exec (.chainElementPass u e p n false) s = .next s))) ∧
  (∀ (s : State) u e w r st, s.chainOf e = some r → st = s.rowSt u w →
    (s.running e = true → r.rowMode = true → st.ready = false → st.elems.length = r.ext.headD 1 →
      ∃ t, exec (.rowProgram u e w) s = .next t ∧ t.rowSt u w = { st with
        z := (runRow r st.elems).1, yn := (runRow r st.elems).2.1, ready := true } ∧ t.mem = s.mem) ∧
    (¬ (s.running e = true ∧ r.rowMode = true ∧ st.ready = false ∧ st.elems.length = r.ext.headD 1) →
      exec (.rowProgram u e w) s = .next s)) ∧
  (∀ (s : State) u e w r parts n, s.chainOf e = some r → parts = s.rowParts (s.entryOf e) w →
    n = s.rowHere (s.entryOf e) (r.ext.headD 1) w →
    (s.running e = true → r.rowMode = true → (s.rowSt u w).ready = false → u = combiner parts → 0 < n →
      (parts.flatMap (fun p => p.2)).length = n → 2 ≤ parts.length ∨ n < r.ext.headD 1 →
      ∃ t, exec (.splitRowCombine u e w) s = .next t ∧ t.mem = s.mem ∧ (∀ p ∈ parts, (t.rowSt p.1 w).ready = true ∧
        (t.rowSt p.1 w).z = if n < r.ext.headD 1 then s.farRow e w else (runRow r (parts.flatMap (fun q => q.2))).1)) ∧
    (¬ (s.running e = true ∧ r.rowMode = true ∧ (s.rowSt u w).ready = false ∧ u = combiner parts ∧ 0 < n ∧
        (parts.flatMap (fun p => p.2)).length = n ∧ (2 ≤ parts.length ∨ n < r.ext.headD 1)) →
      exec (.splitRowCombine u e w) s = .next s)) ∧
  (∀ (s : State) u e w, s.chainOf e = none →
    exec (.rowProgram u e w) s = .next s ∧ exec (.splitRowCombine u e w) s = .next s)

/-! ### Slate (chapter 06) -/

/-- `setvl` reads its source as an unsigned 64-bit count, sets the vtype from its immediate, grants the smaller of the
count and VLMAX = `p_vlen`·g / ew, and writes it to the destination; the largest VLMAX is 2,048, for 8-bit elements at
g = 8, and BF16 at g = 8 gives 1,024 (06 R150). -/
def Obligations.SetvlGrants : Prop :=
  (∀ (s : State) u d a f lg, s.laneRuns u = true →
    ∃ t n, exec (.setvl u d a f lg) s = .next t ∧ n = min ((s.tile u).slate.xreg a).toNat (2048 * 2 ^ lg / Fmt.bits f) ∧
      (t.tile u).slate.vl = n ∧ (t.tile u).slate.vtype = some { fmt := f, g := 2 ^ lg } ∧
      (d ≠ 0 → (t.tile u).slate.xreg d = BitVec.ofNat 64 n) ∧ (t.tile u).slate.xreg 0 = 0) ∧
  (∀ f lg, laneFmt f = true → lg < 4 → VType.vlmax { fmt := f, g := 2 ^ lg } ≤ 2048) ∧
  VType.vlmax { fmt := .int8, g := 8 } = 2048 ∧ VType.vlmax { fmt := .bf16, g := 8 } = 1024

/-- The scalar instructions of a running kernel: what each writes; everything else but the pc is as it was (06 R146,
R150, R153, R155). `sbnz` branches when its register is not 0 and falls through otherwise; `send` ends the kernel, and
the rest of its budget counts as idle (06 R152, R153, R168, R169; the branch is relative to the instruction by log
23). -/
def Obligations.SlateScalars : Prop :=
  (∀ (s : State) u l, s.laneRuns u = true → (s.tile u).slate = l →
     (∀ d a f lg, ∃ m, exec (.setvl u d a f lg) s = .next (s.setSlate u m) ∧
       m.vl = min (l.xreg a).toNat (2048 * 2 ^ lg / Fmt.bits f) ∧ m.vtype = some { fmt := f, g := 2 ^ lg } ∧
       l.Set { m with vl := l.vl, vtype := l.vtype } d
         (BitVec.ofNat 64 (min (l.xreg a).toNat (2048 * 2 ^ lg / Fmt.bits f)))) ∧
     (∀ d i, ∃ m, exec (.sli u d i) s = .next (s.setSlate u m) ∧ l.Set m d (i.signExtend 64)) ∧
     (∀ d i, ∃ m, exec (.slui u d i) s = .next (s.setSlate u m) ∧ l.Set m d ((l.xreg d <<< 21) ||| i.zeroExtend 64)) ∧
     (∀ d a b op, ∃ m, exec (.salu u d a b op) s = .next (s.setSlate u m) ∧
       l.Set m d (saluOp op (l.xreg a) (l.xreg b))) ∧
     (∀ d, ∃ m, exec (.scsr u d false) s = .next (s.setSlate u m) ∧ l.Set m d (BitVec.ofNat 64 l.vl)) ∧
     (∀ d, ∃ m, exec (.scsr u d true) s = .next (s.setSlate u m) ∧ l.Set m d s.job.step) ∧
     (∀ d, ∃ m, exec (.srdtime u d) s = .next (s.setSlate u m) ∧ l.Set m d s.clk.cobalt)) ∧
  (∀ (s : State) u l, s.laneRuns u = true → (s.tile u).slate = l →
     (∀ a o, l.xreg a = 0 → exec (.sbnz u a o) s = .next (s.setSlate u { l with pc := l.pc + 4 })) ∧
     (∀ a o, l.xreg a ≠ 0 → exec (.sbnz u a o) s = .next (s.setSlate u { l with pc := branchPc l.pc o })) ∧
     exec (.send u) s = .next (((s.setSlate u { l with pc := l.pc + 4, run := .ended }).count (kSlBusy u)
       (s.entryAge l.entry)).count (kSlIdle u) ((s.budgetOf l.entry).getD 0 + l.stall - s.entryAge l.entry)))

/-- The integer, selection and permutation instructions: every active element below vl holds its result, computed from
the operands as they stood before; every other element, register and memory byte is as it was (06 R148, R151, R153,
R155). -/
def Obligations.SlateIntegerElements : Prop :=
  ∀ (s : State) u t l (o : VOps) ew, Lanes s u t l → laneFmt t.fmt = true → ew = Fmt.bits t.fmt → fitsV o.d ew l.vl →
    (∀ op, ∃ x, exec (.vi u o op) s = .next x ∧ x.mem = s.mem ∧
      l.Wrote (x.tile u).slate o.d ew l.vl (fun i => l.active o.mu o.msk i)
        (fun i => viOp op ew (l.elem o.a ew i) (l.srcB o ew i))) ∧
    (∃ x, exec (.vsel u o) s = .next x ∧ x.mem = s.mem ∧
      l.Wrote (x.tile u).slate o.d ew l.vl (fun i => l.active o.mu o.msk i)
        (fun i => if l.mbit o.msk i then l.elem o.a ew i else l.srcB o ew i)) ∧
    (∀ op, op ≠ .compress → op ≠ .extract → ∃ x, exec (.vperm u o op) s = .next x ∧ x.mem = s.mem ∧
      l.Wrote (x.tile u).slate o.d ew l.vl (fun i => l.active o.mu o.msk i) (fun i => permElem op l o ew i)) ∧
    (∃ x, exec (.vperm u o .compress) s = .next x ∧ x.mem = s.mem ∧
      l.Wrote (x.tile u).slate o.d ew l.vl (fun _ => true)
        (fun i => (((List.range l.vl).filter (fun k => l.mbit o.msk k)).map (fun k => l.elem o.a ew k)).getD i 0)) ∧
    (0 < l.vl → ∃ x, exec (.vperm u o .extract) s = .next x ∧ x.mem = s.mem ∧
      l.Set (x.tile u).slate o.d
        (BitVec.ofNat 64 (if (l.xreg o.b).toNat < l.vl then l.elem o.a ew (l.xreg o.b).toNat else 0))) ∧
    (l.vl = 0 → ∃ x, exec (.vperm u o .extract) s = .next x ∧ (x.tile u).slate = { l with pc := l.pc + 4 })

/-- The floating-point and widening instructions: every active element holds its result, rounded once, or computed in
FP32 and converted for the short formats; every other element, register and memory byte is as it was. A format without
a widening form leaves the registers as they are (02 R50; 06 R151, R153, R154, R156 to R158, R160). -/
def Obligations.SlateFloatElements : Prop :=
  ∀ (s : State) u t l (o : VOps) ew, Lanes s u t l → laneFmt t.fmt = true → ew = Fmt.bits t.fmt → fitsV o.d ew l.vl →
    (∀ rm op, ∃ x, exec (.vf u o rm op) s = .next x ∧ x.mem = s.mem ∧
      l.Wrote (x.tile u).slate o.d ew l.vl (fun i => l.active o.mu o.msk i)
        (fun i => (laneFp t.fmt (vfOp op rm) [l.elem o.a ew i, l.srcB o ew i]).1)) ∧
    (∀ rm op, ∃ x, exec (.vfma u o rm op) s = .next x ∧ x.mem = s.mem ∧
      l.Wrote (x.tile u).slate o.d ew l.vl (fun i => l.active o.mu o.msk i)
        (fun i => (laneFp t.fmt (vfmaOp op rm) [l.elem o.a ew i, l.srcB o ew i, l.elem o.d ew i]).1)) ∧
    (∀ rm acc dst, wmulDst t.fmt = some dst → fitsV o.d (Fmt.bits dst) l.vl →
      ∃ x, exec (.vwmul u o rm acc) s = .next x ∧ x.mem = s.mem ∧
        l.Wrote (x.tile u).slate o.d (Fmt.bits dst) l.vl (fun i => l.active o.mu o.msk i)
          (fun i => (wmulElem t.fmt dst rm acc (l.elem o.a ew i) (l.elem o.b ew i)
            (l.elem o.d (Fmt.bits dst) i)).1)) ∧
    (∀ rm acc, wmulDst t.fmt = none → ∃ x, exec (.vwmul u o rm acc) s = .next x ∧ x.mem = s.mem ∧
      (x.tile u).slate = { l with pc := l.pc + 4 }) ∧
    (∀ rm four dst w, dotDst t.fmt = some (dst, w) → w = (if four then 4 else 2) →
      ∃ x, exec (.vdot u o rm four) s = .next x ∧ x.mem = s.mem ∧
        l.Wrote (x.tile u).slate o.d (Fmt.bits dst) (l.vl / w)
          (fun j => (rangeFrom (w * j) w).all (fun i => l.active o.mu o.msk i))
          (fun j => (dotElem t.fmt dst rm ((rangeFrom (w * j) w).map (fun i => (l.elem o.a ew i, l.elem o.b ew i)))
            (l.elem o.d (Fmt.bits dst) j)).1)) ∧
    (∀ rm four, (∀ dst, dotDst t.fmt ≠ some (dst, if four then 4 else 2)) → ∃ x, exec (.vdot u o rm four) s = .next x ∧
      x.mem = s.mem ∧ (x.tile u).slate = { l with pc := l.pc + 4 }) ∧
    (∀ cvt dst, laneFmt dst = true → fitsV o.d (Fmt.bits dst) l.vl →
      ∃ x, exec (.vcvt u o cvt dst) s = .next x ∧ x.mem = s.mem ∧
        l.Wrote (x.tile u).slate o.d (Fmt.bits dst) l.vl (fun i => l.active o.mu o.msk i)
          (fun i => (convert dst cvt (s.srOf ((l.xreg o.b).toNat % 2 ^ 32) (((l.xreg (o.b + 1)).toNat + i) % 2 ^ 64)) 0
            (decodeVal t.fmt (l.elem o.a ew i) 0 0)).1))

/-- Masks, counts and reductions: a comparison or logical operation writes its mask bits below vl where active;
`vmcnt`, `vmaxi` write a scalar; `vred` writes element 0 and nothing else; at vl 0 the last three write nothing (06
R151, R153, R159). -/
def Obligations.SlateMasksAndReductions : Prop :=
  ∀ (s : State) u t l (o : VOps) ew, Lanes s u t l → laneFmt t.fmt = true → ew = Fmt.bits t.fmt →
    (∀ c, ∃ x, exec (.vcmp u o c) s = .next x ∧ x.mem = s.mem ∧
      l.Marked (x.tile u).slate o.d l.vl (fun i => l.active o.mu o.msk i)
        (fun i => (laneCmp t.fmt c (l.elem o.a ew i) (l.srcB o ew i)).1)) ∧
    (∀ k, ∃ x, exec (.vmlog u o k) s = .next x ∧ x.mem = s.mem ∧
      l.Marked (x.tile u).slate o.d l.vl (fun i => l.active o.mu o.msk i)
        (fun i => bitOf k ((if l.mbit o.a i then 2 else 0) + (if l.mbit o.b i then 1 else 0)))) ∧
    (0 < l.vl → ∃ x, exec (.vmcnt u o false) s = .next x ∧ x.mem = s.mem ∧
      l.Set (x.tile u).slate o.d
        (BitVec.ofNat 64 ((l.actives o.mu o.msk).filter (fun i => l.mbit o.a i)).length)) ∧
    (0 < l.vl → ∃ x, exec (.vmcnt u o true) s = .next x ∧ x.mem = s.mem ∧
      l.Set (x.tile u).slate o.d (match ((l.actives o.mu o.msk).filter (fun i => l.mbit o.a i)).head? with
        | some i => BitVec.ofNat 64 i | none => 0xFFFFFFFFFFFFFFFF)) ∧
    (0 < l.vl → ∃ x, exec (.vmaxi u o) s = .next x ∧ x.mem = s.mem ∧
      l.Set (x.tile u).slate o.d
        (match maxIndex t.fmt (fun i => l.elem o.a ew i) (l.actives o.mu o.msk) with
          | some i => BitVec.ofNat 64 i | none => 0xFFFFFFFFFFFFFFFF)) ∧
    (0 < l.vl → o.d < 32 → ∀ op, ∃ x, exec (.vred u o op) s = .next x ∧ x.mem = s.mem ∧
      l.Wrote (x.tile u).slate o.d (vredWidth t.fmt op) 1 (fun _ => true)
        (fun _ => (vredOp t.fmt op l.vl (l.actives o.mu o.msk) (fun i => l.elem o.a ew i)
          (l.elem o.d (vredWidth t.fmt op) 0)).1)) ∧
    (l.vl = 0 → ∀ c, (∃ f, c = Instr.vmcnt u o f) ∨ c = .vmaxi u o ∨ (∃ op, c = .vred u o op) → ∃ x,
      exec c s = .next x ∧ (x.tile u).slate = { l with pc := l.pc + 4 })

/-- A Slate instruction that works on registers leaves everything but its own unit's lanes, flags, counts and event
bits as it was, and no sticky flag is cleared; one that can raise none leaves flags and event bits as they were.
Without a running kernel no Slate instruction acts, and without a vtype only the scalar ones do (06 R146 to R160). -/
def Obligations.SlateRegisterFrame : Prop :=
  (∀ (c : Instr) (s t : State) u, Instr.registerUnit c = some u → exec c s = .next t →
    { t with tiles := s.tiles } = s ∧ (∀ v, v ≠ u → t.tile v = s.tile v) ∧
    { t.tile u with slate := (s.tile u).slate, u := (s.tile u).u } = s.tile u ∧
    (∀ k, k < 5 → (s.tile u).u.flags.getLsbD k = true → (t.tile u).u.flags.getLsbD k = true) ∧
    (Instr.quietUnit c = some u → (t.tile u).u.flags = (s.tile u).u.flags ∧
      (t.tile u).u.evNonfinite = (s.tile u).u.evNonfinite ∧ (t.tile u).u.evSatFwd = (s.tile u).u.evSatFwd ∧
      (t.tile u).u.evSatBwd = (s.tile u).u.evSatBwd)) ∧
  (∀ (c : Instr) (s : State) u, c = .send u ∨ Instr.registerUnit c = some u ∨ Instr.memoryUnit c = some u →
    s.laneRuns u = false → exec c s = .next s) ∧
  (∀ (c : Instr) (s : State) u, Instr.registerUnit c = some u ∨ Instr.memoryUnit c = some u → Instr.scalarUnit c = none →
    (s.tile u).slate.vtype = none → exec c s = .next s)

/-- Loads whose accesses happen and meet no cause of a fault: every active element holds the bytes at its address,
read in the active slot of a versioned token; no memory changes. `vlxs` sets its result mask besides, and on an
address fault loads what comes before it, masks the rest and goes on. A load of lines that are not ready waits (06
R153, R161 to R163, R166; 07 R188; 10 R280, R297). -/
def Obligations.SlateLoads : Prop :=
  ∀ (s : State) u t l (o : MOps) ew n, Lanes s u t l → laneFmt t.fmt = true → ew = Fmt.bits t.fmt → n = ew / 8 →
    fitsV o.d ew l.vl →
    (Clear s u o true false n l.entry (unitAddrs l o n 1) → ∃ x, exec (.vl u o) s = .next x ∧
      Loaded s x u o l ew (fun i => s.slotRd u o (wrapAddr (((l.xreg o.a).toNat + i * n : Nat) : Int)) n)) ∧
    (Clear s u o true false n l.entry (strideAddrs l o) → ∃ x, exec (.vls u o) s = .next x ∧
      Loaded s x u o l ew
        (fun i => s.slotRd u o (wrapAddr (((l.xreg o.a).toNat : Int) + (i : Int) * (l.xreg o.b).toInt)) n)) ∧
    (∀ place : Nat → Nat, (∀ i, place i = wrapAddr (((l.xreg o.a).toNat : Int) +
        signed (if o.idx16 then 16 else 32) (l.elem o.b (if o.idx16 then 16 else 32) i) * (n : Int))) →
      (Clear s u o true false n l.entry (indexAddrs l o n) → ∃ x, exec (.vlx u o) s = .next x ∧
        Loaded s x u o l ew (fun i => s.slotRd u o (place i) n)) ∧
      (Clear s u o true false n l.entry (indexAddrs l o n) → ∀ k, ∃ x y, exec (.vlxs u o k) s = .next x ∧
        l.Marked { y with v := l.v, stall := l.stall } k l.vl (fun _ => true) (fun i => l.active o.mu o.msk i) ∧
        (x.tile u).slate = y ∧ sameBytes s x ∧
        ∀ i, fitsV o.d ew (i + 1) → y.elem o.d ew i =
          if i < l.vl ∧ l.active o.mu o.msk i = true then s.slotRd u o (place i) n % 2 ^ ew else l.elem o.d ew i) ∧
      (∀ k acc st, s.scanFor u o true false n l.entry (indexAddrs l o n) = (acc, some st) → st.cause ≠ 4 →
        s.memReady u o true n l.entry acc = true → ∃ x y, exec (.vlxs u o k) s = .next x ∧
        l.Marked { y with v := l.v, stall := l.stall } k l.vl (fun _ => true)
          (fun i => acc.any (fun p => decide (p.1 = i))) ∧
        (x.tile u).slate = y ∧ sameBytes s x ∧
        ∀ i, fitsV o.d ew (i + 1) → y.elem o.d ew i =
          if i < l.vl ∧ acc.any (fun p => decide (p.1 = i)) = true then s.slotRd u o (place i) n % 2 ^ ew
          else l.elem o.d ew i)) ∧
    (∀ c acc st addrs, (Instr.access l n c = some (u, o, true, false, addrs) ∨
        (∃ k, c = .vlxs u o k ∧ addrs = indexAddrs l o n)) → s.scanFor u o true false n l.entry addrs = (acc, st) →
      s.memReady u o true n l.entry acc = false → exec c s = .next s) ∧
    ((∀ p ∈ unitAddrs l o n 1, ∀ a ∈ p.2, hostCause n a (o.ue == some p.1) = none) →
      ∃ x, exec (.vlhost u o) s = .next x ∧ x.mem = s.mem ∧
      l.Wrote (x.tile u).slate o.d ew l.vl (fun i => l.active o.mu o.msk i)
        (fun i => leNat (s.hostRd (wrapAddr (((l.xreg o.a).toNat + i * n : Nat) : Int) % 2 ^ 52) n))) ∧
    (∀ f, Clear s u o true false n l.entry (unitAddrs l o n f) → l.vl * ew ≤ 2048 * t.g → o.d + f * t.g ≤ 32 →
      ∃ x, exec (.vlseg u o f) s = .next x ∧ sameBytes s x ∧
        (∀ k, k < o.d ∨ o.d + f * t.g ≤ k → (x.tile u).slate.vreg k = l.vreg k) ∧
        ∀ i q, q < f → (i + 1) * ew ≤ 2048 * t.g → (x.tile u).slate.elem (o.d + q * t.g) ew i =
          if i < l.vl ∧ l.active o.mu o.msk i = true
          then s.slotRd u o (wrapAddr (((l.xreg o.a).toNat + (f * i + q) * n : Nat) : Int)) n % 2 ^ ew
          else l.elem (o.d + q * t.g) ew i)

/-- Stores whose accesses happen and meet no cause of a fault: the bytes at each address, in the slot of a versioned
token that writes use, hold the element stored last there, the highest index winning; every byte outside the accesses,
every other unit and memory is as it was (06 R153, R161, R164, R166; 07 R188). Scatter-adds whose accesses happen and
meet no cause of a fault: an address met once holds its old value plus the element, integers wrapping and floating
formats rounded once; bytes outside the accesses are as they were. `vsxadd` adds in ascending index and `vsxadda` in
the order of arrival, which takes every access once (06 R153, R164). -/
def Obligations.SlateStores : Prop :=
  (∀ (s : State) u t l (o : MOps) ew n, Lanes s u t l → laneFmt t.fmt = true → ew = Fmt.bits t.fmt → n = ew / 8 →
     (∀ c addrs, (c = .vs u o ∧ addrs = unitAddrs l o n 1) ∨ (c = .vss u o ∧ addrs = strideAddrs l o) ∨
         (c = .vsx u o ∧ addrs = indexAddrs l o n) → Clear s u o false true n l.entry addrs →
       ∃ x acc, exec c s = .next x ∧ acc = s.fallen u o true addrs ∧ Stored s x u o n acc ∧
         ∀ i a, (i, [a]) ∈ acc → alone u o.space n acc (fun j => i < j) a → x.spaceRd u o.space a n = l.elem o.d ew i) ∧
     (∀ f, Clear s u o false true n l.entry (unitAddrs l o n f) →
       ∃ x acc, exec (.vsseg u o f) s = .next x ∧ acc = s.fallen u o true (unitAddrs l o n f) ∧ Stored s x u o n acc ∧
         ∀ i as q a, (i, as) ∈ acc → as[q]? = some a → alone u o.space n acc (fun j => i < j) a →
           alone u o.space n [(0, as.drop (q + 1))] (fun _ => True) a →
           x.spaceRd u o.space a n = l.elem (o.d + q * t.g) ew i)) ∧
  (∀ (s : State) u t l (o : MOps) ew n acc, Lanes s u t l → laneFmt t.fmt = true → ew = Fmt.bits t.fmt → n = ew / 8 →
     Clear s u o true true n l.entry (indexAddrs l o n) → acc = s.fallen u o true (indexAddrs l o n) →
     (∀ order, ∀ p, p ∈ arrival order acc ↔ p ∈ acc) ∧
     (∀ c inOrder, (c = .vsxadd u o ∧ inOrder = acc) ∨ (∃ order, c = .vsxadda u o order ∧ inOrder = arrival order acc) →
       ∃ x, exec c s = .next x ∧ Stored s x u o n acc ∧
         (∀ b, x.spaceByte u o.space b = (s.addAll u o t l inOrder).spaceByte u o.space b) ∧
         ∀ i a, (i, [a]) ∈ acc → alone u o.space n acc (fun j => j ≠ i) a →
           x.spaceRd u o.space a n = (scatterAdd t.fmt (s.spaceRd u o.space a n) (l.elem o.d ew i)).1 % 2 ^ ew))

/-- Slate faults: a memory instruction whose element meets a cause stops the kernel at the lowest such element, with
cause, element and address recorded and the elements below it done; a load or store that must wait for a line or a
stream does nothing yet; the end of a budget stops a running kernel with cause 6. In a step the step is contained (06
R162, R163, R166, R168; 10 R280, R297; 20 R531 to R533). -/
def Obligations.SlateFaults : Prop :=
  (∀ (c : Instr) (s : State) u t l o load write n addrs acc st, Lanes s u t l → n = Fmt.bits t.fmt / 8 →
    Instr.access l n c = some (u, o, load, write, addrs) → s.scanFor u o load write n l.entry addrs = (acc, st) →
    (s.memReady u o load n l.entry acc = false → exec c s = .next s) ∧
    (∀ f, s.memReady u o load n l.entry acc = true → st = some f → ∃ x, exec c s = .next x ∧
      Stopped s x u l f.elem f.addr f.cause ∧ (∀ b, ¬ touched u o.space n acc b →
        x.spaceByte u o.space b = s.spaceByte u o.space b) ∧
      (write = false → sameBytes s x ∧ (fitsV o.d (Fmt.bits t.fmt) l.vl → laneFmt t.fmt = true → ∀ i a, (i, [a]) ∈ acc →
        (x.tile u).slate.elem o.d (Fmt.bits t.fmt) i = s.spaceRd u o.space a n)))) ∧
  (∀ (s : State) u t l (o : MOps) n acc f k, Lanes s u t l → n = Fmt.bits t.fmt / 8 →
    s.scanFor u o true false n l.entry (indexAddrs l o n) = (acc, some f) → f.cause = 4 →
    s.memReady u o true n l.entry acc = true →
    ∃ x, exec (.vlxs u o k) s = .next x ∧ Stopped s x u l f.elem f.addr 4 ∧ sameBytes s x) ∧
  (∀ (s : State) u t l (o : MOps) n acc f, Lanes s u t l → n = Fmt.bits t.fmt / 8 →
    scanMem (fun i a => hostCause n a (o.ue == some i)) (unitAddrs l o n 1) = (acc, some f) →
    ∃ x, exec (.vlhost u o) s = .next x ∧ Stopped s x u l f.elem f.addr f.cause ∧ x.mem = s.mem) ∧
  (∀ (s : State) u l, (s.tile u).slate = l →
    (l.run = .running → s.budgetOver u = true →
      ∃ x, exec (.slateBudgetEnd u) s = .next x ∧ Stopped s x u l 0 0 6 ∧ x.mem = s.mem) ∧
    (l.run ≠ .running ∨ s.budgetOver u = false → exec (.slateBudgetEnd u) s = .next s))

/-! ### The Umber engines (chapters 08 and 09) -/

/-- A part of a solve whose inputs hold a poisoned line stops its engine: a step's is contained, a distributed one
stops the job; any other part runs, the pre-pass or one iteration. What a part leaves is either the wait for other
nodes' values, or the solve's next state on its engine, or, when it has ended, an engine free of a command's solve or
held until its entry's charge ends. A command for another phase, or for an engine without a solve, does nothing (08
R221, R228, R232, R233, R241; 20 R533, R539). A group of up to four trees whose inputs are sound is computed: each
tree's result joins the operation's results in order, and when every engine of the operation has finished or stopped,
they are free of a command's operation, or held until its entry's charge ends. On an uncorrectable error the engine
stops at once, the others after their group, and a step is contained. Without trees to compute nothing happens (09
R264, R266, R270). -/
def Obligations.UmberParts : Prop :=
  (∀ (s : State) f, (∀ t, (s.engine f).solve = some t → t.phase ≠ .prepass) → exec (.umberSPrepass f) s = .next s) ∧
  (∀ (s : State) f, (∀ t, (s.engine f).solve = some t → t.phase ≠ .iterate) → exec (.umberSIteration f) s = .next s) ∧
  (∀ (s : State) f t c, (s.engine f).solve = some t → (c = .umberSPrepass f ∧ t.phase = .prepass) ∨
      (c = .umberSIteration f ∧ t.phase = .iterate) →
    (∀ a, s.solvePoisoned t = some a → exec c s = .next (s.faultSolve f t a)) ∧
    (∀ u, s.solvePoisoned t = none → u = s.withForward t → exec c s = .next (s.commitRun f u
      (if t.phase = .prepass then s.prepassRun u
       else ((iterate t.desc.bnd s.now).run { st := u, inp := u.netIn }).2)))) ∧
  (∀ (s : State) f t a, f < s.engines.length → t.desc.dist = false →
    ((s.faultSolve f t a).engine f).solve = t.after ∧
    (∀ e, t.src = .entry e → s.job.inStep = true → (s.faultSolve f t a).job.fault = true) ∧
    ∀ g, g ≠ f → (s.faultSolve f t a).engine g = s.engine g) ∧
  (∀ (s : State) f t a, t.desc.dist = true → s.job.bound.isSome = true → s.job.jobFault = none →
    (s.faultSolve f t a).job.jobFault = some 0x0607 ∧ (s.faultSolve f t a).job.inStep = false) ∧
  (∀ (s : State) f t (r : Run) a, f < s.engines.length → r.ask = some a →
    s.commitRun f t r = s.setEngine f { s.engine f with solve := some { t with asked := some a } }) ∧
  (∀ (s : State) f t (r : Run), f < s.engines.length → r.ask = none → r.st.phase ≠ .ended →
    ((s.commitRun f t r).engine f).solve = some { r.st with netIn := r.inp, asked := none, ev := {} } ∧
    (s.commitRun f t r).mem.dram = s.mem.dram ∧ (∀ g, g ≠ f → (s.commitRun f t r).engine g = s.engine g)) ∧
  (∀ (s : State) f t (r : Run), f < s.engines.length → r.ask = none → r.st.phase = .ended →
    match r.st.src with
    | .cmd _ => ((s.commitRun f t r).engine f).solve = none
    | .entry _ => ∃ y, ((s.commitRun f t r).engine f).solve = some y ∧ y.phase = .ended ∧ y.src = r.st.src) ∧
  (∀ (s : State) f ue, (∀ t, (s.engine f).dyn = some t → t.stop ≤ t.next ∨ t.faulted = true) →
    exec (.umberJGroup f ue) s = .next s) ∧
  (∀ (s : State) f t n, (s.engine f).dyn = some t → t.next < t.stop → t.faulted = false → n = min 4 (t.stop - t.next) →
    (∀ ue a, s.groupPoisoned t n = some a → exec (.umberJGroup f ue) s = .next (s.faultDyn f t a)) ∧
    (s.groupPoisoned t n = none → ∃ a, exec (.umberJGroup f true) s = .next (s.faultDyn f t a)) ∧
    (s.groupPoisoned t n = none → ∃ (x : State × List TreeRes) (y : DynSt),
      x = ((s.askAll (reqUmber + f) 0 (t.inputs n)).askAll (reqUmber + f) 2 (t.outputs n)).runTrees f t n ∧
      x.2.length = n ∧ y = { t with next := t.next + n, results := t.results ++ x.2, faulted := t.halt } ∧
      exec (.umberJGroup f false) s =
        .next ((x.1.setEngine f { x.1.engine f with dyn := some y }).finishDyn y))) ∧
  (∀ (s : State) t, s.dynDone t.fields = false → s.finishDyn t = s) ∧
  (∀ (s : State) t f, s.dynDone t.fields = true → f ∈ t.fields → f < s.engines.length →
    ((s.finishDyn t).engine f).dyn = match t.src with
      | .cmd _ => none
      | .entry _ => (s.engine f).dyn.map (fun z => { z with done := true })) ∧
  (∀ (s : State) f t a, ∃ u : State, s.faultDyn f t a = u.finishDyn t ∧
    (∀ g, g < s.engines.length → (u.engine g).dyn = if g ∈ t.fields then (s.engine g).dyn.map (fun y =>
      if g = f then { y with faulted := true } else { y with halt := true }) else (s.engine g).dyn) ∧
    (∀ e, t.src = .entry e → s.job.inStep = true → u.job.fault = true))

/-! ### Memory (chapter 10) -/

/-- A request to an unmapped address faults; one that may arrive is parked at its port with the time of its arrival,
and nothing else changes (10 R287, R294, R297). A decision of an idle port grants its winner: the pointer moves to the
next slot, the request leaves the queue and holds the port for its beats, at most `burst_max` of its class, and with a
memory request's last grant its line is written. A memory port whose grant has reached its last beat first ends it,
what the limit cut waiting again; without a winner, or while a grant is in progress, no queue changes (10 R295, R296,
R298). -/
def Obligations.MemoryGrants : Prop :=
  (∀ (s : State) r, s.hueMap r.addr = none → exec (.memoryRequest r) s = .fault (.unmapped r.addr)) ∧
  (∀ (s : State) r, (s.hueMap r.addr).isSome = true → s.mayArrive r = true →
    exec (.memoryRequest r) s = .next (s.setArb r.port { s.arb r.port with
      pend := (s.arb r.port).pend ++ [{ r with beats := max 1 r.beats, stamp := s.now, rest := 0 }] })) ∧
  (∀ (s : State) r, (s.hueMap r.addr).isSome = true → s.mayArrive r = false → exec (.memoryRequest r) s = .next s) ∧
  (∀ (s : State) p r n, p < 392 → (s.arb p).cur = none → s.grants p = true →
    s.winner p (s.eligible p (s.arb p).pend) = some r →
    n = min r.beats (max 1 (burstOf (s.kvNat (if p < 384 then kBurstMax else kFlBurst)) r.cls)) →
    ∃ t, exec (.arbiterDecision p) s = .next t ∧ (t.arb p).ptr = ((s.arb p).ptr + 1) % 16 ∧
      (t.arb p).pend = (s.arb p).pend.erase r ∧ (t.arb p).cur = some { r with beats := n, rest := r.beats - n } ∧
      (t.arb p).busyUntil = s.now + n ∧ (∀ q, q ≠ p → p < 320 ∨ 320 ≤ q → t.arb q = s.arb q) ∧
      t.mem.dram = (if p < 384 ∧ r.beats ≤ n then match r.write with
        | some d => s.mem.dram.writeN (r.addr / 64 * 64) (d.take 64)
        | none => s.mem.dram else s.mem.dram)) ∧
  (∀ (s : State) p, p < 392 → (s.arb p).cur = none →
    s.grants p = false ∨ s.winner p (s.eligible p (s.arb p).pend) = none →
    ∃ t, exec (.arbiterDecision p) s = .next t ∧ t = s.setArb p (s.arb p) ∧ ∀ q, t.arb q = s.arb q) ∧
  (∀ (s : State) p r, p < 392 → (s.arb p).cur = some r → s.now < (s.arb p).busyUntil ∨ 384 ≤ p →
    exec (.arbiterDecision p) s = .next (s.setArb p (s.arb p))) ∧
  (∀ (s u : State) p r, p < 384 → (s.arb p).cur = some r → (s.arb p).busyUntil ≤ s.now →
    u = s.setArb p { s.arb p with
      cur := none
      pend := (s.arb p).pend ++
        (if 0 < r.rest then [{ r with beats := r.rest, rest := 0, stamp := (s.arb p).busyUntil }] else []) } →
    exec (.arbiterDecision p) s = exec (.arbiterDecision p) u) ∧
  (∀ (s : State) p, 392 ≤ p → exec (.arbiterDecision p) s = .next s)

/-- The shared arbiter: the pointer advances by 1 mod 16 at each decision; the winner is the oldest eligible request
of the wheel's class, else the oldest eligible one; equal stamps go to the lower requester, then to the lower class,
then to the earlier request; every pointer returns to 0 at a step's start and at `BIND`, and the default wheel gives
the classes 8, 4, 3 and 1 slots (10 R295; a channel serves what was parked at its last fence first, R303, so its
requests named here are later ones). -/
def Obligations.ArbiterOrder : Prop :=
  (∀ (s : State) p es r, 320 ≤ p ∨ (∀ e ∈ es, (s.chan p).fenceAt < e.stamp) → s.winner p es = some r →
    ∃ k, k = wheelClass (s.kvNat (if p < 384 then kArbWheel else kFlWheel)) (s.arb p).ptr ∧
    ((∃ e ∈ es, e.cls = k) → r ∈ es ∧ r.cls = k ∧ ∀ e ∈ es, e.cls = k →
      r.stamp < e.stamp ∨ (r.stamp = e.stamp ∧ r.req ≤ e.req)) ∧
    ((∀ e ∈ es, e.cls ≠ k) → r ∈ es ∧ ∀ e ∈ es,
      r.stamp < e.stamp ∨ (r.stamp = e.stamp ∧ (r.req < e.req ∨ (r.req = e.req ∧ r.cls ≤ e.cls))))) ∧
  (∀ a l r, oldestReq l = some r → MemReq.before r a = false → MemReq.before a r = false → oldestReq (a :: l) = some a) ∧
  (∀ (s : State) p, p < 384 → (s.arb p).cur = none → s.grants p = true →
    (s.winner p (s.eligible p (s.arb p).pend)).isSome = true →
    ∃ t, exec (.arbiterDecision p) s = .next t ∧ (t.arb p).ptr = ((s.arb p).ptr + 1) % 16) ∧
  (∀ (s : State) p, (s.beginStep.arb p).ptr = 0) ∧
  (∀ (s : State) i b e p, ((s.bindWith i b e).arb p).ptr = 0) ∧
  ((List.range 4).map (fun k =>
    ((List.range 16).filter (fun i => wheelClass (keyReset kArbWheel).toNat i = k)).length) = [8, 4, 3, 1])

/-- Prefetch and write streams: a free slot takes the stream of its next entry, a slot that may ask requests its next
line at class 1 or 2; a requested and granted line lands; a written line is accepted in order; a read stream whose
consumer's time has come is cancelled and its slot is free. Otherwise nothing happens (10 R279 to R283, R286). -/
def Obligations.Streams : Prop :=
  (∀ (s : State) u k, exec (.streamLineRequest u k) s = .next (if u < 224 ∧ k < 8 then (s.activate u k).askLine u k else s)) ∧
  (∀ (s : State) u k, ((s.slot u k).desc.isSome = true ∨ s.job.inStep = false → s.activate u k = s) ∧
    ∀ r, (s.slot u k).desc = none → s.job.inStep = true → (s.slotRefs u k).find? (fun r =>
      !s.endedEnt r.1.entry && !(s.tile u).cancelled.contains (r.1.entry, k)) = r →
    s.activate u k = match r with
      | some r => if s.landKept u r then s else s.setSlot u k (s.slotFor r)
      | none => s) ∧
  (∀ (s : State) u k d x, x = s.slot u k → x.desc = some d →
    (s.mayAsk u x d = false → s.askLine u k = s) ∧
    (s.mayAsk u x d = true → ∃ t r, s.askLine u k = t ∧ t.slot u k = { x with asked := x.asked + 1 } ∧
      (t.arb r.port).pend = (s.arb r.port).pend ++ [r] ∧ r.req = u ∧ r.stamp = s.now ∧
      r.addr = x.lines.getD x.asked 0 ∧ r.cls = (if d.write then 2 else 1) ∧ r.port = s.slicePort r.addr)) ∧
  (∀ (s : State) u k n ue d x, x = s.slot u k → x.desc = some d → ∀ ok, ok = (d.write = false ∧ n < x.asked ∧
      x.landed.contains n = false ∧ s.waits u 1 (x.lines.getD n 0) = false) →
    (¬ ok → exec (.streamLineLanded u k n ue) s = .next s) ∧
    (ok → ∃ t, exec (.streamLineLanded u k n ue) s = .next t ∧
      t = (if ue then s.memUe (x.lines.getD n 0) else s).landLine u k n x d ∧
      t.slot u k = { x with landed := x.landed ++ [n] } ∧ t.mem.dram = s.mem.dram ∧
      (∀ v, v ≠ u → t.tileMem v = s.tileMem v) ∧
      (ue = true → t.mem.poison.contains (x.lines.getD n 0 / 64 * 64) = true))) ∧
  (∀ (s : State) u k d x, x = s.slot u k → x.desc = some d → ∀ ok, ok = (d.write = true ∧ x.accepted < x.asked ∧
      s.waits u 2 (x.lines.getD x.accepted 0) = false ∧ s.running d.entry = true) →
    (¬ ok → exec (.writeStreamAccepted u k) s = .next s) ∧
    (ok → ∃ t, exec (.writeStreamAccepted u k) s = .next t ∧ t = s.storeLine u k x d ∧
      t.slot u k = { x with accepted := x.accepted + 1 } ∧ t.mem.tile = s.mem.tile)) ∧
  (∀ (s : State) u k d x, x = s.slot u k → x.desc = some d → ∀ ok, ok = (d.write = false ∧
      x.landed.length < x.lines.length ∧ s.pastEnd d.entry = true) →
    (¬ ok → exec (.streamCancel u k) s = .next s) ∧
    (ok → ∃ t, exec (.streamCancel u k) s = .next t ∧ t = s.cancelStream u k ∧ t.slot u k = {} ∧
      (t.tile u).cancelled = (d.entry, k) :: (s.tile u).cancelled ∧ t.mem.dram = s.mem.dram)) ∧
  (∀ (s : State) u k n ue, (s.slot u k).desc = none → exec (.streamLineLanded u k n ue) s = .next s ∧
    exec (.writeStreamAccepted u k) s = .next s ∧ exec (.streamCancel u k) s = .next s)

/-- Refresh and retraining: a refresh that is due at the temperature reported is done, or owed in a step with
`ref_mode` 1; a debt of 8 is repaid at once; a channel over its error threshold fences itself when no other of its
stack or package does, and waits for its turn otherwise; within 4,500 cc it is trained and refreshed; a failed
retraining retires the package. What is not due does not happen (10 R300, R303, R304). -/
def Obligations.ChannelUpkeep : Prop :=
  (∀ (s u : State) c hot, c < 320 → u = s.setChan c { s.chan c with hot := hot } →
    (u.refreshDue c = false → exec (.refresh ⟨c, hot⟩) s = .next u) ∧
    (u.refreshDue c = true → s.kvNat kRefMode ≠ 1 ∨ s.job.inStep = false →
      ∃ t, exec (.refresh ⟨c, hot⟩) s = .next t ∧ t.chan c = { s.chan c with hot := hot, lastRefresh := s.now }) ∧
    (u.refreshDue c = true → s.kvNat kRefMode = 1 → s.job.inStep = true → exec (.refresh ⟨c, hot⟩) s = .next (
      if (s.chan c).debt < 8 then u.setChan c { u.chan c with debt := (s.chan c).debt + 1, lastRefresh := s.now }
      else u.forceRefresh c))) ∧
  (∀ (s : State) c hot, 320 ≤ c → exec (.refresh ⟨c, hot⟩) s = .next s) ∧
  (∀ (s : State) c, exec (.forcedRefresh c) s =
    .next (if c < 320 ∧ 8 ≤ (s.chan c).debt ∧ (s.chan c).fenced = false then s.forceRefresh c else s)) ∧
  (∀ (s : State) c, (s.forceRefresh c).chan c = { s.chan c with debt := 0, lastRefresh := s.now } ∧
    ∀ d, d ≠ c → (s.forceRefresh c).chan d = s.chan d) ∧
  (∀ (s : State) c, exec (.unscheduledRetraining c) s = .next (if c < 320 ∧ (s.chan c).fenced = false ∧
    (s.chan c).failed = false ∧ s.retrainTrigger c = true then s.fence c else s)) ∧
  (∀ (s : State) c, (∀ d, d < 320 → d ≠ c → chanGroup d = chanGroup c → (s.chan d).fenced = false) →
    ∃ t, t = s.fence c ∧ (t.chan c).fenced = true ∧ (t.chan c).fenceAt = s.now ∧ (t.chan c).waitTurn = false ∧
      ∀ d, d ≠ c → t.chan d = s.chan d) ∧
  (∀ (s : State) c d, d < 320 → d ≠ c → chanGroup d = chanGroup c → (s.chan d).fenced = true →
    s.fence c = s.setChan c { s.chan c with waitTurn := true }) ∧
  (∀ (s : State) c, ∀ ok, ok = ((s.chan c).fenced = true ∧ (s.chan c).failed = false ∧
      s.now ≤ 4500 + (s.chan c).fenceAt) →
    (¬ ok → exec (.unfence c) s = .next s) ∧
    (ok → ∃ t, exec (.unfence c) s = .next t ∧ (t.chan c).fenced = false ∧ (t.chan c).lastTrain = s.now ∧
      (t.chan c).debt = 0 ∧ (t.chan c).lastRefresh = s.now)) ∧
  (∀ (s : State) c, ∀ ok, ok = (c < 320 ∧ (s.chan c).failed = false ∧ ((s.chan c).fenced = true ∨ s.sable = true)) →
    (¬ ok → exec (.channelFailed c) s = .next s) ∧
    (ok → ∃ t, exec (.channelFailed c) s = .next t ∧ (t.chan c).failed = true ∧ t.flt.retired = true))

/-! ### The Indigo ring (chapter 11) -/

/-- A round that may start has its sequence number and epoch. A message to another node leaves with one credit less,
is kept until it is acknowledged, and its reads are requested; one to this node lands here once its context has
started the round. Without a credit, or before its payload is ready, nothing is sent (11 R317, R318, R320, R322,
R336). The addition pass of a complete accumulate round adds the landed pairs in order and leaves none; without such a
round nothing happens (11 R333). -/
def Obligations.RoundsAndSends : Prop :=
  (∀ (s : State) c, s.mayStartRound c = false → exec (.roundStart c) s = .next s) ∧
  (∀ (s : State) c, s.mayStartRound c = true →
    ∃ t, exec (.roundStart c) s = .next t ∧ t = s.startRound c ∧ (t.ctx c).cfg.seq = s.roundSeq (s.ctx c).round ∧
      (t.ctx c).cfg.epoch = s.job.epoch ∧ (t.ctx c).peers = (s.ctx c).peers) ∧
  (∀ (s : State) c k, (∀ p, (s.ctx c).send[k]? = some p → (s.ctx c).active = false ∨ p.credits = 0 ∨
      s.segReady c k p.next = false ∨ s.buildMsg c k p.next = none) → exec (.messageSend c k) s = .next s) ∧
  (∀ (s u : State) c k p m, (s.ctx c).send[k]? = some p → (s.ctx c).active = true → 0 < p.credits →
    s.segReady c k p.next = true → s.buildMsg c k p.next = some m → u = (s.askSeg c k p.next).count kIxMsgs 1 →
    ((m.hdr.dstX, m.hdr.dstY, m.hdr.dstZ) ≠ (s.torus.x, s.torus.y, s.torus.z) →
      ∃ t, exec (.messageSend c k) s = .next t ∧ (t.ctx c).send = setAt (s.ctx c).send k { p with
          next := p.next + 1, credits := p.credits - 1
          unacked := p.unacked ++ [{ msg := m, sendings := 1, lastSent := s.now }] } ∧
        t = (u.setCtx c { s.ctx c with send := (t.ctx c).send }).inject m c m.hdr.cls ∧ t.mem.dram = s.mem.dram) ∧
    ((m.hdr.dstX, m.hdr.dstY, m.hdr.dstZ) = (s.torus.x, s.torus.y, s.torus.z) → s.selfReady m.hdr = true →
      exec (.messageSend c k) s = .next (((u.setCtx c { s.ctx c with
        send := setAt (s.ctx c).send k { p with next := p.next + 1 } }).landMsg m.hdr.ctx s.nodeIndex p.next m).tryEnd c)) ∧
    ((m.hdr.dstX, m.hdr.dstY, m.hdr.dstZ) = (s.torus.x, s.torus.y, s.torus.z) → s.selfReady m.hdr = false →
      exec (.messageSend c k) s = .next s)) ∧
  (∀ (s u : State) c x, x = s.ctx c → x.cfg.kind = 7 → x.active = true → x.complete = true →
    u = x.pairs.foldl (fun y v => y.addPair c (s.ctxDecl c) (s.keyNode x v.1) v.2.1 v.2.2) s →
    ∃ t, exec (.accumulateAddPass c) s = .next t ∧ t = (u.setCtx c { u.ctx c with pairs := [] }).tryEnd c ∧
      (t.ctx c).pairs = [] ∧ t.mem.dram = u.mem.dram) ∧
  (∀ (s : State) c, (s.ctx c).cfg.kind ≠ 7 ∨ (s.ctx c).active = false ∨ (s.ctx c).complete = false →
    exec (.accumulateAddPass c) s = .next s)

/-- Receiving: a message whose CRC or kind is bad only counts; a data message of another epoch or round only counts,
one of an earlier round or one that has arrived counts and is acknowledged again, one that its context expects lands
and is acknowledged; a verdict message is context 0's; an acknowledgement that names a kept message releases it and
returns its credit; test traffic has no further effect (11 R319 to R322; 12 R360, R361). -/
def Obligations.MessagesReceived : Prop :=
  (∀ (s : State) m, m.mcrcOk = false ∨ 2 < m.hdr.mkind →
    exec (.messageReceived m) s = .next (s.count (kMsgBad m.port) 1)) ∧
  (∀ (s : State) m, m.mcrcOk = true → m.hdr.mkind = 2 → exec (.messageReceived m) s = .next s) ∧
  (∀ (s : State) m, m.mcrcOk = true → m.hdr.mkind = 1 → exec (.messageReceived m) s = .next (
    if m.hdr.epoch ≠ s.job.epoch then s.count kIxStale 1
    else match indexOf (s.names m.hdr.src (fieldLe m.body 0 4)) (s.ctx m.hdr.ctx).peers with
      | some k => s.ackRx m.hdr.ctx k (fieldLe m.body 4 8) (fieldLe m.body 12 4)
      | none => s)) ∧
  (∀ (s : State) m, m.mcrcOk = true → m.hdr.mkind = 0 → m.hdr.ctx = 0 →
    exec (.messageReceived m) s = .next (s.verdictRx m.hdr (VerdictMsg.decode m.body))) ∧
  (∀ (s : State) m h x, m.mcrcOk = true → h = m.hdr → x = s.ctx h.ctx → h.mkind = 0 → h.ctx ≠ 0 →
    exec (.messageReceived m) s = .next (
      if h.epoch ≠ s.job.epoch ∨ s.job.bound.isNone = true then s.count kIxStale 1
      else if seqEarlier h.seq x.cfg.seq = true then (s.count kIxDup 1).sendAck h
      else if h.seq ≠ x.cfg.seq then s.count kIxStale 1
      else if x.arrived.contains (h.src, h.segment) = true then (s.count kIxDup 1).sendAck h
      else if x.expect.contains (h.src, h.segment) = true then (s.landMsg h.ctx h.src h.segment m).sendAck h
      else s.count kIxStale 1)) ∧
  (∀ (s : State) c k q g p, (s.ctx c).send[k]? = some p →
    p.unacked.any (fun u => decide (u.msg.hdr.seq = q) && decide (u.msg.hdr.segment = g)) = true →
    ∃ t, exec (.acknowledgement c k q g) s = .next t ∧ t = s.ackRx c k q g ∧ ∃ y, (t.ctx c).send[k]? = some y ∧
      y.credits = p.credits + 1 ∧
      y.unacked = p.unacked.filter (fun u => !(decide (u.msg.hdr.seq = q) && decide (u.msg.hdr.segment = g)))) ∧
  (∀ (s : State) c k q g, (∀ p, (s.ctx c).send[k]? = some p →
      p.unacked.any (fun u => decide (u.msg.hdr.seq = q) && decide (u.msg.hdr.segment = g)) = false) →
    exec (.acknowledgement c k q g) s = .next s)

/-- Resends: a message not acknowledged in time, with a route to its peer, is sent again and marked so; after
`ack_retries` + 1 sendings its peer is unreachable and the job stops; before its time, without a route or while a
spare switches in, nothing happens. A peer's replay sends every kept message again and keeps them all (11 R323, R324;
20 R539). -/
def Obligations.Resends : Prop :=
  (∀ (s : State) c k g us, us = ((s.ctx c).send.getD k {}).unacked →
    (us.find? (fun v => decide (v.msg.hdr.segment = g)) = none → exec (.ackTimeout c k g) s = .next s) ∧
    ∀ u d, us.find? (fun v => decide (v.msg.hdr.segment = g)) = some u →
      d = (u.msg.hdr.dstX, u.msg.hdr.dstY, u.msg.hdr.dstZ) →
      (s.now < 1800 * s.kvNat kAckTimeout + u.lastSent ∨ s.routeUp d = false ∨ s.switching d = true →
        exec (.ackTimeout c k g) s = .next s) ∧
      (1800 * s.kvNat kAckTimeout + u.lastSent ≤ s.now → s.routeUp d = true → s.switching d = false →
        (u.sendings < s.kvNat kAckRetries + 1 → ∃ t, exec (.ackTimeout c k g) s = .next t ∧ t = s.resend c k u ∧
          ((t.ctx c).send.getD k {}).unacked = us.map (fun v =>
            if v.msg.hdr.segment = u.msg.hdr.segment ∧ v.msg.hdr.seq = u.msg.hdr.seq then
              { v with sendings := v.sendings + 1, lastSent := s.now } else v)) ∧
        (s.kvNat kAckRetries + 1 ≤ u.sendings → s.job.bound.isSome = true → s.job.jobFault = none →
          ∃ t, exec (.ackTimeout c k g) s = .next t ∧ t.job.jobFault = some 0x0602 ∧ t.job.inStep = false) ∧
        (s.kvNat kAckRetries + 1 ≤ u.sendings → s.job.bound = none ∨ s.job.jobFault ≠ none →
          exec (.ackTimeout c k g) s = .next s))) ∧
  (∀ (s : State) x y z, ∃ t, exec (.peerReplay x y z) s = .next t ∧
    (∀ c k, ((t.ctx c).send.getD k {}).unacked.map (fun u => u.msg) =
      ((s.ctx c).send.getD k {}).unacked.map (fun u => u.msg)) ∧
    (∀ c k p, (∃ q ∈ s.exch.ctxs, q.1 = c) → (s.ctx c).peers[k]? = some p → (p.x, p.y, p.z) = (x, y, z) →
      ∀ u ∈ ((t.ctx c).send.getD k {}).unacked, u.lastSent = s.now) ∧
    t.mem.dram = s.mem.dram)
end

