-- ==== Sys2Proof/Laws/Tab.lean ====
section
/-! SUPPORT. Laws of sparse tables: a read after a write, and the canonical form. -/

set_option Elab.async false

namespace Sys2Proof.Machine

section
variable {α : Type} {d : α} {k k' : Nat} {v : α} {t : List (Nat × α)}

theorem Tab.get_insert_same : Tab.get d k (Tab.insert k v t) = v := by
  induction t with
  | nil => simp [Tab.insert, Tab.get]
  | cons p t ih =>
    obtain ⟨j, w⟩ := p
    unfold Tab.insert
    split
    · simp [Tab.get]
    · split
      · simp [Tab.get]
      · rename_i h1 h2
        simp [Tab.get, h1, ih]

theorem Tab.get_insert_ne (h : k' ≠ k) : Tab.get d k' (Tab.insert k v t) = Tab.get d k' t := by
  induction t with
  | nil =>
    simp only [Tab.insert, Tab.get, if_neg (Ne.symm h)]
  | cons p t ih =>
    obtain ⟨j, w⟩ := p
    unfold Tab.insert
    split
    · rename_i h1
      subst h1
      simp [Tab.get, Ne.symm h]
    · split
      · simp only [Tab.get, if_neg (Ne.symm h)]
      · simp only [Tab.get, ih]

/-- The keys of a table lie above a bound. -/
def Tab.above (n : Nat) (t : List (Nat × α)) : Prop := ∀ p ∈ t, n < p.1

theorem Tab.get_of_above (h : Tab.above k t) : Tab.get d k t = d := by
  induction t with
  | nil => rfl
  | cons p t ih =>
    obtain ⟨j, w⟩ := p
    have h1 := h (j, w) (by simp)
    simp only at h1
    rw [Tab.get, if_neg (Nat.ne_of_gt h1), ih (fun p hp => h p (List.mem_cons_of_mem _ hp))]

theorem Tab.get_erase_same : Tab.get d k (Tab.erase k t) = d := by
  induction t with
  | nil => rfl
  | cons p t ih =>
    obtain ⟨j, w⟩ := p
    unfold Tab.erase
    split
    · exact ih
    · rename_i hj; rw [Tab.get, if_neg hj, ih]

theorem Tab.get_erase_ne (hk : k' ≠ k) : Tab.get d k' (Tab.erase k t) = Tab.get d k' t := by
  induction t with
  | nil => rfl
  | cons p t ih =>
    obtain ⟨j, w⟩ := p
    unfold Tab.erase
    split
    · rename_i hj; rw [Tab.get, if_neg (by omega), ih]
    · simp only [Tab.get, ih]

theorem Tab.above_erase {n : Nat} (h : Tab.above n t) : Tab.above n (Tab.erase k t) := by
  induction t with
  | nil => exact h
  | cons p t ih =>
    obtain ⟨j, w⟩ := p
    have h1 : n < j := h (j, w) (by simp)
    have h2 : Tab.above n t := fun p hp => h p (List.mem_cons_of_mem _ hp)
    unfold Tab.erase
    split
    · exact ih h2
    · intro p hp
      rcases List.mem_cons.mp hp with rfl | hp
      · exact h1
      · exact ih h2 p hp

theorem Tab.above_insert {n : Nat} (hk : n < k) (h : Tab.above n t) : Tab.above n (Tab.insert k v t) := by
  induction t with
  | nil => intro p hp; simp [Tab.insert] at hp; subst hp; exact hk
  | cons q t ih =>
    obtain ⟨j, w⟩ := q
    have h1 : n < j := h (j, w) (by simp)
    have h2 : Tab.above n t := fun p hp => h p (List.mem_cons_of_mem _ hp)
    unfold Tab.insert
    split
    · intro p hp
      rcases List.mem_cons.mp hp with rfl | hp
      · exact hk
      · exact h2 p hp
    · split
      · intro p hp
        rcases List.mem_cons.mp hp with rfl | hp
        · exact hk
        · exact h p hp
      · intro p hp
        rcases List.mem_cons.mp hp with rfl | hp
        · exact h1
        · exact ih h2 p hp

end

section
variable {α : Type} [DecidableEq α] {d : α} {k k' : Nat} {v : α} {t : List (Nat × α)}

/-- The canonical form as a proposition: keys strictly rising, no entry equal to the default. -/
theorem Tab.wf_cons {p : Nat × α} : Tab.wf d (p :: t) = true ↔ p.2 ≠ d ∧ Tab.above p.1 t ∧ Tab.wf d t = true := by
  induction t generalizing p with
  | nil => obtain ⟨j, w⟩ := p; simp [Tab.wf, Tab.above]
  | cons q t ih =>
    obtain ⟨j, w⟩ := p
    obtain ⟨l, x⟩ := q
    rw [Tab.wf.eq_3]
    simp only [Bool.and_eq_true, decide_eq_true_eq, ih, Tab.above, List.mem_cons, forall_eq_or_imp]
    constructor
    · rintro ⟨⟨h1, h2⟩, h3, h4, h5⟩
      exact ⟨h1, ⟨h2, fun p hp => Nat.lt_trans h2 (h4 p hp)⟩, h3, h4, h5⟩
    · rintro ⟨h1, ⟨h2, _⟩, h3, h4, h5⟩
      exact ⟨⟨h1, h2⟩, h3, h4, h5⟩

theorem Tab.wf_nil : Tab.wf d ([] : List (Nat × α)) = true := rfl

theorem Tab.wf_erase (h : Tab.wf d t = true) : Tab.wf d (Tab.erase k t) = true := by
  induction t with
  | nil => exact h
  | cons p t ih =>
    obtain ⟨j, w⟩ := p
    obtain ⟨h1, h2, h3⟩ := Tab.wf_cons.mp h
    unfold Tab.erase
    split
    · exact ih h3
    · exact Tab.wf_cons.mpr ⟨h1, Tab.above_erase h2, ih h3⟩

theorem Tab.wf_insert (hv : v ≠ d) (h : Tab.wf d t = true) : Tab.wf d (Tab.insert k v t) = true := by
  induction t with
  | nil => simp [Tab.insert, Tab.wf, hv]
  | cons p t ih =>
    obtain ⟨j, w⟩ := p
    obtain ⟨h1, h2, h3⟩ := Tab.wf_cons.mp h
    unfold Tab.insert
    split
    · rename_i hj; exact Tab.wf_cons.mpr ⟨hv, by simpa [hj] using h2, h3⟩
    · split
      · rename_i hj hk
        refine Tab.wf_cons.mpr ⟨hv, ?_, h⟩
        intro p hp
        rcases List.mem_cons.mp hp with rfl | hp
        · exact hk
        · exact Nat.lt_trans hk (h2 p hp)
      · rename_i hj hk
        exact Tab.wf_cons.mpr ⟨h1, Tab.above_insert (by omega) h2, ih h3⟩

/-- A write of the default drops the entry. -/
theorem Tab.set_default : Tab.set d k d t = Tab.erase k t := by
  induction t with
  | nil => simp [Tab.set, Tab.erase]
  | cons p t ih =>
    obtain ⟨j, w⟩ := p
    simp only [Tab.set, Tab.erase, if_true, ih]
    by_cases h : j = k
    · simp [h]
    · simp [h]

/-- A write of another value lists it. -/
theorem Tab.set_insert (h : v ≠ d) : Tab.set d k v t = Tab.insert k v t := by
  induction t with
  | nil => simp [Tab.set, Tab.insert, h]
  | cons p t ih =>
    obtain ⟨j, w⟩ := p
    simp only [Tab.set, Tab.insert, if_neg h, ih]

/-- A write drops the entry or lists it. -/
theorem Tab.set_eq : Tab.set d k v t = if v = d then Tab.erase k t else Tab.insert k v t := by
  split
  · rename_i h; rw [h, Tab.set_default]
  · rename_i h; exact Tab.set_insert h

/-- Every write of a table keeps its canonical form. -/
theorem Tab.wf_set (h : Tab.wf d t = true) : Tab.wf d (Tab.set d k v t) = true := by
  rw [Tab.set_eq]
  split
  · exact Tab.wf_erase h
  · rename_i hv; exact Tab.wf_insert hv h

/-- A read of a key just written gives the value written. -/
@[simp] theorem Tab.get_set_same : Tab.get d k (Tab.set d k v t) = v := by
  rw [Tab.set_eq]
  split
  · rename_i hv; rw [hv, Tab.get_erase_same]
  · exact Tab.get_insert_same

/-- A write of one key leaves every other key as it was, whatever its default. -/
theorem Tab.get_set_ne {e : α} (hk : k' ≠ k) : Tab.get e k' (Tab.set d k v t) = Tab.get e k' t := by
  rw [Tab.set_eq]
  split
  · exact Tab.get_erase_ne hk
  · exact Tab.get_insert_ne hk

end

/-- The length of a list is kept when one place is replaced. -/
@[simp] theorem length_setAt {α : Type} (l : List α) (i : Nat) (v : α) : (setAt l i v).length = l.length := by
  induction l generalizing i with
  | nil => rfl
  | cons a t ih => cases i <;> simp [setAt, ih]

theorem getD_setAt_same {α : Type} {l : List α} {i : Nat} {v e : α} (h : i < l.length) :
    (setAt l i v).getD i e = v := by
  induction l generalizing i with
  | nil => simp at h
  | cons a t ih =>
    cases i with
    | zero => simp [setAt]
    | succ i => simpa [setAt] using ih (by simpa using h)

theorem getD_setAt_ne {α : Type} {l : List α} {i j : Nat} {v e : α} (h : j ≠ i) :
    (setAt l i v).getD j e = l.getD j e := by
  induction l generalizing i j with
  | nil => rfl
  | cons a t ih =>
    cases i with
    | zero => cases j with
      | zero => exact absurd rfl h
      | succ j => simp [setAt]
    | succ i => cases j with
      | zero => simp [setAt]
      | succ j => simpa [setAt] using ih (fun e => h (by rw [e]))

theorem getD_setAt_out {α : Type} {l : List α} {i : Nat} {v e : α} (h : l.length ≤ i) :
    (setAt l i v).getD i e = l.getD i e := by
  rw [List.getD_eq_default _ _ (by simpa using h), List.getD_eq_default _ _ h]

end Sys2Proof.Machine
end

