-- ==== Sys2Proof/Laws/State.lean ====
section
/-! SUPPORT. What the named operations of Machine/Ops.lean leave alone, one lemma per field and update, and what they change. -/

set_option Elab.async false

namespace Sys2Proof.Machine

section
variable (s : State)

@[simp] theorem State.setTile_pending (u : Nat) (x : Tile) : (s.setTile u x).pending = s.pending := rfl
@[simp] theorem State.setTile_fresh (u : Nat) (x : Tile) : (s.setTile u x).fresh = s.fresh := rfl
@[simp] theorem State.setTile_kv (u : Nat) (x : Tile) : (s.setTile u x).kv = s.kv := rfl
@[simp] theorem State.setTile_acc (u : Nat) (x : Tile) : (s.setTile u x).acc = s.acc := rfl
@[simp] theorem State.setTile_pendW (u : Nat) (x : Tile) : (s.setTile u x).pendW = s.pendW := rfl
@[simp] theorem State.setTile_hostIf (u : Nat) (x : Tile) : (s.setTile u x).hostIf = s.hostIf := rfl
@[simp] theorem State.setTile_clk (u : Nat) (x : Tile) : (s.setTile u x).clk = s.clk := rfl
@[simp] theorem State.setTile_pwr (u : Nat) (x : Tile) : (s.setTile u x).pwr = s.pwr := rfl
@[simp] theorem State.setTile_pins (u : Nat) (x : Tile) : (s.setTile u x).pins = s.pins := rfl
@[simp] theorem State.setTile_mem (u : Nat) (x : Tile) : (s.setTile u x).mem = s.mem := rfl
@[simp] theorem State.setTile_engines (u : Nat) (x : Tile) : (s.setTile u x).engines = s.engines := rfl
@[simp] theorem State.setTile_job (u : Nat) (x : Tile) : (s.setTile u x).job = s.job := rfl
@[simp] theorem State.setTile_exch (u : Nat) (x : Tile) : (s.setTile u x).exch = s.exch := rfl
@[simp] theorem State.setTile_ports (u : Nat) (x : Tile) : (s.setTile u x).ports = s.ports := rfl
@[simp] theorem State.setTile_torus (u : Nat) (x : Tile) : (s.setTile u x).torus = s.torus := rfl
@[simp] theorem State.setTile_flt (u : Nat) (x : Tile) : (s.setTile u x).flt = s.flt := rfl
@[simp] theorem State.setTile_sec (u : Nat) (x : Tile) : (s.setTile u x).sec = s.sec := rfl

@[simp] theorem State.setSlate_pending (u : Nat) (x : Slate) : (s.setSlate u x).pending = s.pending := rfl
@[simp] theorem State.setSlate_fresh (u : Nat) (x : Slate) : (s.setSlate u x).fresh = s.fresh := rfl
@[simp] theorem State.setSlate_kv (u : Nat) (x : Slate) : (s.setSlate u x).kv = s.kv := rfl
@[simp] theorem State.setSlate_acc (u : Nat) (x : Slate) : (s.setSlate u x).acc = s.acc := rfl
@[simp] theorem State.setSlate_pendW (u : Nat) (x : Slate) : (s.setSlate u x).pendW = s.pendW := rfl
@[simp] theorem State.setSlate_hostIf (u : Nat) (x : Slate) : (s.setSlate u x).hostIf = s.hostIf := rfl
@[simp] theorem State.setSlate_clk (u : Nat) (x : Slate) : (s.setSlate u x).clk = s.clk := rfl
@[simp] theorem State.setSlate_pwr (u : Nat) (x : Slate) : (s.setSlate u x).pwr = s.pwr := rfl
@[simp] theorem State.setSlate_pins (u : Nat) (x : Slate) : (s.setSlate u x).pins = s.pins := rfl
@[simp] theorem State.setSlate_mem (u : Nat) (x : Slate) : (s.setSlate u x).mem = s.mem := rfl
@[simp] theorem State.setSlate_engines (u : Nat) (x : Slate) : (s.setSlate u x).engines = s.engines := rfl
@[simp] theorem State.setSlate_job (u : Nat) (x : Slate) : (s.setSlate u x).job = s.job := rfl
@[simp] theorem State.setSlate_exch (u : Nat) (x : Slate) : (s.setSlate u x).exch = s.exch := rfl
@[simp] theorem State.setSlate_ports (u : Nat) (x : Slate) : (s.setSlate u x).ports = s.ports := rfl
@[simp] theorem State.setSlate_torus (u : Nat) (x : Slate) : (s.setSlate u x).torus = s.torus := rfl
@[simp] theorem State.setSlate_flt (u : Nat) (x : Slate) : (s.setSlate u x).flt = s.flt := rfl
@[simp] theorem State.setSlate_sec (u : Nat) (x : Slate) : (s.setSlate u x).sec = s.sec := rfl

@[simp] theorem State.setPort_pending (p : Nat) (x : Port) : (s.setPort p x).pending = s.pending := rfl
@[simp] theorem State.setPort_fresh (p : Nat) (x : Port) : (s.setPort p x).fresh = s.fresh := rfl
@[simp] theorem State.setPort_kv (p : Nat) (x : Port) : (s.setPort p x).kv = s.kv := rfl
@[simp] theorem State.setPort_acc (p : Nat) (x : Port) : (s.setPort p x).acc = s.acc := rfl
@[simp] theorem State.setPort_pendW (p : Nat) (x : Port) : (s.setPort p x).pendW = s.pendW := rfl
@[simp] theorem State.setPort_hostIf (p : Nat) (x : Port) : (s.setPort p x).hostIf = s.hostIf := rfl
@[simp] theorem State.setPort_clk (p : Nat) (x : Port) : (s.setPort p x).clk = s.clk := rfl
@[simp] theorem State.setPort_pwr (p : Nat) (x : Port) : (s.setPort p x).pwr = s.pwr := rfl
@[simp] theorem State.setPort_pins (p : Nat) (x : Port) : (s.setPort p x).pins = s.pins := rfl
@[simp] theorem State.setPort_tiles (p : Nat) (x : Port) : (s.setPort p x).tiles = s.tiles := rfl
@[simp] theorem State.setPort_mem (p : Nat) (x : Port) : (s.setPort p x).mem = s.mem := rfl
@[simp] theorem State.setPort_engines (p : Nat) (x : Port) : (s.setPort p x).engines = s.engines := rfl
@[simp] theorem State.setPort_job (p : Nat) (x : Port) : (s.setPort p x).job = s.job := rfl
@[simp] theorem State.setPort_exch (p : Nat) (x : Port) : (s.setPort p x).exch = s.exch := rfl
@[simp] theorem State.setPort_torus (p : Nat) (x : Port) : (s.setPort p x).torus = s.torus := rfl
@[simp] theorem State.setPort_flt (p : Nat) (x : Port) : (s.setPort p x).flt = s.flt := rfl
@[simp] theorem State.setPort_sec (p : Nat) (x : Port) : (s.setPort p x).sec = s.sec := rfl

@[simp] theorem State.setRing_pending (r : Nat) (x : Ring) : (s.setRing r x).pending = s.pending := rfl
@[simp] theorem State.setRing_fresh (r : Nat) (x : Ring) : (s.setRing r x).fresh = s.fresh := rfl
@[simp] theorem State.setRing_kv (r : Nat) (x : Ring) : (s.setRing r x).kv = s.kv := rfl
@[simp] theorem State.setRing_acc (r : Nat) (x : Ring) : (s.setRing r x).acc = s.acc := rfl
@[simp] theorem State.setRing_pendW (r : Nat) (x : Ring) : (s.setRing r x).pendW = s.pendW := rfl
@[simp] theorem State.setRing_clk (r : Nat) (x : Ring) : (s.setRing r x).clk = s.clk := rfl
@[simp] theorem State.setRing_pwr (r : Nat) (x : Ring) : (s.setRing r x).pwr = s.pwr := rfl
@[simp] theorem State.setRing_pins (r : Nat) (x : Ring) : (s.setRing r x).pins = s.pins := rfl
@[simp] theorem State.setRing_tiles (r : Nat) (x : Ring) : (s.setRing r x).tiles = s.tiles := rfl
@[simp] theorem State.setRing_mem (r : Nat) (x : Ring) : (s.setRing r x).mem = s.mem := rfl
@[simp] theorem State.setRing_engines (r : Nat) (x : Ring) : (s.setRing r x).engines = s.engines := rfl
@[simp] theorem State.setRing_job (r : Nat) (x : Ring) : (s.setRing r x).job = s.job := rfl
@[simp] theorem State.setRing_exch (r : Nat) (x : Ring) : (s.setRing r x).exch = s.exch := rfl
@[simp] theorem State.setRing_ports (r : Nat) (x : Ring) : (s.setRing r x).ports = s.ports := rfl
@[simp] theorem State.setRing_torus (r : Nat) (x : Ring) : (s.setRing r x).torus = s.torus := rfl
@[simp] theorem State.setRing_flt (r : Nat) (x : Ring) : (s.setRing r x).flt = s.flt := rfl
@[simp] theorem State.setRing_sec (r : Nat) (x : Ring) : (s.setRing r x).sec = s.sec := rfl

@[simp] theorem State.setEngine_pending (f : Nat) (x : Engine) : (s.setEngine f x).pending = s.pending := rfl
@[simp] theorem State.setEngine_fresh (f : Nat) (x : Engine) : (s.setEngine f x).fresh = s.fresh := rfl
@[simp] theorem State.setEngine_kv (f : Nat) (x : Engine) : (s.setEngine f x).kv = s.kv := rfl
@[simp] theorem State.setEngine_acc (f : Nat) (x : Engine) : (s.setEngine f x).acc = s.acc := rfl
@[simp] theorem State.setEngine_pendW (f : Nat) (x : Engine) : (s.setEngine f x).pendW = s.pendW := rfl
@[simp] theorem State.setEngine_hostIf (f : Nat) (x : Engine) : (s.setEngine f x).hostIf = s.hostIf := rfl
@[simp] theorem State.setEngine_clk (f : Nat) (x : Engine) : (s.setEngine f x).clk = s.clk := rfl
@[simp] theorem State.setEngine_pwr (f : Nat) (x : Engine) : (s.setEngine f x).pwr = s.pwr := rfl
@[simp] theorem State.setEngine_pins (f : Nat) (x : Engine) : (s.setEngine f x).pins = s.pins := rfl
@[simp] theorem State.setEngine_tiles (f : Nat) (x : Engine) : (s.setEngine f x).tiles = s.tiles := rfl
@[simp] theorem State.setEngine_mem (f : Nat) (x : Engine) : (s.setEngine f x).mem = s.mem := rfl
@[simp] theorem State.setEngine_job (f : Nat) (x : Engine) : (s.setEngine f x).job = s.job := rfl
@[simp] theorem State.setEngine_exch (f : Nat) (x : Engine) : (s.setEngine f x).exch = s.exch := rfl
@[simp] theorem State.setEngine_ports (f : Nat) (x : Engine) : (s.setEngine f x).ports = s.ports := rfl
@[simp] theorem State.setEngine_torus (f : Nat) (x : Engine) : (s.setEngine f x).torus = s.torus := rfl
@[simp] theorem State.setEngine_flt (f : Nat) (x : Engine) : (s.setEngine f x).flt = s.flt := rfl
@[simp] theorem State.setEngine_sec (f : Nat) (x : Engine) : (s.setEngine f x).sec = s.sec := rfl

@[simp] theorem State.setFn_pending (f : Nat) (x : Fn) : (s.setFn f x).pending = s.pending := rfl
@[simp] theorem State.setFn_fresh (f : Nat) (x : Fn) : (s.setFn f x).fresh = s.fresh := rfl
@[simp] theorem State.setFn_kv (f : Nat) (x : Fn) : (s.setFn f x).kv = s.kv := rfl
@[simp] theorem State.setFn_acc (f : Nat) (x : Fn) : (s.setFn f x).acc = s.acc := rfl
@[simp] theorem State.setFn_pendW (f : Nat) (x : Fn) : (s.setFn f x).pendW = s.pendW := rfl
@[simp] theorem State.setFn_hostIf (f : Nat) (x : Fn) : (s.setFn f x).hostIf = s.hostIf := rfl
@[simp] theorem State.setFn_clk (f : Nat) (x : Fn) : (s.setFn f x).clk = s.clk := rfl
@[simp] theorem State.setFn_pins (f : Nat) (x : Fn) : (s.setFn f x).pins = s.pins := rfl
@[simp] theorem State.setFn_tiles (f : Nat) (x : Fn) : (s.setFn f x).tiles = s.tiles := rfl
@[simp] theorem State.setFn_mem (f : Nat) (x : Fn) : (s.setFn f x).mem = s.mem := rfl
@[simp] theorem State.setFn_engines (f : Nat) (x : Fn) : (s.setFn f x).engines = s.engines := rfl
@[simp] theorem State.setFn_job (f : Nat) (x : Fn) : (s.setFn f x).job = s.job := rfl
@[simp] theorem State.setFn_exch (f : Nat) (x : Fn) : (s.setFn f x).exch = s.exch := rfl
@[simp] theorem State.setFn_ports (f : Nat) (x : Fn) : (s.setFn f x).ports = s.ports := rfl
@[simp] theorem State.setFn_torus (f : Nat) (x : Fn) : (s.setFn f x).torus = s.torus := rfl
@[simp] theorem State.setFn_flt (f : Nat) (x : Fn) : (s.setFn f x).flt = s.flt := rfl
@[simp] theorem State.setFn_sec (f : Nat) (x : Fn) : (s.setFn f x).sec = s.sec := rfl

@[simp] theorem State.setPin_pending (n : Nat) (x : Pin) : (s.setPin n x).pending = s.pending := rfl
@[simp] theorem State.setPin_fresh (n : Nat) (x : Pin) : (s.setPin n x).fresh = s.fresh := rfl
@[simp] theorem State.setPin_kv (n : Nat) (x : Pin) : (s.setPin n x).kv = s.kv := rfl
@[simp] theorem State.setPin_acc (n : Nat) (x : Pin) : (s.setPin n x).acc = s.acc := rfl
@[simp] theorem State.setPin_pendW (n : Nat) (x : Pin) : (s.setPin n x).pendW = s.pendW := rfl
@[simp] theorem State.setPin_hostIf (n : Nat) (x : Pin) : (s.setPin n x).hostIf = s.hostIf := rfl
@[simp] theorem State.setPin_clk (n : Nat) (x : Pin) : (s.setPin n x).clk = s.clk := rfl
@[simp] theorem State.setPin_pwr (n : Nat) (x : Pin) : (s.setPin n x).pwr = s.pwr := rfl
@[simp] theorem State.setPin_tiles (n : Nat) (x : Pin) : (s.setPin n x).tiles = s.tiles := rfl
@[simp] theorem State.setPin_mem (n : Nat) (x : Pin) : (s.setPin n x).mem = s.mem := rfl
@[simp] theorem State.setPin_engines (n : Nat) (x : Pin) : (s.setPin n x).engines = s.engines := rfl
@[simp] theorem State.setPin_job (n : Nat) (x : Pin) : (s.setPin n x).job = s.job := rfl
@[simp] theorem State.setPin_exch (n : Nat) (x : Pin) : (s.setPin n x).exch = s.exch := rfl
@[simp] theorem State.setPin_ports (n : Nat) (x : Pin) : (s.setPin n x).ports = s.ports := rfl
@[simp] theorem State.setPin_torus (n : Nat) (x : Pin) : (s.setPin n x).torus = s.torus := rfl
@[simp] theorem State.setPin_flt (n : Nat) (x : Pin) : (s.setPin n x).flt = s.flt := rfl
@[simp] theorem State.setPin_sec (n : Nat) (x : Pin) : (s.setPin n x).sec = s.sec := rfl

@[simp] theorem State.setCtx_pending (c : Nat) (x : CtxSt) : (s.setCtx c x).pending = s.pending := rfl
@[simp] theorem State.setCtx_fresh (c : Nat) (x : CtxSt) : (s.setCtx c x).fresh = s.fresh := rfl
@[simp] theorem State.setCtx_kv (c : Nat) (x : CtxSt) : (s.setCtx c x).kv = s.kv := rfl
@[simp] theorem State.setCtx_acc (c : Nat) (x : CtxSt) : (s.setCtx c x).acc = s.acc := rfl
@[simp] theorem State.setCtx_pendW (c : Nat) (x : CtxSt) : (s.setCtx c x).pendW = s.pendW := rfl
@[simp] theorem State.setCtx_hostIf (c : Nat) (x : CtxSt) : (s.setCtx c x).hostIf = s.hostIf := rfl
@[simp] theorem State.setCtx_clk (c : Nat) (x : CtxSt) : (s.setCtx c x).clk = s.clk := rfl
@[simp] theorem State.setCtx_pwr (c : Nat) (x : CtxSt) : (s.setCtx c x).pwr = s.pwr := rfl
@[simp] theorem State.setCtx_pins (c : Nat) (x : CtxSt) : (s.setCtx c x).pins = s.pins := rfl
@[simp] theorem State.setCtx_tiles (c : Nat) (x : CtxSt) : (s.setCtx c x).tiles = s.tiles := rfl
@[simp] theorem State.setCtx_mem (c : Nat) (x : CtxSt) : (s.setCtx c x).mem = s.mem := rfl
@[simp] theorem State.setCtx_engines (c : Nat) (x : CtxSt) : (s.setCtx c x).engines = s.engines := rfl
@[simp] theorem State.setCtx_job (c : Nat) (x : CtxSt) : (s.setCtx c x).job = s.job := rfl
@[simp] theorem State.setCtx_ports (c : Nat) (x : CtxSt) : (s.setCtx c x).ports = s.ports := rfl
@[simp] theorem State.setCtx_torus (c : Nat) (x : CtxSt) : (s.setCtx c x).torus = s.torus := rfl
@[simp] theorem State.setCtx_flt (c : Nat) (x : CtxSt) : (s.setCtx c x).flt = s.flt := rfl
@[simp] theorem State.setCtx_sec (c : Nat) (x : CtxSt) : (s.setCtx c x).sec = s.sec := rfl

@[simp] theorem State.setChan_pending (c : Nat) (x : Chan) : (s.setChan c x).pending = s.pending := rfl
@[simp] theorem State.setChan_fresh (c : Nat) (x : Chan) : (s.setChan c x).fresh = s.fresh := rfl
@[simp] theorem State.setChan_kv (c : Nat) (x : Chan) : (s.setChan c x).kv = s.kv := rfl
@[simp] theorem State.setChan_acc (c : Nat) (x : Chan) : (s.setChan c x).acc = s.acc := rfl
@[simp] theorem State.setChan_pendW (c : Nat) (x : Chan) : (s.setChan c x).pendW = s.pendW := rfl
@[simp] theorem State.setChan_hostIf (c : Nat) (x : Chan) : (s.setChan c x).hostIf = s.hostIf := rfl
@[simp] theorem State.setChan_clk (c : Nat) (x : Chan) : (s.setChan c x).clk = s.clk := rfl
@[simp] theorem State.setChan_pwr (c : Nat) (x : Chan) : (s.setChan c x).pwr = s.pwr := rfl
@[simp] theorem State.setChan_pins (c : Nat) (x : Chan) : (s.setChan c x).pins = s.pins := rfl
@[simp] theorem State.setChan_tiles (c : Nat) (x : Chan) : (s.setChan c x).tiles = s.tiles := rfl
@[simp] theorem State.setChan_engines (c : Nat) (x : Chan) : (s.setChan c x).engines = s.engines := rfl
@[simp] theorem State.setChan_job (c : Nat) (x : Chan) : (s.setChan c x).job = s.job := rfl
@[simp] theorem State.setChan_exch (c : Nat) (x : Chan) : (s.setChan c x).exch = s.exch := rfl
@[simp] theorem State.setChan_ports (c : Nat) (x : Chan) : (s.setChan c x).ports = s.ports := rfl
@[simp] theorem State.setChan_torus (c : Nat) (x : Chan) : (s.setChan c x).torus = s.torus := rfl
@[simp] theorem State.setChan_flt (c : Nat) (x : Chan) : (s.setChan c x).flt = s.flt := rfl
@[simp] theorem State.setChan_sec (c : Nat) (x : Chan) : (s.setChan c x).sec = s.sec := rfl

@[simp] theorem State.setArb_pending (p : Nat) (x : ArbPort) : (s.setArb p x).pending = s.pending := rfl
@[simp] theorem State.setArb_fresh (p : Nat) (x : ArbPort) : (s.setArb p x).fresh = s.fresh := rfl
@[simp] theorem State.setArb_kv (p : Nat) (x : ArbPort) : (s.setArb p x).kv = s.kv := rfl
@[simp] theorem State.setArb_acc (p : Nat) (x : ArbPort) : (s.setArb p x).acc = s.acc := rfl
@[simp] theorem State.setArb_pendW (p : Nat) (x : ArbPort) : (s.setArb p x).pendW = s.pendW := rfl
@[simp] theorem State.setArb_hostIf (p : Nat) (x : ArbPort) : (s.setArb p x).hostIf = s.hostIf := rfl
@[simp] theorem State.setArb_clk (p : Nat) (x : ArbPort) : (s.setArb p x).clk = s.clk := rfl
@[simp] theorem State.setArb_pwr (p : Nat) (x : ArbPort) : (s.setArb p x).pwr = s.pwr := rfl
@[simp] theorem State.setArb_pins (p : Nat) (x : ArbPort) : (s.setArb p x).pins = s.pins := rfl
@[simp] theorem State.setArb_tiles (p : Nat) (x : ArbPort) : (s.setArb p x).tiles = s.tiles := rfl
@[simp] theorem State.setArb_engines (p : Nat) (x : ArbPort) : (s.setArb p x).engines = s.engines := rfl
@[simp] theorem State.setArb_job (p : Nat) (x : ArbPort) : (s.setArb p x).job = s.job := rfl
@[simp] theorem State.setArb_exch (p : Nat) (x : ArbPort) : (s.setArb p x).exch = s.exch := rfl
@[simp] theorem State.setArb_ports (p : Nat) (x : ArbPort) : (s.setArb p x).ports = s.ports := rfl
@[simp] theorem State.setArb_torus (p : Nat) (x : ArbPort) : (s.setArb p x).torus = s.torus := rfl
@[simp] theorem State.setArb_flt (p : Nat) (x : ArbPort) : (s.setArb p x).flt = s.flt := rfl
@[simp] theorem State.setArb_sec (p : Nat) (x : ArbPort) : (s.setArb p x).sec = s.sec := rfl

@[simp] theorem State.raise_pending (u : Nat) (d : Decl) (e : Ev) : (s.raise u d e).pending = s.pending := rfl
@[simp] theorem State.raise_fresh (u : Nat) (d : Decl) (e : Ev) : (s.raise u d e).fresh = s.fresh := rfl
@[simp] theorem State.raise_kv (u : Nat) (d : Decl) (e : Ev) : (s.raise u d e).kv = s.kv := rfl
@[simp] theorem State.raise_acc (u : Nat) (d : Decl) (e : Ev) : (s.raise u d e).acc = s.acc := rfl
@[simp] theorem State.raise_pendW (u : Nat) (d : Decl) (e : Ev) : (s.raise u d e).pendW = s.pendW := rfl
@[simp] theorem State.raise_hostIf (u : Nat) (d : Decl) (e : Ev) : (s.raise u d e).hostIf = s.hostIf := rfl
@[simp] theorem State.raise_clk (u : Nat) (d : Decl) (e : Ev) : (s.raise u d e).clk = s.clk := rfl
@[simp] theorem State.raise_pwr (u : Nat) (d : Decl) (e : Ev) : (s.raise u d e).pwr = s.pwr := rfl
@[simp] theorem State.raise_pins (u : Nat) (d : Decl) (e : Ev) : (s.raise u d e).pins = s.pins := rfl
@[simp] theorem State.raise_mem (u : Nat) (d : Decl) (e : Ev) : (s.raise u d e).mem = s.mem := rfl
@[simp] theorem State.raise_engines (u : Nat) (d : Decl) (e : Ev) : (s.raise u d e).engines = s.engines := rfl
@[simp] theorem State.raise_job (u : Nat) (d : Decl) (e : Ev) : (s.raise u d e).job = s.job := rfl
@[simp] theorem State.raise_exch (u : Nat) (d : Decl) (e : Ev) : (s.raise u d e).exch = s.exch := rfl
@[simp] theorem State.raise_ports (u : Nat) (d : Decl) (e : Ev) : (s.raise u d e).ports = s.ports := rfl
@[simp] theorem State.raise_torus (u : Nat) (d : Decl) (e : Ev) : (s.raise u d e).torus = s.torus := rfl
@[simp] theorem State.raise_flt (u : Nat) (d : Decl) (e : Ev) : (s.raise u d e).flt = s.flt := rfl
@[simp] theorem State.raise_sec (u : Nat) (d : Decl) (e : Ev) : (s.raise u d e).sec = s.sec := rfl

@[simp] theorem State.setTileMem_pending (u : Nat) (m : Mem) : (s.setTileMem u m).pending = s.pending := rfl
@[simp] theorem State.setTileMem_fresh (u : Nat) (m : Mem) : (s.setTileMem u m).fresh = s.fresh := rfl
@[simp] theorem State.setTileMem_kv (u : Nat) (m : Mem) : (s.setTileMem u m).kv = s.kv := rfl
@[simp] theorem State.setTileMem_acc (u : Nat) (m : Mem) : (s.setTileMem u m).acc = s.acc := rfl
@[simp] theorem State.setTileMem_pendW (u : Nat) (m : Mem) : (s.setTileMem u m).pendW = s.pendW := rfl
@[simp] theorem State.setTileMem_hostIf (u : Nat) (m : Mem) : (s.setTileMem u m).hostIf = s.hostIf := rfl
@[simp] theorem State.setTileMem_clk (u : Nat) (m : Mem) : (s.setTileMem u m).clk = s.clk := rfl
@[simp] theorem State.setTileMem_pwr (u : Nat) (m : Mem) : (s.setTileMem u m).pwr = s.pwr := rfl
@[simp] theorem State.setTileMem_pins (u : Nat) (m : Mem) : (s.setTileMem u m).pins = s.pins := rfl
@[simp] theorem State.setTileMem_tiles (u : Nat) (m : Mem) : (s.setTileMem u m).tiles = s.tiles := rfl
@[simp] theorem State.setTileMem_engines (u : Nat) (m : Mem) : (s.setTileMem u m).engines = s.engines := rfl
@[simp] theorem State.setTileMem_job (u : Nat) (m : Mem) : (s.setTileMem u m).job = s.job := rfl
@[simp] theorem State.setTileMem_exch (u : Nat) (m : Mem) : (s.setTileMem u m).exch = s.exch := rfl
@[simp] theorem State.setTileMem_ports (u : Nat) (m : Mem) : (s.setTileMem u m).ports = s.ports := rfl
@[simp] theorem State.setTileMem_torus (u : Nat) (m : Mem) : (s.setTileMem u m).torus = s.torus := rfl
@[simp] theorem State.setTileMem_flt (u : Nat) (m : Mem) : (s.setTileMem u m).flt = s.flt := rfl
@[simp] theorem State.setTileMem_sec (u : Nat) (m : Mem) : (s.setTileMem u m).sec = s.sec := rfl

@[simp] theorem State.tileWr_pending (u a : Nat) (bs : List Byte) : (s.tileWr u a bs).pending = s.pending := rfl
@[simp] theorem State.tileWr_fresh (u a : Nat) (bs : List Byte) : (s.tileWr u a bs).fresh = s.fresh := rfl
@[simp] theorem State.tileWr_kv (u a : Nat) (bs : List Byte) : (s.tileWr u a bs).kv = s.kv := rfl
@[simp] theorem State.tileWr_acc (u a : Nat) (bs : List Byte) : (s.tileWr u a bs).acc = s.acc := rfl
@[simp] theorem State.tileWr_pendW (u a : Nat) (bs : List Byte) : (s.tileWr u a bs).pendW = s.pendW := rfl
@[simp] theorem State.tileWr_hostIf (u a : Nat) (bs : List Byte) : (s.tileWr u a bs).hostIf = s.hostIf := rfl
@[simp] theorem State.tileWr_clk (u a : Nat) (bs : List Byte) : (s.tileWr u a bs).clk = s.clk := rfl
@[simp] theorem State.tileWr_pwr (u a : Nat) (bs : List Byte) : (s.tileWr u a bs).pwr = s.pwr := rfl
@[simp] theorem State.tileWr_pins (u a : Nat) (bs : List Byte) : (s.tileWr u a bs).pins = s.pins := rfl
@[simp] theorem State.tileWr_tiles (u a : Nat) (bs : List Byte) : (s.tileWr u a bs).tiles = s.tiles := rfl
@[simp] theorem State.tileWr_engines (u a : Nat) (bs : List Byte) : (s.tileWr u a bs).engines = s.engines := rfl
@[simp] theorem State.tileWr_job (u a : Nat) (bs : List Byte) : (s.tileWr u a bs).job = s.job := rfl
@[simp] theorem State.tileWr_exch (u a : Nat) (bs : List Byte) : (s.tileWr u a bs).exch = s.exch := rfl
@[simp] theorem State.tileWr_ports (u a : Nat) (bs : List Byte) : (s.tileWr u a bs).ports = s.ports := rfl
@[simp] theorem State.tileWr_torus (u a : Nat) (bs : List Byte) : (s.tileWr u a bs).torus = s.torus := rfl
@[simp] theorem State.tileWr_flt (u a : Nat) (bs : List Byte) : (s.tileWr u a bs).flt = s.flt := rfl
@[simp] theorem State.tileWr_sec (u a : Nat) (bs : List Byte) : (s.tileWr u a bs).sec = s.sec := rfl

@[simp] theorem State.setTileElem_pending (u : Nat) (f : Fmt) (b i c : Nat) : (s.setTileElem u f b i c).pending = s.pending := rfl
@[simp] theorem State.setTileElem_fresh (u : Nat) (f : Fmt) (b i c : Nat) : (s.setTileElem u f b i c).fresh = s.fresh := rfl
@[simp] theorem State.setTileElem_kv (u : Nat) (f : Fmt) (b i c : Nat) : (s.setTileElem u f b i c).kv = s.kv := rfl
@[simp] theorem State.setTileElem_acc (u : Nat) (f : Fmt) (b i c : Nat) : (s.setTileElem u f b i c).acc = s.acc := rfl
@[simp] theorem State.setTileElem_pendW (u : Nat) (f : Fmt) (b i c : Nat) : (s.setTileElem u f b i c).pendW = s.pendW := rfl
@[simp] theorem State.setTileElem_hostIf (u : Nat) (f : Fmt) (b i c : Nat) : (s.setTileElem u f b i c).hostIf = s.hostIf := rfl
@[simp] theorem State.setTileElem_clk (u : Nat) (f : Fmt) (b i c : Nat) : (s.setTileElem u f b i c).clk = s.clk := rfl
@[simp] theorem State.setTileElem_pwr (u : Nat) (f : Fmt) (b i c : Nat) : (s.setTileElem u f b i c).pwr = s.pwr := rfl
@[simp] theorem State.setTileElem_pins (u : Nat) (f : Fmt) (b i c : Nat) : (s.setTileElem u f b i c).pins = s.pins := rfl
@[simp] theorem State.setTileElem_tiles (u : Nat) (f : Fmt) (b i c : Nat) : (s.setTileElem u f b i c).tiles = s.tiles := rfl
@[simp] theorem State.setTileElem_engines (u : Nat) (f : Fmt) (b i c : Nat) : (s.setTileElem u f b i c).engines = s.engines := rfl
@[simp] theorem State.setTileElem_job (u : Nat) (f : Fmt) (b i c : Nat) : (s.setTileElem u f b i c).job = s.job := rfl
@[simp] theorem State.setTileElem_exch (u : Nat) (f : Fmt) (b i c : Nat) : (s.setTileElem u f b i c).exch = s.exch := rfl
@[simp] theorem State.setTileElem_ports (u : Nat) (f : Fmt) (b i c : Nat) : (s.setTileElem u f b i c).ports = s.ports := rfl
@[simp] theorem State.setTileElem_torus (u : Nat) (f : Fmt) (b i c : Nat) : (s.setTileElem u f b i c).torus = s.torus := rfl
@[simp] theorem State.setTileElem_flt (u : Nat) (f : Fmt) (b i c : Nat) : (s.setTileElem u f b i c).flt = s.flt := rfl
@[simp] theorem State.setTileElem_sec (u : Nat) (f : Fmt) (b i c : Nat) : (s.setTileElem u f b i c).sec = s.sec := rfl

@[simp] theorem State.dramWr_pending (a : Nat) (bs : List Byte) : (s.dramWr a bs).pending = s.pending := rfl
@[simp] theorem State.dramWr_fresh (a : Nat) (bs : List Byte) : (s.dramWr a bs).fresh = s.fresh := rfl
@[simp] theorem State.dramWr_kv (a : Nat) (bs : List Byte) : (s.dramWr a bs).kv = s.kv := rfl
@[simp] theorem State.dramWr_acc (a : Nat) (bs : List Byte) : (s.dramWr a bs).acc = s.acc := rfl
@[simp] theorem State.dramWr_pendW (a : Nat) (bs : List Byte) : (s.dramWr a bs).pendW = s.pendW := rfl
@[simp] theorem State.dramWr_hostIf (a : Nat) (bs : List Byte) : (s.dramWr a bs).hostIf = s.hostIf := rfl
@[simp] theorem State.dramWr_clk (a : Nat) (bs : List Byte) : (s.dramWr a bs).clk = s.clk := rfl
@[simp] theorem State.dramWr_pwr (a : Nat) (bs : List Byte) : (s.dramWr a bs).pwr = s.pwr := rfl
@[simp] theorem State.dramWr_pins (a : Nat) (bs : List Byte) : (s.dramWr a bs).pins = s.pins := rfl
@[simp] theorem State.dramWr_tiles (a : Nat) (bs : List Byte) : (s.dramWr a bs).tiles = s.tiles := rfl
@[simp] theorem State.dramWr_engines (a : Nat) (bs : List Byte) : (s.dramWr a bs).engines = s.engines := rfl
@[simp] theorem State.dramWr_job (a : Nat) (bs : List Byte) : (s.dramWr a bs).job = s.job := rfl
@[simp] theorem State.dramWr_exch (a : Nat) (bs : List Byte) : (s.dramWr a bs).exch = s.exch := rfl
@[simp] theorem State.dramWr_ports (a : Nat) (bs : List Byte) : (s.dramWr a bs).ports = s.ports := rfl
@[simp] theorem State.dramWr_torus (a : Nat) (bs : List Byte) : (s.dramWr a bs).torus = s.torus := rfl
@[simp] theorem State.dramWr_flt (a : Nat) (bs : List Byte) : (s.dramWr a bs).flt = s.flt := rfl
@[simp] theorem State.dramWr_sec (a : Nat) (bs : List Byte) : (s.dramWr a bs).sec = s.sec := rfl

@[simp] theorem State.setDramElem_pending (f : Fmt) (b i c : Nat) : (s.setDramElem f b i c).pending = s.pending := rfl
@[simp] theorem State.setDramElem_fresh (f : Fmt) (b i c : Nat) : (s.setDramElem f b i c).fresh = s.fresh := rfl
@[simp] theorem State.setDramElem_kv (f : Fmt) (b i c : Nat) : (s.setDramElem f b i c).kv = s.kv := rfl
@[simp] theorem State.setDramElem_acc (f : Fmt) (b i c : Nat) : (s.setDramElem f b i c).acc = s.acc := rfl
@[simp] theorem State.setDramElem_pendW (f : Fmt) (b i c : Nat) : (s.setDramElem f b i c).pendW = s.pendW := rfl
@[simp] theorem State.setDramElem_hostIf (f : Fmt) (b i c : Nat) : (s.setDramElem f b i c).hostIf = s.hostIf := rfl
@[simp] theorem State.setDramElem_clk (f : Fmt) (b i c : Nat) : (s.setDramElem f b i c).clk = s.clk := rfl
@[simp] theorem State.setDramElem_pwr (f : Fmt) (b i c : Nat) : (s.setDramElem f b i c).pwr = s.pwr := rfl
@[simp] theorem State.setDramElem_pins (f : Fmt) (b i c : Nat) : (s.setDramElem f b i c).pins = s.pins := rfl
@[simp] theorem State.setDramElem_tiles (f : Fmt) (b i c : Nat) : (s.setDramElem f b i c).tiles = s.tiles := rfl
@[simp] theorem State.setDramElem_engines (f : Fmt) (b i c : Nat) : (s.setDramElem f b i c).engines = s.engines := rfl
@[simp] theorem State.setDramElem_job (f : Fmt) (b i c : Nat) : (s.setDramElem f b i c).job = s.job := rfl
@[simp] theorem State.setDramElem_exch (f : Fmt) (b i c : Nat) : (s.setDramElem f b i c).exch = s.exch := rfl
@[simp] theorem State.setDramElem_ports (f : Fmt) (b i c : Nat) : (s.setDramElem f b i c).ports = s.ports := rfl
@[simp] theorem State.setDramElem_torus (f : Fmt) (b i c : Nat) : (s.setDramElem f b i c).torus = s.torus := rfl
@[simp] theorem State.setDramElem_flt (f : Fmt) (b i c : Nat) : (s.setDramElem f b i c).flt = s.flt := rfl
@[simp] theorem State.setDramElem_sec (f : Fmt) (b i c : Nat) : (s.setDramElem f b i c).sec = s.sec := rfl

@[simp] theorem State.hostWr_pending (a : Nat) (bs : List Byte) : (s.hostWr a bs).pending = s.pending := rfl
@[simp] theorem State.hostWr_fresh (a : Nat) (bs : List Byte) : (s.hostWr a bs).fresh = s.fresh := rfl
@[simp] theorem State.hostWr_kv (a : Nat) (bs : List Byte) : (s.hostWr a bs).kv = s.kv := rfl
@[simp] theorem State.hostWr_acc (a : Nat) (bs : List Byte) : (s.hostWr a bs).acc = s.acc := rfl
@[simp] theorem State.hostWr_pendW (a : Nat) (bs : List Byte) : (s.hostWr a bs).pendW = s.pendW := rfl
@[simp] theorem State.hostWr_hostIf (a : Nat) (bs : List Byte) : (s.hostWr a bs).hostIf = s.hostIf := rfl
@[simp] theorem State.hostWr_clk (a : Nat) (bs : List Byte) : (s.hostWr a bs).clk = s.clk := rfl
@[simp] theorem State.hostWr_pwr (a : Nat) (bs : List Byte) : (s.hostWr a bs).pwr = s.pwr := rfl
@[simp] theorem State.hostWr_pins (a : Nat) (bs : List Byte) : (s.hostWr a bs).pins = s.pins := rfl
@[simp] theorem State.hostWr_tiles (a : Nat) (bs : List Byte) : (s.hostWr a bs).tiles = s.tiles := rfl
@[simp] theorem State.hostWr_engines (a : Nat) (bs : List Byte) : (s.hostWr a bs).engines = s.engines := rfl
@[simp] theorem State.hostWr_job (a : Nat) (bs : List Byte) : (s.hostWr a bs).job = s.job := rfl
@[simp] theorem State.hostWr_exch (a : Nat) (bs : List Byte) : (s.hostWr a bs).exch = s.exch := rfl
@[simp] theorem State.hostWr_ports (a : Nat) (bs : List Byte) : (s.hostWr a bs).ports = s.ports := rfl
@[simp] theorem State.hostWr_torus (a : Nat) (bs : List Byte) : (s.hostWr a bs).torus = s.torus := rfl
@[simp] theorem State.hostWr_flt (a : Nat) (bs : List Byte) : (s.hostWr a bs).flt = s.flt := rfl
@[simp] theorem State.hostWr_sec (a : Nat) (bs : List Byte) : (s.hostWr a bs).sec = s.sec := rfl

@[simp] theorem State.dramForget_pending (lo hi : Nat) : (s.dramForget lo hi).pending = s.pending := rfl
@[simp] theorem State.dramForget_fresh (lo hi : Nat) : (s.dramForget lo hi).fresh = s.fresh := rfl
@[simp] theorem State.dramForget_kv (lo hi : Nat) : (s.dramForget lo hi).kv = s.kv := rfl
@[simp] theorem State.dramForget_acc (lo hi : Nat) : (s.dramForget lo hi).acc = s.acc := rfl
@[simp] theorem State.dramForget_pendW (lo hi : Nat) : (s.dramForget lo hi).pendW = s.pendW := rfl
@[simp] theorem State.dramForget_hostIf (lo hi : Nat) : (s.dramForget lo hi).hostIf = s.hostIf := rfl
@[simp] theorem State.dramForget_clk (lo hi : Nat) : (s.dramForget lo hi).clk = s.clk := rfl
@[simp] theorem State.dramForget_pwr (lo hi : Nat) : (s.dramForget lo hi).pwr = s.pwr := rfl
@[simp] theorem State.dramForget_pins (lo hi : Nat) : (s.dramForget lo hi).pins = s.pins := rfl
@[simp] theorem State.dramForget_tiles (lo hi : Nat) : (s.dramForget lo hi).tiles = s.tiles := rfl
@[simp] theorem State.dramForget_engines (lo hi : Nat) : (s.dramForget lo hi).engines = s.engines := rfl
@[simp] theorem State.dramForget_job (lo hi : Nat) : (s.dramForget lo hi).job = s.job := rfl
@[simp] theorem State.dramForget_exch (lo hi : Nat) : (s.dramForget lo hi).exch = s.exch := rfl
@[simp] theorem State.dramForget_ports (lo hi : Nat) : (s.dramForget lo hi).ports = s.ports := rfl
@[simp] theorem State.dramForget_torus (lo hi : Nat) : (s.dramForget lo hi).torus = s.torus := rfl
@[simp] theorem State.dramForget_flt (lo hi : Nat) : (s.dramForget lo hi).flt = s.flt := rfl
@[simp] theorem State.dramForget_sec (lo hi : Nat) : (s.dramForget lo hi).sec = s.sec := rfl

@[simp] theorem State.tileForget_pending (u lo hi : Nat) : (s.tileForget u lo hi).pending = s.pending := rfl
@[simp] theorem State.tileForget_fresh (u lo hi : Nat) : (s.tileForget u lo hi).fresh = s.fresh := rfl
@[simp] theorem State.tileForget_kv (u lo hi : Nat) : (s.tileForget u lo hi).kv = s.kv := rfl
@[simp] theorem State.tileForget_acc (u lo hi : Nat) : (s.tileForget u lo hi).acc = s.acc := rfl
@[simp] theorem State.tileForget_pendW (u lo hi : Nat) : (s.tileForget u lo hi).pendW = s.pendW := rfl
@[simp] theorem State.tileForget_hostIf (u lo hi : Nat) : (s.tileForget u lo hi).hostIf = s.hostIf := rfl
@[simp] theorem State.tileForget_clk (u lo hi : Nat) : (s.tileForget u lo hi).clk = s.clk := rfl
@[simp] theorem State.tileForget_pwr (u lo hi : Nat) : (s.tileForget u lo hi).pwr = s.pwr := rfl
@[simp] theorem State.tileForget_pins (u lo hi : Nat) : (s.tileForget u lo hi).pins = s.pins := rfl
@[simp] theorem State.tileForget_tiles (u lo hi : Nat) : (s.tileForget u lo hi).tiles = s.tiles := rfl
@[simp] theorem State.tileForget_engines (u lo hi : Nat) : (s.tileForget u lo hi).engines = s.engines := rfl
@[simp] theorem State.tileForget_job (u lo hi : Nat) : (s.tileForget u lo hi).job = s.job := rfl
@[simp] theorem State.tileForget_exch (u lo hi : Nat) : (s.tileForget u lo hi).exch = s.exch := rfl
@[simp] theorem State.tileForget_ports (u lo hi : Nat) : (s.tileForget u lo hi).ports = s.ports := rfl
@[simp] theorem State.tileForget_torus (u lo hi : Nat) : (s.tileForget u lo hi).torus = s.torus := rfl
@[simp] theorem State.tileForget_flt (u lo hi : Nat) : (s.tileForget u lo hi).flt = s.flt := rfl
@[simp] theorem State.tileForget_sec (u lo hi : Nat) : (s.tileForget u lo hi).sec = s.sec := rfl

@[simp] theorem State.msix_pending (v : Nat) : (s.msix v).pending = s.pending := rfl
@[simp] theorem State.msix_fresh (v : Nat) : (s.msix v).fresh = s.fresh := rfl
@[simp] theorem State.msix_kv (v : Nat) : (s.msix v).kv = s.kv := rfl
@[simp] theorem State.msix_acc (v : Nat) : (s.msix v).acc = s.acc := rfl
@[simp] theorem State.msix_pendW (v : Nat) : (s.msix v).pendW = s.pendW := rfl
@[simp] theorem State.msix_clk (v : Nat) : (s.msix v).clk = s.clk := rfl
@[simp] theorem State.msix_pwr (v : Nat) : (s.msix v).pwr = s.pwr := rfl
@[simp] theorem State.msix_pins (v : Nat) : (s.msix v).pins = s.pins := rfl
@[simp] theorem State.msix_tiles (v : Nat) : (s.msix v).tiles = s.tiles := rfl
@[simp] theorem State.msix_mem (v : Nat) : (s.msix v).mem = s.mem := rfl
@[simp] theorem State.msix_engines (v : Nat) : (s.msix v).engines = s.engines := rfl
@[simp] theorem State.msix_job (v : Nat) : (s.msix v).job = s.job := rfl
@[simp] theorem State.msix_exch (v : Nat) : (s.msix v).exch = s.exch := rfl
@[simp] theorem State.msix_ports (v : Nat) : (s.msix v).ports = s.ports := rfl
@[simp] theorem State.msix_torus (v : Nat) : (s.msix v).torus = s.torus := rfl
@[simp] theorem State.msix_flt (v : Nat) : (s.msix v).flt = s.flt := rfl
@[simp] theorem State.msix_sec (v : Nat) : (s.msix v).sec = s.sec := rfl

@[simp] theorem State.alert_pending (b : Bool) : (s.alert b).pending = s.pending := rfl
@[simp] theorem State.alert_fresh (b : Bool) : (s.alert b).fresh = s.fresh := rfl
@[simp] theorem State.alert_kv (b : Bool) : (s.alert b).kv = s.kv := rfl
@[simp] theorem State.alert_acc (b : Bool) : (s.alert b).acc = s.acc := rfl
@[simp] theorem State.alert_pendW (b : Bool) : (s.alert b).pendW = s.pendW := rfl
@[simp] theorem State.alert_hostIf (b : Bool) : (s.alert b).hostIf = s.hostIf := rfl
@[simp] theorem State.alert_clk (b : Bool) : (s.alert b).clk = s.clk := rfl
@[simp] theorem State.alert_pwr (b : Bool) : (s.alert b).pwr = s.pwr := rfl
@[simp] theorem State.alert_tiles (b : Bool) : (s.alert b).tiles = s.tiles := rfl
@[simp] theorem State.alert_mem (b : Bool) : (s.alert b).mem = s.mem := rfl
@[simp] theorem State.alert_engines (b : Bool) : (s.alert b).engines = s.engines := rfl
@[simp] theorem State.alert_job (b : Bool) : (s.alert b).job = s.job := rfl
@[simp] theorem State.alert_exch (b : Bool) : (s.alert b).exch = s.exch := rfl
@[simp] theorem State.alert_ports (b : Bool) : (s.alert b).ports = s.ports := rfl
@[simp] theorem State.alert_torus (b : Bool) : (s.alert b).torus = s.torus := rfl
@[simp] theorem State.alert_flt (b : Bool) : (s.alert b).flt = s.flt := rfl
@[simp] theorem State.alert_sec (b : Bool) : (s.alert b).sec = s.sec := rfl

@[simp] theorem State.event_pending (e : Event) : (s.event e).pending = s.pending := rfl
@[simp] theorem State.event_fresh (e : Event) : (s.event e).fresh = s.fresh := rfl
@[simp] theorem State.event_kv (e : Event) : (s.event e).kv = s.kv := rfl
@[simp] theorem State.event_acc (e : Event) : (s.event e).acc = s.acc := rfl
@[simp] theorem State.event_pendW (e : Event) : (s.event e).pendW = s.pendW := rfl
@[simp] theorem State.event_hostIf (e : Event) : (s.event e).hostIf = s.hostIf := rfl
@[simp] theorem State.event_clk (e : Event) : (s.event e).clk = s.clk := rfl
@[simp] theorem State.event_pwr (e : Event) : (s.event e).pwr = s.pwr := rfl
@[simp] theorem State.event_tiles (e : Event) : (s.event e).tiles = s.tiles := rfl
@[simp] theorem State.event_mem (e : Event) : (s.event e).mem = s.mem := rfl
@[simp] theorem State.event_engines (e : Event) : (s.event e).engines = s.engines := rfl
@[simp] theorem State.event_job (e : Event) : (s.event e).job = s.job := rfl
@[simp] theorem State.event_exch (e : Event) : (s.event e).exch = s.exch := rfl
@[simp] theorem State.event_ports (e : Event) : (s.event e).ports = s.ports := rfl
@[simp] theorem State.event_torus (e : Event) : (s.event e).torus = s.torus := rfl
@[simp] theorem State.event_sec (e : Event) : (s.event e).sec = s.sec := rfl

@[simp] theorem State.kvSet_pending (k : Nat) (v : BitVec 64) : (s.kvSet k v).pending = s.pending := rfl
@[simp] theorem State.kvSet_fresh (k : Nat) (v : BitVec 64) : (s.kvSet k v).fresh = s.fresh := rfl
@[simp] theorem State.kvSet_acc (k : Nat) (v : BitVec 64) : (s.kvSet k v).acc = s.acc := rfl
@[simp] theorem State.kvSet_pendW (k : Nat) (v : BitVec 64) : (s.kvSet k v).pendW = s.pendW := rfl
@[simp] theorem State.kvSet_hostIf (k : Nat) (v : BitVec 64) : (s.kvSet k v).hostIf = s.hostIf := rfl
@[simp] theorem State.kvSet_clk (k : Nat) (v : BitVec 64) : (s.kvSet k v).clk = s.clk := rfl
@[simp] theorem State.kvSet_pwr (k : Nat) (v : BitVec 64) : (s.kvSet k v).pwr = s.pwr := rfl
@[simp] theorem State.kvSet_pins (k : Nat) (v : BitVec 64) : (s.kvSet k v).pins = s.pins := rfl
@[simp] theorem State.kvSet_tiles (k : Nat) (v : BitVec 64) : (s.kvSet k v).tiles = s.tiles := rfl
@[simp] theorem State.kvSet_mem (k : Nat) (v : BitVec 64) : (s.kvSet k v).mem = s.mem := rfl
@[simp] theorem State.kvSet_engines (k : Nat) (v : BitVec 64) : (s.kvSet k v).engines = s.engines := rfl
@[simp] theorem State.kvSet_job (k : Nat) (v : BitVec 64) : (s.kvSet k v).job = s.job := rfl
@[simp] theorem State.kvSet_exch (k : Nat) (v : BitVec 64) : (s.kvSet k v).exch = s.exch := rfl
@[simp] theorem State.kvSet_ports (k : Nat) (v : BitVec 64) : (s.kvSet k v).ports = s.ports := rfl
@[simp] theorem State.kvSet_torus (k : Nat) (v : BitVec 64) : (s.kvSet k v).torus = s.torus := rfl
@[simp] theorem State.kvSet_flt (k : Nat) (v : BitVec 64) : (s.kvSet k v).flt = s.flt := rfl
@[simp] theorem State.kvSet_sec (k : Nat) (v : BitVec 64) : (s.kvSet k v).sec = s.sec := rfl

@[simp] theorem State.countNow_pending (k n : Nat) : (s.countNow k n).pending = s.pending := rfl
@[simp] theorem State.countNow_fresh (k n : Nat) : (s.countNow k n).fresh = s.fresh := rfl
@[simp] theorem State.countNow_acc (k n : Nat) : (s.countNow k n).acc = s.acc := rfl
@[simp] theorem State.countNow_pendW (k n : Nat) : (s.countNow k n).pendW = s.pendW := rfl
@[simp] theorem State.countNow_hostIf (k n : Nat) : (s.countNow k n).hostIf = s.hostIf := rfl
@[simp] theorem State.countNow_clk (k n : Nat) : (s.countNow k n).clk = s.clk := rfl
@[simp] theorem State.countNow_pwr (k n : Nat) : (s.countNow k n).pwr = s.pwr := rfl
@[simp] theorem State.countNow_pins (k n : Nat) : (s.countNow k n).pins = s.pins := rfl
@[simp] theorem State.countNow_tiles (k n : Nat) : (s.countNow k n).tiles = s.tiles := rfl
@[simp] theorem State.countNow_mem (k n : Nat) : (s.countNow k n).mem = s.mem := rfl
@[simp] theorem State.countNow_engines (k n : Nat) : (s.countNow k n).engines = s.engines := rfl
@[simp] theorem State.countNow_job (k n : Nat) : (s.countNow k n).job = s.job := rfl
@[simp] theorem State.countNow_exch (k n : Nat) : (s.countNow k n).exch = s.exch := rfl
@[simp] theorem State.countNow_ports (k n : Nat) : (s.countNow k n).ports = s.ports := rfl
@[simp] theorem State.countNow_torus (k n : Nat) : (s.countNow k n).torus = s.torus := rfl
@[simp] theorem State.countNow_flt (k n : Nat) : (s.countNow k n).flt = s.flt := rfl
@[simp] theorem State.countNow_sec (k n : Nat) : (s.countNow k n).sec = s.sec := rfl

@[simp] theorem State.count_pending (k n : Nat) : (s.count k n).pending = s.pending := by
  unfold State.count; split <;> rfl
@[simp] theorem State.count_fresh (k n : Nat) : (s.count k n).fresh = s.fresh := by
  unfold State.count; split <;> rfl
@[simp] theorem State.count_pendW (k n : Nat) : (s.count k n).pendW = s.pendW := by
  unfold State.count; split <;> rfl
@[simp] theorem State.count_hostIf (k n : Nat) : (s.count k n).hostIf = s.hostIf := by
  unfold State.count; split <;> rfl
@[simp] theorem State.count_clk (k n : Nat) : (s.count k n).clk = s.clk := by
  unfold State.count; split <;> rfl
@[simp] theorem State.count_pwr (k n : Nat) : (s.count k n).pwr = s.pwr := by
  unfold State.count; split <;> rfl
@[simp] theorem State.count_pins (k n : Nat) : (s.count k n).pins = s.pins := by
  unfold State.count; split <;> rfl
@[simp] theorem State.count_tiles (k n : Nat) : (s.count k n).tiles = s.tiles := by
  unfold State.count; split <;> rfl
@[simp] theorem State.count_mem (k n : Nat) : (s.count k n).mem = s.mem := by
  unfold State.count; split <;> rfl
@[simp] theorem State.count_engines (k n : Nat) : (s.count k n).engines = s.engines := by
  unfold State.count; split <;> rfl
@[simp] theorem State.count_job (k n : Nat) : (s.count k n).job = s.job := by
  unfold State.count; split <;> rfl
@[simp] theorem State.count_exch (k n : Nat) : (s.count k n).exch = s.exch := by
  unfold State.count; split <;> rfl
@[simp] theorem State.count_ports (k n : Nat) : (s.count k n).ports = s.ports := by
  unfold State.count; split <;> rfl
@[simp] theorem State.count_torus (k n : Nat) : (s.count k n).torus = s.torus := by
  unfold State.count; split <;> rfl
@[simp] theorem State.count_flt (k n : Nat) : (s.count k n).flt = s.flt := by
  unfold State.count; split <;> rfl
@[simp] theorem State.count_sec (k n : Nat) : (s.count k n).sec = s.sec := by
  unfold State.count; split <;> rfl
@[simp] theorem State.wrAt_pending (a : Bool × Nat) (bs : List Byte) : (s.wrAt a bs).pending = s.pending := by
  unfold State.wrAt; split <;> rfl
@[simp] theorem State.wrAt_fresh (a : Bool × Nat) (bs : List Byte) : (s.wrAt a bs).fresh = s.fresh := by
  unfold State.wrAt; split <;> rfl
@[simp] theorem State.wrAt_kv (a : Bool × Nat) (bs : List Byte) : (s.wrAt a bs).kv = s.kv := by
  unfold State.wrAt; split <;> rfl
@[simp] theorem State.wrAt_acc (a : Bool × Nat) (bs : List Byte) : (s.wrAt a bs).acc = s.acc := by
  unfold State.wrAt; split <;> rfl
@[simp] theorem State.wrAt_pendW (a : Bool × Nat) (bs : List Byte) : (s.wrAt a bs).pendW = s.pendW := by
  unfold State.wrAt; split <;> rfl
@[simp] theorem State.wrAt_hostIf (a : Bool × Nat) (bs : List Byte) : (s.wrAt a bs).hostIf = s.hostIf := by
  unfold State.wrAt; split <;> rfl
@[simp] theorem State.wrAt_clk (a : Bool × Nat) (bs : List Byte) : (s.wrAt a bs).clk = s.clk := by
  unfold State.wrAt; split <;> rfl
@[simp] theorem State.wrAt_pwr (a : Bool × Nat) (bs : List Byte) : (s.wrAt a bs).pwr = s.pwr := by
  unfold State.wrAt; split <;> rfl
@[simp] theorem State.wrAt_pins (a : Bool × Nat) (bs : List Byte) : (s.wrAt a bs).pins = s.pins := by
  unfold State.wrAt; split <;> rfl
@[simp] theorem State.wrAt_tiles (a : Bool × Nat) (bs : List Byte) : (s.wrAt a bs).tiles = s.tiles := by
  unfold State.wrAt; split <;> rfl
@[simp] theorem State.wrAt_engines (a : Bool × Nat) (bs : List Byte) : (s.wrAt a bs).engines = s.engines := by
  unfold State.wrAt; split <;> rfl
@[simp] theorem State.wrAt_job (a : Bool × Nat) (bs : List Byte) : (s.wrAt a bs).job = s.job := by
  unfold State.wrAt; split <;> rfl
@[simp] theorem State.wrAt_exch (a : Bool × Nat) (bs : List Byte) : (s.wrAt a bs).exch = s.exch := by
  unfold State.wrAt; split <;> rfl
@[simp] theorem State.wrAt_ports (a : Bool × Nat) (bs : List Byte) : (s.wrAt a bs).ports = s.ports := by
  unfold State.wrAt; split <;> rfl
@[simp] theorem State.wrAt_torus (a : Bool × Nat) (bs : List Byte) : (s.wrAt a bs).torus = s.torus := by
  unfold State.wrAt; split <;> rfl
@[simp] theorem State.wrAt_flt (a : Bool × Nat) (bs : List Byte) : (s.wrAt a bs).flt = s.flt := by
  unfold State.wrAt; split <;> rfl
@[simp] theorem State.wrAt_sec (a : Bool × Nat) (bs : List Byte) : (s.wrAt a bs).sec = s.sec := by
  unfold State.wrAt; split <;> rfl
@[simp] theorem State.record_pending (r : FaultRec) : (s.record r).pending = s.pending := by
  unfold State.record; simp only; split <;> rfl
@[simp] theorem State.record_fresh (r : FaultRec) : (s.record r).fresh = s.fresh := by
  unfold State.record; simp only; split <;> rfl
@[simp] theorem State.record_acc (r : FaultRec) : (s.record r).acc = s.acc := by
  unfold State.record; simp only; split <;> rfl
@[simp] theorem State.record_pendW (r : FaultRec) : (s.record r).pendW = s.pendW := by
  unfold State.record; simp only; split <;> rfl
@[simp] theorem State.record_clk (r : FaultRec) : (s.record r).clk = s.clk := by
  unfold State.record; simp only; split <;> rfl
@[simp] theorem State.record_pwr (r : FaultRec) : (s.record r).pwr = s.pwr := by
  unfold State.record; simp only; split <;> rfl
@[simp] theorem State.record_tiles (r : FaultRec) : (s.record r).tiles = s.tiles := by
  unfold State.record; simp only; split <;> rfl
@[simp] theorem State.record_mem (r : FaultRec) : (s.record r).mem = s.mem := by
  unfold State.record; simp only; split <;> rfl
@[simp] theorem State.record_engines (r : FaultRec) : (s.record r).engines = s.engines := by
  unfold State.record; simp only; split <;> rfl
@[simp] theorem State.record_job (r : FaultRec) : (s.record r).job = s.job := by
  unfold State.record; simp only; split <;> rfl
@[simp] theorem State.record_exch (r : FaultRec) : (s.record r).exch = s.exch := by
  unfold State.record; simp only; split <;> rfl
@[simp] theorem State.record_ports (r : FaultRec) : (s.record r).ports = s.ports := by
  unfold State.record; simp only; split <;> rfl
@[simp] theorem State.record_torus (r : FaultRec) : (s.record r).torus = s.torus := by
  unfold State.record; simp only; split <;> rfl
@[simp] theorem State.record_sec (r : FaultRec) : (s.record r).sec = s.sec := by
  unfold State.record; simp only; split <;> rfl
@[simp] theorem State.contained_pending (r : FaultRec) : (s.contained r).pending = s.pending := by
  unfold State.contained; simp only; split <;> simp
@[simp] theorem State.contained_fresh (r : FaultRec) : (s.contained r).fresh = s.fresh := by
  unfold State.contained; simp only; split <;> simp
@[simp] theorem State.contained_acc (r : FaultRec) : (s.contained r).acc = s.acc := by
  unfold State.contained; simp only; split <;> simp
@[simp] theorem State.contained_pendW (r : FaultRec) : (s.contained r).pendW = s.pendW := by
  unfold State.contained; simp only; split <;> simp
@[simp] theorem State.contained_clk (r : FaultRec) : (s.contained r).clk = s.clk := by
  unfold State.contained; simp only; split <;> simp
@[simp] theorem State.contained_pwr (r : FaultRec) : (s.contained r).pwr = s.pwr := by
  unfold State.contained; simp only; split <;> simp
@[simp] theorem State.contained_tiles (r : FaultRec) : (s.contained r).tiles = s.tiles := by
  unfold State.contained; simp only; split <;> simp
@[simp] theorem State.contained_mem (r : FaultRec) : (s.contained r).mem = s.mem := by
  unfold State.contained; simp only; split <;> simp
@[simp] theorem State.contained_engines (r : FaultRec) : (s.contained r).engines = s.engines := by
  unfold State.contained; simp only; split <;> simp
@[simp] theorem State.contained_exch (r : FaultRec) : (s.contained r).exch = s.exch := by
  unfold State.contained; simp only; split <;> simp
@[simp] theorem State.contained_ports (r : FaultRec) : (s.contained r).ports = s.ports := by
  unfold State.contained; simp only; split <;> simp
@[simp] theorem State.contained_torus (r : FaultRec) : (s.contained r).torus = s.torus := by
  unfold State.contained; simp only; split <;> simp
@[simp] theorem State.contained_sec (r : FaultRec) : (s.contained r).sec = s.sec := by
  unfold State.contained; simp only; split <;> simp
@[simp] theorem State.timing_pending (b : Nat) : (s.timing b).pending = s.pending := by
  unfold State.timing; split <;> rfl
@[simp] theorem State.timing_fresh (b : Nat) : (s.timing b).fresh = s.fresh := by
  unfold State.timing; split <;> rfl
@[simp] theorem State.timing_kv (b : Nat) : (s.timing b).kv = s.kv := by
  unfold State.timing; split <;> rfl
@[simp] theorem State.timing_acc (b : Nat) : (s.timing b).acc = s.acc := by
  unfold State.timing; split <;> rfl
@[simp] theorem State.timing_pendW (b : Nat) : (s.timing b).pendW = s.pendW := by
  unfold State.timing; split <;> rfl
@[simp] theorem State.timing_hostIf (b : Nat) : (s.timing b).hostIf = s.hostIf := by
  unfold State.timing; split <;> rfl
@[simp] theorem State.timing_clk (b : Nat) : (s.timing b).clk = s.clk := by
  unfold State.timing; split <;> rfl
@[simp] theorem State.timing_pwr (b : Nat) : (s.timing b).pwr = s.pwr := by
  unfold State.timing; split <;> rfl
@[simp] theorem State.timing_pins (b : Nat) : (s.timing b).pins = s.pins := by
  unfold State.timing; split <;> rfl
@[simp] theorem State.timing_tiles (b : Nat) : (s.timing b).tiles = s.tiles := by
  unfold State.timing; split <;> rfl
@[simp] theorem State.timing_mem (b : Nat) : (s.timing b).mem = s.mem := by
  unfold State.timing; split <;> rfl
@[simp] theorem State.timing_engines (b : Nat) : (s.timing b).engines = s.engines := by
  unfold State.timing; split <;> rfl
@[simp] theorem State.timing_exch (b : Nat) : (s.timing b).exch = s.exch := by
  unfold State.timing; split <;> rfl
@[simp] theorem State.timing_ports (b : Nat) : (s.timing b).ports = s.ports := by
  unfold State.timing; split <;> rfl
@[simp] theorem State.timing_torus (b : Nat) : (s.timing b).torus = s.torus := by
  unfold State.timing; split <;> rfl
@[simp] theorem State.timing_flt (b : Nat) : (s.timing b).flt = s.flt := by
  unfold State.timing; split <;> rfl
@[simp] theorem State.timing_sec (b : Nat) : (s.timing b).sec = s.sec := by
  unfold State.timing; split <;> rfl

/-! ### What the operations change -/

theorem State.setPort_port {p : Nat} {x : Port} (h : p < s.ports.length) : (s.setPort p x).port p = x :=
  getD_setAt_same h
theorem State.setPort_port_ne {p q : Nat} {x : Port} (h : q ≠ p) : (s.setPort p x).port q = s.port q := getD_setAt_ne h
theorem State.setRing_ring {r : Nat} {x : Ring} (h : r < s.hostIf.rings.length) : (s.setRing r x).ring r = x :=
  getD_setAt_same h
theorem State.setRing_ring_ne {r q : Nat} {x : Ring} (h : q ≠ r) : (s.setRing r x).ring q = s.ring q := getD_setAt_ne h
theorem State.setFn_fn {f : Nat} {x : Fn} (h : f < s.pwr.fns.length) : (s.setFn f x).fn f = x := getD_setAt_same h
theorem State.setFn_fn_ne {f g : Nat} {x : Fn} (h : g ≠ f) : (s.setFn f x).fn g = s.fn g := getD_setAt_ne h
theorem State.setPin_pin {n : Nat} {x : Pin} (h : n < s.pins.inp.length) : (s.setPin n x).pin n = x := getD_setAt_same h
theorem State.setPin_pin_ne {n m : Nat} {x : Pin} (h : m ≠ n) : (s.setPin n x).pin m = s.pin m := getD_setAt_ne h
theorem State.setEngine_engine {f : Nat} {x : Engine} (h : f < s.engines.length) : (s.setEngine f x).engine f = x :=
  getD_setAt_same h
@[simp] theorem State.setTile_tile {u : Nat} {x : Tile} : (s.setTile u x).tile u = x := Tab.get_set_same
theorem State.setTile_tile_ne {u v : Nat} {x : Tile} (hv : v ≠ u) : (s.setTile u x).tile v = s.tile v :=
  Tab.get_set_ne hv
@[simp] theorem State.setSlate_slate {u : Nat} {x : Slate} : ((s.setSlate u x).tile u).slate = x := by
  unfold State.setSlate; rw [State.setTile_tile]
theorem State.setSlate_tile_ne {u v : Nat} {x : Slate} (hv : v ≠ u) : (s.setSlate u x).tile v = s.tile v :=
  State.setTile_tile_ne s hv
@[simp] theorem State.setChan_chan {c : Nat} {x : Chan} : (s.setChan c x).chan c = x := Tab.get_set_same
theorem State.setChan_chan_ne {c d : Nat} {x : Chan} (hd : d ≠ c) : (s.setChan c x).chan d = s.chan d :=
  Tab.get_set_ne hd
@[simp] theorem State.setArb_arb {p : Nat} {x : ArbPort} : (s.setArb p x).arb p = x := Tab.get_set_same
theorem State.setArb_arb_ne {p q : Nat} {x : ArbPort} (h : q ≠ p) : (s.setArb p x).arb q = s.arb q :=
  Tab.get_set_ne h
@[simp] theorem State.setCtx_ctx {c : Nat} {x : CtxSt} : (s.setCtx c x).ctx c = x := Tab.get_set_same
theorem State.setCtx_ctx_ne {c d : Nat} {x : CtxSt} (h : d ≠ c) : (s.setCtx c x).ctx d = s.ctx d :=
  Tab.get_set_ne h
@[simp] theorem State.kvSet_kvGet {k : Nat} {v : BitVec 64} : (s.kvSet k v).kvGet k = v := Tab.get_set_same
theorem State.kvSet_kvGet_ne {k j : Nat} {v : BitVec 64} (h : j ≠ k) : (s.kvSet k v).kvGet j = s.kvGet j :=
  Tab.get_set_ne h
@[simp] theorem State.setTileMem_tileMem {u : Nat} {m : Mem} : (s.setTileMem u m).tileMem u = m := Tab.get_set_same
theorem State.setTileMem_tileMem_ne {u v : Nat} {m : Mem} (h : v ≠ u) :
    (s.setTileMem u m).tileMem v = s.tileMem v := Tab.get_set_ne h

@[simp] theorem State.setPort_length (p : Nat) (x : Port) : (s.setPort p x).ports.length = s.ports.length :=
  length_setAt ..
@[simp] theorem State.setRing_length (r : Nat) (x : Ring) :
    (s.setRing r x).hostIf.rings.length = s.hostIf.rings.length := length_setAt ..
@[simp] theorem State.setFn_length (f : Nat) (x : Fn) : (s.setFn f x).pwr.fns.length = s.pwr.fns.length := length_setAt ..
@[simp] theorem State.setPin_length (n : Nat) (x : Pin) : (s.setPin n x).pins.inp.length = s.pins.inp.length :=
  length_setAt ..
@[simp] theorem State.setEngine_length (f : Nat) (x : Engine) : (s.setEngine f x).engines.length = s.engines.length :=
  length_setAt ..
end

end Sys2Proof.Machine
end

