-- ==== Sys2Proof/Laws/Host.lean ====
section
/-! SUPPORT. What replies, retirement and the rings leave alone: everything but the host attachment, memory and the keys. -/

set_option Elab.async false

namespace Sys2Proof.Machine

section
variable (s : State)

@[simp] theorem State.statusLine_pending (r : Nat) : (s.statusLine r).pending = s.pending := by
  unfold State.statusLine; simp
@[simp] theorem State.statusLine_fresh (r : Nat) : (s.statusLine r).fresh = s.fresh := by
  unfold State.statusLine; simp
@[simp] theorem State.statusLine_acc (r : Nat) : (s.statusLine r).acc = s.acc := by
  unfold State.statusLine; simp
@[simp] theorem State.statusLine_pendW (r : Nat) : (s.statusLine r).pendW = s.pendW := by
  unfold State.statusLine; simp
@[simp] theorem State.statusLine_clk (r : Nat) : (s.statusLine r).clk = s.clk := by
  unfold State.statusLine; simp
@[simp] theorem State.statusLine_pwr (r : Nat) : (s.statusLine r).pwr = s.pwr := by
  unfold State.statusLine; simp
@[simp] theorem State.statusLine_pins (r : Nat) : (s.statusLine r).pins = s.pins := by
  unfold State.statusLine; simp
@[simp] theorem State.statusLine_tiles (r : Nat) : (s.statusLine r).tiles = s.tiles := by
  unfold State.statusLine; simp
@[simp] theorem State.statusLine_engines (r : Nat) : (s.statusLine r).engines = s.engines := by
  unfold State.statusLine; simp
@[simp] theorem State.statusLine_job (r : Nat) : (s.statusLine r).job = s.job := by
  unfold State.statusLine; simp
@[simp] theorem State.statusLine_exch (r : Nat) : (s.statusLine r).exch = s.exch := by
  unfold State.statusLine; simp
@[simp] theorem State.statusLine_ports (r : Nat) : (s.statusLine r).ports = s.ports := by
  unfold State.statusLine; simp
@[simp] theorem State.statusLine_torus (r : Nat) : (s.statusLine r).torus = s.torus := by
  unfold State.statusLine; simp
@[simp] theorem State.statusLine_flt (r : Nat) : (s.statusLine r).flt = s.flt := by
  unfold State.statusLine; simp
@[simp] theorem State.statusLine_sec (r : Nat) : (s.statusLine r).sec = s.sec := by
  unfold State.statusLine; simp

@[simp] theorem State.modJournal_pending (q : Nat) (f : JEntry → JEntry) : (s.modJournal q f).pending = s.pending := by
  unfold State.modJournal; rfl
@[simp] theorem State.modJournal_fresh (q : Nat) (f : JEntry → JEntry) : (s.modJournal q f).fresh = s.fresh := by
  unfold State.modJournal; rfl
@[simp] theorem State.modJournal_acc (q : Nat) (f : JEntry → JEntry) : (s.modJournal q f).acc = s.acc := by
  unfold State.modJournal; rfl
@[simp] theorem State.modJournal_pendW (q : Nat) (f : JEntry → JEntry) : (s.modJournal q f).pendW = s.pendW := by
  unfold State.modJournal; rfl
@[simp] theorem State.modJournal_clk (q : Nat) (f : JEntry → JEntry) : (s.modJournal q f).clk = s.clk := by
  unfold State.modJournal; rfl
@[simp] theorem State.modJournal_pwr (q : Nat) (f : JEntry → JEntry) : (s.modJournal q f).pwr = s.pwr := by
  unfold State.modJournal; rfl
@[simp] theorem State.modJournal_pins (q : Nat) (f : JEntry → JEntry) : (s.modJournal q f).pins = s.pins := by
  unfold State.modJournal; rfl
@[simp] theorem State.modJournal_tiles (q : Nat) (f : JEntry → JEntry) : (s.modJournal q f).tiles = s.tiles := by
  unfold State.modJournal; rfl
@[simp] theorem State.modJournal_engines (q : Nat) (f : JEntry → JEntry) : (s.modJournal q f).engines = s.engines := by
  unfold State.modJournal; rfl
@[simp] theorem State.modJournal_job (q : Nat) (f : JEntry → JEntry) : (s.modJournal q f).job = s.job := by
  unfold State.modJournal; rfl
@[simp] theorem State.modJournal_exch (q : Nat) (f : JEntry → JEntry) : (s.modJournal q f).exch = s.exch := by
  unfold State.modJournal; rfl
@[simp] theorem State.modJournal_ports (q : Nat) (f : JEntry → JEntry) : (s.modJournal q f).ports = s.ports := by
  unfold State.modJournal; rfl
@[simp] theorem State.modJournal_torus (q : Nat) (f : JEntry → JEntry) : (s.modJournal q f).torus = s.torus := by
  unfold State.modJournal; rfl
@[simp] theorem State.modJournal_flt (q : Nat) (f : JEntry → JEntry) : (s.modJournal q f).flt = s.flt := by
  unfold State.modJournal; rfl
@[simp] theorem State.modJournal_sec (q : Nat) (f : JEntry → JEntry) : (s.modJournal q f).sec = s.sec := by
  unfold State.modJournal; rfl

@[simp] theorem State.raiseW_pending  : (s.raiseW).pending = s.pending := by
  unfold State.raiseW; split <;> simp
@[simp] theorem State.raiseW_fresh  : (s.raiseW).fresh = s.fresh := by
  unfold State.raiseW; split <;> simp
@[simp] theorem State.raiseW_acc  : (s.raiseW).acc = s.acc := by
  unfold State.raiseW; split <;> simp
@[simp] theorem State.raiseW_pendW  : (s.raiseW).pendW = s.pendW := by
  unfold State.raiseW; split <;> simp
@[simp] theorem State.raiseW_clk  : (s.raiseW).clk = s.clk := by
  unfold State.raiseW; split <;> simp
@[simp] theorem State.raiseW_pwr  : (s.raiseW).pwr = s.pwr := by
  unfold State.raiseW; split <;> simp
@[simp] theorem State.raiseW_pins  : (s.raiseW).pins = s.pins := by
  unfold State.raiseW; split <;> simp
@[simp] theorem State.raiseW_tiles  : (s.raiseW).tiles = s.tiles := by
  unfold State.raiseW; split <;> simp
@[simp] theorem State.raiseW_engines  : (s.raiseW).engines = s.engines := by
  unfold State.raiseW; split <;> simp
@[simp] theorem State.raiseW_job  : (s.raiseW).job = s.job := by
  unfold State.raiseW; split <;> simp
@[simp] theorem State.raiseW_exch  : (s.raiseW).exch = s.exch := by
  unfold State.raiseW; split <;> simp
@[simp] theorem State.raiseW_ports  : (s.raiseW).ports = s.ports := by
  unfold State.raiseW; split <;> simp
@[simp] theorem State.raiseW_torus  : (s.raiseW).torus = s.torus := by
  unfold State.raiseW; split <;> simp
@[simp] theorem State.raiseW_flt  : (s.raiseW).flt = s.flt := by
  unfold State.raiseW; split <;> simp
@[simp] theorem State.raiseW_sec  : (s.raiseW).sec = s.sec := by
  unfold State.raiseW; split <;> simp

@[simp] theorem State.postReply_pending (r : Nat) (x : ReplyRec) : (s.postReply r x).pending = s.pending := by
  unfold State.postReply; simp only; split <;> (try split) <;> simp
@[simp] theorem State.postReply_fresh (r : Nat) (x : ReplyRec) : (s.postReply r x).fresh = s.fresh := by
  unfold State.postReply; simp only; split <;> (try split) <;> simp
@[simp] theorem State.postReply_acc (r : Nat) (x : ReplyRec) : (s.postReply r x).acc = s.acc := by
  unfold State.postReply; simp only; split <;> (try split) <;> simp
@[simp] theorem State.postReply_pendW (r : Nat) (x : ReplyRec) : (s.postReply r x).pendW = s.pendW := by
  unfold State.postReply; simp only; split <;> (try split) <;> simp
@[simp] theorem State.postReply_clk (r : Nat) (x : ReplyRec) : (s.postReply r x).clk = s.clk := by
  unfold State.postReply; simp only; split <;> (try split) <;> simp
@[simp] theorem State.postReply_pwr (r : Nat) (x : ReplyRec) : (s.postReply r x).pwr = s.pwr := by
  unfold State.postReply; simp only; split <;> (try split) <;> simp
@[simp] theorem State.postReply_pins (r : Nat) (x : ReplyRec) : (s.postReply r x).pins = s.pins := by
  unfold State.postReply; simp only; split <;> (try split) <;> simp
@[simp] theorem State.postReply_tiles (r : Nat) (x : ReplyRec) : (s.postReply r x).tiles = s.tiles := by
  unfold State.postReply; simp only; split <;> (try split) <;> simp
@[simp] theorem State.postReply_engines (r : Nat) (x : ReplyRec) : (s.postReply r x).engines = s.engines := by
  unfold State.postReply; simp only; split <;> (try split) <;> simp
@[simp] theorem State.postReply_job (r : Nat) (x : ReplyRec) : (s.postReply r x).job = s.job := by
  unfold State.postReply; simp only; split <;> (try split) <;> simp
@[simp] theorem State.postReply_exch (r : Nat) (x : ReplyRec) : (s.postReply r x).exch = s.exch := by
  unfold State.postReply; simp only; split <;> (try split) <;> simp
@[simp] theorem State.postReply_ports (r : Nat) (x : ReplyRec) : (s.postReply r x).ports = s.ports := by
  unfold State.postReply; simp only; split <;> (try split) <;> simp
@[simp] theorem State.postReply_torus (r : Nat) (x : ReplyRec) : (s.postReply r x).torus = s.torus := by
  unfold State.postReply; simp only; split <;> (try split) <;> simp
@[simp] theorem State.postReply_flt (r : Nat) (x : ReplyRec) : (s.postReply r x).flt = s.flt := by
  unfold State.postReply; simp only; split <;> (try split) <;> simp
@[simp] theorem State.postReply_sec (r : Nat) (x : ReplyRec) : (s.postReply r x).sec = s.sec := by
  unfold State.postReply; simp only; split <;> (try split) <;> simp

@[simp] theorem State.queueReply_pending (r : Nat) (x : ReplyRec) : (s.queueReply r x).pending = s.pending := by
  unfold State.queueReply; simp only; split <;> simp
@[simp] theorem State.queueReply_fresh (r : Nat) (x : ReplyRec) : (s.queueReply r x).fresh = s.fresh := by
  unfold State.queueReply; simp only; split <;> simp
@[simp] theorem State.queueReply_acc (r : Nat) (x : ReplyRec) : (s.queueReply r x).acc = s.acc := by
  unfold State.queueReply; simp only; split <;> simp
@[simp] theorem State.queueReply_pendW (r : Nat) (x : ReplyRec) : (s.queueReply r x).pendW = s.pendW := by
  unfold State.queueReply; simp only; split <;> simp
@[simp] theorem State.queueReply_clk (r : Nat) (x : ReplyRec) : (s.queueReply r x).clk = s.clk := by
  unfold State.queueReply; simp only; split <;> simp
@[simp] theorem State.queueReply_pwr (r : Nat) (x : ReplyRec) : (s.queueReply r x).pwr = s.pwr := by
  unfold State.queueReply; simp only; split <;> simp
@[simp] theorem State.queueReply_pins (r : Nat) (x : ReplyRec) : (s.queueReply r x).pins = s.pins := by
  unfold State.queueReply; simp only; split <;> simp
@[simp] theorem State.queueReply_tiles (r : Nat) (x : ReplyRec) : (s.queueReply r x).tiles = s.tiles := by
  unfold State.queueReply; simp only; split <;> simp
@[simp] theorem State.queueReply_engines (r : Nat) (x : ReplyRec) : (s.queueReply r x).engines = s.engines := by
  unfold State.queueReply; simp only; split <;> simp
@[simp] theorem State.queueReply_job (r : Nat) (x : ReplyRec) : (s.queueReply r x).job = s.job := by
  unfold State.queueReply; simp only; split <;> simp
@[simp] theorem State.queueReply_exch (r : Nat) (x : ReplyRec) : (s.queueReply r x).exch = s.exch := by
  unfold State.queueReply; simp only; split <;> simp
@[simp] theorem State.queueReply_ports (r : Nat) (x : ReplyRec) : (s.queueReply r x).ports = s.ports := by
  unfold State.queueReply; simp only; split <;> simp
@[simp] theorem State.queueReply_torus (r : Nat) (x : ReplyRec) : (s.queueReply r x).torus = s.torus := by
  unfold State.queueReply; simp only; split <;> simp
@[simp] theorem State.queueReply_flt (r : Nat) (x : ReplyRec) : (s.queueReply r x).flt = s.flt := by
  unfold State.queueReply; simp only; split <;> simp
@[simp] theorem State.queueReply_sec (r : Nat) (x : ReplyRec) : (s.queueReply r x).sec = s.sec := by
  unfold State.queueReply; simp only; split <;> simp

@[simp] theorem State.postHeld_pending (r : Nat) : (s.postHeld r).pending = s.pending := by
  unfold State.postHeld; simp only; split <;> (try split) <;> simp
@[simp] theorem State.postHeld_fresh (r : Nat) : (s.postHeld r).fresh = s.fresh := by
  unfold State.postHeld; simp only; split <;> (try split) <;> simp
@[simp] theorem State.postHeld_acc (r : Nat) : (s.postHeld r).acc = s.acc := by
  unfold State.postHeld; simp only; split <;> (try split) <;> simp
@[simp] theorem State.postHeld_pendW (r : Nat) : (s.postHeld r).pendW = s.pendW := by
  unfold State.postHeld; simp only; split <;> (try split) <;> simp
@[simp] theorem State.postHeld_clk (r : Nat) : (s.postHeld r).clk = s.clk := by
  unfold State.postHeld; simp only; split <;> (try split) <;> simp
@[simp] theorem State.postHeld_pwr (r : Nat) : (s.postHeld r).pwr = s.pwr := by
  unfold State.postHeld; simp only; split <;> (try split) <;> simp
@[simp] theorem State.postHeld_pins (r : Nat) : (s.postHeld r).pins = s.pins := by
  unfold State.postHeld; simp only; split <;> (try split) <;> simp
@[simp] theorem State.postHeld_tiles (r : Nat) : (s.postHeld r).tiles = s.tiles := by
  unfold State.postHeld; simp only; split <;> (try split) <;> simp
@[simp] theorem State.postHeld_engines (r : Nat) : (s.postHeld r).engines = s.engines := by
  unfold State.postHeld; simp only; split <;> (try split) <;> simp
@[simp] theorem State.postHeld_job (r : Nat) : (s.postHeld r).job = s.job := by
  unfold State.postHeld; simp only; split <;> (try split) <;> simp
@[simp] theorem State.postHeld_exch (r : Nat) : (s.postHeld r).exch = s.exch := by
  unfold State.postHeld; simp only; split <;> (try split) <;> simp
@[simp] theorem State.postHeld_ports (r : Nat) : (s.postHeld r).ports = s.ports := by
  unfold State.postHeld; simp only; split <;> (try split) <;> simp
@[simp] theorem State.postHeld_torus (r : Nat) : (s.postHeld r).torus = s.torus := by
  unfold State.postHeld; simp only; split <;> (try split) <;> simp
@[simp] theorem State.postHeld_flt (r : Nat) : (s.postHeld r).flt = s.flt := by
  unfold State.postHeld; simp only; split <;> (try split) <;> simp
@[simp] theorem State.postHeld_sec (r : Nat) : (s.postHeld r).sec = s.sec := by
  unfold State.postHeld; simp only; split <;> (try split) <;> simp

@[simp] theorem State.countReply_pending (st : Nat) : (s.countReply st).pending = s.pending := by
  unfold State.countReply; split <;> (try split) <;> simp
@[simp] theorem State.countReply_fresh (st : Nat) : (s.countReply st).fresh = s.fresh := by
  unfold State.countReply; split <;> (try split) <;> simp
@[simp] theorem State.countReply_acc (st : Nat) : (s.countReply st).acc = s.acc := by
  unfold State.countReply; split <;> (try split) <;> simp
@[simp] theorem State.countReply_pendW (st : Nat) : (s.countReply st).pendW = s.pendW := by
  unfold State.countReply; split <;> (try split) <;> simp
@[simp] theorem State.countReply_clk (st : Nat) : (s.countReply st).clk = s.clk := by
  unfold State.countReply; split <;> (try split) <;> simp
@[simp] theorem State.countReply_pwr (st : Nat) : (s.countReply st).pwr = s.pwr := by
  unfold State.countReply; split <;> (try split) <;> simp
@[simp] theorem State.countReply_pins (st : Nat) : (s.countReply st).pins = s.pins := by
  unfold State.countReply; split <;> (try split) <;> simp
@[simp] theorem State.countReply_tiles (st : Nat) : (s.countReply st).tiles = s.tiles := by
  unfold State.countReply; split <;> (try split) <;> simp
@[simp] theorem State.countReply_engines (st : Nat) : (s.countReply st).engines = s.engines := by
  unfold State.countReply; split <;> (try split) <;> simp
@[simp] theorem State.countReply_job (st : Nat) : (s.countReply st).job = s.job := by
  unfold State.countReply; split <;> (try split) <;> simp
@[simp] theorem State.countReply_exch (st : Nat) : (s.countReply st).exch = s.exch := by
  unfold State.countReply; split <;> (try split) <;> simp
@[simp] theorem State.countReply_ports (st : Nat) : (s.countReply st).ports = s.ports := by
  unfold State.countReply; split <;> (try split) <;> simp
@[simp] theorem State.countReply_torus (st : Nat) : (s.countReply st).torus = s.torus := by
  unfold State.countReply; split <;> (try split) <;> simp
@[simp] theorem State.countReply_flt (st : Nat) : (s.countReply st).flt = s.flt := by
  unfold State.countReply; split <;> (try split) <;> simp
@[simp] theorem State.countReply_sec (st : Nat) : (s.countReply st).sec = s.sec := by
  unfold State.countReply; split <;> (try split) <;> simp

@[simp] theorem State.writeResult_pending (h : Hdr) (bs : List Byte) : (s.writeResult h bs).pending = s.pending := by
  unfold State.writeResult; split <;> (try split) <;> simp
@[simp] theorem State.writeResult_fresh (h : Hdr) (bs : List Byte) : (s.writeResult h bs).fresh = s.fresh := by
  unfold State.writeResult; split <;> (try split) <;> simp
@[simp] theorem State.writeResult_acc (h : Hdr) (bs : List Byte) : (s.writeResult h bs).acc = s.acc := by
  unfold State.writeResult; split <;> (try split) <;> simp
@[simp] theorem State.writeResult_pendW (h : Hdr) (bs : List Byte) : (s.writeResult h bs).pendW = s.pendW := by
  unfold State.writeResult; split <;> (try split) <;> simp
@[simp] theorem State.writeResult_clk (h : Hdr) (bs : List Byte) : (s.writeResult h bs).clk = s.clk := by
  unfold State.writeResult; split <;> (try split) <;> simp
@[simp] theorem State.writeResult_pwr (h : Hdr) (bs : List Byte) : (s.writeResult h bs).pwr = s.pwr := by
  unfold State.writeResult; split <;> (try split) <;> simp
@[simp] theorem State.writeResult_pins (h : Hdr) (bs : List Byte) : (s.writeResult h bs).pins = s.pins := by
  unfold State.writeResult; split <;> (try split) <;> simp
@[simp] theorem State.writeResult_tiles (h : Hdr) (bs : List Byte) : (s.writeResult h bs).tiles = s.tiles := by
  unfold State.writeResult; split <;> (try split) <;> simp
@[simp] theorem State.writeResult_engines (h : Hdr) (bs : List Byte) : (s.writeResult h bs).engines = s.engines := by
  unfold State.writeResult; split <;> (try split) <;> simp
@[simp] theorem State.writeResult_job (h : Hdr) (bs : List Byte) : (s.writeResult h bs).job = s.job := by
  unfold State.writeResult; split <;> (try split) <;> simp
@[simp] theorem State.writeResult_exch (h : Hdr) (bs : List Byte) : (s.writeResult h bs).exch = s.exch := by
  unfold State.writeResult; split <;> (try split) <;> simp
@[simp] theorem State.writeResult_ports (h : Hdr) (bs : List Byte) : (s.writeResult h bs).ports = s.ports := by
  unfold State.writeResult; split <;> (try split) <;> simp
@[simp] theorem State.writeResult_torus (h : Hdr) (bs : List Byte) : (s.writeResult h bs).torus = s.torus := by
  unfold State.writeResult; split <;> (try split) <;> simp
@[simp] theorem State.writeResult_flt (h : Hdr) (bs : List Byte) : (s.writeResult h bs).flt = s.flt := by
  unfold State.writeResult; split <;> (try split) <;> simp
@[simp] theorem State.writeResult_sec (h : Hdr) (bs : List Byte) : (s.writeResult h bs).sec = s.sec := by
  unfold State.writeResult; split <;> (try split) <;> simp

@[simp] theorem State.retire_pending (h : Hdr) (a : Answer) : (s.retire h a).pending = s.pending := by
  unfold State.retire; simp only; split <;> simp
@[simp] theorem State.retire_fresh (h : Hdr) (a : Answer) : (s.retire h a).fresh = s.fresh := by
  unfold State.retire; simp only; split <;> simp
@[simp] theorem State.retire_acc (h : Hdr) (a : Answer) : (s.retire h a).acc = s.acc := by
  unfold State.retire; simp only; split <;> simp
@[simp] theorem State.retire_pendW (h : Hdr) (a : Answer) : (s.retire h a).pendW = s.pendW := by
  unfold State.retire; simp only; split <;> simp
@[simp] theorem State.retire_clk (h : Hdr) (a : Answer) : (s.retire h a).clk = s.clk := by
  unfold State.retire; simp only; split <;> simp
@[simp] theorem State.retire_pwr (h : Hdr) (a : Answer) : (s.retire h a).pwr = s.pwr := by
  unfold State.retire; simp only; split <;> simp
@[simp] theorem State.retire_pins (h : Hdr) (a : Answer) : (s.retire h a).pins = s.pins := by
  unfold State.retire; simp only; split <;> simp
@[simp] theorem State.retire_tiles (h : Hdr) (a : Answer) : (s.retire h a).tiles = s.tiles := by
  unfold State.retire; simp only; split <;> simp
@[simp] theorem State.retire_engines (h : Hdr) (a : Answer) : (s.retire h a).engines = s.engines := by
  unfold State.retire; simp only; split <;> simp
@[simp] theorem State.retire_job (h : Hdr) (a : Answer) : (s.retire h a).job = s.job := by
  unfold State.retire; simp only; split <;> simp
@[simp] theorem State.retire_exch (h : Hdr) (a : Answer) : (s.retire h a).exch = s.exch := by
  unfold State.retire; simp only; split <;> simp
@[simp] theorem State.retire_ports (h : Hdr) (a : Answer) : (s.retire h a).ports = s.ports := by
  unfold State.retire; simp only; split <;> simp
@[simp] theorem State.retire_torus (h : Hdr) (a : Answer) : (s.retire h a).torus = s.torus := by
  unfold State.retire; simp only; split <;> simp
@[simp] theorem State.retire_flt (h : Hdr) (a : Answer) : (s.retire h a).flt = s.flt := by
  unfold State.retire; simp only; split <;> simp
@[simp] theorem State.retire_sec (h : Hdr) (a : Answer) : (s.retire h a).sec = s.sec := by
  unfold State.retire; simp only; split <;> simp

@[simp] theorem State.answer_pending (h : Hdr) (a : Answer) : (s.answer h a).pending = s.pending := by
  unfold State.answer; simp
@[simp] theorem State.answer_fresh (h : Hdr) (a : Answer) : (s.answer h a).fresh = s.fresh := by
  unfold State.answer; simp
@[simp] theorem State.answer_acc (h : Hdr) (a : Answer) : (s.answer h a).acc = s.acc := by
  unfold State.answer; simp
@[simp] theorem State.answer_pendW (h : Hdr) (a : Answer) : (s.answer h a).pendW = s.pendW := by
  unfold State.answer; simp
@[simp] theorem State.answer_clk (h : Hdr) (a : Answer) : (s.answer h a).clk = s.clk := by
  unfold State.answer; simp
@[simp] theorem State.answer_pwr (h : Hdr) (a : Answer) : (s.answer h a).pwr = s.pwr := by
  unfold State.answer; simp
@[simp] theorem State.answer_pins (h : Hdr) (a : Answer) : (s.answer h a).pins = s.pins := by
  unfold State.answer; simp
@[simp] theorem State.answer_tiles (h : Hdr) (a : Answer) : (s.answer h a).tiles = s.tiles := by
  unfold State.answer; simp
@[simp] theorem State.answer_engines (h : Hdr) (a : Answer) : (s.answer h a).engines = s.engines := by
  unfold State.answer; simp
@[simp] theorem State.answer_job (h : Hdr) (a : Answer) : (s.answer h a).job = s.job := by
  unfold State.answer; simp
@[simp] theorem State.answer_exch (h : Hdr) (a : Answer) : (s.answer h a).exch = s.exch := by
  unfold State.answer; simp
@[simp] theorem State.answer_ports (h : Hdr) (a : Answer) : (s.answer h a).ports = s.ports := by
  unfold State.answer; simp
@[simp] theorem State.answer_torus (h : Hdr) (a : Answer) : (s.answer h a).torus = s.torus := by
  unfold State.answer; simp
@[simp] theorem State.answer_flt (h : Hdr) (a : Answer) : (s.answer h a).flt = s.flt := by
  unfold State.answer; simp
@[simp] theorem State.answer_sec (h : Hdr) (a : Answer) : (s.answer h a).sec = s.sec := by
  unfold State.answer; simp

@[simp] theorem State.interim_pending (h : Hdr) : (s.interim h).pending = s.pending := by
  unfold State.interim; simp
@[simp] theorem State.interim_fresh (h : Hdr) : (s.interim h).fresh = s.fresh := by
  unfold State.interim; simp
@[simp] theorem State.interim_acc (h : Hdr) : (s.interim h).acc = s.acc := by
  unfold State.interim; simp
@[simp] theorem State.interim_pendW (h : Hdr) : (s.interim h).pendW = s.pendW := by
  unfold State.interim; simp
@[simp] theorem State.interim_clk (h : Hdr) : (s.interim h).clk = s.clk := by
  unfold State.interim; simp
@[simp] theorem State.interim_pwr (h : Hdr) : (s.interim h).pwr = s.pwr := by
  unfold State.interim; simp
@[simp] theorem State.interim_pins (h : Hdr) : (s.interim h).pins = s.pins := by
  unfold State.interim; simp
@[simp] theorem State.interim_tiles (h : Hdr) : (s.interim h).tiles = s.tiles := by
  unfold State.interim; simp
@[simp] theorem State.interim_engines (h : Hdr) : (s.interim h).engines = s.engines := by
  unfold State.interim; simp
@[simp] theorem State.interim_job (h : Hdr) : (s.interim h).job = s.job := by
  unfold State.interim; simp
@[simp] theorem State.interim_exch (h : Hdr) : (s.interim h).exch = s.exch := by
  unfold State.interim; simp
@[simp] theorem State.interim_ports (h : Hdr) : (s.interim h).ports = s.ports := by
  unfold State.interim; simp
@[simp] theorem State.interim_torus (h : Hdr) : (s.interim h).torus = s.torus := by
  unfold State.interim; simp
@[simp] theorem State.interim_flt (h : Hdr) : (s.interim h).flt = s.flt := by
  unfold State.interim; simp
@[simp] theorem State.interim_sec (h : Hdr) : (s.interim h).sec = s.sec := by
  unfold State.interim; simp

@[simp] theorem State.checkJournal_pending  : (s.checkJournal).pending = s.pending := by
  unfold State.checkJournal; split <;> rfl
@[simp] theorem State.checkJournal_fresh  : (s.checkJournal).fresh = s.fresh := by
  unfold State.checkJournal; split <;> rfl
@[simp] theorem State.checkJournal_acc  : (s.checkJournal).acc = s.acc := by
  unfold State.checkJournal; split <;> rfl
@[simp] theorem State.checkJournal_pendW  : (s.checkJournal).pendW = s.pendW := by
  unfold State.checkJournal; split <;> rfl
@[simp] theorem State.checkJournal_clk  : (s.checkJournal).clk = s.clk := by
  unfold State.checkJournal; split <;> rfl
@[simp] theorem State.checkJournal_pwr  : (s.checkJournal).pwr = s.pwr := by
  unfold State.checkJournal; split <;> rfl
@[simp] theorem State.checkJournal_pins  : (s.checkJournal).pins = s.pins := by
  unfold State.checkJournal; split <;> rfl
@[simp] theorem State.checkJournal_tiles  : (s.checkJournal).tiles = s.tiles := by
  unfold State.checkJournal; split <;> rfl
@[simp] theorem State.checkJournal_engines  : (s.checkJournal).engines = s.engines := by
  unfold State.checkJournal; split <;> rfl
@[simp] theorem State.checkJournal_job  : (s.checkJournal).job = s.job := by
  unfold State.checkJournal; split <;> rfl
@[simp] theorem State.checkJournal_exch  : (s.checkJournal).exch = s.exch := by
  unfold State.checkJournal; split <;> rfl
@[simp] theorem State.checkJournal_ports  : (s.checkJournal).ports = s.ports := by
  unfold State.checkJournal; split <;> rfl
@[simp] theorem State.checkJournal_torus  : (s.checkJournal).torus = s.torus := by
  unfold State.checkJournal; split <;> rfl
@[simp] theorem State.checkJournal_flt  : (s.checkJournal).flt = s.flt := by
  unfold State.checkJournal; split <;> rfl
@[simp] theorem State.checkJournal_sec  : (s.checkJournal).sec = s.sec := by
  unfold State.checkJournal; split <;> rfl

@[simp] theorem State.stopRing_pending (r c : Nat) : (s.stopRing r c).pending = s.pending := by
  unfold State.stopRing; simp
@[simp] theorem State.stopRing_fresh (r c : Nat) : (s.stopRing r c).fresh = s.fresh := by
  unfold State.stopRing; simp
@[simp] theorem State.stopRing_acc (r c : Nat) : (s.stopRing r c).acc = s.acc := by
  unfold State.stopRing; simp
@[simp] theorem State.stopRing_pendW (r c : Nat) : (s.stopRing r c).pendW = s.pendW := by
  unfold State.stopRing; simp
@[simp] theorem State.stopRing_clk (r c : Nat) : (s.stopRing r c).clk = s.clk := by
  unfold State.stopRing; simp
@[simp] theorem State.stopRing_pwr (r c : Nat) : (s.stopRing r c).pwr = s.pwr := by
  unfold State.stopRing; simp
@[simp] theorem State.stopRing_pins (r c : Nat) : (s.stopRing r c).pins = s.pins := by
  unfold State.stopRing; simp
@[simp] theorem State.stopRing_tiles (r c : Nat) : (s.stopRing r c).tiles = s.tiles := by
  unfold State.stopRing; simp
@[simp] theorem State.stopRing_engines (r c : Nat) : (s.stopRing r c).engines = s.engines := by
  unfold State.stopRing; simp
@[simp] theorem State.stopRing_job (r c : Nat) : (s.stopRing r c).job = s.job := by
  unfold State.stopRing; simp
@[simp] theorem State.stopRing_exch (r c : Nat) : (s.stopRing r c).exch = s.exch := by
  unfold State.stopRing; simp
@[simp] theorem State.stopRing_ports (r c : Nat) : (s.stopRing r c).ports = s.ports := by
  unfold State.stopRing; simp
@[simp] theorem State.stopRing_torus (r c : Nat) : (s.stopRing r c).torus = s.torus := by
  unfold State.stopRing; simp
@[simp] theorem State.stopRing_flt (r c : Nat) : (s.stopRing r c).flt = s.flt := by
  unfold State.stopRing; simp
@[simp] theorem State.stopRing_sec (r c : Nat) : (s.stopRing r c).sec = s.sec := by
  unfold State.stopRing; simp

@[simp] theorem State.latchRing_pending (r : Nat) : (s.latchRing r).pending = s.pending := by
  unfold State.latchRing; simp
@[simp] theorem State.latchRing_fresh (r : Nat) : (s.latchRing r).fresh = s.fresh := by
  unfold State.latchRing; simp
@[simp] theorem State.latchRing_acc (r : Nat) : (s.latchRing r).acc = s.acc := by
  unfold State.latchRing; simp
@[simp] theorem State.latchRing_pendW (r : Nat) : (s.latchRing r).pendW = s.pendW := by
  unfold State.latchRing; simp
@[simp] theorem State.latchRing_clk (r : Nat) : (s.latchRing r).clk = s.clk := by
  unfold State.latchRing; simp
@[simp] theorem State.latchRing_pwr (r : Nat) : (s.latchRing r).pwr = s.pwr := by
  unfold State.latchRing; simp
@[simp] theorem State.latchRing_pins (r : Nat) : (s.latchRing r).pins = s.pins := by
  unfold State.latchRing; simp
@[simp] theorem State.latchRing_tiles (r : Nat) : (s.latchRing r).tiles = s.tiles := by
  unfold State.latchRing; simp
@[simp] theorem State.latchRing_engines (r : Nat) : (s.latchRing r).engines = s.engines := by
  unfold State.latchRing; simp
@[simp] theorem State.latchRing_job (r : Nat) : (s.latchRing r).job = s.job := by
  unfold State.latchRing; simp
@[simp] theorem State.latchRing_exch (r : Nat) : (s.latchRing r).exch = s.exch := by
  unfold State.latchRing; simp
@[simp] theorem State.latchRing_ports (r : Nat) : (s.latchRing r).ports = s.ports := by
  unfold State.latchRing; simp
@[simp] theorem State.latchRing_torus (r : Nat) : (s.latchRing r).torus = s.torus := by
  unfold State.latchRing; simp
@[simp] theorem State.latchRing_flt (r : Nat) : (s.latchRing r).flt = s.flt := by
  unfold State.latchRing; simp
@[simp] theorem State.latchRing_sec (r : Nat) : (s.latchRing r).sec = s.sec := by
  unfold State.latchRing; simp

@[simp] theorem State.rereadLine_pending (r p c : Nat) : (s.rereadLine r p c).pending = s.pending := by
  unfold State.rereadLine; simp only; split <;> simp
@[simp] theorem State.rereadLine_fresh (r p c : Nat) : (s.rereadLine r p c).fresh = s.fresh := by
  unfold State.rereadLine; simp only; split <;> simp
@[simp] theorem State.rereadLine_acc (r p c : Nat) : (s.rereadLine r p c).acc = s.acc := by
  unfold State.rereadLine; simp only; split <;> simp
@[simp] theorem State.rereadLine_pendW (r p c : Nat) : (s.rereadLine r p c).pendW = s.pendW := by
  unfold State.rereadLine; simp only; split <;> simp
@[simp] theorem State.rereadLine_clk (r p c : Nat) : (s.rereadLine r p c).clk = s.clk := by
  unfold State.rereadLine; simp only; split <;> simp
@[simp] theorem State.rereadLine_pwr (r p c : Nat) : (s.rereadLine r p c).pwr = s.pwr := by
  unfold State.rereadLine; simp only; split <;> simp
@[simp] theorem State.rereadLine_pins (r p c : Nat) : (s.rereadLine r p c).pins = s.pins := by
  unfold State.rereadLine; simp only; split <;> simp
@[simp] theorem State.rereadLine_tiles (r p c : Nat) : (s.rereadLine r p c).tiles = s.tiles := by
  unfold State.rereadLine; simp only; split <;> simp
@[simp] theorem State.rereadLine_engines (r p c : Nat) : (s.rereadLine r p c).engines = s.engines := by
  unfold State.rereadLine; simp only; split <;> simp
@[simp] theorem State.rereadLine_job (r p c : Nat) : (s.rereadLine r p c).job = s.job := by
  unfold State.rereadLine; simp only; split <;> simp
@[simp] theorem State.rereadLine_exch (r p c : Nat) : (s.rereadLine r p c).exch = s.exch := by
  unfold State.rereadLine; simp only; split <;> simp
@[simp] theorem State.rereadLine_ports (r p c : Nat) : (s.rereadLine r p c).ports = s.ports := by
  unfold State.rereadLine; simp only; split <;> simp
@[simp] theorem State.rereadLine_torus (r p c : Nat) : (s.rereadLine r p c).torus = s.torus := by
  unfold State.rereadLine; simp only; split <;> simp
@[simp] theorem State.rereadLine_flt (r p c : Nat) : (s.rereadLine r p c).flt = s.flt := by
  unfold State.rereadLine; simp only; split <;> simp
@[simp] theorem State.rereadLine_sec (r p c : Nat) : (s.rereadLine r p c).sec = s.sec := by
  unfold State.rereadLine; simp only; split <;> simp

@[simp] theorem State.takePacket_pending (r : Nat) : (s.takePacket r).pending = s.pending := by
  unfold State.takePacket; simp
@[simp] theorem State.takePacket_fresh (r : Nat) : (s.takePacket r).fresh = s.fresh := by
  unfold State.takePacket; simp
@[simp] theorem State.takePacket_acc (r : Nat) : (s.takePacket r).acc = s.acc := by
  unfold State.takePacket; simp
@[simp] theorem State.takePacket_pendW (r : Nat) : (s.takePacket r).pendW = s.pendW := by
  unfold State.takePacket; simp
@[simp] theorem State.takePacket_clk (r : Nat) : (s.takePacket r).clk = s.clk := by
  unfold State.takePacket; simp
@[simp] theorem State.takePacket_pwr (r : Nat) : (s.takePacket r).pwr = s.pwr := by
  unfold State.takePacket; simp
@[simp] theorem State.takePacket_pins (r : Nat) : (s.takePacket r).pins = s.pins := by
  unfold State.takePacket; simp
@[simp] theorem State.takePacket_tiles (r : Nat) : (s.takePacket r).tiles = s.tiles := by
  unfold State.takePacket; simp
@[simp] theorem State.takePacket_engines (r : Nat) : (s.takePacket r).engines = s.engines := by
  unfold State.takePacket; simp
@[simp] theorem State.takePacket_job (r : Nat) : (s.takePacket r).job = s.job := by
  unfold State.takePacket; simp
@[simp] theorem State.takePacket_exch (r : Nat) : (s.takePacket r).exch = s.exch := by
  unfold State.takePacket; simp
@[simp] theorem State.takePacket_ports (r : Nat) : (s.takePacket r).ports = s.ports := by
  unfold State.takePacket; simp
@[simp] theorem State.takePacket_torus (r : Nat) : (s.takePacket r).torus = s.torus := by
  unfold State.takePacket; simp
@[simp] theorem State.takePacket_flt (r : Nat) : (s.takePacket r).flt = s.flt := by
  unfold State.takePacket; simp
@[simp] theorem State.takePacket_sec (r : Nat) : (s.takePacket r).sec = s.sec := by
  unfold State.takePacket; simp

@[simp] theorem State.journal_pending (h : Hdr) (op : HostOp) : (s.journal h op).pending = s.pending := by
  unfold State.journal; split <;> simp
@[simp] theorem State.journal_fresh (h : Hdr) (op : HostOp) : (s.journal h op).fresh = s.fresh := by
  unfold State.journal; split <;> simp
@[simp] theorem State.journal_acc (h : Hdr) (op : HostOp) : (s.journal h op).acc = s.acc := by
  unfold State.journal; split <;> simp
@[simp] theorem State.journal_pendW (h : Hdr) (op : HostOp) : (s.journal h op).pendW = s.pendW := by
  unfold State.journal; split <;> simp
@[simp] theorem State.journal_clk (h : Hdr) (op : HostOp) : (s.journal h op).clk = s.clk := by
  unfold State.journal; split <;> simp
@[simp] theorem State.journal_pwr (h : Hdr) (op : HostOp) : (s.journal h op).pwr = s.pwr := by
  unfold State.journal; split <;> simp
@[simp] theorem State.journal_pins (h : Hdr) (op : HostOp) : (s.journal h op).pins = s.pins := by
  unfold State.journal; split <;> simp
@[simp] theorem State.journal_tiles (h : Hdr) (op : HostOp) : (s.journal h op).tiles = s.tiles := by
  unfold State.journal; split <;> simp
@[simp] theorem State.journal_engines (h : Hdr) (op : HostOp) : (s.journal h op).engines = s.engines := by
  unfold State.journal; split <;> simp
@[simp] theorem State.journal_job (h : Hdr) (op : HostOp) : (s.journal h op).job = s.job := by
  unfold State.journal; split <;> simp
@[simp] theorem State.journal_exch (h : Hdr) (op : HostOp) : (s.journal h op).exch = s.exch := by
  unfold State.journal; split <;> simp
@[simp] theorem State.journal_ports (h : Hdr) (op : HostOp) : (s.journal h op).ports = s.ports := by
  unfold State.journal; split <;> simp
@[simp] theorem State.journal_torus (h : Hdr) (op : HostOp) : (s.journal h op).torus = s.torus := by
  unfold State.journal; split <;> simp
@[simp] theorem State.journal_flt (h : Hdr) (op : HostOp) : (s.journal h op).flt = s.flt := by
  unfold State.journal; split <;> simp
@[simp] theorem State.journal_sec (h : Hdr) (op : HostOp) : (s.journal h op).sec = s.sec := by
  unfold State.journal; split <;> simp

end

end Sys2Proof.Machine
end

