-- ==== Sys2Proof/Laws/Mem.lean ====
section
/-! SUPPORT. Laws of byte memories: a read inside what was written gives it, a read outside gives what it gave, and every
operation keeps the canonical form. -/

set_option Elab.async false

namespace Sys2Proof.Machine

/-! ### Lists of cells -/

section
variable {d v : Byte} {k n : Nat} {t u : List (Nat × Byte)}

theorem Tab.get_append_left (h : ∀ p ∈ t, p.1 < k) : Tab.get d k (t ++ u) = Tab.get d k u := by
  induction t with
  | nil => rfl
  | cons p t ih =>
    obtain ⟨j, w⟩ := p
    have h1 : j < k := h (j, w) (by simp)
    simp only [List.cons_append, Tab.get, if_neg (Nat.ne_of_lt h1)]
    exact ih (fun p hp => h p (List.mem_cons_of_mem _ hp))

theorem Tab.get_append_right (h : Tab.above k u) : Tab.get d k (t ++ u) = Tab.get d k t := by
  induction t with
  | nil => exact (Tab.get_of_above h).trans rfl
  | cons p t ih =>
    obtain ⟨j, w⟩ := p
    simp only [List.cons_append, Tab.get, ih]

theorem Tab.above_filter {f : Nat × Byte → Bool} (h : Tab.above n t) : Tab.above n (t.filter f) :=
  fun p hp => h p (List.mem_of_mem_filter hp)

theorem Tab.wf_filter {f : Nat × Byte → Bool} (h : Tab.wf d t = true) : Tab.wf d (t.filter f) = true := by
  induction t with
  | nil => rfl
  | cons p t ih =>
    obtain ⟨h1, h2, h3⟩ := Tab.wf_cons.mp h
    rw [List.filter_cons]
    split
    · exact Tab.wf_cons.mpr ⟨h1, Tab.above_filter h2, ih h3⟩
    · exact ih h3

theorem Tab.wf_append (ht : Tab.wf d t = true) (hu : Tab.wf d u = true) (h : ∀ p ∈ t, Tab.above p.1 u) :
    Tab.wf d (t ++ u) = true := by
  induction t with
  | nil => exact hu
  | cons p t ih =>
    obtain ⟨h1, h2, h3⟩ := Tab.wf_cons.mp ht
    refine Tab.wf_cons.mpr ⟨h1, ?_, ih h3 (fun q hq => h q (List.mem_cons_of_mem _ hq))⟩
    intro q hq
    rcases List.mem_append.mp hq with hq | hq
    · exact h2 q hq
    · exact h p (by simp) q hq

/-- A filter that keeps the key read keeps what it reads. -/
theorem Tab.get_filter {f : Nat × Byte → Bool} (hf : ∀ w, f (k, w) = true) :
    Tab.get d k (t.filter f) = Tab.get d k t := by
  induction t with
  | nil => rfl
  | cons p t ih =>
    obtain ⟨j, w⟩ := p
    rw [List.filter_cons]
    split
    · simp only [Tab.get, ih]
    · rename_i hn
      have hj : j ≠ k := fun e => hn (by rw [e]; exact hf w)
      simp only [Tab.get, if_neg hj, ih]

end

/-! ### The bytes a write lists -/

theorem Mem.listed_bounds {a : Nat} {vs : List Byte} : ∀ p ∈ Mem.listed a vs, a ≤ p.1 ∧ p.1 < a + vs.length := by
  induction vs generalizing a with
  | nil => intro p hp; simp [Mem.listed] at hp
  | cons v vs ih =>
    intro p hp
    unfold Mem.listed at hp
    have hs : ∀ p ∈ Mem.listed (a + 1) vs, a ≤ p.1 ∧ p.1 < a + (v :: vs).length := by
      intro p hp
      have := ih p hp
      simp only [List.length_cons]
      omega
    split at hp
    · exact hs p hp
    · rcases List.mem_cons.mp hp with rfl | hp
      · simp
      · exact hs p hp

theorem Mem.listed_wf {a : Nat} {vs : List Byte} : Tab.wf 0 (Mem.listed a vs) = true := by
  induction vs generalizing a with
  | nil => rfl
  | cons v vs ih =>
    unfold Mem.listed
    split
    · exact ih
    · rename_i hv
      exact Tab.wf_cons.mpr ⟨hv, fun p hp => (Mem.listed_bounds p hp).1, ih⟩

theorem Mem.get_listed {a i : Nat} {vs : List Byte} (h : i < vs.length) :
    Tab.get 0 (a + i) (Mem.listed a vs) = vs.getD i 0 := by
  induction vs generalizing a i with
  | nil => simp at h
  | cons v vs ih =>
    have above : Tab.above a (Mem.listed (a + 1) vs) := fun p hp => (Mem.listed_bounds p hp).1
    unfold Mem.listed
    cases i with
    | zero =>
      split
      · rename_i hv; subst hv; simpa using Tab.get_of_above above
      · simp [Tab.get]
    | succ i =>
      have hi : i < vs.length := by simpa using h
      have e : a + (i + 1) = (a + 1) + i := by omega
      split
      · rw [e, ih hi]; simp
      · rw [Tab.get, if_neg (by omega), e, ih hi]; simp

/-! ### Undefined ranges -/

theorem Mem.undefAt_append {a : Nat} {us vs : List Undef} :
    Mem.undefAt a (us ++ vs) = (Mem.undefAt a us).or (Mem.undefAt a vs) := by
  induction us with
  | nil => simp [Mem.undefAt]
  | cons u us ih =>
    simp only [List.cons_append, Mem.undefAt, ih]
    split <;> rfl

theorem Mem.undefAt_singleton {a : Nat} {u : Undef} :
    Mem.undefAt a [u] = if u.lo ≤ a ∧ a < u.hi then some u else none := rfl

/-- What is left of one range holds the addresses of the range outside [lo, hi). -/
theorem Mem.undefAt_carveOne {a lo hi : Nat} {u : Undef} :
    (Mem.undefAt a (Mem.carveOne lo hi u)).map (fun u => u.gen) =
      if (a < lo ∨ hi ≤ a) ∧ u.lo ≤ a ∧ a < u.hi then some u.gen else none := by
  have e1 : Mem.undefAt a (if u.lo < min u.hi lo then [{ lo := u.lo, hi := min u.hi lo, gen := u.gen : Undef }] else []) =
      if u.lo ≤ a ∧ a < min u.hi lo then some { lo := u.lo, hi := min u.hi lo, gen := u.gen } else none := by
    split
    · rfl
    · rw [if_neg (by omega)]; rfl
  have e2 : Mem.undefAt a (if max u.lo hi < u.hi then [{ lo := max u.lo hi, hi := u.hi, gen := u.gen : Undef }] else []) =
      if max u.lo hi ≤ a ∧ a < u.hi then some { lo := max u.lo hi, hi := u.hi, gen := u.gen } else none := by
    split
    · rfl
    · rw [if_neg (by omega)]; rfl
  unfold Mem.carveOne
  rw [Mem.undefAt_append, e1, e2]
  by_cases p1 : u.lo ≤ a ∧ a < min u.hi lo
  · rw [if_pos p1, Option.some_or, if_pos (by omega)]; rfl
  · rw [if_neg p1, Option.none_or]
    by_cases p2 : max u.lo hi ≤ a ∧ a < u.hi
    · rw [if_pos p2, if_pos (by omega)]; rfl
    · rw [if_neg p2, if_neg (by omega)]; rfl

/-- Inside the range taken out nothing is undefined. -/
theorem Mem.undefAt_carve_inside {a lo hi : Nat} {us : List Undef} (h1 : lo ≤ a) (h2 : a < hi) :
    Mem.undefAt a (Mem.carve lo hi us) = none := by
  induction us with
  | nil => rfl
  | cons u us ih =>
    have h := Mem.undefAt_carveOne (a := a) (lo := lo) (hi := hi) (u := u)
    rw [if_neg (by omega)] at h
    rw [Mem.carve, if_neg (by omega), Mem.undefAt_append, ih, Option.map_eq_none_iff.mp h]
    rfl

/-- Outside the range taken out the generation of the contents is as it was. -/
theorem Mem.undefAt_carve_outside {a lo hi : Nat} {us : List Undef} (h : a < lo ∨ hi ≤ a) :
    (Mem.undefAt a (Mem.carve lo hi us)).map (fun u => u.gen) = (Mem.undefAt a us).map (fun u => u.gen) := by
  induction us with
  | nil => rfl
  | cons u us ih =>
    have e : (Mem.undefAt a (if hi ≤ lo then [u] else Mem.carveOne lo hi u)).map (fun u => u.gen) =
        if u.lo ≤ a ∧ a < u.hi then some u.gen else none := by
      split
      · rw [Mem.undefAt_singleton]; split <;> rfl
      · rw [Mem.undefAt_carveOne]; simp only [h, true_and]
    rw [Mem.carve, Mem.undefAt_append, Mem.undefAt]
    by_cases hu : u.lo ≤ a ∧ a < u.hi
    · rw [if_pos hu] at e ⊢
      obtain ⟨x, hx, hg⟩ := Option.map_eq_some_iff.mp e
      rw [hx]
      simpa using hg
    · rw [if_neg hu] at e ⊢
      rw [Option.map_eq_none_iff.mp e]
      simpa using ih

/-- A read of a memory by the generation of undefined contents. -/
theorem Mem.read_eq (m : Mem) (a : Nat) :
    m.read a = match (Mem.undefAt a m.undef).map (fun u => u.gen) with
      | some g => Config.freeByte g a
      | none => Tab.get 0 a m.cells := by
  unfold Mem.read
  cases Mem.undefAt a m.undef <;> rfl

/-! ### Reads after writes -/

/-- A byte inside what was written reads as written. -/
theorem Mem.read_writeN_inside (m : Mem) {a i : Nat} {vs : List Byte} (h : i < vs.length) :
    (m.writeN a vs).read (a + i) = vs.getD i 0 := by
  unfold Mem.writeN Mem.read
  simp only
  rw [Mem.undefAt_carve_inside (by omega) (by omega)]
  simp only
  rw [Tab.get_append_right, Tab.get_append_left, Mem.get_listed h]
  · rintro ⟨j, w⟩ hp
    have := (List.mem_filter.mp hp).2
    simp only [decide_eq_true_eq] at this
    simp only; omega
  · rintro ⟨j, w⟩ hp
    have := (List.mem_filter.mp hp).2
    simp only [decide_eq_true_eq] at this
    simp only; omega

/-- A byte outside what was written reads as before. -/
theorem Mem.read_writeN_outside {m : Mem} {a b : Nat} {vs : List Byte}
    (h : b < a ∨ a + vs.length ≤ b) : (m.writeN a vs).read b = m.read b := by
  unfold Mem.writeN
  rw [Mem.read_eq, Mem.read_eq]
  simp only
  rw [Mem.undefAt_carve_outside h]
  split
  · rfl
  · rcases h with h | h
    · rw [Tab.get_append_right, Tab.get_append_right, Tab.get_filter (fun w => by simp [h])]
      · exact fun p hp => Nat.lt_of_lt_of_le h (Mem.listed_bounds p hp).1
      · rintro ⟨j, w⟩ hp
        have := (List.mem_filter.mp hp).2
        simp only [decide_eq_true_eq] at this
        simp only; omega
    · rw [Tab.get_append_left, Tab.get_filter (fun w => by simp [h])]
      intro p hp
      rcases List.mem_append.mp hp with hp | hp
      · have := (List.mem_filter.mp hp).2
        simp only [decide_eq_true_eq] at this
        omega
      · have := (Mem.listed_bounds p hp).2
        omega

theorem Mem.readN_succ (m : Mem) (a n : Nat) : m.readN a (n + 1) = m.read a :: m.readN (a + 1) n := rfl

theorem Mem.readN_congr {m m' : Mem} {a n : Nat} (h : ∀ i < n, m.read (a + i) = m'.read (a + i)) :
    m.readN a n = m'.readN a n := by
  induction n generalizing a with
  | zero => rfl
  | succ n ih =>
    rw [Mem.readN_succ, Mem.readN_succ, ih (fun i hi => ?_)]
    · rw [show m.read a = m'.read a from h 0 (by omega)]
    · have := h (i + 1) (by omega)
      rwa [show a + (i + 1) = a + 1 + i by omega] at this

/-- A string read where it was written. -/
theorem Mem.readN_writeN (m : Mem) (a : Nat) (vs : List Byte) : (m.writeN a vs).readN a vs.length = vs := by
  have h : ∀ (ws : List Byte) (b : Nat), (∀ i < ws.length, (m.writeN a vs).read (b + i) = ws.getD i 0) →
      (m.writeN a vs).readN b ws.length = ws := by
    intro ws
    induction ws with
    | nil => intro b _; rfl
    | cons w ws ih =>
      intro b hb
      rw [List.length_cons, Mem.readN_succ, ih (b + 1)]
      · rw [show (m.writeN a vs).read b = w by simpa using hb 0 (by simp)]
      · intro i hi
        have := hb (i + 1) (by simpa using hi)
        rw [show b + (i + 1) = b + 1 + i by omega] at this
        simpa using this
  exact h vs a (fun i hi => Mem.read_writeN_inside m hi)

/-- A string read apart from what was written. -/
theorem Mem.readN_writeN_apart {m : Mem} {a b n : Nat} {vs : List Byte}
    (h : b + n ≤ a ∨ a + vs.length ≤ b) : (m.writeN a vs).readN b n = m.readN b n :=
  Mem.readN_congr (fun _ _ => Mem.read_writeN_outside (by omega))

theorem Mem.length_readN (m : Mem) (a n : Nat) : (m.readN a n).length = n := by
  induction n generalizing a with
  | zero => rfl
  | succ n ih => simp [Mem.readN, ih]

/-! ### The canonical form -/

/-- The ranges of a list lie at or above an address. -/
def Mem.rangesAbove (n : Nat) (us : List Undef) : Prop := ∀ u ∈ us, n ≤ u.lo

theorem Mem.rangesOk_cons {u : Undef} {us : List Undef} :
    Mem.rangesOk (u :: us) = true ↔ u.lo < u.hi ∧ Mem.rangesAbove u.hi us ∧ Mem.rangesOk us = true := by
  induction us generalizing u with
  | nil => simp [Mem.rangesOk, Mem.rangesAbove]
  | cons v us ih =>
    rw [Mem.rangesOk.eq_3]
    simp only [Bool.and_eq_true, decide_eq_true_eq, ih, Mem.rangesAbove, List.mem_cons, forall_eq_or_imp]
    constructor
    · rintro ⟨⟨h1, h2⟩, h3, h4, h5⟩
      exact ⟨h1, ⟨h2, fun w hw => by have := h4 w hw; omega⟩, h3, h4, h5⟩
    · rintro ⟨h1, ⟨h2, _⟩, h3, h4, h5⟩
      exact ⟨⟨h1, h2⟩, h3, h4, h5⟩

theorem Mem.rangesOk_append {us vs : List Undef} (hu : Mem.rangesOk us = true) (hv : Mem.rangesOk vs = true)
    (h : ∀ u ∈ us, Mem.rangesAbove u.hi vs) : Mem.rangesOk (us ++ vs) = true := by
  induction us with
  | nil => exact hv
  | cons u us ih =>
    obtain ⟨h1, h2, h3⟩ := Mem.rangesOk_cons.mp hu
    refine Mem.rangesOk_cons.mpr ⟨h1, ?_, ih h3 (fun w hw => h w (List.mem_cons_of_mem _ hw))⟩
    intro w hw
    rcases List.mem_append.mp hw with hw | hw
    · exact h2 w hw
    · exact h u (by simp) w hw

theorem Mem.carveOne_bounds {lo hi : Nat} {u : Undef} :
    ∀ w ∈ Mem.carveOne lo hi u, w.lo < w.hi ∧ (w.hi ≤ lo ∨ hi ≤ w.lo) ∧ u.lo ≤ w.lo ∧ w.hi ≤ u.hi := by
  intro w hw
  unfold Mem.carveOne at hw
  rcases List.mem_append.mp hw with hw | hw
  · split at hw
    · rename_i h
      simp only [List.mem_singleton] at hw
      subst hw
      exact ⟨h, Or.inl (Nat.min_le_right _ _), Nat.le_refl _, Nat.min_le_left _ _⟩
    · simp at hw
  · split at hw
    · rename_i h
      simp only [List.mem_singleton] at hw
      subst hw
      exact ⟨h, Or.inr (Nat.le_max_right _ _), Nat.le_max_left _ _, Nat.le_refl _⟩
    · simp at hw

/-- Every range left lies in one of the ranges, and apart from what was taken out. -/
theorem Mem.carve_bounds {lo hi : Nat} {us : List Undef} :
    ∀ w ∈ Mem.carve lo hi us, (lo < hi → w.hi ≤ lo ∨ hi ≤ w.lo) ∧ ∃ u ∈ us, u.lo ≤ w.lo ∧ w.hi ≤ u.hi := by
  induction us with
  | nil => intro w hw; simp [Mem.carve] at hw
  | cons u us ih =>
    intro w hw
    rw [Mem.carve] at hw
    rcases List.mem_append.mp hw with hw | hw
    · split at hw
      · simp only [List.mem_singleton] at hw
        subst hw
        exact ⟨fun h => by omega, w, by simp, Nat.le_refl _, Nat.le_refl _⟩
      · obtain ⟨_, h1, h2, h3⟩ := Mem.carveOne_bounds w hw
        exact ⟨fun _ => h1, u, by simp, h2, h3⟩
    · obtain ⟨h1, x, hx, h2⟩ := ih w hw
      exact ⟨h1, x, List.mem_cons_of_mem _ hx, h2⟩

theorem Mem.rangesOk_carveOne {lo hi : Nat} {u : Undef} (hlh : lo ≤ hi) : Mem.rangesOk (Mem.carveOne lo hi u) = true := by
  unfold Mem.carveOne
  refine Mem.rangesOk_append ?_ ?_ ?_
  · split <;> simp_all [Mem.rangesOk]
  · split <;> simp_all [Mem.rangesOk]
  · intro w hw x hx
    split at hw <;> split at hx <;> simp_all

theorem Mem.rangesOk_carve {lo hi : Nat} {us : List Undef} (h : Mem.rangesOk us = true) :
    Mem.rangesOk (Mem.carve lo hi us) = true := by
  induction us with
  | nil => rfl
  | cons u us ih =>
    obtain ⟨h1, h2, h3⟩ := Mem.rangesOk_cons.mp h
    have above : ∀ w ∈ Mem.carve lo hi us, u.hi ≤ w.lo := by
      intro w hw
      obtain ⟨_, x, hx, hxl, _⟩ := Mem.carve_bounds w hw
      exact Nat.le_trans (h2 x hx) hxl
    rw [Mem.carve]
    split
    · refine Mem.rangesOk_append (by simp [Mem.rangesOk, h1]) (ih h3) ?_
      intro w hw x hx
      simp only [List.mem_singleton] at hw
      subst hw
      exact above x hx
    · refine Mem.rangesOk_append (Mem.rangesOk_carveOne (by omega)) (ih h3) ?_
      intro w hw x hx
      exact Nat.le_trans (Mem.carveOne_bounds w hw).2.2.2 (above x hx)

theorem Mem.undefAt_none {a : Nat} {us : List Undef} :
    Mem.undefAt a us = none ↔ ∀ u ∈ us, ¬(u.lo ≤ a ∧ a < u.hi) := by
  induction us with
  | nil => simp [Mem.undefAt]
  | cons u us ih =>
    simp only [Mem.undefAt, List.mem_cons, forall_eq_or_imp]
    split
    · rename_i h; simp [h]
    · rename_i h; simp [ih, h]

/-- The parts of a memory's canonical form. -/
theorem Mem.wf_iff {m : Mem} : m.wf = true ↔
    Tab.wf 0 m.cells = true ∧ Mem.rangesOk m.undef = true ∧ ∀ c ∈ m.cells, Mem.undefAt c.1 m.undef = none := by
  simp [Mem.wf, List.all_eq_true, and_assoc]

theorem Mem.undefAt_carve_none {a lo hi : Nat} {us : List Undef} (h : Mem.undefAt a us = none) :
    Mem.undefAt a (Mem.carve lo hi us) = none := by
  rw [Mem.undefAt_none] at h ⊢
  intro w hw
  obtain ⟨_, x, hx, h1, h2⟩ := Mem.carve_bounds w hw
  have := h x hx
  omega

/-- A write keeps the canonical form. -/
theorem Mem.wf_writeN {m : Mem} {a : Nat} {vs : List Byte} (h : m.wf = true) : (m.writeN a vs).wf = true := by
  obtain ⟨h1, h2, h3⟩ := Mem.wf_iff.mp h
  unfold Mem.writeN
  · refine Mem.wf_iff.mpr ⟨?_, Mem.rangesOk_carve h2, ?_⟩
    · refine Tab.wf_append (Tab.wf_append (Tab.wf_filter h1) Mem.listed_wf ?_) (Tab.wf_filter h1) ?_
      · intro p hp q hq
        have := (List.mem_filter.mp hp).2
        have := (Mem.listed_bounds q hq).1
        simp only [decide_eq_true_eq] at *
        omega
      · intro p hp q hq
        have hq := (List.mem_filter.mp hq).2
        simp only [decide_eq_true_eq] at hq
        rcases List.mem_append.mp hp with hp | hp
        · have := (List.mem_filter.mp hp).2
          simp only [decide_eq_true_eq] at this
          omega
        · have := (Mem.listed_bounds p hp).2
          omega
    · intro c hc
      simp only [List.mem_append] at hc
      rcases hc with (hc | hc) | hc
      · exact Mem.undefAt_carve_none (h3 c (List.mem_of_mem_filter hc))
      · have := Mem.listed_bounds c hc
        exact Mem.undefAt_carve_inside this.1 this.2
      · exact Mem.undefAt_carve_none (h3 c (List.mem_of_mem_filter hc))

theorem Mem.wf_write {m : Mem} {a : Nat} {v : Byte} (h : m.wf = true) : (m.write a v).wf = true := Mem.wf_writeN h

/-- The membership of a range added. -/
theorem Mem.mem_addRange {x w : Undef} {us : List Undef} (h : w ∈ Mem.addRange x us) :
    (w = x ∧ x.lo < x.hi) ∨ w ∈ us := by
  induction us with
  | nil =>
    unfold Mem.addRange at h
    split at h
    · rename_i hx; exact Or.inl ⟨by simpa using h, hx⟩
    · simp at h
  | cons y l ih =>
    unfold Mem.addRange at h
    split at h
    · exact Or.inr h
    · split at h
      · rcases List.mem_cons.mp h with h | h
        · exact Or.inl ⟨h, by omega⟩
        · exact Or.inr h
      · rcases List.mem_cons.mp h with rfl | h
        · simp
        · rcases ih h with h | h <;> simp [h]

theorem Mem.rangesOk_addRange {x : Undef} {us : List Undef} (h : Mem.rangesOk us = true)
    (ha : x.lo < x.hi → ∀ u ∈ us, u.hi ≤ x.lo ∨ x.hi ≤ u.lo) : Mem.rangesOk (Mem.addRange x us) = true := by
  induction us with
  | nil => unfold Mem.addRange; split <;> simp_all [Mem.rangesOk]
  | cons u us ih =>
    obtain ⟨h1, h2, h3⟩ := Mem.rangesOk_cons.mp h
    unfold Mem.addRange
    split
    · exact h
    · rename_i hx
      have hx : x.lo < x.hi := by omega
      have hu := ha hx u (by simp)
      split
      · refine Mem.rangesOk_cons.mpr ⟨hx, ?_, h⟩
        intro w hw
        rcases List.mem_cons.mp hw with rfl | hw
        · omega
        · have := h2 w hw; omega
      · refine Mem.rangesOk_cons.mpr ⟨h1, ?_, ih h3 (fun h w hw => ha h w (List.mem_cons_of_mem _ hw))⟩
        intro w hw
        rcases Mem.mem_addRange hw with ⟨rfl, _⟩ | hw
        · omega
        · exact h2 w hw

/-- Contents made undefined keep the canonical form. -/
theorem Mem.wf_forget {m : Mem} {lo hi gen : Nat} (h : m.wf = true) : (m.forget lo hi gen).wf = true := by
  obtain ⟨h1, h2, h3⟩ := Mem.wf_iff.mp h
  unfold Mem.forget
  refine Mem.wf_iff.mpr ⟨Tab.wf_filter h1, ?_, ?_⟩
  · exact Mem.rangesOk_addRange (Mem.rangesOk_carve h2) (fun hx u hu => (Mem.carve_bounds u hu).1 hx)
  · intro c hc
    have hf := (List.mem_filter.mp hc).2
    simp only [Bool.or_eq_true, decide_eq_true_eq] at hf
    rw [Mem.undefAt_none]
    intro w hw
    rcases Mem.mem_addRange hw with ⟨rfl, _⟩ | hw
    · simp only; omega
    · exact Mem.undefAt_none.mp (Mem.undefAt_carve_none (h3 c (List.mem_of_mem_filter hc))) w hw

end Sys2Proof.Machine
end

