-- ==== Sys2Proof/Laws/Served.lean ====
section
/-! SUPPORT. The path of a host packet: from its slot to its own effect. -/

set_option Elab.async false

namespace Sys2Proof.Machine

theorem State.takePacket_lastSeq (s : State) (r : Nat) : ((s.takePacket r).ring r).lastSeq = (s.ring r).lastSeq := by
  unfold State.takePacket State.statusLine State.ring State.setRing State.hostWr
  dsimp only
  by_cases h : r < s.hostIf.rings.length
  · rw [getD_setAt_same h]
  · rw [getD_setAt_out (Nat.le_of_not_lt h)]

theorem State.takePacket_journal (s : State) (r : Nat) : (s.takePacket r).hostIf.journal = s.hostIf.journal := rfl
theorem State.takePacket_wm (s : State) (r : Nat) : (s.takePacket r).hostIf.wm = s.hostIf.wm := rfl
theorem State.takePacket_cmds (s : State) (r : Nat) : (s.takePacket r).hostIf.cmds = s.hostIf.cmds := rfl
theorem State.journal_cmds (s : State) (h : Hdr) (op : HostOp) : (s.journal h op).hostIf.cmds = s.hostIf.cmds := by
  unfold State.journal; split <;> rfl

theorem State.takePacket_duplicate (s : State) (r : Nat) (h : Hdr) : (s.takePacket r).duplicate h = s.duplicate h := rfl

/-- A packet whose header no check refuses is a packet: its opcode is its command's. -/
theorem isPacket_of_header {h : Hdr} {op : HostOp} (e : headerRefusal h op = none) : isPacket h op = true := by
  by_cases hp : h.opcode = HostOp.opcode op
  · simp [isPacket, hp]
  · simp [headerRefusal, hp] at e

/-- An accepted packet runs acceptance. -/
theorem Accepted.submit {s : State} {h : Hdr} {op : HostOp} (a : Accepted s h op) :
    s.submit h op = (s.takePacket h.ring).accept h op := by
  unfold State.submit State.receive
  rw [a.reads, a.turn, a.slot, a.header, isPacket_of_header a.header]
  simp only [Bool.true_and, decide_true, if_true, Bool.false_eq_true, if_false]
  rcases a.order with h0 | ⟨h1, h2⟩
  · rw [if_pos h0]
  · by_cases h0 : h.seq = 0
    · rw [if_pos h0]
    · rw [if_neg h0, State.takePacket_duplicate, h1]
      simp only [State.takePacket_lastSeq]
      rw [if_neg (by omega)]

theorem setAt_last {α : Type} (l : List α) (a b : α) : setAt (l ++ [a]) l.length b = l ++ [b] := by
  induction l with
  | nil => rfl
  | cons c t ih => simp [setAt, ih]

theorem State.kept_hdr (s : State) (h : Hdr) (op : HostOp) : (s.kept h op).hdr = h := by cases op <;> rfl
theorem State.kept_op (s : State) (h : Hdr) (op : HostOp) : (s.kept h op).op = op := by cases op <;> rfl
theorem State.kept_started (s : State) (h : Hdr) (op : HostOp) : (s.kept h op).started = false := by cases op <;> rfl

/-- A packet served at once runs its own effect. -/
theorem Served.submit {s : State} {h : Hdr} {op : HostOp} (v : Served s h op) :
    s.submit h op =
      ((s.begun h op).begin { s.kept h op with started := true } (s.lockedFor h op)).checkJournal := by
  rw [v.toAccepted.submit]
  have hc : ((s.takePacket h.ring).journal h op).hostIf.cmds = s.hostIf.cmds := by
    rw [State.journal_cmds, State.takePacket_cmds]
  have e4 := v.stays
  have hm := v.may
  have hk := State.kept_hdr s h op
  have ho := State.kept_op s h op
  have hs := State.kept_started s h op
  unfold State.accept
  simp only [v.early, Bool.false_eq_true, if_false]
  have ha : ∀ x : State, x = ({(s.takePacket h.ring).journal h op with hostIf := {((s.takePacket h.ring).journal h op).hostIf with
      cmds := ((s.takePacket h.ring).journal h op).hostIf.cmds ++ [{ hdr := h, op := op }]}} : State) →
      x.atAcceptance h op = s.accepted h op := by
    intro x hx; subst hx; rfl
  rw [ha _ rfl]
  simp only [hc, e4, List.length_append, List.length_cons, List.length_nil, if_true]
  congr 1
  unfold State.startAt
  rw [e4]
  simp only [Nat.zero_add, Nat.add_sub_cancel, List.getElem?_concat_length, hs, Bool.false_eq_true, if_false]
  rw [if_pos hm, setAt_last]
  have hb : ({s.accepted h op with hostIf := {(s.accepted h op).hostIf with
      cmds := s.hostIf.cmds ++ [{ s.kept h op with started := true }]}} : State) = s.begun h op := rfl
  rw [hb, List.take_left]
  unfold State.startCmd
  simp only [hk, ho, v.fields, v.room, Bool.false_eq_true, if_false]
  rw [if_neg]
  · rfl
  · rcases v.named with n | n <;> simp [n]

/-- The conditions of `Served` as one computation. -/
def servedCheck (s : State) (h : Hdr) (op : HostOp) : Bool :=
  s.reads && decide (s.nextRing = some h.ring) && !h.slotFail && decide (headerRefusal h op = none) &&
  (decide (h.seq = 0) || (decide (s.duplicate h = none) && decide ((s.ring h.ring).lastSeq < h.seq))) && !h.early &&
  decide ((s.accepted h op).hostIf.cmds = s.hostIf.cmds ++ [s.kept h op]) &&
  mayStart (s.hostIf.cmds ++ [s.kept h op]) s.hostIf.cmds.length (s.kept h op) &&
  !HostOp.badField op &&
  decide ((s.begun h op).resultRefusal h (HostOp.resultLen op + HostOp.recordLen op h) = none) &&
  (!HostOp.usesProf op || (s.begun h op).profNamed h.prof)

theorem served_of_check {s : State} {h : Hdr} {op : HostOp} (c : servedCheck s h op = true) : Served s h op := by
  unfold servedCheck at c
  simp only [Bool.and_eq_true, Bool.or_eq_true, Bool.not_eq_true', decide_eq_true_eq] at c
  obtain ⟨⟨⟨⟨⟨⟨⟨⟨⟨⟨c1, c2⟩, c3⟩, c4⟩, c5⟩, c6⟩, c7⟩, c8⟩, c9⟩, c10⟩, c11⟩ := c
  exact { reads := c1, turn := c2, slot := c3, header := c4, order := c5, early := c6, stays := c7, may := c8,
          fields := c9, room := c10, named := c11 }

end Sys2Proof.Machine
end

