-- ==== Sys2Proof/Tests/Slice0.lean ====
section
/-! SUPPORT. The model's own tests: the operand checks refuse what does not fit, results the spec states, and for every
statement with hypotheses a state and operands that meet them, clause by clause. -/

set_option Elab.async false

namespace Sys2Proof.Tests
open Sys2Proof Sys2Proof.Machine

/-! ### Helpers -/

/-- A package that runs, its ring 0 with one packet to read. -/
def base : State :=
  { State.reset with
    hostIf := { State.reset.hostIf with
      ready := true
      rings := ({ rRun := true, prodSeen := 1, lCr := 0x10000, lCq := 0x20000, lRl := 0x30000, lSl := 0x30040 } : Ring) ::
        List.replicate 15 {} }
    clk := { State.reset.clk with phase := .run, ashOut := true, corePll := true, row := .done }
    pwr := { State.reset.pwr with rails := allRails, regs := true, clamps := false, fns := List.replicate 15 { state := .on } } }

/-- An image with given parts, and a binding. -/
def img0 : Image := {}
def bound0 : Bound := {}

/-- `base` with an image loaded, and bound. -/
def loaded : State := { base with job := { base.job with img := some img0 } }
def bound : State := { base with job := { base.job with img := some img0, bound := some bound0 } }

/-- The plain header of a command. -/
def hd (op : HostOp) : Hdr := { opcode := HostOp.opcode op, plen := HostOp.plen op }

/-- The next state of a command; the state itself when there is none. -/
def nx (c : Instr) (s : State) : State := match exec c s with | .next t => t | _ => s

theorem ok_exists {ε α : Type} {x : Except ε α} (h : x.toBool = true) : ∃ a, x = .ok a := by
  cases x with
  | ok a => exact ⟨a, rfl⟩
  | error e => cases h

theorem error_exists {ε α : Type} {x : Except ε α} (h : x.toBool = false) : ∃ e, x = .error e := by
  cases x with
  | ok a => cases h
  | error e => exact ⟨e, rfl⟩

theorem some_exists {α : Type} {x : Option α} (h : x.isSome = true) : ∃ a, x = some a := by
  cases x with
  | some a => exact ⟨a, rfl⟩
  | none => cases h

/-- The little-endian bytes of a list of fields, each a width in bytes and a value. -/
def fields (l : List (Nat × Nat)) : List Byte := l.flatMap (fun p => toLe p.1 p.2)

/-! ### Operand checks: an operand that does not fit its field is refused, one that fits is not -/

theorem test_wf_ring : Instr.wf (.ringEnable 16 0) = false ∧ Instr.wf (.ringEnable 15 0) = true := by decide
theorem test_wf_header : Instr.wf (.echo { ring := 16 } []) = false ∧ Instr.wf (.identify { seq := 2 ^ 64 }) = false ∧
    Instr.wf (.identify { resAddr := 2 ^ 64 }) = false ∧ Instr.wf (.identify { resLen := 2 ^ 32 }) = false ∧
    Instr.wf (.identify { tag := 2 ^ 32 }) = false ∧ Instr.wf (.identify { rsvdHi := 2 ^ 24 }) = false ∧
    Instr.wf (.identify { plen := 2 ^ 32 }) = false ∧ Instr.wf (.identify { prof := 256 }) = false ∧
    Instr.wf (.identify { rsvdLo := 512 }) = false ∧ Instr.wf (.identify { opcode := 65536 }) = false ∧
    Instr.wf (.identify { ring := 15, prof := 255 }) = true := by decide +kernel
theorem test_wf_parameters : Instr.wf (.runSteps {} (2 ^ 64)) = false ∧ Instr.wf (.runSteps {} (2 ^ 64 - 1)) = true ∧
    Instr.wf (.bind {} (2 ^ 64) 0 0 1 1 1 1) = false ∧ Instr.wf (.bind {} 0 0 0 1 1 1 (2 ^ 64)) = false ∧
    Instr.wf (.loadImage {} (2 ^ 64) 0 0 {}) = false ∧ Instr.wf (.loadImage {} 0 (2 ^ 64) 0 {}) = false ∧
    Instr.wf (.loadImage {} 0 0 (2 ^ 64) {}) = false ∧ Instr.wf (.checkpoint {} (2 ^ 64) 0) = false ∧
    Instr.wf (.restore {} 0 (2 ^ 64)) = false ∧ Instr.wf (.attest {} (2 ^ 64) 0 .getVersion) = false ∧
    Instr.wf (.getParam {} 1 [2 ^ 32]) = false ∧ Instr.wf (.setParam {} 1 [(2 ^ 32, 0)]) = false ∧
    Instr.wf (.setParam {} 1 [(0, 2 ^ 64)]) = false ∧ Instr.wf (.memCopy {} 0 (2 ^ 64) 0) = false ∧
    Instr.wf (.memFill {} 0 0 (2 ^ 64)) = false ∧ Instr.wf (.testTraffic {} 0 0 0 0 0 0 (2 ^ 64) 0) = false ∧
    Instr.wf (.portCtlEnable {} (2 ^ 64) 0 0) = false ∧ Instr.wf (.powerCtlQuery {} (2 ^ 64) 0) = false ∧
    Instr.wf (.powerCtlSleep {} (2 ^ 64)) = false := by decide +kernel
theorem test_wf_lines : Instr.wf (.ringLineSnoop 0 (2 ^ 32) 0) = false ∧ Instr.wf (.ringLineSnoop 0 0 (2 ^ 32)) = false ∧
    Instr.wf (.replyPost ⟨16, false⟩) = false ∧ Instr.wf (.ringLineSnoop 15 (2 ^ 32 - 1) 0) = true := by decide +kernel
theorem test_wf_units : Instr.wf (.send 224) = false ∧ Instr.wf (.send 223) = true ∧
    Instr.wf (.productOutputTile 224 0 0 0 false) = false ∧ Instr.wf (.streamCancel 224 0) = false := by decide
theorem test_wf_slate : Instr.wf (.setvl 0 32 0 .fp32 0) = false ∧ Instr.wf (.setvl 0 0 0 .fp32 4) = false ∧
    Instr.wf (.salu 0 0 0 32 .add) = false ∧ Instr.wf (.sbnz 0 32 0) = false ∧ Instr.wf (.vmlog 0 {} 16) = false ∧
    Instr.wf (.vsel 0 { d := 32 }) = false ∧ Instr.wf (.vsel 0 { msk := 8 }) = false ∧ Instr.wf (.vcvt 0 {} 256 .fp32) = false ∧
    Instr.wf (.vl 0 { b := 32 }) = false ∧ Instr.wf (.vlseg 0 {} 1) = false ∧ Instr.wf (.vsseg 0 {} 5) = false ∧
    Instr.wf (.vlxs 0 {} 8) = false ∧ Instr.wf (.vlseg 0 {} 4) = true := by decide +kernel
theorem test_wf_engines : Instr.wf (.umberJGroup 4 false) = false ∧ Instr.wf (.arbiterDecision 392) = false ∧
    Instr.wf (.memoryRequest { port := 392 }) = false ∧ Instr.wf (.memoryRequest { cls := 16 }) = false ∧
    Instr.wf (.memoryRequest { beats := 0 }) = false ∧ Instr.wf (.memoryRequest { beats := 65 }) = false ∧
    Instr.wf (.refresh ⟨320, false⟩) = false ∧ Instr.wf (.refresh ⟨319, true⟩) = true := by decide +kernel
theorem test_wf_ports : Instr.wf (.flitSlot 8) = false ∧ Instr.wf (.lossOfSignal 0 16) = false ∧ Instr.wf (.flitSlot 7) = true ∧
    Instr.wf (.stuck 6) = false ∧ Instr.wf (.functionPowerUpDone 15) = false := by decide +kernel

/-- The block's commands carry no instruction word: the table gives no row bits. -/
theorem test_decode_none : decodeTableWord 32 0 = none ∧ base.withFetchWord 32 0 = base := ⟨rfl, rfl⟩

/-! ### Witnesses: the step and the queue -/

theorem test_witness_step : ({ base with pending := [.pldmDiscovery, .send 3] } : State).pending = .pldmDiscovery :: [.send 3] := rfl

theorem test_witness_tick : base.pending = [] ∧ base.clk.ashOut = true ∧ State.reset.pending = [] ∧
    State.reset.clk.ashOut = false := ⟨rfl, rfl, rfl, rfl⟩

theorem test_witness_keeps : exec (.syncPpsEdge false) base = .next base := rfl

theorem test_witness_wellformed : base.ok = true ∧ ∃ t, step base = .next t := by
  exact ⟨by decide +kernel, _, rfl⟩

/-! ### Witnesses: host commands -/

/-- The state in which a `SET_PARAM` of one key begins. -/
def setting : State := { base.begun (hd (.setParam 1 [(kOpReq, 2)])) (.setParam 1 [(kOpReq, 2)]) with
  job := { base.job with locked := base.lockedFor (hd (.setParam 1 [(kOpReq, 2)])) (.setParam 1 [(kOpReq, 2)]) } }

theorem test_witness_queries :
    Served base (hd (.echo [1, 2])) (.echo [1, 2]) ∧ Served base (hd .identify) .identify ∧
    Served bound (hd .stepStatus) .stepStatus ∧ bound.job.bound.isSome = true ∧
    Served base (hd (.getParam 2 [kOpReq, kOpNow])) (.getParam 2 [kOpReq, kOpNow]) ∧
    (∀ k ∈ [kOpReq, kOpNow], (keyRow k).isSome = true) ∧
    Served base (hd (.setParam 1 [(kOpReq, 2)])) (.setParam 1 [(kOpReq, 2)]) ∧
    (∃ u p, setPairs [(kOpReq, 2)] 0 setting [] = .ok (u, p)) ∧
    base.writeRefusal kOpReq 3 = none ∧ base.startRefused kOpReq 3 = false ∧ (keyRow 0xFFFFFFFF).isNone = true := by
  refine ⟨served_of_check (by decide +kernel), served_of_check (by decide +kernel), served_of_check (by decide +kernel), rfl,
    served_of_check (by decide +kernel), by decide +kernel, served_of_check (by decide +kernel), ?_, by decide +kernel,
    by decide +kernel, by decide +kernel⟩
  obtain ⟨⟨u, p⟩, h⟩ := ok_exists (x := setPairs [(kOpReq, 2)] 0 setting []) (by decide +kernel)
  exact ⟨u, p, h⟩

/-- The request bytes lie in host memory; the answer goes nowhere (`res_addr` 0), so any length fits. -/
def attestState : State := { base with sec := { base.sec with policy := { base.sec.policy with allowAttest := true } } }
def attestOp : HostOp := .attest (2 ^ 63 + 0x1000) 4 .getVersion

theorem test_witness_attest : ∃ x r u, Served attestState (hd attestOp) attestOp ∧
    attestState.sec.policy.allowAttest = true ∧ addrParam (2 ^ 63 + 0x1000) = some x ∧
    (attestState.begun (hd attestOp) attestOp).spanOk x 4 = true ∧
    (attestState.begun (hd attestOp) attestOp).spdm .attest .getVersion = (r, u) ∧
    (attestState.begun (hd attestOp) attestOp).resultRefusal (hd attestOp) (Config.spdmBytes r).length = none :=
  ⟨(true, 0x1000), _, _, served_of_check (by decide +kernel), rfl, by decide +kernel, by decide +kernel, rfl, rfl⟩

/-- `base` with a change of operating point pending: not due yet, and due at the next tick. -/
def later : State := { base with pwr := { base.pwr with opChange := some (0, 9) } }
def dueNow : State := { base with pwr := { base.pwr with opChange := some (0, 1) } }

theorem test_witness_tick_point : base.pwr.opChange = none ∧ later.pwr.opChange = some (0, 9) ∧ later.pending = [] ∧
    later.clk.ashOut = true ∧ later.clk.corePll = true ∧ later.clk.cobalt + 1 < 9 ∧ dueNow.pwr.opChange = some (0, 1) ∧
    dueNow.pending = [] ∧ dueNow.clk.ashOut = true ∧ guardDiffers 0 (dueNow.kvNat kOpNow) = false ∧
    guardDiffers 1 (dueNow.kvNat kOpNow) = true := by
  and_intros <;> decide +kernel

/-- The state in which a `SET_PARAM` of a key that only hardware writes begins. -/
def settingRo : State := { base.begun (hd (.setParam 1 [(kOpNow, 2)])) (.setParam 1 [(kOpNow, 2)]) with
  job := { base.job with locked := base.lockedFor (hd (.setParam 1 [(kOpNow, 2)])) (.setParam 1 [(kOpNow, 2)]) } }

theorem test_witness_queries_refused :
    Served base (hd .stepStatus) .stepStatus ∧ base.job.bound = none ∧
    Served base (hd (.getParam 2 [kOpNow, 0xFFFFFFFF])) (.getParam 2 [kOpNow, 0xFFFFFFFF]) ∧
    (keyRow ([kOpNow, 0xFFFFFFFF].getD 1 0)).isNone = true ∧ (keyRow ([kOpNow, 0xFFFFFFFF].getD 0 0)).isSome = true ∧
    Served base (hd (.setParam 1 [(kOpNow, 2)])) (.setParam 1 [(kOpNow, 2)]) ∧
    (∃ e, setPairs [(kOpNow, 2)] 0 settingRo [] = .error e) ∧
    base.writeRefusal kOpNow 2 = some (0x14, 0x0101) ∧ (∃ r, keyRow kOpNow = some r ∧ r.acc = .ro) ∧
    (∃ r, keyRow kLsStep = some r ∧ r.acc = .rwl) := by
  refine ⟨served_of_check ?_, ?_, served_of_check ?_, ?_, ?_, served_of_check ?_, error_exists ?_, ?_, ⟨_, rfl, ?_⟩, ⟨_, rfl, ?_⟩⟩ <;>
    decide +kernel

def attestFar : HostOp := .attest 0x050000000000 4 .getVersion

theorem test_witness_attest_refused :
    Served base (hd attestOp) attestOp ∧ base.sec.policy.allowAttest = false ∧ Served attestState (hd attestFar) attestFar ∧
    attestState.sec.policy.allowAttest = true ∧ addrParam 0x050000000000 = some (false, 0x050000000000) ∧
    (attestState.begun (hd attestFar) attestFar).spanOk (false, 0x050000000000) 4 = false := by
  and_intros <;> first | exact served_of_check (by decide +kernel) | decide +kernel

/-! ### Witnesses: images, jobs, engines -/

/-- The SHA-512 of the empty string (FIPS 180-4). -/
def shaEmpty : List Byte := (toLe 64 0xcf83e1357eefb8bdf1542850d66d8007d620e4050b5715dc83f4a921d36ce9ce47d0d13c5d85f2b0ff8318d2877eec2f63b931bd47417a81a538327af927da3e).reverse

/-- An image of a manifest and an empty schedule: no token, no entry (15 R431, R432, R435). -/
def imgBytes : List Byte :=
  fields [(8, 0x5348455455000001), (4, 1), (4, 2), (8, 768), (8, 128)] ++ List.replicate 96 0 ++
  fields [(8, 1), (8, 256), (8, 384), (8, 0), (8, 2), (8, 768), (8, 0), (8, 0)] ++ List.replicate 64 0 ++
  fields [(32, 2), (8, 256), (8, 256), (8, 256), (8, 256), (8, 256)] ++ List.replicate 184 0 ++ shaEmpty ++ shaEmpty ++
  List.replicate 128 0

/-- `base` in a machine of one package with 96 GiB of LPDDR5X and the image in host memory. -/
def hosted : State :=
  let s := (base.kvSet kLpGib 96).hostWr 0x200000 imgBytes
  { s with torus := { s.torus with table := { xm := 1, ym := 1, zm := 1 }, hasCoord := true } }

def loadOp : HostOp := .loadImage (2 ^ 63 + 0x200000) 768 0 {}
def loadBad : HostOp := .loadImage (2 ^ 63 + 0x200000) 767 0 {}

theorem test_witness_load_fields : hosted.job.img = none ∧ addrParam (2 ^ 63 + 0x200000) = some (true, 0x200000) ∧
    (hosted.begun (hd loadOp) loadOp).spanOk (true, 0x200000) 768 = true ∧
    (hosted.begun (hd loadBad) loadBad).spanOk (true, 0x200000) 767 = true := by
  and_intros <;> decide +kernel

theorem test_witness_load : Served hosted (hd loadOp) loadOp ∧
    ∃ i, (hosted.begun (hd loadOp) loadOp).loadImage ((hosted.begun (hd loadOp) loadOp).rdAt (true, 0x200000) (min 768 4294967296))
      768 (decide ((0 : Nat) = 1)) {} = .ok i :=
  ⟨served_of_check (by decide +kernel), ok_exists (by decide +kernel)⟩

theorem test_witness_load_refused : Served hosted (hd loadBad) loadBad ∧
    ∃ f, (hosted.begun (hd loadBad) loadBad).loadImage ((hosted.begun (hd loadBad) loadBad).rdAt (true, 0x200000) (min 767 4294967296))
      767 (decide ((0 : Nat) = 1)) {} = .error f :=
  ⟨served_of_check (by decide +kernel), error_exists (by decide +kernel)⟩

/-- The image that `imgBytes` holds, loaded. -/
def withImage : State := { hosted with job := { hosted.job with img := some (parseImage imgBytes false {}) } }
def bindOp : HostOp := .bind 0 0 0 1 1 1 7

theorem test_witness_bind : Served withImage (hd bindOp) bindOp ∧ withImage.job.img = some (parseImage imgBytes false {}) ∧
    withImage.job.bound = none ∧
    ∃ b, (withImage.begun (hd bindOp) bindOp).checkBind (parseImage imgBytes false {})
      { ox := 0, oy := 0, oz := 0, sx := 1, sy := 1, sz := 1 } = .ok b :=
  ⟨served_of_check (by decide +kernel), rfl, rfl, ok_exists (by decide +kernel)⟩

theorem test_witness_jobs :
    Served bound (hd (.haltAtStep 5)) (.haltAtStep 5) ∧ bound.job.bound.isSome = true ∧ bound.job.step.toNat < 5 ∧
    Served bound (hd (.runSteps 1)) (.runSteps 1) ∧ bound.job.jobFault = none ∧ bound.job.haltAt = none ∧
    Served bound (hd .unload) .unload ∧ bound.job.img.isSome = true ∧ (bound.begun (hd .unload) .unload).imageRuns = false ∧
    Served bound (hd (.resetFunction 1)) (.resetFunction 1) := by
  and_intros <;> first | exact served_of_check (by decide +kernel) | decide +kernel

/-- A bound package with 96 GiB of LPDDR5X, for checkpoints. -/
def ckState : State := bound.kvSet kLpGib 96
def ckDst : Nat := 0x010000100000
def ckOp : HostOp := .checkpoint ckDst 4096

theorem test_witness_checkpoint : Served ckState (hd ckOp) ckOp ∧ ckState.job.img = some img0 ∧
    ckState.job.bound = some bound0 ∧ ckDst < 2 ^ 48 ∧
    (ckState.begun (hd ckOp) ckOp).ckDest ckDst (ckState.begun (hd ckOp) ckOp).ckLen = true ∧
    (ckState.begun (hd ckOp) ckOp).imageRuns = false ∧ (ckState.begun (hd ckOp) ckOp).ckLen ≤ 4096 ∧
    (ckState.begun (hd ckOp) ckOp).ckPoison img0 = none := by
  and_intros <;> first | exact served_of_check (by decide +kernel) | decide +kernel

/-- The record that the checkpoint leaves, taken by a job of another epoch. -/
def ckRec : State := { (nx (.checkpoint (hd ckOp) ckDst 4096) ckState) with
  hostIf := ckState.hostIf }
def rsOp : HostOp := .restore ckDst 9

theorem test_witness_restore : ∃ x : State, x = ckRec.begun (hd rsOp) rsOp ∧ Served ckRec (hd rsOp) rsOp ∧
    ckRec.job.img = some img0 ∧ ckRec.job.bound.isSome = true ∧ x.imageRuns = false ∧
    addrParam ckDst = some (false, ckDst) ∧ x.spanOk (false, ckDst) 128 = true ∧
    128 ≤ fieldLe (x.rdAt (false, ckDst) 128) 88 8 ∧
    x.spanOk (false, ckDst) (fieldLe (x.rdAt (false, ckDst) 128) 88 8) = true ∧
    x.checkRecord img0 (x.rdAt (false, ckDst) (fieldLe (x.rdAt (false, ckDst) 128) 88 8)) 9 = none := by
  refine ⟨_, rfl, ?_⟩
  and_intros <;> first | exact served_of_check (by decide +kernel) | decide +kernel

def loadFar : HostOp := .loadImage 0x050000000000 768 0 {}

theorem test_witness_load_field_refusals :
    Served loaded (hd loadOp) loadOp ∧ loaded.job.img.isSome = true ∧ Served hosted (hd loadFar) loadFar ∧
    addrParam 0x050000000000 = some (false, 0x050000000000) ∧
    (hosted.begun (hd loadFar) loadFar).spanOk (false, 0x050000000000) 768 = false := by
  and_intros <;> first | exact served_of_check (by decide +kernel) | decide +kernel

def bindZero : HostOp := .bind 0 0 0 1 1 1 0
def bindFar : HostOp := .bind 1 0 0 1 1 1 7
/-- The image bound. -/
def boundImage : State := { withImage with job := { withImage.job with bound := some {} } }

theorem test_witness_bind_refused :
    Served base (hd bindOp) bindOp ∧ base.job.img = none ∧ Served withImage (hd bindZero) bindZero ∧
    Served withImage (hd bindFar) bindFar ∧
    (∃ f, (withImage.begun (hd bindFar) bindFar).checkBind (parseImage imgBytes false {})
      { ox := 1, oy := 0, oz := 0, sx := 1, sy := 1, sz := 1 } = .error f) ∧
    Served boundImage (hd bindOp) bindOp ∧ boundImage.job.bound.isSome = true := by
  and_intros <;> first | exact served_of_check (by decide +kernel) | exact error_exists (by decide +kernel) | decide +kernel

/-- A bound job whose `RUN_STEPS` has started, whose step 3 has come or is in progress. -/
def running : State := { bound with
  hostIf := { bound.hostIf with cmds := [{ hdr := { hd (.runSteps 0) with ring := 1, tag := 5 }, op := .runSteps 0, started := true }] }
  job := { bound.job with step := 3 } }
def midStep : State := { running with job := { running.job with inStep := true } }
def halted : State := { bound with job := { bound.job with haltAt := some 0 } }
def armed : State := { bound with job := { bound.job with haltAt := some 9 } }
def faulted : State := { bound with job := { bound.job with jobFault := some 0x0603 } }

theorem test_witness_halt :
    Served running (hd (.haltAtStep 3)) (.haltAtStep 3) ∧ running.job.bound.isSome = true ∧ running.job.inStep = false ∧
    3 ≤ running.job.step.toNat ∧ running.runCmd.isSome = true ∧ Served midStep (hd (.haltAtStep 3)) (.haltAtStep 3) ∧
    midStep.job.inStep = true ∧ bound.runCmd = none := by
  and_intros <;> first | exact served_of_check (by decide +kernel) | decide +kernel

theorem test_witness_run :
    Served armed (hd (.runSteps 1)) (.runSteps 1) ∧ armed.job.haltAt = some 9 ∧ armed.job.step.toNat < 9 ∧
    Served halted (hd (.runSteps 1)) (.runSteps 1) ∧ halted.job.haltAt = some 0 ∧ 0 ≤ halted.job.step.toNat ∧
    halted.job.inStep = false ∧ Served faulted (hd (.runSteps 1)) (.runSteps 1) ∧ faulted.job.jobFault.isSome = true := by
  and_intros <;> first | exact served_of_check (by decide +kernel) | decide +kernel

theorem test_witness_jobs_refused :
    Served base (hd (.haltAtStep 5)) (.haltAtStep 5) ∧ Served base (hd (.runSteps 1)) (.runSteps 1) ∧ base.job.bound = none ∧
    Served base (hd .unload) .unload ∧ base.job.img = none ∧ Served running (hd .unload) .unload ∧
    running.job.img.isSome = true ∧ running.imageRuns = true ∧ bound.sec.activate = false ∧
    Served base (hd (.resetFunction 1)) (.resetFunction 1) ∧ (bound.begun (hd (.resetFunction 1)) (.resetFunction 1)).runCmd = none ∧
    Served running (hd (.resetFunction 1)) (.resetFunction 1) ∧
    (running.begun (hd (.resetFunction 1)) (.resetFunction 1)).runCmd.isSome = true := by
  and_intros <;> first | exact served_of_check (by decide +kernel) | decide +kernel

/-- A job with steps running, for checkpoints. -/
def ckRunning : State := { ckState with hostIf := running.hostIf }
def ckFar : HostOp := .checkpoint 0x050000000000 4096
def ckSmall : HostOp := .checkpoint ckDst 127

/-- An image of one constant token of 16 FP32 elements, whose line is poisoned. -/
def imgTok : Image := { toks := [{ tok := 0x1000, flags := 33, ext := [16], ndim := 1, home := 1 }] }
def ckPoisoned : State :=
  let s := ({ bound with job := { bound.job with
    img := some imgTok, bound := some { placed := [{ tok := 0x1000, home := 1, addr0 := 0x010000200000, bytes := 64 }] } } } : State)
  let t := s.kvSet kLpGib 96
  { t with mem := { t.mem with poison := [0x010000200000] } }

theorem test_witness_checkpoint_refused :
    Served base (hd ckOp) ckOp ∧ Served ckState (hd ckFar) ckFar ∧
    (ckState.begun (hd ckFar) ckFar).ckDest 0x050000000000 (ckState.begun (hd ckFar) ckFar).ckLen = false ∧
    Served ckState (hd ckSmall) ckSmall ∧ 127 < (ckState.begun (hd ckSmall) ckSmall).ckLen ∧
    Served ckRunning (hd ckOp) ckOp ∧ ckRunning.imageRuns = true ∧
    (ckRunning.begun (hd ckOp) ckOp).ckDest ckDst (ckRunning.begun (hd ckOp) ckOp).ckLen = true := by
  and_intros <;> first | exact served_of_check (by decide +kernel) | decide +kernel

/-- A job whose `RUN_STEPS` has retired with a step in progress. -/
def ckInStep : State := { ckState with job := { ckState.job with inStep := true } }
def rsFar : HostOp := .restore 0x050000000000 9

theorem test_witness_restore_refused :
    Served base (hd rsOp) rsOp ∧ Served ckInStep (hd rsOp) rsOp ∧ ckInStep.imageRuns = true ∧ Served ckState (hd rsFar) rsFar ∧
    (ckState.begun (hd rsFar) rsFar).spanOk (false, 0x050000000000) 128 = false ∧
    (∃ r, (ckRec.begun (hd rsOp) rsOp).checkRecord img0 (List.replicate 128 0) 9 = some r) := by
  and_intros <;> first | exact served_of_check (by decide +kernel) | exact some_exists (by decide +kernel) | decide +kernel

/-- A device memory with a solve descriptor at 0x9000 (two rows, four entries, no preconditioner; bounds at 0x8000) and a
dynamics descriptor at 0xA000 (gravity on one revolute joint; model at 0xB000, bounds at 0xC000) (08 R207, R208; 09 R244,
R245, R250, R262). -/
def umberMem : State :=
  let w : Nat := 2 ^ 106 + 2 ^ 98 + 3 * 2 ^ 121 + 2 * 2 ^ 125 + 8 * 2 ^ 144 + 208 * 2 ^ 152 + 20 * 2 ^ 224 + 3 * 2 ^ 240 +
    2 ^ 280 + 0x3EB0C6F7A0B5ED8D * 2 ^ 384
  let s := ((base.kvSet kLpGib 96).dramWr 0x8000 (fields ([0x4010000000000000, 0x4024000000000000, 0x4020000000000000,
    0x4020000000000000, 0x3FF0000000000000, 0, 0x3FF0000000000000, 0x4018000000000000].map (fun v => (8, v))))).dramWr 0x9000
    (toLe 64 w ++ fields ([0x1000, 0x2000, 0x3000, 0, 0x4000, 0x5000, 0, 0x6000, 0, 0x7000, 0, 0, 0, 0x8000, 0, 0].map
      (fun v => (8, v))))
  let s := s.dramWr 0x3000 (fields [(8, 0), (8, 2), (8, 4)])
  let s := s.dramWr 0xA000 (toLe 64 (1 * 2 ^ 64 + 2 ^ 48 + 2 ^ 40) ++
    fields ([0xB000, 0xD000, 0xD100, 0xD200, 0xD300, 0xD400, 0xC000, 0].map (fun v => (8, v))))
  let s := s.dramWr 0xB000 (fields [(2, 1), (2, 1), (2, 1), (2, 0), (8, 0), (8, 0), (8, 0xC023000000000000)] ++
    List.replicate 32 0 ++ fields [(2, 65535), (1, 1), (5, 0), (8, 0), (8, 0x3FF0000000000000), (24, 0), (24, 0),
      (8, 0x3FF0000000000000), (24, 0), (48, 0), (8, 0)])
  s.dramWr 0xC000 (fields ([0x4000000000000000, 0x4034000000000000, 0x4034000000000000, 0x4034000000000000, 0, 0, 0, 0].map
    (fun v => (8, v))))

theorem test_witness_solve : Served umberMem (hd (.solve 0x9000)) (.solve 0x9000) ∧
    (umberMem.begun (hd (.solve 0x9000)) (.solve 0x9000)).imageRuns = false ∧
    (umberMem.begun (hd (.solve 0x9000)) (.solve 0x9000)).onEngine (.cmd (hd (.solve 0x9000))) = false ∧
    (∃ d, (umberMem.listed (hd (.solve 0x9000)) (.solve 0x9000)).checkSolve (hd (.solve 0x9000)).prof 0x9000 = .ok d) ∧
    (umberMem.begun (hd (.solve 0x9000)) (.solve 0x9000)).freeEngines (2 ^ 0) = some [0] := by
  and_intros <;> first | exact served_of_check (by decide +kernel) | exact ok_exists (by decide +kernel) | decide +kernel

theorem test_witness_dynamics : Served umberMem (hd (.dynamics 0xA000)) (.dynamics 0xA000) ∧
    (umberMem.begun (hd (.dynamics 0xA000)) (.dynamics 0xA000)).imageRuns = false ∧
    (umberMem.begun (hd (.dynamics 0xA000)) (.dynamics 0xA000)).onEngine (.cmd (hd (.dynamics 0xA000))) = false ∧
    (∃ d, (umberMem.listed (hd (.dynamics 0xA000)) (.dynamics 0xA000)).checkDyn 0xA000 = .ok d) ∧
    (umberMem.begun (hd (.dynamics 0xA000)) (.dynamics 0xA000)).freeEngines (2 ^ 0) = some [0] := by
  and_intros <;> first | exact served_of_check (by decide +kernel) | exact ok_exists (by decide +kernel) | decide +kernel

def fillOp : HostOp := .memFill 0x010000000000 128 7
def copyOp : HostOp := .memCopy (2 ^ 63 + 0x100000) 0x010000000000 128

theorem test_witness_fill : Served umberMem (hd fillOp) fillOp ∧ 0x010000000000 < 2 ^ 48 ∧
    (umberMem.begun (hd fillOp) fillOp).writeOk (false, 0x010000000000) 128 = true ∧
    (umberMem.begun (hd fillOp) fillOp).imageRuns = false ∧ umberMem.poisoned 0x010000000000 64 = false := by
  and_intros <;> first | exact served_of_check (by decide +kernel) | decide +kernel

theorem test_witness_copy : ∃ x u k, x = umberMem.begun (hd copyOp) copyOp ∧ Served umberMem (hd copyOp) copyOp ∧
    addrParam (2 ^ 63 + 0x100000) = some (true, 0x100000) ∧ addrParam 0x010000000000 = some (false, 0x010000000000) ∧
    x.spanOk (true, 0x100000) 128 = true ∧ x.writeOk (false, 0x010000000000) 128 = true ∧ x.imageRuns = false ∧
    x.copyLines (128 / 64) (true, 0x100000) (false, 0x010000000000) 0 = (u, k, none) := by
  refine ⟨_, _, _, rfl, served_of_check ?_, ?_, ?_, ?_, ?_, ?_, rfl⟩ <;> decide +kernel

/-! ### Witnesses: ports, power, traffic, start of commands -/

def portOp (a : Nat) : HostOp := .portCtl 7 a 3 5

/-- `base` with port 7 in a given condition. -/
def port7 (x : Port) : State := { base with ports := List.replicate 7 {} ++ [x] }

theorem test_witness_ports :
    Served base (hd (portOp 0)) (portOp 0) ∧ 7 < base.ports.length ∧ base.boundHop 7 = false ∧
    (base.port 7).loopback = false ∧ Served base (hd (portOp 1)) (portOp 1) ∧
    Served (port7 { state := .run }) (hd (portOp 2)) (portOp 2) ∧ ((port7 { state := .run }).port 7).up = true ∧
    Served base (hd (portOp 3)) (portOp 3) ∧ (base.begun (hd (portOp 3)) (portOp 3)).imageRuns = false ∧
    Served (port7 { loopback := true }) (hd (portOp 4)) (portOp 4) ∧ ((port7 { loopback := true }).port 7).loopback = true ∧
    ((port7 { loopback := true }).begun (hd (portOp 4)) (portOp 4)).imageRuns = false ∧
    Served base (hd (portOp 5)) (portOp 5) ∧ (base.begun (hd (portOp 5)) (portOp 5)).imageRuns = false ∧
    Served base (hd (portOp 6)) (portOp 6) ∧ (base.begun (hd (portOp 6)) (portOp 6)).imageRuns = false ∧
    Served (port7 { state := .failed }) (hd (portOp 7)) (portOp 7) ∧
    ((port7 { state := .failed }).port 7).state = .failed := by
  and_intros <;> first | exact served_of_check (by decide +kernel) | decide +kernel

/-- `base` with function 13 off. -/
def off13 : State := { base with pwr := { base.pwr with fns := List.replicate 13 { state := .on } ++ [{}, { state := .on }] } }

theorem test_witness_power :
    Served base (hd (.powerCtl 13 0 0)) (.powerCtl 13 0 0) ∧ Served base (hd (.powerCtl 1 1 0)) (.powerCtl 1 1 0) ∧
    1 < base.pwr.fns.length ∧ base.job.img = none ∧ (base.fn 1).state = .on ∧
    Served off13 (hd (.powerCtl 13 2 0)) (.powerCtl 13 2 0) ∧ 13 < off13.pwr.fns.length ∧ (off13.fn 13).state = .off ∧
    Served base (hd (.powerCtl 0 3 3)) (.powerCtl 0 3 3) ∧ Served base (hd (.powerCtl 14 2 0)) (.powerCtl 14 2 0) := by
  and_intros <;> first | exact served_of_check (by decide +kernel) | decide +kernel

def testOp : HostOp := .testTraffic 0 255 1 0 0x1000 128 3 1
/-- Channel 319 with its generator in a given condition. -/
def chan319 (x : Chan) : State := (base.kvSet (kTgCtl 319) 0).setChan 319 x

theorem test_witness_traffic :
    Served base (hd testOp) testOp ∧
    (∃ u, setPairs ((testChans 0 255 1).flatMap (fun c => testPairs c 0 0x1000 128 3 1)) 0 (base.begun (hd testOp) testOp) [] =
      .ok u) ∧
    base.tgAllowed 0 (base.tgCfg 0) = true ∧ ((chan319 { tgRun := true }).chan 319).tgRun = true ∧
    (chan319 { tgRun := true }).tgMay 319 = true ∧ ((chan319 { tgRun := true, tgStop := true }).chan 319).tgStop = true ∧
    (chan319 { tgRun := true, tgStop := true }).tgMay 319 = true ∧ ((chan319 { tgRun := true }).chan 319).tgRead = false := by
  and_intros <;> first | exact served_of_check (by decide +kernel) | exact ok_exists (by decide +kernel) | decide +kernel

/-- `base` with an accepted `IDENTIFY` that has not started. -/
def waiting : State := { base with hostIf := { base.hostIf with cmds := [{ hdr := hd .identify }] } }

theorem test_witness_start : waiting.clk.phase = .run ∧ waiting.hostIf.cmds[0]? = some { hdr := hd .identify } ∧
    mayStart waiting.hostIf.cmds 0 { hdr := hd .identify } = true ∧ HostOp.badField (.portCtl 8 0 0 0) = true ∧
    HostOp.badField (.echo [1]) = false ∧
    base.resultRefusal { resAddr := 2 ^ 63, resLen := 0 } 1 = some (refuse stRefusedFit 0x0006) := by
  and_intros <;> decide +kernel

/-- The running job's commands beside other state, and all four engines in use. -/
def busy (s : State) : State := { s with hostIf := running.hostIf }
def allTaken : State := { umberMem with engines := [{ dyn := some { fields := [0, 1, 2, 3] } }] }

theorem accepted_of_check {s : State} {h : Hdr} {op : HostOp}
    (c : (s.reads && decide (s.nextRing = some h.ring) && !h.slotFail && decide (headerRefusal h op = none) &&
      decide (h.seq = 0)) = true) : Accepted s h op := by
  simp only [Bool.and_eq_true, Bool.not_eq_true', decide_eq_true_eq] at c
  exact ⟨c.1.1.1.1, c.1.1.1.2, c.1.1.2, c.1.2, .inl c.2⟩

theorem test_witness_engines_wait :
    Served (busy umberMem) (hd (.solve 0x9000)) (.solve 0x9000) ∧ (busy umberMem).imageRuns = true ∧
    Served (busy umberMem) (hd (.dynamics 0xA000)) (.dynamics 0xA000) ∧
    Served allTaken (hd (.solve 0x9000)) (.solve 0x9000) ∧
    (allTaken.begun (hd (.solve 0x9000)) (.solve 0x9000)).freeEngines 1 = none ∧
    (∃ d, ((busy umberMem).listed (hd (.solve 0x9000)) (.solve 0x9000)).checkSolve 0 0x9000 = .ok d) ∧
    (∃ d, ((busy umberMem).listed (hd (.dynamics 0xA000)) (.dynamics 0xA000)).checkDyn 0xA000 = .ok d) ∧
    Accepted umberMem (hd (.solve 0x9008)) (.solve 0x9008) ∧ (hd (.solve 0x9008)).early = false ∧
    umberMem.profNamed 0 = true ∧ (∃ f, (umberMem.listed (hd (.solve 0x9008)) (.solve 0x9008)).checkSolve 0 0x9008 = .error f) ∧
    Accepted umberMem (hd (.dynamics 0xA008)) (.dynamics 0xA008) ∧
    (∃ f, (umberMem.listed (hd (.dynamics 0xA008)) (.dynamics 0xA008)).checkDyn 0xA008 = .error f) := by
  refine ⟨served_of_check ?_, ?_, served_of_check ?_, served_of_check ?_, ?_, ok_exists ?_, ok_exists ?_, accepted_of_check ?_, ?_, ?_, error_exists ?_,
    accepted_of_check ?_, error_exists ?_⟩ <;> decide +kernel

def fillRo : HostOp := .memFill 0x050000000000 128 7
def copyRo : HostOp := .memCopy 0x050000000000 0x010000000000 128
def copyDev : HostOp := .memCopy 0x010000200000 0x010000000000 128

/-- Two source lines in device memory, the second poisoned. -/
def sick : State := { umberMem with mem := { umberMem.mem with poison := [0x010000200040] } }

theorem test_witness_bulk_refused :
    Served (busy umberMem) (hd fillOp) fillOp ∧ (busy umberMem).imageRuns = true ∧
    ((busy umberMem).begun (hd fillOp) fillOp).writeOk (false, 0x010000000000) 128 = true ∧
    Served (busy umberMem) (hd copyOp) copyOp ∧ ((busy umberMem).begun (hd copyOp) copyOp).spanOk (true, 0x100000) 128 = true ∧
    ((busy umberMem).begun (hd copyOp) copyOp).writeOk (false, 0x010000000000) 128 = true ∧
    Served umberMem (hd fillRo) fillRo ∧ addrParam 0x050000000000 = some (false, 0x050000000000) ∧
    (umberMem.begun (hd fillRo) fillRo).writeOk (false, 0x050000000000) 128 = false ∧
    Served umberMem (hd copyRo) copyRo ∧ (umberMem.begun (hd copyRo) copyRo).spanOk (false, 0x050000000000) 128 = false ∧
    Served sick (hd copyDev) copyDev ∧ sick.poisoned 0x010000200000 64 = false ∧ sick.poisoned 0x010000200040 64 = true ∧
    (sick.begun (hd copyDev) copyDev).spanOk (false, 0x010000200000) 128 = true ∧ sick.imageRuns = false := by
  and_intros <;> first | exact served_of_check (by decide +kernel) | decide +kernel

/-- The copy stops at its second line. -/
theorem test_witness_copy_poisoned : ∃ u, (sick.begun (hd copyDev) copyDev).copyLines (128 / 64) (false, 0x010000200000)
    (false, 0x010000000000) 0 = (u, 1, some 0x010000200040) := ⟨_, rfl⟩

theorem test_witness_ports_refused :
    Served base (hd (portOp 7)) (portOp 7) ∧ (base.begun (hd (portOp 7)) (portOp 7)).portRefusal 7 7 = true ∧
    (base.port 7).state ≠ .failed ∧ Served (busy base) (hd (portOp 3)) (portOp 3) ∧
    ((busy base).begun (hd (portOp 3)) (portOp 3)).portRefusal 7 3 = true ∧
    Served (port7 { loopback := true }) (hd (portOp 0)) (portOp 0) ∧
    ((port7 { loopback := true }).begun (hd (portOp 0)) (portOp 0)).portRefusal 7 0 = false ∧
    Served base (hd (portOp 2)) (portOp 2) ∧ (base.port 7).up = false := by
  and_intros <;> first | exact served_of_check (by decide +kernel) | decide +kernel

theorem test_witness_power_refused :
    Served loaded (hd (.powerCtl 1 1 0)) (.powerCtl 1 1 0) ∧
    (loaded.begun (hd (.powerCtl 1 1 0)) (.powerCtl 1 1 0)).fnInUse 1 1 = some 0x0401 ∧
    Served loaded (hd (.powerCtl 14 2 0)) (.powerCtl 14 2 0) ∧ loaded.job.img.isSome = true ∧
    Served base (hd (.powerCtl 14 1 0)) (.powerCtl 14 1 0) ∧
    (base.begun (hd (.powerCtl 14 1 0)) (.powerCtl 14 1 0)).fnInUse 14 1 = none ∧ fnValid 14 1 0 = false ∧
    fnValid 15 0 0 = false ∧ fnValid 13 0 0 = true ∧ fnValid 0 0 0 = true ∧ fnValid 14 0 0 = true ∧
    Served base (hd (.powerCtl 0 0 0)) (.powerCtl 0 0 0) ∧ Served base (hd (.powerCtl 14 0 0)) (.powerCtl 14 0 0) := by
  and_intros <;> first | exact served_of_check (by decide +kernel) | decide +kernel

def testBad : HostOp := .testTraffic 0 255 1 0 0x1001 128 3 1

theorem test_witness_traffic_refused :
    Served base (hd testBad) testBad ∧
    (∃ e, setPairs ((testChans 0 255 1).flatMap (fun c => testPairs c 0 0x1001 128 3 1)) 0 (base.begun (hd testBad) testBad) [] =
      .error e) ∧
    (base.kvSet (kTgLen 319) 0x100000000000).tgAllowed 319 ((base.kvSet (kTgLen 319) 0x100000000000).tgCfg 319) = false ∧ (base.chan 319).tgRun = false ∧
    ((chan319 { tgRun := true, tgStop := false }).chan 319).tgStop = false ∧
    ((chan319 { tgRun := true, tgRead := true }).chan 319).tgRead = true ∧
    (chan319 { tgRun := true, tgRead := true }).tgMay 319 = true := by
  and_intros <;> first | exact served_of_check (by decide +kernel) | exact error_exists (by decide +kernel) | decide +kernel

/-- Commands that have started and wait for a boundary, and one that may not start. -/
def begunCmds (ops : List HostOp) : State := { base with hostIf := { base.hostIf with
  cmds := ops.map (fun o => { hdr := hd o, op := o, started := true }) } }

theorem test_witness_start_others : State.reset.clk.phase ≠ .run ∧ base.hostIf.cmds[0]? = none ∧
    mayStart (waiting.hostIf.cmds ++ waiting.hostIf.cmds) 1 { hdr := hd .identify } = false ∧
    (∃ c, (begunCmds [.unload, ckOp, copyOp, .solve 0]).hostIf.cmds[0]? = some c ∧ c.started = true ∧ c.op = .unload) ∧
    (∃ c, (begunCmds [.unload, ckOp, copyOp, .solve 0]).hostIf.cmds[1]? = some c ∧ c.op = ckOp) ∧
    (∃ c, (begunCmds [.unload, ckOp, copyOp, .solve 0]).hostIf.cmds[2]? = some c ∧ c.op = copyOp) ∧
    (∃ c, (begunCmds [.unload, ckOp, copyOp, .solve 0]).hostIf.cmds[3]? = some c ∧ c.op = .solve 0) ∧
    (begunCmds [.unload, ckOp, copyOp, .solve 0]).imageRuns = false ∧ (busy base).imageRuns = true ∧
    HostOp.usesProf (.solve 0) = true ∧ base.profNamed 5 = false ∧ base.profNamed 0 = true ∧ HostOp.usesProf .identify = false ∧
    base.resultRefusal (hd (.solve 0)) (HostOp.resultLen (.solve 0) + HostOp.recordLen (.solve 0) (hd (.solve 0))) = none := by
  refine ⟨by decide, rfl, by decide +kernel, ⟨_, rfl, rfl, rfl⟩, ⟨_, rfl, rfl⟩, ⟨_, rfl, rfl⟩, ⟨_, rfl, rfl⟩, ?_⟩
  decide +kernel

/-! ### Witnesses: rings and registers -/

/-- Ring 15, as the host set it up, before its enable. -/
def ring15 : State := base.setRing 15 { crBase := 0x10000, cqBase := 0x20000, rlAddr := 0x30000, slAddr := 0x30040, rErr := true }

theorem test_witness_registers : 15 < ring15.hostIf.rings.length ∧ bitOf (0xA0000000 : BitVec 32).toNat 31 = true ∧
    bitOf (0xA0000000 : BitVec 32).toNat 29 = true ∧ (ring15.ring 15).en = false ∧ ring15.hostIf.ready = true ∧
    bitOf (0x20000000 : BitVec 32).toNat 31 = false ∧ (15 < 16 ∧ 0x1000 ≤ 0x1000) ∧ base.writeRefusal kOpReq 1 = none ∧
    base.startRefused kOpReq 1 = false ∧ (keyRow kOpNow).map (fun r => r.acc) = some .ro := by
  and_intros <;> decide +kernel

/-- A held reply, and a ring whose completion ring has room. -/
def held0 : State := base.setRing 0 { base.ring 0 with held := [{ seq := 3 }] }

theorem test_witness_lines : 0 < base.hostIf.rings.length ∧ (base.ring 0).rRun = true ∧
    cntDiff (16 % 2 ^ 32) (base.ring 0).cons ≤ ringSlots (base.ring 0).lCrLog2 ∧
    ringSlots (base.ring 0).lCrLog2 < cntDiff (17 % 2 ^ 32) (base.ring 0).cons ∧ (held0.ring 0).held = [{ seq := 3 }] ∧
    (held0.ring 0).room = true ∧
    hostAddr (held0.ring 0).lCq + 32 * ((held0.ring 0).cplProd % ringSlots (held0.ring 0).lCqLog2) + 32 ≤
      hostAddr (held0.ring 0).lSl := by
  and_intros <;> decide +kernel

/-- A full journal of posted entries whose numbers W has passed. -/
def fullJournal : State := { base with hostIf := { base.hostIf with
  jfull := true, wm := some 0, journal := List.replicate 131072 { state := 3 } } }

theorem test_witness_journal : fullJournal.hostIf.jfull = true ∧ journalMax ≤ fullJournal.hostIf.journal.length ∧
    (freeEntries fullJournal.hostIf.wm fullJournal.hostIf.journal).length < journalMax := by
  refine ⟨rfl, Nat.le_of_eq List.length_replicate.symm, ?_⟩
  have h : freeEntries (some 0) (List.replicate 131072 { state := 3 }) = [] := by
    unfold freeEntries; rw [List.filter_replicate]; rfl
  show (freeEntries (some 0) (List.replicate 131072 { state := 3 })).length < 131072
  rw [h]; decide

/-! ### Witnesses: rails, start-up, resets -/

theorem test_witness_rails : State.reset.pwr.rails.contains .vinCore = false ∧ base.pwr.rails.contains .vioAon = true ∧
    base.pwr.rails.contains .vfl = true ∧ base.pwr.regs = true ∧
    ({ base with pwr := { base.pwr with regs := false } } : State).pwr.regs = false ∧
    State.reset.pwr.rails.contains .vaon = true ∧ State.reset.pwr.rails.contains .vioAon = true := by
  and_intros <;> decide +kernel

/-- A cold start that waits in a row. -/
def row (r : BootRow) : State :=
  { State.reset with clk := { State.reset.clk with row := r, ashPll := true, ashOut := true, phase := .boot } }

/-- The strap word of the package at slot 0 of row (0, 0), role 0, table 0: all zero bits. -/
theorem test_witness_strap : State.reset.clk.phase = .ash ∧ State.reset.clk.row = .ref ∧ (row .strap).clk.row = .strap ∧
    (row .strap).clk.ashPll = true ∧ ((row .strap).kvSet kStrapBits 64).strapOk = true ∧ (row .strap).strapOk = false := by
  and_intros <;> decide +kernel

def fwSlot : FlashSlot := { magic := 0x5349474E544B0001, kind := 1, key := [1] }
def cfgSlot : FlashSlot := { magic := 0x5349474E544B0001, kind := 2, key := [1]
                             cfg := { tables := [{ xm := 1, ym := 1, zm := 1, entries := [{}] }] } }

/-- The verification row with one firmware and one configuration slot that differ from the preferred ones. -/
def verify : State := { row .verify with sec := { (row .verify).sec with
  fuses := { nisel := [(sha512 [1]).take 32] }, flash := { fwB := fwSlot, cfgB := cfgSlot } } }

/-- The slots are accepted where their signatures verify, which the model leaves open (log 20). -/
theorem test_witness_boot (h1 : Config.ed25519Verify [1] [] [] = true) : verify.clk.row = .verify ∧ verify.clk.ashOut = true ∧
    pickSlot (fun n => verify.sec.fuses.accepts 1 (flashFw verify.sec.flash n)) verify.sec.flash.prefFw = some 1 ∧
    pickSlot (fun n => verify.sec.fuses.accepts 2 (flashCfg verify.sec.flash n)) verify.sec.flash.prefCfg = some 1 ∧
    verify.clk.cold = true ∧
    (flashCfg verify.sec.flash 1).cfg.tables[bits verify.pins.strapWord.toNat 48 8]? =
      some { xm := 1, ym := 1, zm := 1, entries := [{}] } ∧
    strapFits verify.pins.strapWord.toNat { xm := 1, ym := 1, zm := 1, entries := [{}] } = true := by
  have f : verify.sec.fuses.accepts 1 fwSlot = true := by
    unfold Fuses.accepts
    rw [show Config.ed25519Verify fwSlot.key fwSlot.message fwSlot.sig = true from h1]; decide +kernel
  have c : verify.sec.fuses.accepts 2 cfgSlot = true := by
    unfold Fuses.accepts
    rw [show Config.ed25519Verify cfgSlot.key cfgSlot.message cfgSlot.sig = true from h1]; decide +kernel
  have f0 : verify.sec.fuses.accepts 1 {} = false := by unfold Fuses.accepts; simp
  have c0 : verify.sec.fuses.accepts 2 {} = false := by unfold Fuses.accepts; simp
  refine ⟨rfl, rfl, ?_, ?_, rfl, rfl, by decide +kernel⟩
  · show pickSlot (fun n => verify.sec.fuses.accepts 1 (if n = 0 then {} else fwSlot)) 0 = some 1
    simp [pickSlot, f]; exact f0
  · show pickSlot (fun n => verify.sec.fuses.accepts 2 (if n = 0 then {} else cfgSlot)) 0 = some 1
    simp [pickSlot, c]; exact c0

theorem test_witness_boot_none : (row .verify).clk.row = .verify ∧ (row .verify).clk.ashOut = true ∧
    (row .verify).sec.fuses.accepts 1 {} = false := by
  refine ⟨rfl, rfl, ?_⟩
  unfold Fuses.accepts; simp

theorem test_witness_pick : (fun n : Nat => n == 1) (2 % 2) = false ∧ (fun n : Nat => n == 1) (1 - 2 % 2) = true := ⟨rfl, rfl⟩

theorem test_witness_ready : ({ row .rails with pwr := { State.reset.pwr with rails := allRails } } : State).clk.row = .rails ∧
    (∀ r ∈ allRails, ({ row .rails with pwr := { State.reset.pwr with rails := allRails } } : State).pwr.rails.contains r = true) ∧
    (row .plls).clk.row = .plls ∧ (row .selfTest).clk.row = .selfTest ∧ (row .selfTest).ok = true ∧
    (row .memTrain).clk.row = .memTrain ∧ (row .memTrain).clk.phase ≠ .off ∧
    (row .memTrain).rowReport = some (.memTrain none, .memTrain none) := by
  and_intros <;> decide +kernel

/-- The row of memory training, in a population of 128 GiB devices. -/
def memRow : State := { row .memTrain with sec := { (row .memTrain).sec with policy := { lpGib := 128 } } }

theorem test_witness_training : memRow.clk.row = .memTrain ∧ memRow.sec.policy.lpGib = 128 ∧
    (∀ n, n < 16 → (List.replicate 16 128).getD n 0 = memRow.sec.policy.lpGib) := by
  refine ⟨rfl, rfl, by decide +kernel⟩

/-- A package asleep. -/
def asleep : State := { base with clk := { base.clk with phase := .sleep } }

theorem test_witness_warm : base.canWarm = true ∧ asleep.clk.phase = .sleep ∧ asleep.canWarm = true ∧
    Served base (hd (.resetFunction 0)) (.resetFunction 0) :=
  ⟨by decide +kernel, rfl, by decide +kernel, served_of_check (by decide +kernel)⟩

theorem test_witness_sleep : ({ base with pwr := { base.pwr with sleepAt := some 0 } } : State).pwr.sleepAt = some 0 ∧
    0 ≤ base.now ∧ base.job.img = none ∧ base.clk.phase = .run ∧ asleep.pinFree 3 = true ∧ asleep.pinFree 5 = true ∧
    (({ asleep with pins := { asleep.pins with inp := asleep.pins.inp.map (fun p => { p with armed := true }) } } : State)
      |>.pinChange 3 false |>.pin 3).armed = true := by
  and_intros <;> decide +kernel

/-! ### Witnesses: functions, Ash, Shade inputs -/

/-- Function 12 in a given condition. -/
def fn12 (x : Fn) : State := { base with pwr := { base.pwr with fns := List.replicate 12 { state := .on } ++ [x, {}, {}] } }

theorem test_witness_functions : 12 < (fn12 { state := .starting }).pwr.fns.length ∧
    ((fn12 { state := .starting }).fn 12).state = .starting ∧ ((fn12 { state := .starting }).fn 12).waitDis = [] ∧
    ((fn12 { state := .starting, waitDis := [{}] }).fn 12).waitDis ≠ [] ∧
    ((fn12 { state := .stopping }).fn 12).state = .stopping ∧ ((fn12 { state := .stopping }).fn 12).waitEn = [] ∧
    ((fn12 { state := .stopping, waitEn := [{}] }).fn 12).waitEn ≠ [] ∧ 12 ≤ base.ports.length + 4 := by
  and_intros <;> decide +kernel

theorem test_witness_point : ({ base with pwr := { base.pwr with opChange := some (3, 0) } } : State).pwr.opChange = some (3, 0) ∧
    base.imageRuns = false ∧ base.clk.phase = .run ∧ base.now % 2 ^ 20 = 0 ∧ base.pwr.opChange = none ∧
    guardDiffers ((base.kvSet kOpReq 1).takeReadings {}).sensorTriggers.pointNow ((base.kvSet kOpReq 1).kvNat kOpNow) = true ∧
    guardDiffers (base.takeReadings {}).sensorTriggers.pointNow (base.kvNat kOpNow) = false := by
  and_intros <;> decide +kernel

theorem test_witness_ash : (∃ r ∈ [1760], (110 : Int) * 16 ≤ r) ∧ base.pwr.regs = true ∧ base.pwr.tripped = false ∧
    ([1439] : List Int) ≠ [] ∧ (∀ r ∈ ([1439] : List Int), r < 90 * 16) ∧
    ({ base with pwr := { base.pwr with tripped := true } } : State).pwr.tripped = true ∧ base.flt.retired = false := by
  and_intros <;> decide +kernel

/-- One Shade input in a given condition. -/
def pin (n : Nat) (x : Pin) : State := { base with pins := { base.pins with inp := setAt base.pins.inp n x } }

/-- `base` with a step in progress. -/
def inStep : State := { bound with job := { bound.job with inStep := true } }

theorem test_witness_pins : base.ok = true ∧ base.pinPhase = 2 ∧ base.pinFree 5 = true ∧ (base.pin 5).level = true ∧
    base.pinFree 3 = true ∧ (base.pin 3).level = true ∧ base.flt.retired = false ∧ (inStep.kvSet kFltnAct 0).imageRuns = true ∧
    (inStep.kvSet kFltnAct 0).kvNat kFltnAct = 0 ∧ (inStep.kvSet kFltnAct 0).job.inStep = true ∧ (inStep.kvSet kFltnAct 1).imageRuns = true ∧
    (inStep.kvSet kFltnAct 1).kvNat kFltnAct = 1 ∧ (inStep.kvSet kFltnAct 2).imageRuns = true ∧
    (inStep.kvSet kFltnAct 2).kvNat kFltnAct = 2 := by
  and_intros <;> decide +kernel

theorem test_witness_stuck : ((pin 5 { windowEnd := some 0 }).pin 5).windowEnd = some 0 ∧
    ((pin 5 { windowEnd := some 0 }).pin 5).masked = false ∧
    ((pin 5 { windowEnd := some 0 }).pin 5).level = ((pin 5 { windowEnd := some 0 }).pin 5).evLevel ∧
    ((pin 3 { activeSince := some 0 }).pin 3).activeSince = some 0 ∧
    stuckTime + 0 < ({ base with clk := { base.clk with cobalt := BitVec.ofNat 64 (stuckTime + 1) } } : State).now ∧
    ((pin 5 { masked := true }).pin 5).masked = true ∧ (pin 5 { masked := true }).ok = true ∧ (base.pin 4).masked = false ∧
    base.pinFree 4 = true := by
  and_intros <;> decide +kernel

/-! ### Witnesses: the other clauses of rings, start-up and power -/

/-- A ring 15 that does not start: an error left, or one that Ivory sets in the same cycle. -/
def ring15Err : State := base.setRing 15 { rErr := true, errAt := some 0 }
def notReady : State := { base with hostIf := { base.hostIf with ready := false } }

theorem test_witness_registers_others :
    (ring15.ring 15).errAfter ring15.now (bitOf (0xA0000000 : BitVec 32).toNat 29) = false ∧
    (ring15Err.ring 15).errAfter ring15Err.now (bitOf (0xA0000000 : BitVec 32).toNat 29) = true ∧
    (ring15Err.ring 15).errAt = some ring15Err.now ∧ ({} : Ring).errAt ≠ some 5 ∧ (notReady.ring 15).en = false ∧
    notReady.hostIf.ready = false ∧ (base.setRing 15 { en := true }).hostIf.rings.length = 16 ∧
    ((base.setRing 15 { en := true }).ring 15).en = true ∧
    hostAddr (ring15.ring 15).rlAddr + 8 ≤ hostAddr (ring15.ring 15).slAddr ∧ (0x21 : Nat) % 256 ∉ [0x00, 0x08, 0x10, 0x18, 0x20] ∧
    (base.writeRefusal kOpNow 2).isSome = true ∧ (∃ r, keyRow kOpNow = some r ∧ r.acc = .ro) ∧
    (∃ r, keyRow kPinStatus = some r ∧ r.acc = .w1c) ∧ (∃ r, keyRow kOpReq = some r ∧ r.acc = .rw) := by
  refine ⟨?_, ?_, ?_, ?_, ?_, ?_, ?_, ?_, ?_, ?_, ?_, ⟨_, rfl, ?_⟩, ⟨_, rfl, ?_⟩, ⟨_, rfl, ?_⟩⟩ <;> decide +kernel

/-- `base` at a Cobalt time. -/
def at_ (t : Nat) (s : State) : State := { s with clk := { s.clk with cobalt := BitVec.ofNat 64 t } }
def nearFull : State := { base with hostIf := { base.hostIf with jfull := true } }

theorem test_witness_lines_others : (base.ring 15).rRun = false ∧ base.now < 1800 * base.kvNat kRingPoll + base.hostIf.lastPoll ∧
    1800 * (at_ 18000000 base).kvNat kRingPoll + (at_ 18000000 base).hostIf.lastPoll ≤ (at_ 18000000 base).now ∧
    5 % 2 ^ 32 ≠ (base.ring 0).prodSeen ∧ 1 % 2 ^ 32 = (base.ring 0).prodSeen ∧ (held0.ring 0).rRun = true ∧
    (base.ring 0).held = [] ∧
    ((base.setRing 0 { base.ring 0 with held := [{}], cplProd := 16 }).ring 0).room = false ∧
    nearFull.hostIf.jfull = true ∧ nearFull.hostIf.journal.length < journalMax ∧ base.hostIf.jfull = false := by
  and_intros <;> decide +kernel

/-- A start-up that waits in a row, one Ash's PLL has not begun, and a warm start. -/
def warmVerify : State := { verify with clk := { verify.clk with cold := false } }

theorem test_witness_strap_others : (row .strap).clk.phase ≠ .ash ∧ (row .verify).clk.row ≠ .strap ∧
    warmVerify.clk.row = .verify ∧ warmVerify.clk.ashOut = true ∧ warmVerify.clk.cold = false ∧ State.reset.clk.ashOut = false ∧
    strapFits 1 { xm := 1, ym := 1, zm := 1, entries := [{}] } = false ∧
    (flashCfg verify.sec.flash 0).cfg.tables[bits verify.pins.strapWord.toNat 48 8]? = none ∧
    (fun n : Nat => n == 2) (0 % 2) = false ∧ (fun n : Nat => n == 2) (1 - 0 % 2) = false := by
  and_intros <;> decide +kernel

def wrongDensity : List Nat := List.replicate 15 128 ++ [64]

theorem test_witness_ready_others : State.reset.clk.row ≠ .rails ∧ (∃ r ∈ allRails, (row .rails).pwr.rails.contains r = false) ∧
    wrongPackage 128 (List.replicate 16 128) = none ∧ wrongPackage 128 wrongDensity = some 335 ∧
    (row .memTrain).clk.phase ≠ .off ∧ (at_ ((row .memTrain).rowLimit) (row .memTrain)).now = (row .memTrain).rowLimit ∧
    (row .verify).now < (row .verify).rowLimit ∧ base.rowReport = none ∧ ((row .selfTest).port 7).state = .off := by
  refine ⟨?_, ⟨.vfl, ?_, ?_⟩, ?_, ?_, ?_, ?_, ?_, ?_, ?_⟩ <;> decide +kernel

def due (d : Nat) (s : State) : State := { s with pwr := { s.pwr with sleepAt := some d } }

theorem test_witness_warm_others : ({ base with pwr := { base.pwr with tripped := true } } : State).canWarm = false ∧
    base.clk.phase ≠ .sleep ∧ (due 9 base).pwr.sleepAt = some 9 ∧ (due 9 base).now < 9 ∧ loaded.job.img.isSome = true ∧
    ({ asleep with pins := { asleep.pins with inp := setAt asleep.pins.inp 3 { windowEnd := some 9 } } } : State).pinFree 3 = false ∧
    3 < asleep.pins.inp.length ∧ ((asleep.pinChange 3 false).pin 3).armed = true ∧
    Served base { hd (.resetFunction 0) with seq := 1 } (.resetFunction 0) := by
  and_intros <;> first | exact served_of_check (by decide +kernel) | decide +kernel

def fnAt (t : Nat) (x : Fn) : State := at_ t (fn12 x)

theorem test_witness_functions_others :
    upTime 12 + ((fnAt (upTime 12) { state := .starting }).fn 12).since ≤ (fnAt (upTime 12) { state := .starting }).now ∧
    downTime 12 + ((fnAt (downTime 12) { state := .stopping }).fn 12).since ≤ (fnAt (downTime 12) { state := .stopping }).now ∧
    (fn12 { state := .starting, since := 1 }).now < upTime 12 + ((fn12 { state := .starting, since := 1 }).fn 12).since ∧
    (fn12 { state := .stopping, since := 1 }).now < downTime 12 + ((fn12 { state := .stopping, since := 1 }).fn 12).since ∧
    (base.fn 12).state ≠ .starting ∧ (base.fn 12).state ≠ .stopping ∧ 4 ≤ base.clk.fieldPll.length ∧ 4 ≤ base.engines.length := by
  and_intros <;> decide +kernel

/-- A change of operating point that is due, and one that is not. -/
def changing (d : Nat) : State := { base with pwr := { base.pwr with opChange := some (3, d) } }

theorem test_witness_point_others : (changing 0).pwr.opChange = some (3, 0) ∧ 0 ≤ (changing 0).now ∧ (changing 9).now < 9 ∧
    (busy base).imageRuns = true ∧ (at_ 1 base).now % 2 ^ 20 ≠ 0 ∧
    guardDiffers (((base.kvSet kOpReq 1).tileErrors {}).takeReadings {}).sensorTriggers.pointNow 0 = true ∧
    guardDiffers ((base.tileErrors {}).takeReadings {}).sensorTriggers.pointNow (base.kvNat kOpNow) = false := by
  and_intros <;> decide +kernel

theorem test_witness_ash_others : (∀ r ∈ ([1759] : List Int), r < 110 * 16) ∧ (∃ r ∈ ([1440] : List Int), 90 * 16 ≤ r) ∧
    base.pwr.tripped = false ∧ (row .memTrain).clk.row = .memTrain ∧ (row .memTrain).flt.retired = false ∧
    (row .rails).clk.row ≠ .memTrain ∧ (row .rails).clk.phase ≠ .run := by decide +kernel

/-! ### Witnesses: host memory, management -/

/-- A trained CXL link with a window of 64 KiB at device address 0x010000000000. -/
def windowed : State :=
  let s := ((base.kvSet kLpGib 96).kvSet kWinSize 0x10000).kvSet kWinBase 0x010000000000
  { s with hostIf := { s.hostIf with cxlUp := true } }

/-- The same with a step in progress and `host_hold` 1. -/
def holding : State := { windowed.kvSet kHostHold 1 with job := inStep.job }

theorem test_witness_cxl : base.hostIf.cxlHeld = false ∧
    ({ base with hostIf := { base.hostIf with cxlHeld := true } } : State).hostIf.cxlHeld = true ∧ base.clk.row = .done ∧
    base.clk.phase ≠ .sleep ∧ holding.hostIf.cxlUp = true ∧ 0xFFFF / 64 * 64 + 64 ≤ holding.kvNat kWinSize ∧
    holding.kvNat kHostHold = 1 ∧ holding.imageRuns = true ∧ holding.sable = false ∧ windowed.hostIf.cxlUp = true ∧
    0xFFFF / 64 * 64 + 64 ≤ windowed.kvNat kWinSize ∧ windowed.imageRuns = false ∧ windowed.hostIf.memHeld = [] ∧
    (List.replicate 64 (1 : Byte)).length = 64 := by
  and_intros <;> decide +kernel

/-- A booted device whose MCTP negotiation is at a point, with its sessions. -/
def managed (c : SpdmConn) (l : List SpdmSession) : State :=
  { base with sec := { base.sec with booted := true, i3cAddr := some 9, conns := [c, {}], sessions := l, serial := 5
                                     fuses := { nisel := [(sha512 [1]).take 32] } } }

theorem test_witness_management : base.clk.ashOut = true ∧ (managed {} []).sec.i3cAddr.isSome = true ∧
    (managed {} []).sec.booted = true ∧ ((managed { version := true } []).conn .mctp).version = true ∧
    ((managed {} []).conn .mctp).version = false ∧ ((managed { caps := true } []).conn .mctp).caps = true ∧
    ((managed {} []).conn .mctp).caps = false ∧ ((managed { algs := true } []).conn .mctp).algs = true ∧
    (managed { algs := true } []).sec.certMismatch = false ∧
    ({ managed { algs := true } [] with sec := { (managed { algs := true } []).sec with certMismatch := true } } : State).sec.certMismatch
      = true ∧
    (managed { algs := true } (List.replicate 3 {})).sec.sessions.length < 4 ∧
    4 ≤ (managed { algs := true } (List.replicate 4 {})).sec.sessions.length ∧
    (managed {} [{ id := 2 }]).session .mctp 2 = some { id := 2 } ∧ ({ id := 2 } : SpdmSession).finished = false ∧
    (managed {} [{ id := 2, finished := true }]).session .mctp 2 = some { id := 2, finished := true } ∧
    (managed {} []).session .mctp 2 = none := by
  and_intros <;> decide +kernel

/-- A device with an established session, for provisioning. -/
def provisioned : State := managed { algs := true } [{ id := 1, finished := true }]
def ownerMsg : OwnerMsg := { slot := 3, hash := some (List.replicate 32 7), key := [1], session := some 1 }

/-- The messages are authentic where their signatures verify, which the model leaves open (log 20). -/
theorem test_witness_owner (h : Config.ed25519Verify [1] [] [] = true) : provisioned.sec.booted = true ∧
    provisioned.ownerAuth ownerMsg = true ∧ ownerMsg.hash = some (List.replicate 32 7) ∧
    (List.replicate 32 (7 : Byte)).length = 32 ∧ provisioned.sec.fuses.owner.getD ownerMsg.slot [] = [] ∧
    provisioned.ownerAuth { ownerMsg with hash := none } = true ∧ provisioned.sec.fuses.lastOwner 3 = false := by
  refine ⟨rfl, ?_, rfl, rfl, rfl, ?_, by decide +kernel⟩
  · unfold State.ownerAuth
    rw [show Config.ed25519Verify ownerMsg.key ownerMsg.message ownerMsg.sig = true from h]; decide +kernel
  · unfold State.ownerAuth
    rw [show Config.ed25519Verify ({ ownerMsg with hash := none } : OwnerMsg).key ({ ownerMsg with hash := none } : OwnerMsg).message
      ({ ownerMsg with hash := none } : OwnerMsg).sig = true from h]; decide +kernel

theorem test_witness_owner_refused : provisioned.ownerAuth { ownerMsg with session := none } = false := by
  unfold State.ownerAuth; simp

/-- A package whose policy admits debug tokens of one key. -/
def debugging : State := { managed {} [] with sec := { (managed {} []).sec with
  policy := { allowDebug := true, debugKeys := [[1]] } } }
def token : DebugTok := { serial := 5, nonce := Config.freeWord freeNonce 0, scope := 7, key := [1] }

theorem test_witness_debug (h : Config.ed25519Verify [1] [] [] = true) : debugging.sec.booted = true ∧
    debugging.sec.policy.allowDebug = true ∧ debugging.job.img = none ∧ token.serial = debugging.sec.serial ∧
    token.nonce = Config.freeWord freeNonce debugging.sec.nonceCtr ∧ token.scope.toNat < 8 ∧ token.rsvd = 0 ∧
    token.key ∈ debugging.sec.policy.debugKeys ∧ Config.ed25519Verify token.key token.message token.sig = true ∧
    (managed {} []).sec.policy.allowDebug = false := by
  refine ⟨rfl, rfl, rfl, rfl, rfl, by decide, rfl, by decide, h, rfl⟩

/-- An update in progress, with an image loaded in the second. -/
def updating : State := { managed {} [] with sec := { (managed {} []).sec with updating := some {} } }
def updatingLoaded : State := { updating with job := loaded.job }

theorem test_witness_pldm : (managed {} []).sec.booted = true ∧
    ({ managed {} [] with flt := { base.flt with queue := [.retired] } } : State).flt.queue = .retired :: [] ∧
    (managed {} []).flt.queue = [] ∧ (managed {} []).sec.updating = none ∧ updating.sec.booted = true ∧
    updating.sec.updating = some {} ∧ updatingLoaded.job.img.isSome = true ∧ updatingLoaded.sec.updating = some {} ∧
    updating.job.img = none ∧ (1 ≤ 64 ∧ 65 ≤ 70) := by
  and_intros <;> decide +kernel

/-! ### Witnesses: torus and Flosin -/

/-- The second package of a machine of two along x, its ports in one condition; the first package is the time master. -/
def pair (x : Port) : State :=
  let t : TopTable := { xm := 2, ym := 1, zm := 1, entries := [
    { slot := 0, serial := 4, ports := List.replicate 8 { present := true, slot := 1, port := 0 } },
    { slot := 1, serial := 5, ports := List.replicate 8 { present := true, slot := 0, port := 0 } }] }
  { base with ports := List.replicate 8 x, sec := { base.sec with serial := 5 }
              torus := { base.torus with x := 1, slot := 1, hasCoord := true, table := t } }

/-- The package that is the master. -/
def lone : State := { pair { state := .run } with torus := { (pair {}).torus with x := 0, slot := 0 } }

theorem test_witness_time : base.job.bound = none ∧ base.torus.heldSwitch = [] ∧
    (5 : Nat) ≠ base.torus.mapGen + base.torus.heldSwitch.length + 1 ∧ 7 < lone.ports.length ∧ (lone.port 7).up = true ∧
    lone.parentPort ≠ some 7 ∧ ((pair { state := .run }).port 0).up = true ∧ (pair { state := .run }).parentPort = some 0 ∧
    (pair { state := .run }).isMaster = false ∧ (pair { state := .run }).job.bound = none ∧
    ((pair { state := .run }).estimate 0 {} 5).isSome = true ∧ (at_ 1048576 lone).corrDue = true ∧ lone.isMaster = true ∧
    (at_ 1048576 (pair {})).corrDue = true ∧ (pair {}).isMaster = false ∧ (pair {}).parentPort = none ∧
    (at_ 1048576 (pair { state := .run })).corrDue = true ∧ (pair { state := .run }).parentPort.isSome = true ∧
    4 ≤ ({ base with torus := { base.torus with noEst := 4 } } : State).torus.noEst := by
  and_intros <;> decide +kernel


theorem test_witness_slots : 7 < (pair { state := .run }).ports.length ∧ ((pair { state := .run }).port 7).up = true ∧
    ((pair { state := .run }).port 7).native = true ∧ (at_ 4096 (pair { state := .run })).syncDue 7 = true ∧
    ((at_ 4096 (pair { state := .run })).port 7).up = true ∧
    (pair { state := .run }).syncDue 7 = false ∧ ((pair { state := .run }).port 7).idleOnly = false ∧
    ((pair { state := .run }).port 7).replayLeft = [] ∧ ((pair { state := .run }).arb (flArb 7)).cur = none ∧
    ((pair { state := .run }).port 7).test = none ∧
    ((pair { state := .run, replayLeft := [{ body := .test [] }] }).port 7).replayLeft = { body := .test [] } :: [] ∧
    (pair { state := .run, replayLeft := [{ body := .test [] }] }).syncDue 7 = false ∧
    ((pair { state := .run, replayLeft := [{ body := .test [] }] }).port 7).idleOnly = false ∧
    ((at_ nakWait (pair { state := .run, rxEpisode := true })).port 7).rxEpisode = true ∧
    nakWait + ((pair { state := .run, rxEpisode := true }).port 7).nakAt ≤ (at_ nakWait (pair { state := .run })).now ∧
    ((pair { state := .run, replayFrom := some 65535 }).port 7).replayFrom = some 65535 := by
  and_intros <;> decide +kernel

theorem test_witness_reception : ((pair { state := .run, native := false }).port 7).native = false ∧
    ((pair { state := .run, native := false }).port 7).up = true ∧ ((pair { state := .run, native := false, cwPeriods := 1048574 }).port 7).cwPeriods + 1 < 2 ^ 20 ∧
    ((pair { state := .run, native := false }).port 7).cwWindow ≤ (pair { state := .run, native := false }).kvNat kFecUeThresh ∧
    ((pair { crossing := [(0, {})] }).port 7).crossing.head? = some ((pair {}).now, {}) ∧ 0 < (at_ 1 (pair {})).now ∧
    ({ crcOk := false } : Flit).crcOk = false ∧ ((pair { state := .run }).port 7).rxEpisode = false ∧
    ({ body := .test [], fseq := 0 } : Flit).fseq =
      (if ((pair { state := .run }).port 7).rxAckV then seqNext ((pair { state := .run }).port 7).rxAck else 0) ∧
    ((pair { state := .run, rxAckV := true, rxAck := 65535 }).port 7).codewordBad = 0 ∧
    seqNext ((pair { state := .run, rxAckV := true, rxAck := 65535 }).port 7).rxAck = 0 := by
  and_intros <;> decide +kernel

/-- The identity of the neighbour of `pair`'s port 0. -/
def neighbour : Identity := { serial := 4, slot := 0, port := 0 }

theorem test_witness_bringup : ((pair { state := .retrain }).port 7).state = .retrain ∧
    (pair { state := .retrain }).mayTrain 7 = true ∧ ((pair { state := .blockLock }).port 7).state = .blockLock ∧
    ((pair { state := .ident }).port 7).state = .ident ∧ ((pair { state := .ident }).cabling 7 neighbour).1 = 1 ∧
    ((pair { state := .ident }).cabling 7 { neighbour with slot := 3 }).1 ≠ 1 ∧
    ((pair { state := .align, stage := 1, probes := 254 }).port 7).probes < 255 ∧
    ((pair { state := .align, stage := 1 }).port 7).state = .align ∧ ((pair { state := .align, stage := 1 }).port 7).stage = 1 ∧
    ((pair { state := .align, stage := 2, dMax := some 40 }).port 7).dMax = some 40 ∧
    ((pair { state := .align, stage := 2, dMax := some 40 }).port 7).stage = 2 ∧
    ((pair { state := .align, stage := 3 }).port 7).stage = 3 ∧ ((pair { state := .align, stage := 4 }).port 7).stage = 4 ∧
    3 < ((pair { state := .align, stage := 4, attempts := 4 }).port 7).attempts := by
  and_intros <;> decide +kernel

theorem test_witness_losses : (stateLimit ((pair { state := .blockLock }).port 7).state).isSome = true ∧
    (∀ n ∈ stateLimit PortState.blockLock, n + 0 ≤ (at_ n (pair { state := .blockLock })).now) ∧
    ((pair { state := .run }).port 7).up = true ∧
    (at_ quarterSecond (pair { state := .retrain, leftRunAt := some 0 })).overLimit 7 = true := by
  and_intros <;> decide +kernel

/-! ### Witnesses: the other clauses of pins, host memory, torus and ports -/

/-- `base` with an input in a window that is open for 9 ticks. -/
def inWindow (n : Nat) (x : Pin) : State := pin n { x with windowEnd := some 9 }

theorem test_witness_pins_others : (inWindow 5 {}).pinPhase = 2 ∧ (inWindow 5 {}).pinFree 5 = false ∧
    ((inWindow 5 {}).pin 5).masked = false ∧ ((inWindow 5 { level := true }).pin 5).level = true ∧
    ((pin 5 { masked := true }).pin 5).masked = true ∧ State.reset.pinPhase ≠ 2 ∧ (base.pin 5).masked = false ∧
    (inWindow 3 {}).pinFree 3 = false ∧ (busy base).imageRuns = true ∧ ((busy base).kvSet kFltnAct 0).kvNat kFltnAct = 0 ∧
    (busy base).job.inStep = false ∧ base.imageRuns = false ∧ ((inWindow 5 {}).pin 5).windowEnd = some 9 ∧
    (inWindow 5 {}).now < 9 ∧ 9 ≤ (at_ 9 (inWindow 5 { level := true, evLevel := true })).now ∧
    ((inWindow 5 { level := true, evLevel := true }).pin 5).evLevel = true ∧
    ((pin 5 { activeSince := some 0 }).pin 5).activeSince = some 0 ∧ (pin 5 { activeSince := some 0 }).now ≤ stuckTime + 0 ∧
    ((pin 5 {}).pin 5).activeSince = none ∧ (inWindow 4 {}).pinFree 4 = false ∧ ((pin 4 { masked := true }).pin 4).masked = true := by
  and_intros <;> decide +kernel

theorem test_witness_cxl_others : (row .rails).clk.row ≠ .memTrain ∧ (row .rails).clk.row ≠ .done ∧ (4 : Nat) ∉ [16, 8] ∧
    (8 : Nat) ∉ [64, 32, 16] ∧ base.hostIf.cxlUp = false ∧ windowed.kvNat kWinSize < 0x10000 / 64 * 64 + 64 ∧
    (windowed.kvSet kHostHold 0).kvNat kHostHold ≠ 1 ∧ windowed.lineReady reqCxl (windowed.kvNat kWinBase) = true ∧
    ({ windowed with hostIf := { windowed.hostIf with memHeld := [{ addr := 0 }] } } : State).hostIf.memHeld = [{ addr := 0 }] ∧
    ({ windowed with mem := { windowed.mem with chans := (List.range 320).map (fun c => (c, { fenced := true })) } } : State).lineReady reqCxl (windowed.kvNat kWinBase) = false := by
  and_intros <;> decide +kernel

theorem test_witness_management_others : base.clk.ashOut = true ∧ State.reset.clk.ashOut = false ∧ base.sec.i3cAddr = none ∧
    base.sec.booted = false ∧ (managed {} []).sec.booted = true ∧ (managed { algs := false } []).conn .mctp = { algs := false } ∧
    1 ≤ 8 ∧ 8 < 9 ∧ (9 : Nat) ≠ 255 ∧ (managed {} []).sec.policy.allowDebug = false ∧
    ({ owner := [[1]] } : Fuses).lastOwner 0 = true := by
  and_intros <;> decide +kernel

/-- The pair's second package with a job bound to both packages, and to the second alone. -/
def pairJob (b : Bound) : State := { pair { state := .run } with job := { bound.job with bound := some b } }

/-- The same with a spare in its row. -/
def spared (b : Bound) : State :=
  let s := pairJob b
  { s with torus := { s.torus with table := { s.torus.table with spares := true } } }

theorem test_witness_switch : (pairJob { sx := 2 }).job.bound.isSome = true ∧ (pairJob { sx := 2 }).memberAt 0 0 0 = some (0, 0, 0) ∧
    (pairJob { ox := 1 }).memberAt 0 0 0 = none ∧ (pairJob { ox := 1 }).rowLost 0 0 0 = true ∧
    (spared { ox := 1 }).rowLost 0 0 0 = false ∧ (spared { ox := 1 }).memberAt 0 0 0 = none ∧
    (7 : Nat) ≠ (pairJob {}).torus.mapGen + (pairJob {}).torus.heldSwitch.length + 1 := by
  and_intros <;> decide +kernel

theorem test_witness_correction_others : base.corrDue = false ∧ ((pair {}).port 7).up = false ∧
    (pair { state := .run }).corrClamps = false ∧
    ({ pairJob { sx := 2 } with torus := { (pair {}).torus with ests := [100000], firstCorr := false } } : State).corrClamps = true ∧
    (pair { state := .run }).parentPort.isSome = true ∧ (pair {}).parentPort = none ∧ base.torus.noEst < 4 := by
  and_intros <;> decide +kernel

/-- The pair's second package, its ports running in one condition, at tick 5 after a `SYNC`. -/
def slotState (x : Port) : State := at_ 5 (pair { x with state := .run })
def grant (r : MemReq) (s : State) : State := s.setArb (flArb 7) { cur := some r }

theorem test_witness_slot_cases : (pair {}).slotDue 7 = false ∧ (slotState {}).slotDue 7 = true ∧
    (at_ 1048512 (pair { state := .run })).corrQuiet = true ∧ (slotState {}).corrQuiet = false ∧
    ((slotState { native := false, slot := 255 }).port 7).idleOnly = true ∧
    ((slotState { replayFrom := some 3 }).port 7).replayFrom.isSome = true ∧
    Flit.isData { body := .data [] } = true ∧ Flit.isData { body := .test [] } = false ∧
    ((slotState {}).port 7).credit.getD 0 0 = 0 ∧ 0 < ((slotState { credit := [1] }).port 7).credit.getD 0 0 ∧
    ((grant { req := 224 } (slotState {})).arb (flArb 7)).cur = some { req := 224 } ∧
    ((grant {} (slotState {})).port 7).maySend 0 = false ∧ ((grant {} (slotState { credit := [1] })).port 7).maySend 0 = true ∧
    ((slotState { test := some (3, 5) }).port 7).test = some (3, 5) ∧ ((slotState {}).port 7).test = none ∧
    ((slotState { rxEpisode := true }).port 7).nakTwice = false ∧
    (slotState { rxEpisode := true }).now < nakWait + ((slotState { rxEpisode := true }).port 7).nakAt ∧
    (at_ rewindTime (slotState {})).now = rewindTime ∧ (slotState {}).now < rewindTime + ((slotState {}).port 7).replayAt ∧
    ((slotState {}).port 7).replayFrom = none := by
  and_intros <;> decide +kernel

theorem test_witness_reception_others : ((pair { state := .run, crossing := [] }).port 7).crossing = [] ∧
    ((pair { native := false, crossing := [(9, {})] }).port 7).crossing = [(9, {})] ∧ (9 : Nat) ≠ (pair {}).now ∧
    (pair {}).now < 9 ∧ ((pair { state := .run }).port 7).badFlit { crcOk := false } = true ∧
    ((pair { state := .run }).port 7).badFlit {} = false ∧ ((pair { rxEpisode := true }).port 7).rxEpisode = true ∧
    (5 : Nat) ≠ (if ((pair {}).port 7).rxAckV then seqNext ((pair {}).port 7).rxAck else 0) := by
  and_intros <;> decide +kernel

theorem test_witness_bringup_others : (pair { state := .run }).mayTrain 7 = false ∨ ((pair { state := .run }).port 7).state ≠ .pmdTrain := by
  decide +kernel

theorem test_witness_align : ((pair { state := .align, stage := 1, probes := 255 }).port 7).probes + 1 = 256 ∧
    4 + (pair { state := .align, stage := 4, alLat := 4 }).now ≤ 0 + ((pair { state := .align, stage := 4, alLat := 4 }).port 7).alLat ∧
    0 + ((pair { state := .align, stage := 4 }).port 7).alLat < 4 + (pair { state := .align, stage := 4 }).now ∧
    ((pair { state := .align, stage := 4, probes := 256 }).port 7).probes = 256 ∧
    ((pair { state := .align, stage := 4, probes := 255 }).port 7).probes ≠ 256 ∧ ((pair { attempts := 3 }).port 7).attempts ≤ 3 ∧
    ((pair {}).port 7).state ≠ .align := by
  and_intros <;> decide +kernel

theorem test_witness_losses_others : stateLimit ((pair { state := .run }).port 7).state = none ∧
    (∀ n ∈ stateLimit ((pair { state := .blockLock }).port 7).state, (pair { state := .blockLock }).now < n + 0) ∧
    (pair { state := .run }).overLimit 7 = false ∧ (pair { state := .run }).hopPorts.contains 7 = false ∧
    (pairJob { sx := 2 }).hopPorts.contains 0 = true ∧ (pairJob { sx := 2 }).partnerCoord 0 = some (0, 0, 0) := by
  and_intros <;> decide +kernel

/-- A port action on a hop of the bound block. -/
theorem test_witness_port_hop : Served (pairJob { sx := 2 }) (hd (.portCtl 0 1 0 0)) (.portCtl 0 1 0 0) ∧
    ((pairJob { sx := 2 }).begun (hd (.portCtl 0 1 0 0)) (.portCtl 0 1 0 0)).portRefusal 0 1 = true :=
  ⟨served_of_check (by decide +kernel), by decide +kernel⟩

/-! ### Witnesses: steps and verdicts -/

/-- A job about to run: bound, with a `RUN_STEPS` started. -/
def runJob : State := { bound with hostIf := { bound.hostIf with
  cmds := [{ hdr := hd (.runSteps 1), op := .runSteps 1, started := true }] } }

/-- BF16 operands 1 and 2, FP32 output 3, and a token 4 of the chain. -/
def toks0 : List TokDecl := [{ tok := 1, fmt := 4, ndim := 2, ext := [32, 32], flags := 32 },
  { tok := 2, fmt := 4, ndim := 2, ext := [32, 64], flags := 32 }, { tok := 3, fmt := 2, ndim := 2, ext := [32, 64] },
  { tok := 4, fmt := 2, ndim := 1, ext := [4] }]

def prod0 : ProdDesc := { a := { tok := 1 }, b := { tok := 2, layout := 1 }, out := { tok := 3 }, m := 32, k := 32, n := 64 }

/-- An image of a product and a chain operation, by the chain's record and the manifest's flags. -/
def imageOf (r : ChainRec) (flags : Nat) : Image :=
  { toks := toks0, mflags := flags, chains := [(1, r)]
    parts := { entries := [{ kind := .product prod0, space := [1], reads := [1, 2], writes := [3], opId := 1 },
      { kind := .stream 2 0, space := [4], reads := [], writes := [4], opId := 2 }] } }

/-- A step of that image with the entries in given conditions. -/
def stepOf (r : ChainRec) (flags : Nat) (es : List EntSt) : State :=
  { runJob with job := { runJob.job with img := some (imageOf r flags), inStep := true, ents := es, swBins := [] } }

theorem test_witness_steps : runJob.startDue = true ∧ (stepOf {} 0 [.waiting, .waiting]).entryDue 0 = true ∧
    (stepOf {} 0 [.running 0, .waiting]).job.ents[0]? = some (.running 0) ∧ (stepOf {} 0 [.running 0, .waiting]).job.inStep = true ∧
    0 + ((stepOf {} 0 [.running 0, .waiting]).planOf 0).2 + 0 ≤ (stepOf {} 0 [.running 0, .waiting]).elapsed ∧
    (stepOf {} 0 [.running 0, .waiting]).writesAccepted 0 = true ∧
    (stepOf {} 0 [.ended 0 0, .ended 0 0]).boundaryDue = true := by
  and_intros <;> decide +kernel

/-- The same step once the product's only tile is done. -/
def doneStep : State := let s := stepOf {} 0 [.running 0, .waiting]; s.setTile 0 { s.tile 0 with work := [(0, 0)] }

theorem test_witness_end : doneStep.job.ents[0]? = some (.running 0) ∧ doneStep.workDone 0 = true ∧
    doneStep.writesAccepted 0 = true := by
  refine ⟨rfl, by decide +kernel, by decide +kernel⟩

theorem test_witness_outcomes : VerdictMsg.has { flags := vfLivery } vfLivery = true ∧
    VerdictMsg.has { flags := vfAgree } vfAgree = true ∧
    VerdictMsg.has { flags := vfFault } vfFault = true ∧
    VerdictMsg.has { flags := vfFault } vfLivery = false ∧
    VerdictMsg.has { flags := vfFault } vfAgree = false ∧
    VerdictMsg.has { flags := vfNonfinite } vfNonfinite = true ∧
    VerdictMsg.has { flags := vfNonfinite } vfFault = false ∧
    VerdictMsg.has { flags := vfNonfinite } vfLivery = false ∧
    VerdictMsg.has { flags := vfNonfinite } vfAgree = false ∧
    bound.outcomeOf { flags := vfNonfinite } = .skip ∧
    (bound.scale.next bound.scaleCfg .skip (bound.numSkip { flags := vfNonfinite })).k < bound.kvNat kSkipLimit ∧
    bound.outcomeOf { flags := vfLivery } = .halt ∧ bound.outcomeOf {} = .commit := by
  and_intros <;> decide +kernel

theorem test_witness_verdicts : (stepOf {} 1 [.ended 0 0, .ended 0 0]).job.inStep = true ∧
    (stepOf {} 1 [.ended 0 0, .ended 0 0]).gradient = true ∧ (stepOf {} 1 [.ended 0 0, .ended 0 0]).job.sent = false ∧
    (stepOf {} 1 [.ended 0 0, .ended 0 0]).entriesEnded = true ∧ (stepOf {} 1 [.ended 0 0, .ended 0 0]).job.swBufs = [] ∧
    (stepOf {} 1 [.ended 0 0, .ended 0 0]).vChildren (stepOf {} 1 [.ended 0 0, .ended 0 0]).rel = [] ∧
    (stepOf {} 1 [.ended 0 0, .ended 0 0]).vParent (stepOf {} 1 [.ended 0 0, .ended 0 0]).rel = none := by
  and_intros <;> decide +kernel

/-- The root of a job over two packages along x, and the other package, in a step of a gradient image. -/
def treeOf (x : Nat) : State :=
  let s := stepOf {} 1 []
  { s with torus := { (pair {}).torus with x := x, slot := x }
           job := { s.job with bound := some { sx := 2 }, vFwd := decide (x = 1) } }

theorem test_witness_tree : (treeOf 0).job.bound.isSome = true ∧ (treeOf 0).gradient = true ∧
    (treeOf 0).job.vGot < ((treeOf 0).vChildren (treeOf 0).rel).length ∧ (treeOf 0).job.sent = false ∧
    (treeOf 1).job.bound.isSome = true ∧ (treeOf 1).gradient = true ∧ (treeOf 1).job.inStep = true ∧
    (treeOf 1).job.vFwd = true ∧ (treeOf 1).job.combined = none := by
  and_intros <;> decide +kernel

/-! ### Witnesses: arrays and chain -/

def prodStep : State := stepOf {} 0 [.running 0, .waiting]
/-- The same with an uncorrectable error in the bytes that the first tile reads. -/
def badStep : State := prodStep.setTile 0 { prodStep.tile 0 with bad := [(0, 0x300000)] }

theorem test_witness_product : (∃ r, prodStep.prodOf 0 = some (prod0, r)) ∧ TileDue prodStep 0 0 prod0 0 0 ∧
    prodStep.tileAvoids 0 prod0 0 0 (prodStep.tile 0).bad = true ∧
    (badStep.tileAvoids 0 prod0 0 0 (badStep.tile 0).bad = false ∧ TileDue badStep 0 0 prod0 0 0) ∧
    ¬ TileDue prodStep 0 0 prod0 1 0 ∧ prodStep.prodOf 1 = none := by
  refine ⟨?_, ⟨?_, ?_, ?_, ?_, ?_, ?_⟩, ?_, ⟨?_, ⟨?_, ?_, ?_, ?_, ?_, ?_⟩⟩, fun h => absurd h.inside (by decide +kernel), ?_⟩
  · obtain ⟨a, h⟩ := some_exists (x := prodStep.prodOf 0) (by decide +kernel)
    exact ⟨a.2, by rw [h]; exact congrArg some (Prod.ext (by
      have : (prodStep.prodOf 0).map (fun r => r.1) = some prod0 := by decide +kernel
      rw [h] at this; exact Option.some.inj this) rfl)⟩
  all_goals decide +kernel

/-- The product's step with its tile's accumulators in a Swatch buffer. -/
def swStep : State := { prodStep with job := { prodStep.job with swBufs := [{ unit := 0, entry := 0, ti := 0, tj := 0 }] } }

theorem test_witness_swatch :
    swStep.job.swBufs.find? (fun x => decide (x.unit = 0 ∧ x.entry = 0 ∧ x.ti = 0 ∧ x.tj = 0)) =
      some { unit := 0, entry := 0, ti := 0, tj := 0 } ∧ (swStep.prodOf 0).isSome = true := by
  refine ⟨rfl, by decide +kernel⟩

/-- A chain operation of one input and one output, rows of two elements, with and without row mode. -/
def chain0 (rows : Bool) : ChainRec :=
  { rowMode := rows, nIn := 1, nOut := 1, nStage := 1, stageOps := [0], ins := [{ tok := 4, ext := [2, 2], str := [1, 2], fmt := 2, ndim := 2 }]
    outs := [{ tok := 4, ext := [2, 2], str := [1, 2], fmt := 2, ndim := 2 }] }
def chStep (rows : Bool) : State := stepOf (chain0 rows) 0 [.waiting, .running 0]

/-- An error in the bytes that a chain step reads, and a row whose program has run. -/
def chBad : State := (chStep false).setTile 3 { (chStep false).tile 3 with bad := [(0, 0x300000)] }
def chReady : State := (chStep true).setRow 3 1 { ready := true }

theorem test_witness_chain : (chStep false).chainOf 1 = some (chain0 false) ∧ ElemDue (chStep false) 3 1 (chain0 false) 1 3 ∧
    (chStep false).elemAvoids 3 (chain0 false) 1 3 ((chStep false).tile 3).bad = true ∧ (chain0 false).rowMode = false ∧
    ElemDue chBad 3 1 (chain0 false) 1 3 ∧ chBad.elemAvoids 3 (chain0 false) 1 3 (chBad.tile 3).bad = false ∧
    ¬ ElemDue (chStep false) 4 1 (chain0 false) 1 3 ∧ (chStep false).chainOf 0 = none := by
  refine ⟨rfl, ⟨?_, ?_, ?_, ?_, ?_, ?_⟩, ?_, rfl, ⟨?_, ?_, ?_, ?_, ?_, ?_⟩, ?_, fun h => absurd h.own ?_, ?_⟩ <;> decide +kernel

theorem test_witness_chain_rows : (chStep true).chainOf 1 = some (chain0 true) ∧ ElemDue (chStep true) 3 1 (chain0 true) 1 3 ∧
    (chStep true).elemAvoids 3 (chain0 true) 1 3 ((chStep true).tile 3).bad = true ∧ (chain0 true).rowMode = true ∧
    ((chStep true).rowSt 3 (3 / (chain0 true).ext.headD 1)).ready = false ∧
    ((chStep true).rowSt 3 (3 / (chain0 true).ext.headD 1)).has (3 % (chain0 true).ext.headD 1) = false ∧
    ElemDue chReady 3 1 (chain0 true) 2 3 ∧ (chReady.rowSt 3 (3 / (chain0 true).ext.headD 1)).ready = true := by
  refine ⟨rfl, ⟨?_, ?_, ?_, ?_, ?_, ?_⟩, ?_, rfl, ?_, ?_, ⟨?_, ?_, ?_, ?_, ?_, ?_⟩, ?_⟩ <;> decide +kernel

/-- Row 0 whole on unit 0, and row 0 in two parts on units 0 and 1. -/
def rowStep : State := (chStep true).setRow 0 0 { elems := [{ pos := 0 }, { pos := 1 }] }
def splitStep : State := ((chStep true).setRow 0 0 { elems := [{ pos := 0 }] }).setRow 1 0 { elems := [{ pos := 1 }] }

theorem test_witness_rows : rowStep.chainOf 1 = some (chain0 true) ∧ rowStep.running 1 = true ∧
    (rowStep.rowSt 0 0).ready = false ∧ (rowStep.rowSt 0 0).elems.length = (chain0 true).ext.headD 1 ∧
    splitStep.chainOf 1 = some (chain0 true) ∧ splitStep.running 1 = true ∧ (splitStep.rowSt 0 0).ready = false ∧
    0 = combiner (splitStep.rowParts (splitStep.entryOf 1) 0) ∧ 2 ≤ (splitStep.rowParts (splitStep.entryOf 1) 0).length ∧
    splitStep.rowHere (splitStep.entryOf 1) ((chain0 true).ext.headD 1) 0 = 2 ∧
    ((splitStep.rowParts (splitStep.entryOf 1) 0).flatMap (fun p => p.2)).length = 2 := by
  and_intros <;> decide +kernel

/-! ### Witnesses: the other clauses of steps, verdicts and the arrays -/

def regStep : State := { prodStep with job := { prodStep.job with img := some { imageOf {} 0 with
  parts := { entries := [{ kind := .register 0 0 0 none, space := [4], opId := 3 }] } } } }

theorem test_witness_steps_others : base.startDue = false ∧ (stepOf {} 0 [.running 0, .waiting]).entryDue 0 = false ∧
    (∃ n v m b, (regStep.entryOf 0).kind = .register n v m b) ∧ (stepOf {} 0 [.waiting, .waiting]).job.ents[0]? = some .waiting ∧
    0 < (stepOf {} 0 [.waiting, .waiting]).job.ents.length ∧ base.boundaryDue = false ∧ bound.job.bound = some bound0 ∧
    bound.job.combined = none ∧ ({ bound with job := { bound.job with combined := some {} } } : State).job.combined = some {} := by
  refine ⟨?_, ?_, ⟨_, _, _, _, rfl⟩, rfl, ?_, ?_, rfl, rfl, rfl⟩ <;> decide +kernel

theorem test_witness_limits : bound.outcomeOf { flags := vfFault } = .withhold ∧ bound.job.lsK + 1 < bound.kvNat kSkipLimit ∧
    (bound.kvSet kSkipLimit 1).kvNat kSkipLimit ≤ (bound.kvSet kSkipLimit 1).job.lsK + 1 ∧
    (bound.kvSet kSkipLimit 1).outcomeOf { flags := vfNonfinite } = .skip ∧
    satAdd (bound.kvNat kFltRun) 1 < bound.kvNat kWithholdLimit ∧ bound.job.jobFault = none ∧ faulted.job.jobFault ≠ none ∧
    (bound.kvSet kWithholdLimit 1).kvNat kWithholdLimit ≤ satAdd ((bound.kvSet kWithholdLimit 1).kvNat kFltRun) 1 ∧
    faulted.outcomeOf { flags := vfFault } = .withhold := by and_intros <;> decide +kernel

def scale5 : ScaleCfg := { growth := 5, step := 1, lo := -2, hi := 20 }

theorem test_witness_scale : ({ e := 3, c := 1, k := 0 } : Scale).c + 1 ≠ scale5.growth ∧
    ({ e := 3, c := 4, k := 0 } : Scale).c + 1 = scale5.growth ∧ ({ e := -2, c := 0, k := 0 } : Scale).e = scale5.lo := by decide

theorem test_witness_forward : base.job.part = none ∧
    ({ (treeOf 1) with job := { (treeOf 1).job with part := some {}, sent := true, vFwd := false } } : State).job.vFwd = false ∧
    ((treeOf 1).vChildren (treeOf 1).rel).length ≤ (treeOf 1).job.vGot ∧ ((treeOf 1).vParent (treeOf 1).rel).isSome = true ∧
    (treeOf 0).vParent (treeOf 0).rel = none ∧
    (treeOf 1).vParent (treeOf 1).rel = some ((treeOf 1).blockOf.coord 0) ∧
    (treeOf 0).vParent (treeOf 0).rel ≠ some ((treeOf 0).blockOf.coord 1) := by and_intros <;> decide +kernel

theorem test_witness_swatch_none : prodStep.job.swBufs.find? (fun x => decide (x.unit = 0 ∧ x.entry = 0 ∧ x.ti = 0 ∧ x.tj = 0)) =
    none := rfl

theorem test_witness_rows_others : (chStep true).rowHere ((chStep true).entryOf 1) ((chain0 true).ext.headD 1) 9 = 0 ∧
    (rowStep.rowParts (rowStep.entryOf 1) 0).length < 2 ∨ (rowStep.rowSt 0 0).ready = false := by decide +kernel


/-! ### Witnesses: Slate -/

/-- A kernel on unit 223 with a vtype, a length and a register's bits. -/
def kernel (f : Fmt) (g vl : Nat) (x : Tab (BitVec 64)) : State :=
  prodStep.setSlate 223 { run := .running, vtype := some { fmt := f, g := g }, vl := vl, x := x }

theorem test_witness_lanes : ∀ f, laneFmt f = true → Lanes (kernel f 8 32 []) 223 { fmt := f, g := 8 }
    ((kernel f 8 32 []).tile 223).slate ∧ fitsV 0 (Fmt.bits f) ((kernel f 8 32 []).tile 223).slate.vl ∧
    0 < ((kernel f 8 32 []).tile 223).slate.vl ∧ ((kernel f 8 32 []).tile 223).slate.vl ≤ 2048 := by
  intro f hf
  refine ⟨⟨?_, rfl, ?_⟩, ?_, ?_, ?_⟩ <;> (cases f <;> first | (exact absurd hf (by decide)) | decide +kernel)

theorem test_witness_scalars : (kernel .fp32 1 4 [(3, 5)]).laneRuns 223 = true ∧
    ((kernel .fp32 1 4 [(3, 5)]).tile 223).slate.xreg 3 ≠ 0 ∧ ((kernel .fp32 1 4 [(3, 5)]).tile 223).slate.xreg 0 = 0 ∧
    laneFmt .fp64 = true ∧ 3 < 4 := by
  and_intros <;> decide +kernel

theorem test_witness_widening : wmulDst .bf16 = some .fp32 ∧ fitsV 30 (Fmt.bits .fp32) 128 ∧
    (∃ d w, dotDst .int8 = some (d, w)) ∧ laneFmt .fp16 = true := by
  refine ⟨by decide, by decide, ?_, by decide⟩
  obtain ⟨a, h⟩ := some_exists (x := dotDst .int8) (by decide)
  exact ⟨a.1, a.2, h⟩

/-- Addresses of a kernel whose base register holds 0x100 and stride register 64. -/
def memKernel : State := kernel .fp32 1 4 [(1, 0x100), (2, 64)]
def tileOps : MOps := { d := 4, a := 1, b := 2, mu := false, space := false, ue := none }
def devOps : MOps := { d := 4, a := 1, b := 2, mu := false, space := true, ue := none }

/-- `Clear` as one computation. -/
def clearCheck (s : State) (u : Nat) (o : MOps) (load write : Bool) (n e : Nat) (acc : List (Nat × List Nat)) : Bool :=
  acc.all (fun p => p.2.all (fun a =>
    decide (s.memCause u o.space load e n a (s.inUse u o.space write a) (o.ue == some p.1) = none))) &&
    s.memReady u o load n e (s.fallen u o write acc)

theorem clear_of_check {s : State} {u : Nat} {o : MOps} {load write : Bool} {n e : Nat} {acc : List (Nat × List Nat)}
    (h : clearCheck s u o load write n e acc = true) : Clear s u o load write n e acc := by
  unfold clearCheck at h
  rw [Bool.and_eq_true] at h
  refine ⟨fun p hp a ha => ?_, h.2⟩
  exact of_decide_eq_true (List.all_eq_true.mp (List.all_eq_true.mp h.1 p hp) a ha)

def memLanes : Slate := (memKernel.tile 223).slate

theorem test_witness_access : Lanes memKernel 223 { fmt := .fp32, g := 1 } memLanes ∧ fitsV tileOps.d 32 memLanes.vl ∧
    Clear memKernel 223 tileOps true false 4 memLanes.entry (unitAddrs memLanes tileOps 4 1) ∧
    Clear memKernel 223 tileOps true false 4 memLanes.entry (strideAddrs memLanes tileOps) ∧
    Clear memKernel 223 tileOps true false 4 memLanes.entry (indexAddrs memLanes tileOps 4) ∧
    Clear memKernel 223 tileOps true false 4 memLanes.entry (unitAddrs memLanes tileOps 4 2) ∧
    Clear memKernel 223 tileOps false true 4 memLanes.entry (unitAddrs memLanes tileOps 4 1) ∧
    Clear memKernel 223 tileOps false true 4 memLanes.entry (strideAddrs memLanes tileOps) ∧
    Clear memKernel 223 tileOps false true 4 memLanes.entry (unitAddrs memLanes tileOps 4 2) ∧
    Clear memKernel 223 tileOps true true 4 memLanes.entry (indexAddrs memLanes tileOps 4) ∧
    (∀ p ∈ unitAddrs memLanes tileOps 4 1, ∀ a ∈ p.2, hostCause 4 a (tileOps.ue == some p.1) = none) ∧
    memLanes.vl * 32 ≤ 2048 * 1 ∧ tileOps.d + 2 * 1 ≤ 32 := by
  refine ⟨⟨by decide +kernel, rfl, by decide +kernel⟩, by decide +kernel, clear_of_check ?_, clear_of_check ?_, clear_of_check ?_,
    clear_of_check ?_, clear_of_check ?_, clear_of_check ?_, clear_of_check ?_, clear_of_check ?_, ?_, ?_, ?_⟩ <;> decide +kernel

/-- The stored elements at 0x100 to 0x10F: no later one takes the first one's bytes, and the byte below is in none. -/
theorem test_witness_alone : (0, [0x100]) ∈ memKernel.fallen 223 tileOps true (unitAddrs memLanes tileOps 4 1) ∧
    alone 223 tileOps.space 4 (memKernel.fallen 223 tileOps true (unitAddrs memLanes tileOps 4 1)) (fun j => 0 < j) 0x100 ∧
    alone 223 tileOps.space 4 (memKernel.fallen 223 tileOps true (unitAddrs memLanes tileOps 4 1)) (fun j => j ≠ 0) 0x100 ∧
    ¬ touched 223 tileOps.space 4 (memKernel.fallen 223 tileOps true (unitAddrs memLanes tileOps 4 1)) 0 ∧
    alone 223 tileOps.space 4 [(0, [0x100, 0x104].drop (0 + 1))] (fun _ => True) 0x100 := by
  have e : memKernel.fallen 223 tileOps true (unitAddrs memLanes tileOps 4 1) =
      [(0, [0x100]), (1, [0x104]), (2, [0x108]), (3, [0x10C])] := by decide +kernel
  have a0 : spaceAddr 223 tileOps.space 0x100 = 935329792 + 0x100 := by decide +kernel
  have a1 : spaceAddr 223 tileOps.space 0x104 = 935329792 + 0x104 := by decide +kernel
  have a2 : spaceAddr 223 tileOps.space 0x108 = 935329792 + 0x108 := by decide +kernel
  have a3 : spaceAddr 223 tileOps.space 0x10C = 935329792 + 0x10C := by decide +kernel
  rw [e]
  refine ⟨by decide, ?_, ?_, ?_, ?_⟩
  · intro p hp h c hc b
    fin_cases hp <;> simp at h hc <;> subst hc <;> unfold holdsByte <;> omega
  · intro p hp h c hc b
    fin_cases hp <;> simp at h hc <;> subst hc <;> unfold holdsByte <;> omega
  · rintro ⟨p, hp, c, hc, h⟩
    fin_cases hp <;> simp at hc <;> subst hc <;> unfold holdsByte at h <;> omega
  · intro p hp h c hc b
    simp at hp; subst hp; simp at hc; subst hc; unfold holdsByte; omega

/-- A kernel of a step whose token 1 lies in memory at 0x1000, and the same behind a fence. -/
def devKernel : State :=
  let s := (kernel .fp32 1 4 [(1, 0x1000), (2, 64)]).kvSet kLpGib 96
  { s with job := { s.job with bound := some { placed := [{ tok := 1, home := 2, addr0 := 0x1000, bytes := 4096 }] } } }
def fencedKernel : State := { devKernel with mem := { devKernel.mem with
  chans := (List.range 320).map (fun c => (c, { fenced := true })) } }
def devLanes : Slate := (devKernel.tile 223).slate

theorem test_witness_access_device :
    Clear devKernel 223 devOps true false 4 devLanes.entry (unitAddrs devLanes devOps 4 1) ∧
    Clear devKernel 223 devOps false true 4 devLanes.entry (unitAddrs devLanes devOps 4 1) ∧
    Instr.access devLanes 4 (.vl 223 devOps) = some (223, devOps, true, false, unitAddrs devLanes devOps 4 1) ∧
    fencedKernel.memReady 223 devOps true 4 devLanes.entry
      (fencedKernel.scanFor 223 devOps true false 4 devLanes.entry (unitAddrs devLanes devOps 4 1)).1 = false := by
  refine ⟨clear_of_check ?_, clear_of_check ?_, rfl, ?_⟩ <;> decide +kernel

/-- The same with the element 2 at the end of the tile store: the access at element 2 leaves it (06 R166). -/
def faultKernel : State := kernel .fp32 1 4 [(1, 0x2FFFF8)]
def badOps : MOps := { tileOps with ue := some 2 }

theorem test_witness_slate_fault :
    (faultKernel.scanFor 223 tileOps true false 4 0 (unitAddrs (faultKernel.tile 223).slate tileOps 4 1)).2.map
      (fun st => (st.elem, st.cause)) = some (2, 1) ∧
    faultKernel.memReady 223 tileOps true 4 0
      (faultKernel.scanFor 223 tileOps true false 4 0 (unitAddrs (faultKernel.tile 223).slate tileOps 4 1)).1 = true ∧
    (faultKernel.scanFor 223 tileOps true false 4 0 (indexAddrs (faultKernel.tile 223).slate tileOps 4)).2 = none ∧
    (memKernel.scanFor 223 badOps true false 4 0 (indexAddrs memLanes badOps 4)).2.map (fun st => (st.elem, st.cause)) =
      some (2, 4) ∧
    (scanMem (fun i a => hostCause 4 a (badOps.ue == some i)) (unitAddrs memLanes badOps 4 1)).2.map
      (fun st => (st.elem, st.cause)) = some (2, 5) := by
  and_intros <;> decide +kernel

/-- A kernel that indexes past the store: `vlxs` masks the elements from there on. -/
def indexKernel : State := kernel .fp32 1 4 [(1, 0x300000)]

theorem test_witness_index_fault :
    (indexKernel.scanFor 223 tileOps true false 4 0 (indexAddrs (indexKernel.tile 223).slate tileOps 4)).2.map
      (fun st => st.cause) = some 1 := by decide +kernel

/-- A kernel whose entry has a budget, before and after its end. -/
def timed (t : Nat) : State := at_ t (State.setSlate { regStep with job := { regStep.job with
  img := some { imageOf {} 0 with parts := { entries := [{ kind := .register 0 0 0 (some 9) }] } } } } 223
  { run := .running })

theorem test_witness_budget : ((timed 9).tile 223).slate.run = .running ∧ (timed 9).budgetOver 223 = true ∧
    (timed 8).budgetOver 223 = false ∧ (timed 8).laneRuns 223 = true ∧ (timed 9).laneRuns 223 = false ∧
    ((timed 8).tile 223).slate.vtype = none ∧ Instr.scalarUnit (.vsel 223 {}) = none ∧
    Instr.memoryUnit (.vl 223 {}) = some 223 ∧ (kernel .fp32 1 0 []).laneRuns 223 = true := by
  and_intros <;> decide +kernel

theorem test_witness_no_widening : wmulDst .fp64 = none ∧ (∀ dst, dotDst .fp64 ≠ some (dst, 4)) := by
  refine ⟨by decide, fun dst => ?_⟩
  cases dst <;> decide

theorem test_witness_frame : Instr.registerUnit (.sli 223 1 5) = some 223 ∧ (nx (.sli 223 1 5) memKernel ≠ memKernel) := by
  refine ⟨rfl, fun h => ?_⟩
  have : ((nx (.sli 223 1 5) memKernel).tile 223).slate.pc = (memKernel.tile 223).slate.pc := by rw [h]
  revert this; decide +kernel

/-! ### Witnesses: Umber, memory, streams, channels -/

/-- Engine 3 in a given condition. -/
def engine3 (e : Engine) : State := { umberMem with engines := List.replicate 3 {} ++ [e] }
def solve3 (p : SolvePhase) : SolveSt := { desc := parseSolve (umberMem.dramRd 0x9000 192), phase := p, fields := [3] }

/-- The pre-pass with the first line of its values poisoned (their rows lie at 0x1000). -/
def poisonedSolve : State :=
  let d : SolveDesc := { n := 2, nnz := 4, fmtB := 1, fmtX := 1, slots := [0x1000, 0x2000, 0x3000, 0, 0x4000, 0x5000] }
  { engine3 { solve := some { desc := d, fields := [3] } } with mem := { umberMem.mem with poison := [0x4000] } }

theorem test_witness_prepass : ∃ t, (poisonedSolve.engine 3).solve = some t ∧ t.phase = .prepass ∧ t.desc.dist = false ∧
    (∃ a, poisonedSolve.solvePoisoned t = some a) ∧ 3 < poisonedSolve.engines.length :=
  ⟨_, rfl, rfl, rfl, some_exists (by decide +kernel), by decide⟩

theorem test_witness_solving : ∃ t, ((engine3 { solve := some { desc := {}, phase := .iterate } }).engine 3).solve = some t ∧
    t.phase = .iterate ∧ (Run.mk t [] (some (.sums [])) ).ask = some (.sums []) := ⟨_, rfl, rfl, rfl⟩

/-- The sound pre-pass: no line is poisoned, so none of its reads meets one. -/
theorem test_witness_prepass_sound : ∃ s t, s = engine3 { solve := some t } ∧ (s.engine 3).solve = some t ∧ t.phase = .prepass ∧
    s.solvePoisoned t = none := by
  refine ⟨_, solve3 .prepass, rfl, rfl, rfl, ?_⟩
  have p : ∀ a n, (engine3 { solve := some (solve3 .prepass) }).poisoned a n = false := fun a n => rfl
  have q : ∀ l : List (Nat × Nat), l.find? (fun r => (engine3 { solve := some (solve3 .prepass) }).poisoned r.1 r.2) = none := by
    intro l; simp [p]
  unfold State.solvePoisoned; rw [q]; rfl

/-- A dynamics operation on engine 3 with six trees to do. -/
def dyn3 : State := engine3 { dyn := some { fields := [3], next := 4, stop := 6 } }

theorem test_witness_group : 3 < dyn3.engines.length ∧ (dyn3.engine 3).dyn = some { fields := [3], next := 4, stop := 6 } ∧ 4 < 6 ∧
    dyn3.groupPoisoned { fields := [3], next := 4, stop := 6 } (min 4 (6 - 4)) = none ∧ 3 ∈ [3] := by
  refine ⟨by decide, rfl, by decide, ?_, by decide⟩
  have q : ∀ l : List (Nat × Nat), l.find? (fun r => dyn3.poisoned r.1 r.2) = none := by
    intro l; simp [show ∀ a n, dyn3.poisoned a n = false from fun a n => rfl]
  unfold State.groupPoisoned; rw [q]; rfl

/-- A request to the first line of field 0, whose channel and slice are those R288 to R290 give. -/
def hbmLine : Nat := 0x008000000000
def chanReq : MemReq := { port := 0, cls := 1, req := 3, addr := hbmLine, beats := 64 }

theorem test_witness_request : base.hueMap 0x040000000000 = none ∧ (base.hueMap hbmLine).isSome = true ∧
    base.mayArrive chanReq = true ∧ base.mayArrive { chanReq with port := 384 } = false := by
  and_intros <;> decide +kernel

/-- Two requests at channel 319 and at port 391, one cycle after they arrived. -/
def parked : State :=
  at_ 1 ((base.setArb 319 { pend := [chanReq, { chanReq with cls := 0 }] }).setArb 391 { pend := [chanReq] })

theorem test_witness_grant : 319 < 384 ∧ (parked.arb 319).cur = none ∧ parked.grants 319 = true ∧
    (parked.winner 319 (parked.eligible 319 (parked.arb 319).pend)).isSome = true ∧ (base.arb 319).cur = none ∧
    base.winner 319 (base.eligible 319 (base.arb 319).pend) = none ∧ 320 ≤ 391 ∧
    (parked.winner 391 [chanReq]).isSome = true ∧ oldestReq [chanReq] = some chanReq ∧
    MemReq.before chanReq { chanReq with port := 7 } = false ∧ MemReq.before { chanReq with port := 7 } chanReq = false := by
  and_intros <;> decide +kernel

/-- Slot 7 of unit 223 with a stream of one line, in a step whose product runs. -/
def slot7 (w : Bool) (x : StreamSlot) : State := prodStep.setSlot 223 7
  { x with desc := some { write := w, entry := 0 }, lines := [hbmLine] }

theorem test_witness_streams : ((slot7 true {}).slot 223 7).desc = some { write := true, entry := 0 } ∧
    (slot7 true {}).mayAsk 223 ((slot7 true {}).slot 223 7) { write := true, entry := 0 } = true ∧
    (slot7 false {}).mayAsk 223 ((slot7 false {}).slot 223 7) { write := false, entry := 0 } = true ∧
    0 < ((slot7 false { asked := 1 }).slot 223 7).asked ∧
    ((slot7 false { asked := 1 }).slot 223 7).landed.contains 0 = false ∧
    (slot7 false { asked := 1 }).waits 223 1 (((slot7 false { asked := 1 }).slot 223 7).lines.getD 0 0) = false ∧
    ((slot7 true { asked := 1 }).slot 223 7).accepted < ((slot7 true { asked := 1 }).slot 223 7).asked ∧
    (slot7 true { asked := 1 }).waits 223 2
      (((slot7 true { asked := 1 }).slot 223 7).lines.getD ((slot7 true { asked := 1 }).slot 223 7).accepted 0) = false ∧
    (slot7 true { asked := 1 }).running 0 = true ∧
    ((slot7 false {}).slot 223 7).landed.length < ((slot7 false {}).slot 223 7).lines.length ∧
    (slot7 false {}).pastEnd 0 = true := by
  and_intros <;> decide +kernel

/-- Channel 319 fenced, in debt, or over its error threshold. -/
def fenced319 : State := at_ 4500 (chan319 { fenced := true })

theorem test_witness_channels : (chan319 {}).refreshDue 319 = true ∧ base.job.inStep = false ∧
    ((base.kvSet kRefMode 1)).kvNat kRefMode = 1 ∧ ({ base.kvSet kRefMode 1 with job := inStep.job } : State).refreshDue 319 = true ∧
    inStep.job.inStep = true ∧ ((chan319 { debt := 7 }).chan 319).debt < 8 ∧ 8 ≤ ((chan319 { debt := 8 }).chan 319).debt ∧
    ((chan319 { debt := 8 }).chan 319).fenced = false ∧ (chan319 { waitTurn := true }).retrainTrigger 319 = true ∧
    (∀ d, d < 320 → d ≠ 319 → chanGroup d = chanGroup 319 → ((chan319 { waitTurn := true }).chan d).fenced = false) ∧
    (fenced319.chan 319).fenced = true ∧ (fenced319.chan 319).failed = false ∧ fenced319.now ≤ 4500 + (fenced319.chan 319).fenceAt := by
  refine ⟨by decide +kernel, rfl, by decide +kernel, by decide +kernel, rfl, by decide +kernel, by decide +kernel,
    by decide +kernel, by decide +kernel, ?_, by decide +kernel, by decide +kernel, by decide +kernel⟩
  intro d _ h _
  simp [chan319, State.setChan_chan_ne, h]; rfl

/-! ### Witnesses: the Indigo ring -/

/-- Node 0 of two along x in a step of an image whose one entry is an exchange of 4 bytes with node 1 in context 20. -/
def ring0 (x : CtxSt) : State :=
  let img : Image := { toks := [{ tok := 1, fmt := 2, ndim := 1, home := 2, ext := [1] }, { tok := 2, fmt := 2, ndim := 1, home := 2, ext := [1] }]
                       ctxs := [({ ctx := 20, off := 0, peerOff := 0, srcTok := 1, dstTok := 2, routeTok := 0, slotTok := 0 },
                         { nPeer := 1, bytes := 4, srcTok := 1, tok := 2 }, [{ x := 1, pctx := 20 }])]
                       parts := { entries := [{ kind := .exchange 20, space := [1] }] } }
  let s : State := { pair { state := .run } with
    torus := { (pair {}).torus with x := 0, slot := 0 }
    job := { runJob.job with img := some img, bound := some { sx := 2 }, inStep := true, ents := [.running 0], epoch := 7 } }
  s.setCtx 20 { x with cfg := { nPeer := 1, bytes := 4, srcTok := 1, tok := 2 }, peers := [{ x := 1, pctx := 20 }] }

theorem test_witness_round : (ring0 {}).mayStartRound 20 = true ∧
    ((ring0 { active := true, send := [{ credits := 1 }] }).ctx 20).send[0]? = some { credits := 1 } ∧
    ((ring0 { active := true, send := [{ credits := 1 }] }).ctx 20).active = true ∧
    (ring0 { active := true, send := [{ credits := 1 }] }).segReady 20 0 0 = true ∧
    ((ring0 { active := true, send := [{ credits := 1 }] }).buildMsg 20 0 0).map (fun m => (m.hdr.dstX, m.hdr.dstY, m.hdr.dstZ)) =
      some (1, 0, 0) ∧ ((1, 0, 0) : Nat × Nat × Nat) ≠ ((ring0 {}).torus.x, (ring0 {}).torus.y, (ring0 {}).torus.z) := by
  and_intros <;> decide +kernel

theorem test_witness_accumulate :
    ((base.setCtx 20 { cfg := { kind := 7 }, active := true, complete := true }).ctx 20).cfg.kind = 7 ∧
    ((base.setCtx 20 { cfg := { kind := 7 }, active := true, complete := true }).ctx 20).active = true ∧
    ((base.setCtx 20 { cfg := { kind := 7 }, active := true, complete := true }).ctx 20).complete = true := by
  refine ⟨by decide +kernel, by decide +kernel, by decide +kernel⟩

/-- A message from node 1 that context 20 expects. -/
def msg1 : Msg := { hdr := { ctx := 20, src := 1, epoch := 7, lenM1 := 3 }, body := [1, 2, 3, 4] }
def expecting : State := ring0 { active := true, expect := [(1, 0)] }

theorem test_witness_message : ({ msg1 with mcrcOk := false } : Msg).mcrcOk = false ∧ msg1.mcrcOk = true ∧ msg1.hdr.mkind = 0 ∧
    msg1.hdr.epoch ≠ base.job.epoch ∧ msg1.hdr.epoch = expecting.job.epoch ∧ expecting.job.bound.isSome = true ∧
    msg1.hdr.ctx ≠ 0 ∧ msg1.hdr.seq = (expecting.ctx 20).cfg.seq ∧ seqEarlier msg1.hdr.seq (expecting.ctx 20).cfg.seq = false ∧
    (expecting.ctx 20).arrived.contains (1, 0) = false ∧ (expecting.ctx 20).expect.contains (1, 0) = true := by
  and_intros <;> decide +kernel

/-- A message kept since tick 0, at the tick its acknowledgement is overdue. -/
def kept (n : Nat) : State :=
  let s := ring0 { send := [{ unacked := [{ msg := { msg1 with hdr := { msg1.hdr with dstX := 1 } }, sendings := n }] }] }
  at_ (1800 * s.kvNat kAckTimeout) s

theorem test_witness_resend : ∃ u, ((kept 1).ctx 20).send[0]?.isSome = true ∧
    (((kept 1).ctx 20).send.getD 0 {}).unacked.find? (fun v => decide (v.msg.hdr.segment = 0)) = some u ∧
    (((kept 1).ctx 20).send.getD 0 {}).unacked.any (fun u => decide (u.msg.hdr.seq = 0) && decide (u.msg.hdr.segment = 0)) = true ∧
    1800 * (kept 1).kvNat kAckTimeout + u.lastSent ≤ (kept 1).now ∧ (kept 1).routeUp (1, 0, 0) = true ∧
    (kept 1).switching (1, 0, 0) = false ∧ u.sendings < (kept 1).kvNat kAckRetries + 1 := by
  refine ⟨{ msg := { msg1 with hdr := { msg1.hdr with dstX := 1 } }, sendings := 1 }, ?_⟩
  and_intros <;> decide +kernel

theorem test_witness_unreachable : ∃ u,
    (((kept 9).ctx 20).send.getD 0 {}).unacked.find? (fun v => decide (v.msg.hdr.segment = 0)) = some u ∧
    (kept 9).kvNat kAckRetries + 1 ≤ u.sendings ∧ (kept 9).job.bound.isSome = true ∧ (kept 9).job.jobFault = none := by
  refine ⟨{ msg := { msg1 with hdr := { msg1.hdr with dstX := 1 } }, sendings := 9 }, ?_⟩
  and_intros <;> decide +kernel

/-! ### Witnesses: the other clauses of the engines, the memory and the ring -/

/-- A distributed solve of a bound job, and a part that waits, goes on or has ended. -/
def spread : SolveSt := { desc := { dist := true }, phase := .iterate }

theorem test_witness_parts : bound.job.bound.isSome = true ∧ bound.job.jobFault = none ∧ spread.desc.dist = true ∧
    (Run.mk spread [] none).ask = none ∧ (Run.mk spread [] none).st.phase ≠ .ended ∧
    (Run.mk { spread with phase := .ended, src := .cmd {} } [] none).st.phase = .ended ∧
    (Run.mk { spread with phase := .ended } [] none).st.src = .entry 0 ∧ prodStep.job.inStep = true ∧
    (dyn3.dynDone [3] = false) ∧ (engine3 { dyn := some { fields := [3], next := 6, stop := 6 } }).dynDone [3] = true := by
  and_intros <;> decide +kernel

/-- The group of trees with the first byte of its inputs under a poisoned line. -/
def dynBad : State :=
  { engine3 { dyn := some { fields := [3], stop := 6 } } with mem := { umberMem.mem with poison := [0] } }

theorem test_witness_group_poisoned : ∃ a, dynBad.groupPoisoned { fields := [3], stop := 6 } 4 = some a :=
  some_exists (by decide +kernel)

/-- A channel port and an output port in the middle of a grant, and a channel that is fenced. -/
def granted : State := (base.setArb 319 { cur := some { chanReq with rest := 3 }, busyUntil := 9 }).setArb 391 { cur := some chanReq }

theorem test_witness_grant_others : (granted.arb 319).cur = some { chanReq with rest := 3 } ∧
    granted.now < (granted.arb 319).busyUntil ∧ ((at_ 9 granted).arb 319).busyUntil ≤ (at_ 9 granted).now ∧
    (granted.arb 391).cur = some chanReq ∧ 384 ≤ 391 ∧ (chan319 { fenced := true }).grants 319 = false ∧
    ((chan319 { fenced := true }).arb 319).cur = none ∧
    (∀ e ∈ [{ chanReq with stamp := 5 }], ((chan319 { fenceAt := 4 }).chan 319).fenceAt < e.stamp) ∧
    ((chan319 { fenceAt := 4 }).winner 319 [{ chanReq with stamp := 5 }]).isSome = true := by
  and_intros <;> decide +kernel

/-- The product's step with a stream of its own in slot 7 of unit 223, not active yet. -/
def streamStep : State := { prodStep with job := { prodStep.job with img := some { imageOf {} 0 with
  streams := [({ entry := 0, unit := 223, slot := 7, sect := 0, off := 0 }, { mbase := hbmLine, ext := [4], fmt := 2, ndim := 1 })] } } }

theorem test_witness_activate : (streamStep.slot 223 7).desc = none ∧ streamStep.job.inStep = true ∧
    (∃ r, (streamStep.slotRefs 223 7).find? (fun r =>
      !streamStep.endedEnt r.1.entry && !(streamStep.tile 223).cancelled.contains (r.1.entry, 7)) = some r ∧
      streamStep.landKept 223 r = false) ∧
    base.job.inStep = false ∧ (slot7 true { asked := 1 }).mayAsk 223 ((slot7 true { asked := 1 }).slot 223 7)
      { write := true, entry := 0 } = false := by
  refine ⟨rfl, rfl, ⟨_, rfl, ?_⟩, rfl, ?_⟩ <;> decide +kernel

theorem test_witness_channels_others : (base.setChan 255 { lastRefresh := 1 }).refreshDue 255 = false ∧
    ((chan319 { fenced := true }).chan 319).fenced = true ∧ chanGroup 319 = chanGroup 318 ∧ 319 ≠ 318 ∧
    base.retrainTrigger 319 = false ∧ (base.chan 319).fenced = false ∧ (base.chan 319).failed = false ∧
    ({ base with job := { base.job with inSable := true } } : State).job.inSable = true := by
  and_intros <;> decide +kernel

/-- A message of node 0 to itself, whose context has or has not started the round. -/
def toSelf (x : CtxSt) : State :=
  let s := ring0 x
  s.setCtx 20 { s.ctx 20 with peers := [{ x := 0, pctx := 20 }] }
def selfHdr : MsgHdr := { ctx := 20 }

theorem test_witness_self :
    ((toSelf { active := true, send := [{ credits := 1 }] }).buildMsg 20 0 0).map (fun m => (m.hdr.dstX, m.hdr.dstY, m.hdr.dstZ)) =
      some (0, 0, 0) ∧ (toSelf { active := true }).selfReady selfHdr = true ∧ (toSelf {}).selfReady selfHdr = false ∧
    (ring0 { active := true }).mayStartRound 20 = false ∧ ((ring0 { active := true, send := [{ credits := 0 }] }).ctx 20).send[0]? = some { credits := 0 } ∧
    (base.ctx 20).cfg.kind ≠ 7 := by
  and_intros <;> decide +kernel

theorem test_witness_message_others : ({ msg1 with hdr := { msg1.hdr with mkind := 2 } } : Msg).hdr.mkind = 2 ∧
    ({ msg1 with hdr := { msg1.hdr with mkind := 1 } } : Msg).hdr.mkind = 1 ∧
    ({ msg1 with hdr := { msg1.hdr with ctx := 0 } } : Msg).hdr.ctx = 0 ∧ 2 < ({ msg1.hdr with mkind := 3 } : MsgHdr).mkind := by
  decide

theorem test_witness_resend_others : (at_ 0 (kept 1)).now < 1800 * (at_ 0 (kept 1)).kvNat kAckTimeout + 0 ∧
    ({ kept 1 with ports := List.replicate 8 {} } : State).routeUp (1, 0, 0) = false ∧
    ({ kept 1 with torus := { (kept 1).torus with heldSwitch := [(0, 0, 0, 1)] } } : State).switching (1, 0, 0) = true ∧
    (base.ctx 20).send.getD 0 {} = {} ∧ ({ kept 9 with job := { (kept 9).job with jobFault := some 1 } } : State).job.jobFault ≠ none ∧
    (∃ q ∈ (kept 1).exch.ctxs, q.1 = 20) ∧ ((kept 1).ctx 20).peers[0]?.map (fun p => (p.x, p.y, p.z)) = some (1, 0, 0) := by
  refine ⟨?_, ?_, ?_, ?_, ?_, ?_, ?_⟩
  rotate_left 5
  · exact ⟨((kept 1).exch.ctxs.headD (20, {})), by decide +kernel, by decide +kernel⟩
  all_goals decide +kernel

/-! ### Results the spec states -/

/-- 03, Pewter8 truncation example: the block's two small products differ after truncation; the output is 0xB7800000. -/
theorem test_dot_pewter8 : addBlock 32 0 ([(0x78, 0x78), (0xF8, 0x78), (0x01, 0x81), (0x01, 0x01)].map (fun p =>
    (decodeVal .pewter8 p.1 0 0, decodeVal .pewter8 p.2 0 0))) = (0xB7800000, 1) := by decide +kernel

def bf (l : List (Nat × Nat)) : List (DVal × DVal) := l.map (fun p => (decodeVal .bf16 p.1 0 0, decodeVal .bf16 p.2 0 0))

/-- 03, BF16 block example: two roundings per block give 0x4B800001; with the pair moved, 0x4B800002. -/
theorem test_dot_bf16 :
    (addBlock 40 (addBlock 40 0 (bf [(0x4580, 0x4580), (0x3F80, 0x3F80)])).1 (bf [(0x3F80, 0x3F80), (0x3F80, 0x3F80)])).1 = 0x4B800001 ∧
    (addBlock 40 (addBlock 40 0 (bf [(0x4580, 0x4580)])).1 (bf [(0x3F80, 0x3F80), (0x3F80, 0x3F80), (0x3F80, 0x3F80)])).1
      = 0x4B800002 := by decide +kernel

/-- 03, the FP64 chain example: +0, `inexact` at k = 1. -/
theorem test_dot_fp64 :
    let v (c : Nat) := decodeVal .fp64 c 0 0
    let a0 := chainStep 0 (v 0x4340000000000000, v 0x3FF0000000000000)
    let a1 := chainStep a0.1 (v 0x3FF0000000000000, v 0x3FF0000000000000)
    (chainStep a1.1 (v 0xC340000000000000, v 0x3FF0000000000000)).1 = 0 ∧ a1.2 = 1 ∧ a0.2 = 0 := by decide +kernel

/-- 02 R61's example of stochastic rounding into BF16. -/
theorem test_stochastic : (convert .bf16 2 (0x9A0000 * 2 ^ 40) 0 (decodeVal .fp32 0x3F806000 0 0)).1 = 0x3F80 ∧
    (convert .bf16 2 (0xA00000 * 2 ^ 40) 0 (decodeVal .fp32 0x3F806000 0 0)).1 = 0x3F81 := by decide +kernel

/-- 02, the Dove4/B16 block example: elements 10, -1, 0.75, 0.1875. -/
theorem test_block_dove4 :
    let b := encodeBlock .dove4b16 0 ([(0x41200000, 0), (0xBF800000, 0), (0x3F400000, 0), (0x3E400000, 0)].map (fun p =>
      (decodeVal .fp32 p.1 0 0, p.2)))
    b.scale = 0x80 ∧ b.codes.take 4 = [0x6, 0x9, 0x1, 0x0] := by decide +kernel

/-- 07, the norm and clipping example. -/
theorem test_clipping : (let r := normClip (9 * 2 ^ 32 * 2 ^ 298) 16 0x3FF0000000000000
    [r.norm, r.clip64, r.clip32, r.unscale32]) = [0x4008000000000000, 0x3FD5555555555555, 0x3EAAAAAB, 0x36AAAAAB] ∧
    pow2F32 16 = 0x47800000 := by decide +kernel

/-- 11, the admission example of R326, with and without rerouting. -/
theorem test_admission :
    let r : List (List Int) := [[3, 7, 11], [3, 11, 7], [7, 3, 5], [3, 7, 5], [11, 3, 7], [7, 11, 3]]
    let a := admission 2 2 true [3, 5, 7, 11] r
    let d (x : Admit) := (x.slots.filter (fun v => decide (v < 0))).length
    a.slots.map (fun v => if v < 0 then -1 else v) = [3 * 65536, 7 * 65536, 3 * 65536 + 1, 11 * 65536, 7 * 65536 + 1, 5 * 65536, 5 * 65536 + 1, -1,
      11 * 65536 + 1, -1, -1, -1] ∧ a.rerouted = 2 ∧ d a = 4 ∧ d (admission 2 2 false [3, 5, 7, 11] r) = 6 := by decide +kernel

/-- 06, the example of a fault on the fifth of sixteen: index 4 is 0x00080000. -/
def sixteen : State := prodStep.setSlate 0 { run := .running, vtype := some { fmt := .fp32, g := 1 }, vl := 16, x := [(1, 0x100000)]
                                             v := [(2, BitVec.ofNat 2048 (0x80000 * 2 ^ 128))] }
theorem test_gather_fault : ((nx (.vlx 0 { d := 4, a := 1, b := 2 }) sixteen).tile 0).slate.fault.map
    (fun f => (f.elem, f.cause, f.addr)) = some (4, 1, 0x300000) := by decide +kernel
theorem test_gather_resumable : let l := ((nx (.vlxs 0 { d := 4, a := 1, b := 2 } 3) sixteen).tile 0).slate
    (List.range 17).map (fun i => l.mbit 3 i) = List.replicate 4 true ++ List.replicate 13 false ∧ l.fault = none ∧
    l.run = .running := by decide +kernel

/-- 12, the alignment example: D of 275 and 269 cc and the margin 16 give 288 cc. -/
theorem test_alignment : linkLatOf 275 269 16 = 288 := by decide +kernel

/-- 10, the arbiter example: at cycle 117 slot 2 of the default wheel takes requester 7 ahead of the older requester 2; at cycle
122 slot 4 names class 0, none waits, and the oldest is requester 3. -/
theorem test_arbiter :
    let r3 : MemReq := { port := 320, cls := 1, req := 3, beats := 4, stamp := 117 }
    let r7 : MemReq := { port := 320, cls := 0, req := 7, beats := 1, stamp := 103 }
    let r2 : MemReq := { port := 320, cls := 2, req := 2, beats := 4, stamp := 104 }
    ((base.setArb 320 { ptr := 2 }).winner 320 [r2, r7, r3]).map (fun r => r.req) = some 7 ∧
    ((base.setArb 320 { ptr := 3 }).winner 320 [r2, r3]).map (fun r => r.req) = some 2 ∧
    ((base.setArb 320 { ptr := 4 }).winner 320 [r3]).map (fun r => r.req) = some 3 := by decide +kernel

/-- FIPS 180-4: SHA-512 of "abc"; and the CRC-32C of "123456789". -/
theorem test_digests : sha512 [0x61, 0x62, 0x63] = (toLe 64 0xddaf35a193617abacc417349ae20413112e6fa4e89a97ea20a9eeee64b55d39a2192992a274fc1a836ba3c23a3feebbd454d4423643ce80e2a9ac94fa54ca49f).reverse ∧
    sha512 [] = shaEmpty := by decide +kernel

/-! ### Single steps -/

/-- The status of the first reply in ring 0's completion ring, and its `detail`. -/
def replyOf (s : State) : Nat × Nat := (fieldLe (s.hostRd 0x20000 32) 1 1, fieldLe (s.hostRd 0x20000 32) 8 4)

/-- 14 R415, R417: an `ECHO` answers `OK`; a packet whose length is wrong answers `REFUSED_SHAPE` and 0x0002. -/
theorem test_echo : replyOf (nx (.echo (hd (.echo [1, 2])) [1, 2]) base) = (0, 0) ∧
    replyOf (nx (.identify { hd .identify with plen := 3 }) base) = (0x14, 0x0002) := by decide +kernel

/-- 14 R418: `HALT_AT_STEP` with no image bound answers `REFUSED_FIT` and 0x0201. -/
theorem test_halt_unbound : replyOf (nx (.haltAtStep (hd (.haltAtStep 4)) 4) base) = (0x10, 0x0201) := by decide +kernel

/-- 14 R428: `PORT_CTL` of port 8 answers `REFUSED_SHAPE` and 0x0003. -/
theorem test_port8 : replyOf (nx (.portCtlEnable (hd (.portCtl 8 0 0 0)) 8 0 0) base) = (0x14, 0x0003) := by decide +kernel

/-- 06 R150: FP32 at g = 8 grants 512 of 600. 06 R153: `sbnz` falls through on 0. -/
theorem test_setvl : ((nx (.setvl 223 5 3 .fp32 3) (kernel .fp32 1 4 [(3, 600)])).tile 223).slate.vl = 512 := by decide +kernel
theorem test_sbnz : ((nx (.sbnz 223 4 10) (kernel .fp32 1 4 [(3, 600)])).tile 223).slate.pc = 4 := by decide +kernel
/-- 06 R146: a write to s0 is discarded. -/
theorem test_s0 : ((nx (.sli 223 0 5) memKernel).tile 223).slate.xreg 0 = 0 := by decide +kernel

/-- 20 R541, 17 R478: a sensor at 110 °C trips the package; one at 109.9375 °C does not. -/
theorem test_trip : (nx (.thermalTrip [1760]) base).pwr.tripped = true ∧ (nx (.thermalTrip [1759]) base).pwr.tripped = false := by
  decide +kernel

/-- 10 R287: an access to an unmapped address faults. -/
theorem test_unmapped : exec (.memoryRequest { addr := 0x040000000000 }) base = .fault (.unmapped 0x040000000000) := by
  have h : base.hueMap 0x040000000000 = none := by decide +kernel
  show execMemoryRequest { addr := 0x040000000000 } base = _
  unfold execMemoryRequest
  rw [h]

/-- 17 R481: sleep is entered no earlier than 1 ms after the reply. -/
theorem test_sleep : (nx (.powerCtlSleep (hd (.powerCtl 14 2 0)) 0) base).pwr.sleepAt = some 1800000 := by decide +kernel

/-! ### The planned step's shared ports -/

/-- Three hops along x from node 0, as a planned flow. -/
def planFlow (e : Nat) : PlanFlow × Nat × Nat :=
  ({ entry := e, round := 0, node := 0, dst := 3, ctx := e + 1, cls := 1, msgs := [(16384, 0)]
     hops := (List.range 3).map (fun x => { at' := (x, 0, 0), link := 0, dir := 0, dl := 0 }) }, 0, 100)

/-- 16 R458 with 12 R365's flits: 198 + 69 slots of 144/125 + 3 hops of 414 + 162 cycles; a second message of the same
stamp follows the first's 69 slots at the shared ports (11 R552). -/
theorem test_play : (Play.run 0x1B2C 0x40404040 414 144 1000 { reqs := playStart [planFlow 0, planFlow 1] }).landing 0 0 = 1682 ∧
    (Play.run 0x1B2C 0x40404040 414 144 1000 { reqs := playStart [planFlow 0, planFlow 1] }).landing 1 0 = 1761 := by
  decide +kernel

end Sys2Proof.Tests
end

section
/-! SUPPORT. Ring registers and key writes: what a write of a ring's control register, of a BAR0 base register and of a key
leaves (00 R6, R7; 14 R406, R407, R427). -/

namespace Sys2Proof.Machine

/-! ### Host memory -/

@[simp] theorem State.hostWr_ring (s : State) (a : Nat) (bs : List Byte) (q : Nat) :
    (s.hostWr a bs).ring q = s.ring q := rfl

theorem State.hostRd_hostWr (s : State) (a : Nat) (bs : List Byte) : (s.hostWr a bs).hostRd a bs.length = bs :=
  Mem.readN_writeN ..

theorem State.hostRd_hostWr_apart {s : State} {a b n : Nat} {bs : List Byte} (h : b + n ≤ a ∨ a + bs.length ≤ b) :
    (s.hostWr a bs).hostRd b n = s.hostRd b n :=
  Mem.readN_writeN_apart h

/-! ### The latching of a ring (14 R407) -/

/-- A ring as its latching leaves it: the registers latched, the counts cleared, `r_run` set. -/
def Ring.latched (g : Ring) : Ring :=
  { g with lCr := g.crBase, lCq := g.cqBase, lRl := g.rlAddr, lSl := g.slAddr, lCrLog2 := g.crLog2
           lCqLog2 := g.cqLog2, lVec := g.vec, enWait := false, prodSeen := 0, cons := 0, cplProd := 0
           cplCons := 0, errcode := 0, lastSeq := 0, rRun := true }

theorem State.latchRing_eq (s : State) (r : Nat) : s.latchRing r =
    ((s.setRing r (s.ring r).latched).hostWr (hostAddr (s.ring r).rlAddr) (List.replicate 8 0)).hostWr
      (hostAddr (s.ring r).slAddr) (List.replicate 64 0) := rfl

theorem State.latchRing_ring {s : State} {r : Nat} (h : r < s.hostIf.rings.length) :
    (s.latchRing r).ring r = (s.ring r).latched := by
  simp [State.latchRing_eq, State.setRing_ring s h]

theorem State.latchRing_ring_ne {s : State} {r q : Nat} (h : q ≠ r) : (s.latchRing r).ring q = s.ring q := by
  simp [State.latchRing_eq, State.setRing_ring_ne s h]

theorem State.latchRing_statusLine (s : State) (r : Nat) :
    (s.latchRing r).hostRd (hostAddr (s.ring r).slAddr) 64 = List.replicate 64 0 := by
  simpa [State.latchRing_eq] using State.hostRd_hostWr _ (hostAddr (s.ring r).slAddr) (List.replicate 64 0)

theorem State.latchRing_ringLine {s : State} {r : Nat}
    (h : hostAddr (s.ring r).rlAddr + 8 ≤ hostAddr (s.ring r).slAddr ∨
      hostAddr (s.ring r).slAddr + 64 ≤ hostAddr (s.ring r).rlAddr) :
    (s.latchRing r).hostRd (hostAddr (s.ring r).rlAddr) 8 = List.replicate 8 0 := by
  rw [State.latchRing_eq, State.hostRd_hostWr_apart (by simpa using h)]
  simpa using State.hostRd_hostWr _ (hostAddr (s.ring r).rlAddr) (List.replicate 8 0)

/-! ### A write of the control register (00 R7; 14 R406, R407) -/

/-- A ring with the fields that a value of its control register sets. -/
def State.ctlFields (s : State) (r : Nat) (v : BitVec 32) : Ring :=
  { s.ring r with
    en := bitOf v.toNat 31, rErr := (s.ring r).errAfter s.now (bitOf v.toNat 29), cqLog2 := bits v.toNat 20 4
    crLog2 := bits v.toNat 16 4, vec := bits v.toNat 0 5 }

section
variable {s : State} {r : Nat} {v : BitVec 32}

theorem State.ctlFields_enable (h : bitOf v.toNat 31 = true) : s.ctlFields r v = { s.ring r with
    en := true, rErr := (s.ring r).errAfter s.now (bitOf v.toNat 29), cqLog2 := bits v.toNat 20 4
    crLog2 := bits v.toNat 16 4, vec := bits v.toNat 0 5 } := by
  rw [State.ctlFields, h]

theorem State.writeCtl_eq (s : State) (r : Nat) (v : BitVec 32) : s.writeCtl r v =
    if !bitOf v.toNat 31 then s.setRing r { s.ctlFields r v with rRun := false, enWait := false }
    else if !(s.ring r).en && !(s.ctlFields r v).rErr then
      if s.hostIf.ready then (s.setRing r (s.ctlFields r v)).latchRing r
      else s.setRing r { s.ctlFields r v with enWait := true }
    else s.setRing r (s.ctlFields r v) := rfl

theorem State.writeCtl_disable (hv : bitOf v.toNat 31 = false) :
    s.writeCtl r v = s.setRing r { s.ctlFields r v with rRun := false, enWait := false } := by
  simp [State.writeCtl_eq, hv]

theorem State.writeCtl_error (hv : bitOf v.toNat 31 = true) (he : (s.ctlFields r v).rErr = true) :
    s.writeCtl r v = s.setRing r (s.ctlFields r v) := by
  simp [State.writeCtl_eq, hv, he]

theorem State.writeCtl_waits (hv : bitOf v.toNat 31 = true) (hen : (s.ring r).en = false)
    (he : (s.ctlFields r v).rErr = false) (hr : s.hostIf.ready = false) :
    s.writeCtl r v = s.setRing r { s.ctlFields r v with enWait := true } := by
  simp [State.writeCtl_eq, hv, hen, he, hr]

theorem State.writeCtl_latches (hv : bitOf v.toNat 31 = true) (hen : (s.ring r).en = false)
    (he : (s.ctlFields r v).rErr = false) (hr : s.hostIf.ready = true) :
    s.writeCtl r v = (s.setRing r (s.ctlFields r v)).latchRing r := by
  simp [State.writeCtl_eq, hv, hen, he, hr]

theorem exec_ringEnable_off (hv : bitOf v.toNat 31 = true) (hen : (s.ring r).en = false) :
    exec (.ringEnable r v) s = .next (s.writeCtl r v) := by
  simp [exec, execRingEnable, hv, hen]

theorem exec_ringEnable_on (hen : (s.ring r).en = true) : exec (.ringEnable r v) s = .next s := by
  simp [exec, execRingEnable, hen]

theorem exec_ringDisable_zero (hv : bitOf v.toNat 31 = false) :
    exec (.ringDisable r v) s = .next (s.writeCtl r v) := by
  simp [exec, execRingDisable, hv]

end

theorem Ring.errAfter_kept (g : Ring) (now : Nat) : g.errAfter now false = g.rErr := by
  simp [Ring.errAfter]

theorem Ring.errAfter_cleared {g : Ring} {now : Nat} (h : g.errAt ≠ some now) : g.errAfter now true = false := by
  simp [Ring.errAfter, h]

theorem Ring.errAfter_sameCycle {g : Ring} {now : Nat} (h : g.errAt = some now) : g.errAfter now true = g.rErr := by
  simp [Ring.errAfter, h]

/-! ### BAR0 (00 R6; 14 R406) -/

section
variable {s : State} {r : Nat} {v : BitVec 64}

theorem exec_writeBar (s : State) (off : Nat) (v : BitVec 64) :
    exec (.registerWrite (.bar off v)) s = .next (s.writeBar off v) := rfl

/-- The address of a register of one ring's block gives the ring and the register's offset. -/
theorem barRing_block {o : Nat} (hr : r < 16) (ho : o < 256) : barRing (256 * r + o) = some (r, o) := by
  unfold barRing
  rw [if_pos (by omega), show (256 * r + o) / 0x100 = r by omega, show (256 * r + o) % 0x100 = o by omega]

theorem barRing_block_zero (hr : r < 16) : barRing (256 * r) = some (r, 0) :=
  barRing_block (o := 0) hr (by decide)

theorem State.writeBar_noRegister {off : Nat} (h : 0x1000 ≤ off ∨ off % 256 ∉ [0x00, 0x08, 0x10, 0x18, 0x20]) :
    s.writeBar off v = s := by
  unfold State.writeBar barRing
  by_cases hoff : off < 0x1000
  · have hreg : off % 256 ∉ [0x00, 0x08, 0x10, 0x18, 0x20] := h.resolve_left (by omega)
    simp only [List.mem_cons, List.not_mem_nil, or_false, not_or] at hreg
    obtain ⟨h0, h1, h2, h3, h4⟩ := hreg
    simp [hoff, h0, h1, h2, h3, h4]
  · simp [hoff]

end

/-! ### Key writes (00 R7; 14 R427) -/

section
variable {s : State} {k : Nat} {v : BitVec 64}

theorem exec_writeKey (hw : s.writeRefusal k v = none) (hs : s.startRefused k v = false) :
    exec (.registerWrite (.key k v)) s = .next (s.writeKey k v) := by
  simp [exec, execRegisterWrite, hw, hs]

theorem exec_writeKey_refused (h : (s.writeRefusal k v).isSome = true ∨ s.startRefused k v = true) :
    exec (.registerWrite (.key k v)) s = .next s := by
  simp [exec, execRegisterWrite, h]

end

section
variable {r : KeyRow} {old v : BitVec 64}

theorem KeyRow.newValue_ro (h : r.acc = .ro) : r.newValue old v = old := by
  simp [KeyRow.newValue, h]

theorem KeyRow.newValue_w1c (h : r.acc = .w1c) :
    r.newValue old v = old &&& ~~~(v &&& ~~~(BitVec.ofNat 64 r.roBits)) := by
  simp [KeyRow.newValue, h]

theorem KeyRow.newValue_writable (h : r.acc = .rw ∨ r.acc = .rwl) :
    r.newValue old v = (v &&& ~~~(BitVec.ofNat 64 r.roBits)) ||| (old &&& BitVec.ofNat 64 r.roBits) := by
  rcases h with h | h <;> simp [KeyRow.newValue, h]

theorem KeyRow.newValue_writable_bit (h : r.acc = .rw ∨ r.acc = .rwl) {k : Nat} (hk : k < 64) :
    (r.newValue old v).getLsbD k = if r.roBits.testBit k then old.getLsbD k else v.getLsbD k := by
  rw [KeyRow.newValue_writable h]
  simp only [BitVec.getLsbD_or, BitVec.getLsbD_and, BitVec.getLsbD_not, BitVec.getLsbD_ofNat, hk]
  cases r.roBits.testBit k <;> simp

end

/-! ### The statement's clauses, assembled -/

/-- An enable without an error on a ready device latches the ring and leaves the others (14 R407). -/
theorem ringEnable_latches {s : State} {r : Nat} {v : BitVec 32} (hlt : r < s.hostIf.rings.length)
    (hv : bitOf v.toNat 31 = true) (hen : (s.ring r).en = false) (he : (s.ctlFields r v).rErr = false)
    (hr : s.hostIf.ready = true) :
    ∃ t, exec (.ringEnable r v) s = .next t ∧ t.ring r = (s.ctlFields r v).latched ∧
      (∀ q, q ≠ r → t.ring q = s.ring q) ∧
      t.hostRd (hostAddr (s.ctlFields r v).slAddr) 64 = List.replicate 64 0 ∧
      (hostAddr (s.ctlFields r v).rlAddr + 8 ≤ hostAddr (s.ctlFields r v).slAddr ∨
          hostAddr (s.ctlFields r v).slAddr + 64 ≤ hostAddr (s.ctlFields r v).rlAddr →
        t.hostRd (hostAddr (s.ctlFields r v).rlAddr) 8 = List.replicate 8 0) := by
  have hring := State.setRing_ring s (x := s.ctlFields r v) hlt
  refine ⟨_, by rw [exec_ringEnable_off hv hen, State.writeCtl_latches hv hen he hr], ?_, fun q hq => ?_, ?_, fun h => ?_⟩
  · rw [State.latchRing_ring (by simpa using hlt), hring]
  · rw [State.latchRing_ring_ne hq, State.setRing_ring_ne s hq]
  · simpa [hring] using State.latchRing_statusLine (s.setRing r (s.ctlFields r v)) r
  · simpa [hring] using State.latchRing_ringLine (s := s.setRing r (s.ctlFields r v)) (r := r) (by rwa [hring])

/-- Settles O17: each clause is one case of the control register's write, of BAR0's registers or of a key's access. -/
theorem ringRegisters : Obligations.RingRegisters := by
  unfold Obligations.RingRegisters
  refine ⟨?enable, fun s r v _ hen => exec_ringEnable_on hen, ?disable, ?error, ?bases, ?lines, ?ctl, ?none,
    fun s k v hw hs => exec_writeKey hw hs, fun s k v h => exec_writeKey_refused h, ?access⟩
  case enable =>
    intro s r v g hlt hv hen hg
    rw [← State.ctlFields_enable hv] at hg
    subst hg
    refine ⟨fun he => ?_, fun he hr => ?_, fun he hr => ringEnable_latches hlt hv hen he hr⟩
    · rw [exec_ringEnable_off hv hen, State.writeCtl_error hv he]
    · rw [exec_ringEnable_off hv hen, State.writeCtl_waits hv hen he hr]
  case disable =>
    intro s r v _ hv
    rw [exec_ringDisable_zero hv, State.writeCtl_disable hv, State.ctlFields, hv]
  case error => exact fun g now => ⟨g.errAfter_kept now, Ring.errAfter_cleared, Ring.errAfter_sameCycle⟩
  case bases =>
    intro s r v m hr hm
    subst hm
    refine ⟨?_, ?_, fun hlt => ⟨?_, ?_⟩⟩
    · simp [exec_writeBar, State.writeBar, barRing_block_zero hr]
    · simp [exec_writeBar, State.writeBar, barRing_block hr]
    · simp [State.readBar, barRing_block_zero hr, State.setRing_ring s hlt]
    · simp [State.readBar, barRing_block hr, State.setRing_ring s hlt]
  case lines =>
    intro s r v m hr hm
    subst hm
    refine ⟨?_, ?_, fun hlt => ⟨?_, ?_⟩⟩
    · simp [exec_writeBar, State.writeBar, barRing_block hr]
    · simp [exec_writeBar, State.writeBar, barRing_block hr]
    · simp [State.readBar, barRing_block hr, State.setRing_ring s hlt]
    · simp [State.readBar, barRing_block hr, State.setRing_ring s hlt]
  case ctl =>
    intro s r v hr
    simp [exec_writeBar, State.writeBar, barRing_block hr]
  case none =>
    intro s off v h
    rw [exec_writeBar, State.writeBar_noRegister h]
  case access =>
    exact fun r old v => ⟨KeyRow.newValue_ro, KeyRow.newValue_w1c, fun h k hk => KeyRow.newValue_writable_bit h hk⟩

end Sys2Proof.Machine
end

section
/-! SUPPORT. The boundary of a step: what each piece of its work leaves of the job, so that no step is in progress after
it (01 R25; 07 R179, R198; 14 R421; 16 R451). -/

namespace Sys2Proof.Machine

/-! ### Runs of operations that leave the job alone -/

theorem State.foldl_job {α : Type} {f : State → α → State} (h : ∀ x a, (f x a).job = x.job) (l : List α) (s : State) :
    (l.foldl f s).job = s.job :=
  List.foldlRecOn (motive := fun x => x.job = s.job) l f rfl fun x hx a _ => (h x a).trans hx

/-- The shape in which the checkpoints and the host's work go through the commands (14 R419, R422). -/
theorem State.foldl_started_job {f : State → Cmd → State} (h : ∀ x c, (f x c).job = x.job) (l : List Cmd) (s : State) :
    (l.foldl (fun x c => if c.started then f x c else x) s).job = s.job :=
  foldl_job (fun x c => by split <;> simp [h]) l s

/-! ### The fold (02 R68) -/

section
variable (s : State)

@[simp] theorem State.keyEffect_job (k : Nat) (old : BitVec 64) : (s.keyEffect k old).job = s.job := by
  unfold State.keyEffect
  split
  case isTrue => split <;> simp
  case isFalse => split <;> simp

@[simp] theorem State.foldWrite_job (p : Nat × BitVec 64) : (s.foldWrite p).job = s.job := by
  unfold State.foldWrite; split <;> simp

@[simp] theorem State.fold_job : s.fold.job = s.job := by
  simp [State.fold, State.foldl_job State.foldWrite_job,
    State.foldl_job fun (x : State) (p : Nat × Nat) => x.countNow_job p.1 p.2]

/-! ### The outcome (07 R179) -/

@[simp] theorem State.applyFaultN_outcome : s.applyFaultN.job.outcome = s.job.outcome := by
  unfold State.applyFaultN; split <;> rfl

theorem State.decideStep_combined {s : State} {v : VerdictMsg} (h : s.job.combined = some v) :
    s.decideStep = (s.applyOutcome v).applyFaultN := by
  rw [State.decideStep, h]

theorem State.decideStep_plain {s : State} (h : s.job.combined = none) : s.decideStep = s.applyPlain.applyFaultN := by
  rw [State.decideStep, h]

theorem State.decideStep_outcome_isSome : s.decideStep.job.outcome.isSome = true := by
  cases h : s.job.combined with
  | some v => rw [State.decideStep_combined h, State.applyFaultN_outcome]; rfl
  | none => rw [State.decideStep_plain h, State.applyFaultN_outcome]; rfl

/-! ### The step closed (02 R68; 16 R461) -/

@[simp] theorem State.timeRecord_job (n : Nat) : (s.timeRecord n).job = s.job := by simp [State.timeRecord]

@[simp] theorem State.endVerdictRound_job : s.endVerdictRound.job = s.job := by simp [State.endVerdictRound]

/-- The job as the close of its step leaves it. -/
def Job.closed (j : Job) (now : Nat) : Job :=
  { j with inStep := false, inSable := true, stepEnd := now, fault := false, liveryMismatch := false
           combined := none, ents := [] }

@[simp] theorem State.closeStep_job (n : Nat) : (s.closeStep n).job = s.job.closed s.now := by
  simp [State.closeStep, Job.closed]

/-! ### Checkpoints (07 R198; 14 R422) -/

@[simp] theorem State.capture_job (c : Cmd) : (s.capture c).job = s.job := by
  unfold State.capture
  split
  case h_1 =>
    split
    case isTrue => simp
    case isFalse => dsimp only; split <;> simp
  case h_2 => simp
  case h_3 => rfl

@[simp] theorem State.captureAll_job : s.captureAll.job = s.job :=
  State.foldl_started_job State.capture_job s.hostIf.cmds s

/-! ### The Sable window (10 R286, R300 to R303; 14 R419) -/

@[simp] theorem State.upkeep_job (c : Nat) : (s.upkeep c).job = s.job := rfl

@[simp] theorem State.retrainChan_job (c : Nat) : (s.retrainChan c).job = s.job := by simp [State.retrainChan]

@[simp] theorem State.memCe_job (c : Nat) : (s.memCe c).job = s.job := by simp [State.memCe, State.corrected]

@[simp] theorem State.memUe_job (a : Nat) : (s.memUe a).job = s.job := by
  unfold State.memUe; dsimp only; split <;> simp

@[simp] theorem State.scrubErr_job (e : Nat × Bool) : (s.scrubErr e).job = s.job := by
  unfold State.scrubErr
  split
  case isTrue => split <;> simp
  case isFalse => simp

@[simp] theorem State.post_job (r : MemReq) : (s.post r).job = s.job := by
  unfold State.post; split <;> simp [State.park]

@[simp] theorem State.serveCxl_job (r : CxlReq) : (s.serveCxl r).job = s.job := by
  unfold State.serveCxl; dsimp only; split <;> simp

@[simp] theorem State.serveHeld_job : s.serveHeld.job = s.job :=
  List.foldlRecOn (motive := fun x : State × List CxlReq => x.1.job = s.job) s.hostIf.memHeld _ rfl
    fun x hx r _ => by split <;> simp [hx]

@[simp] theorem State.copyLines_job (n : Nat) (src dst : Bool × Nat) (k : Nat) (s : State) :
    (s.copyLines n src dst k).1.job = s.job := by
  induction n generalizing src dst k s with
  | zero => rfl
  | succ n ih =>
    unfold State.copyLines
    split
    case isTrue => rfl
    case isFalse => simp [ih]

@[simp] theorem State.doCopy_job (h : Hdr) (src dst : Bool × Nat) (len : Nat) : (s.doCopy h src dst len).job = s.job := by
  unfold State.doCopy; dsimp only; split <;> simp

@[simp] theorem State.doFill_job (h : Hdr) (dst : Bool × Nat) (len pat : Nat) : (s.doFill h dst len pat).job = s.job := by
  simp [State.doFill]

@[simp] theorem State.bulk_job (c : Cmd) : (s.bulk c).job = s.job := by
  unfold State.bulk
  split
  case h_1 => split <;> simp
  case h_2 => split <;> simp
  case h_3 => rfl

@[simp] theorem State.startSolve_job (src : UmberSrc) (d : SolveDesc) (fs : List Nat) :
    (s.startSolve src d fs).job = s.job := by
  simp [State.startSolve, State.foldl_job fun (x : State) (g : Nat) => x.setEngine_job g { x.engine g with cfgJ := false }]

@[simp] theorem State.startDyn_job (src : UmberSrc) (d : DynDesc) (m : Model) (ps : List Int) (fs : List Nat) :
    (s.startDyn src d m ps fs).job = s.job := by
  unfold State.startDyn
  refine State.foldl_job (fun x f => ?_) fs.zipIdx s
  rfl

@[simp] theorem State.takeEngines_job (c : Cmd) : (s.takeEngines c).job = s.job := by
  unfold State.takeEngines
  split
  case isTrue => rfl
  case isFalse =>
    split
    case h_1 =>
      split
      case h_1 => simp
      case h_2 => split <;> simp
    case h_2 =>
      split
      case h_1 => simp
      case h_2 => split <;> simp
    case h_3 => rfl

@[simp] theorem State.hostWork_job : s.hostWork.job = s.job := by
  simp [State.hostWork, State.foldl_started_job State.takeEngines_job, State.foldl_started_job State.bulk_job]

@[simp] theorem State.sableWork_job (i : BoundaryInfo) : (s.sableWork i).job = s.job := by
  simp [State.sableWork, State.foldl_job State.scrubErr_job, State.foldl_job State.retrainChan_job,
    State.foldl_job State.upkeep_job]

/-! ### The operating point (17 R475 to R477) -/

@[simp] theorem State.settlePoint_job : s.settlePoint.job = s.job := by
  unfold State.settlePoint
  split
  case h_1 => split <;> simp [State.takePoint]
  case h_2 => rfl

@[simp] theorem State.reportTriggers_job (old new : Nat) : (s.reportTriggers old new).job = s.job :=
  State.foldl_job (fun x i => by split <;> simp) (List.range 4) s

@[simp] theorem State.pointBoundary_job (t len : Nat) : (s.pointBoundary t len).job = s.job := by
  simp [State.pointBoundary]

@[simp] theorem State.pointAfterStep_job (i : BoundaryInfo) (n : Nat) : (s.pointAfterStep i n).job = s.job := by
  simp [State.pointAfterStep, State.powerTrigger, State.sensorTriggers, State.takeReadings]

/-! ### The replies that fall due (14 R421) -/

@[simp] theorem State.stepCounted_job : s.stepCounted.job = s.job := rfl

@[simp] theorem State.endRun_job (status detail : Nat) : (s.endRun status detail).job = s.job := by
  unfold State.endRun; split <;> simp

@[simp] theorem State.runEnds_inStep : s.runEnds.job.inStep = s.job.inStep := by
  unfold State.runEnds
  split
  case h_1 => rfl
  case h_2 =>
    split
    case h_1 => simp
    case h_2 =>
      split
      case isTrue => simp
      case isFalse =>
        split
        case isTrue => simp
        case isFalse =>
          split
          case h_1 => split <;> simp
          case h_2 => rfl

/-! ### A waiting `UNLOAD` (13 R388; 14 R421; 19 R522, R527) -/

@[simp] theorem State.applySwitch_job (m : Nat × Nat × Nat × Nat) : (s.applySwitch m).job = s.job := by
  simp [State.applySwitch, State.joinPorts, apply_ite State.job,
    State.foldl_job fun (x : State) (p : Nat × Nat) => x.event_job (.rowPair p.1 p.2)]

@[simp] theorem State.applyHeld_job : s.applyHeld.job = s.job :=
  State.foldl_job State.applySwitch_job s.torus.heldSwitch s

@[simp] theorem State.warmReset_job : s.warmReset.job = noJob := by
  unfold State.warmReset; dsimp only; split <;> rfl

@[simp] theorem State.release_inStep : s.release.job.inStep = false := rfl

theorem State.activateNow_inStep {s : State} (h : s.job.inStep = false) : s.activateNow.job.inStep = false := by
  unfold State.activateNow
  split
  case h_1 => simp [noJob]
  case h_2 => exact h

@[simp] theorem State.unload_inStep (h : Hdr) : (s.unload h).job.inStep = false := by
  have hs : (((s.release).retire h { result := s.job.lastRun.toNat }).applyHeld.takeSnapshot).job.inStep = false := by
    simp [State.takeSnapshot]
  unfold State.unload
  dsimp only
  split
  case isTrue => exact State.activateNow_inStep hs
  case isFalse => exact hs

theorem State.unloadWaiting_inStep {s : State} (h : s.job.inStep = false) : s.unloadWaiting.job.inStep = false := by
  unfold State.unloadWaiting
  split
  case h_1 => simp
  case h_2 => exact h

/-! ### The boundary (01 R25; 07 R198; 16 R451) -/

/-- The planned length of the bound job's step, 0 with no binding. -/
def State.boundLen : Nat := match s.job.bound with | some b => b.planLen | none => 0

theorem State.boundLen_of_bound {s : State} {b : Bound} (h : s.job.bound = some b) : s.boundLen = b.planLen := by
  rw [State.boundLen, h]

/-- The work of a boundary whose step was planned to take `n` cycles: all of it but the fold of a device that no image runs on
any more. -/
def State.boundaryWork (i : BoundaryInfo) (n : Nat) : State :=
  (((s.decideStep.closeStep n).captureAll.sableWork i).pointAfterStep i n).stepCounted.runEnds.unloadWaiting

theorem State.boundaryNow_eq (i : BoundaryInfo) : s.boundaryNow i = (s.boundaryWork i s.boundLen).foldIfIdle := rfl

@[simp] theorem State.foldIfIdle_job : s.foldIfIdle.job = s.job := by
  unfold State.foldIfIdle; split <;> simp

theorem State.boundaryWork_inStep (i : BoundaryInfo) (n : Nat) : (s.boundaryWork i n).job.inStep = false := by
  unfold State.boundaryWork
  apply State.unloadWaiting_inStep
  simp [Job.closed]

theorem State.boundaryNow_inStep (i : BoundaryInfo) : (s.boundaryNow i).job.inStep = false := by
  rw [State.boundaryNow_eq, State.foldIfIdle_job, State.boundaryWork_inStep]

theorem exec_stepBoundary (i : BoundaryInfo) : exec (.stepBoundary i) s =
    .next (if s.boundaryDue then (s.tileErrors i).boundaryNow i else s) := rfl

end

/-- Settles O37: the order is the boundary's own, the outcome stands in both branches of `decideStep`, and nothing after the
step's close puts a step in progress again. -/
theorem stepBoundary : Obligations.StepBoundary := by
  unfold Obligations.StepBoundary
  refine ⟨?notDue, ?due, ?order, fun s v => State.decideStep_combined, fun s => State.decideStep_plain,
    State.decideStep_outcome_isSome, ?close, State.boundaryNow_inStep⟩
  case notDue =>
    intro s i h
    simp [exec_stepBoundary, h]
  case due =>
    intro s i h
    simp [exec_stepBoundary, h]
  case order =>
    intro s i b hb
    refine ⟨_, _, _, rfl, rfl, rfl, ?_⟩
    rw [State.boundaryNow_eq, State.boundLen_of_bound hb]
    rfl
  case close =>
    intro s n
    refine ⟨_, rfl, ?_⟩
    simp [Job.closed]

end Sys2Proof.Machine
end

section
/-! SUPPORT. Elements of a vector group: what a write of one element leaves of the registers, what the loop of a vector
instruction leaves of the lanes, and the floating-point and widening instructions by it (02 R50; 06 R148, R151, R153, R154,
R156 to R158, R160). -/

namespace Sys2Proof.Machine

/-! ### A field of a number replaced -/

theorem testBit_bits (v lo w j : Nat) : (bits v lo w).testBit j = (decide (j < w) && v.testBit (lo + j)) := by
  simp [bits]

/-- Taking a field out of a number and putting another in keeps the bits below and above it. -/
theorem replaceBits_eq (old sh w v : Nat) : old - bits old sh w * 2 ^ sh + v % 2 ^ w * 2 ^ sh =
    2 ^ sh * (2 ^ w * (old / 2 ^ sh / 2 ^ w) + v % 2 ^ w) + old % 2 ^ sh := by
  have hsplit : bits old sh w * 2 ^ sh + (2 ^ sh * (2 ^ w * (old / 2 ^ sh / 2 ^ w)) + old % 2 ^ sh) = old := by
    calc _ = 2 ^ sh * (2 ^ w * (old / 2 ^ sh / 2 ^ w) + old / 2 ^ sh % 2 ^ w) + old % 2 ^ sh := by
          rw [bits, Nat.shiftRight_eq_div_pow]; ring
      _ = old := by rw [Nat.div_add_mod, Nat.div_add_mod]
  rw [show old - bits old sh w * 2 ^ sh = 2 ^ sh * (2 ^ w * (old / 2 ^ sh / 2 ^ w)) + old % 2 ^ sh by omega]
  ring

theorem testBit_replaceBits (old sh w v j : Nat) : (old - bits old sh w * 2 ^ sh + v % 2 ^ w * 2 ^ sh).testBit j =
    if sh ≤ j ∧ j < sh + w then v.testBit (j - sh) else old.testBit j := by
  rw [replaceBits_eq, Nat.testBit_two_pow_mul_add _ (Nat.mod_lt _ (Nat.two_pow_pos sh)),
    Nat.testBit_two_pow_mul_add _ (Nat.mod_lt _ (Nat.two_pow_pos w))]
  by_cases hlo : j < sh
  · simp [hlo, Nat.not_le_of_lt hlo]
  · by_cases hhi : j < sh + w
    · simp [hlo, hhi, Nat.le_of_not_lt hlo, show j - sh < w by omega]
    · simp [hlo, hhi, show ¬ j - sh < w by omega, Nat.testBit_div_two_pow, show j - sh - w + w + sh = j by omega]

/-! ### One element written (06 R148) -/

section
variable {l : Slate} {r k ew i j v : Nat}

@[simp] theorem Slate.vreg_next : l.next.vreg k = l.vreg k := rfl

@[simp] theorem Slate.elem_next : l.next.elem r ew i = l.elem r ew i := rfl

theorem Slate.vreg_setV_same {x : BitVec 2048} (h : r < 32) : (l.setV r x).vreg r = x := by
  simp [Slate.setV, Slate.vreg, h]

theorem Slate.vreg_setV_ne {x : BitVec 2048} (h : k ≠ r) : (l.setV r x).vreg k = l.vreg k := by
  unfold Slate.setV
  split
  case isTrue => exact Tab.get_set_ne h
  case isFalse => rfl

/-- A write of an element touches the vector registers alone. -/
theorem Slate.next_setElem_rest {x : Tab (BitVec 2048)} :
    { (l.setElem r ew i v).next with v := x } = { l.next with v := x } := by
  unfold Slate.setElem Slate.setV
  dsimp only
  split <;> rfl

theorem Slate.vreg_setElem_ne (h : k ≠ r + i * ew / 2048) : (l.setElem r ew i v).vreg k = l.vreg k :=
  Slate.vreg_setV_ne h

theorem Slate.testBit_vreg_setElem (hk : k = r + i * ew / 2048) (h32 : k < 32) :
    ((l.setElem r ew i v).vreg k).toNat.testBit j =
      if i * ew % 2048 ≤ j ∧ j < i * ew % 2048 + ew then decide (j < 2048) && v.testBit (j - i * ew % 2048)
      else (l.vreg k).toNat.testBit j := by
  subst hk
  simp only [Slate.setElem, Slate.vreg_setV_same h32, BitVec.toNat_ofNat, Nat.testBit_mod_two_pow, testBit_replaceBits]
  split
  case isTrue => rfl
  case isFalse =>
    rw [BitVec.testBit_toNat, Bool.and_eq_right_iff_imp]
    exact fun h => decide_eq_true (BitVec.lt_of_getLsbD h)

theorem Slate.testBit_elem : (l.elem r ew i).testBit j =
    (decide (j < ew) && (l.vreg (r + i * ew / 2048)).toNat.testBit (i * ew % 2048 + j)) :=
  testBit_bits ..

/-- An element whose width divides a register's lies in one register. -/
theorem mul_mod_add_le (hew : ew ∣ 2048) (i : Nat) : i * ew % 2048 + ew ≤ 2048 := by
  have hlt : i * ew % 2048 < 2048 := Nat.mod_lt _ (by decide)
  have hdvd : ew ∣ 2048 - i * ew % 2048 := Nat.dvd_sub hew ((Nat.dvd_mod_iff hew).mpr (Nat.dvd_mul_left ..))
  have := Nat.le_of_dvd (by omega) hdvd
  omega

/-- A written element that fits lies in one of the 32 registers. -/
theorem reg_lt_of_fitsV (hpos : 0 < ew) (h : fitsV r ew (i + 1)) : r + i * ew / 2048 < 32 := by
  rw [fitsV, Nat.add_one_mul i ew] at h
  omega

theorem Slate.elem_setElem_same (hew : ew ∣ 2048) (h : fitsV r ew (i + 1)) :
    (l.setElem r ew i v).elem r ew i = v % 2 ^ ew := by
  have hin := mul_mod_add_le hew i
  have hpos : 0 < ew := Nat.pos_of_dvd_of_pos hew (by decide)
  have h32 : r + i * ew / 2048 < 32 := reg_lt_of_fitsV hpos h
  refine Nat.eq_of_testBit_eq fun j => ?_
  rw [Slate.testBit_elem, Slate.testBit_vreg_setElem rfl h32, Nat.testBit_mod_two_pow]
  by_cases hj : j < ew
  · simp [hj, show i * ew % 2048 + j < 2048 by omega]
  · simp [hj]

theorem elem_end_le (hij : i < j) (hreg : i * ew / 2048 = j * ew / 2048) : i * ew % 2048 + ew ≤ j * ew % 2048 := by
  have hle := Nat.mul_le_mul_right ew hij
  rw [Nat.succ_mul] at hle
  omega

/-- Two elements in one register share no bit. -/
theorem elems_apart (hij : i ≠ j) (hreg : i * ew / 2048 = j * ew / 2048) :
    i * ew % 2048 + ew ≤ j * ew % 2048 ∨ j * ew % 2048 + ew ≤ i * ew % 2048 :=
  (Nat.lt_or_gt_of_ne hij).imp (elem_end_le · hreg) (elem_end_le · hreg.symm)

theorem Slate.elem_setElem_ne (hew : 0 < ew) (h : fitsV r ew (i + 1)) (hij : j ≠ i) :
    (l.setElem r ew i v).elem r ew j = l.elem r ew j := by
  by_cases hreg : i * ew / 2048 = j * ew / 2048
  · refine Nat.eq_of_testBit_eq fun b => ?_
    have hsep := elems_apart hij hreg.symm
    rw [Slate.testBit_elem, Slate.testBit_elem, ← hreg, Slate.testBit_vreg_setElem rfl (reg_lt_of_fitsV hew h)]
    by_cases hb : b < ew
    · rw [if_neg (by omega)]
    · simp [hb]
  · rw [Slate.elem, Slate.vreg_setElem_ne (by omega), ← Slate.elem]

end

/-! ### The loop of a vector instruction (06 R151) -/

section
variable {l l' : Slate} {d dw n : Nat} {act : Nat → Bool} {r : Nat → Nat}

theorem Slate.Wrote.zero : l.Wrote l.next d dw 0 act r where
  elems i _ := by simp
  below _ _ := rfl
  rest := rfl

/-- Element `n` of the loop, left alone. -/
theorem Slate.Wrote.skip (hw : l.Wrote l'.next d dw n act r) (ha : act n = false) :
    l.Wrote l'.next d dw (n + 1) act r where
  elems i hi := by
    rw [hw.elems i hi]
    by_cases hin : i = n
    · simp [hin, ha]
    · simp [show i < n + 1 ↔ i < n by omega]
  below := hw.below
  rest := hw.rest

/-- Element `n` of the loop, written. -/
theorem Slate.Wrote.setElem (hw : l.Wrote l'.next d dw n act r) (hdw : dw ∣ 2048) (hfit : fitsV d dw (n + 1))
    (ha : act n = true) : l.Wrote (l'.setElem d dw n (r n)).next d dw (n + 1) act r where
  elems i hi := by
    by_cases hin : i = n
    · subst hin
      simp [Slate.elem_setElem_same hdw hfit, ha]
    · rw [Slate.elem_next, Slate.elem_setElem_ne (Nat.pos_of_dvd_of_pos hdw (by decide)) hfit hin,
        ← Slate.elem_next, hw.elems i hi]
      simp [show i < n + 1 ↔ i < n by omega]
  below k hk := by
    rw [Slate.vreg_next, Slate.vreg_setElem_ne (by omega), ← Slate.vreg_next, hw.below k hk]
  rest := Slate.next_setElem_rest.trans hw.rest

/-- A loop that writes element i of width `dw` wherever `act` admits i leaves what `Slate.Wrote` says. -/
theorem Slate.wrote_foldl {f : Slate × Ev → Nat → Slate × Ev} {ev : Ev} (hdw : dw ∣ 2048) (hfit : fitsV d dw n)
    (hf : ∀ a i, (f a i).1 = if act i then a.1.setElem d dw i (r i) else a.1) :
    l.Wrote ((List.range n).foldl f (l, ev)).1.next d dw n act r := by
  induction n with
  | zero => exact Slate.Wrote.zero
  | succ n ih =>
    have hw := ih (hfit.trans' (by gcongr; omega))
    rw [List.range_succ, List.foldl_append, List.foldl_cons, List.foldl_nil, hf]
    split
    case isTrue ha => exact hw.setElem hdw hfit ha
    case isFalse ha => exact hw.skip (by simpa using ha)

/-- `Slate.each` with a result for every element. -/
theorem Slate.wrote_each {mu : Bool} {msk : Nat} {f : Nat → Slate → Slate × Ev} (hdw : dw ∣ 2048) (hfit : fitsV d dw l.vl)
    (hf : ∀ i x, (f i x).1 = x.setElem d dw i (r i)) :
    l.Wrote (l.each mu msk f).1.next d dw l.vl (fun i => l.active mu msk i) r := by
  refine Slate.wrote_foldl hdw hfit fun a i => ?_
  split
  case isTrue => exact hf i a.1
  case isFalse => rfl

end

/-! ### A vector instruction of a running kernel (06 R147, R149) -/

@[simp] theorem State.raise_slate (s : State) (u : Nat) (d : Decl) (e : Ev) :
    ((s.raise u d e).tile u).slate = (s.tile u).slate := by
  simp [State.raise]

section
variable {s : State} {u : Nat} {t : VType} {l : Slate} {f : VType → Slate → Slate × Ev}

theorem Lanes.vectorOp (h : Lanes s u t l) :
    s.vectorOp u f = (s.setSlate u (f t l).1.next).raise u (s.declOf l.entry) (f t l).2 := by
  obtain ⟨hruns, rfl, hv⟩ := h
  simp [State.vectorOp, hruns, hv]

theorem Lanes.vectorOp_mem (h : Lanes s u t l) : (s.vectorOp u f).mem = s.mem := by
  simp [h.vectorOp]

theorem Lanes.vectorOp_slate (h : Lanes s u t l) : ((s.vectorOp u f).tile u).slate = (f t l).1.next := by
  simp [h.vectorOp]

variable {c : Instr}

/-- An instruction that is a vector operation writes the elements that its loop writes, and no memory. -/
theorem Lanes.exec_wrote {d dw n : Nat} {act : Nat → Bool} {r : Nat → Nat} (h : Lanes s u t l)
    (hc : exec c s = .next (s.vectorOp u f)) (hw : l.Wrote (f t l).1.next d dw n act r) :
    ∃ x, exec c s = .next x ∧ x.mem = s.mem ∧ l.Wrote (x.tile u).slate d dw n act r :=
  ⟨_, hc, h.vectorOp_mem, by rwa [h.vectorOp_slate]⟩

/-- An instruction that is a vector operation without a result only moves the pc on. -/
theorem Lanes.exec_passed (h : Lanes s u t l) (hc : exec c s = .next (s.vectorOp u f)) (hf : f t l = (l, {})) :
    ∃ x, exec c s = .next x ∧ x.mem = s.mem ∧ (x.tile u).slate = { l with pc := l.pc + 4 } :=
  ⟨_, hc, h.vectorOp_mem, by rw [h.vectorOp_slate, hf]; rfl⟩

end

/-! ### The widths of the lanes' formats (06 R148, R156) -/

theorem bits_dvd_of_laneFmt {f : Fmt} (h : laneFmt f = true) : Fmt.bits f ∣ 2048 := by
  revert h; cases f <;> decide

theorem laneFmt_of_wmulDst {f dst : Fmt} (h : wmulDst f = some dst) : laneFmt dst = true := by
  revert h; cases f <;> cases dst <;> decide

/-- A destination element of `vdot` is as wide as the source elements it comes from. -/
theorem widths_of_dotDst {f dst : Fmt} {w : Nat} (h : dotDst f = some (dst, w)) :
    laneFmt dst = true ∧ Fmt.bits dst = w * Fmt.bits f := by
  revert h
  cases f <;> simp [dotDst] <;> rintro rfl rfl <;> decide

theorem fitsV_of_dotDst {f dst : Fmt} {d w n : Nat} (h : dotDst f = some (dst, w)) (hfit : fitsV d (Fmt.bits f) n) :
    fitsV d (Fmt.bits dst) (n / w) := by
  obtain ⟨_, hbits⟩ := widths_of_dotDst h
  calc 2048 * d + n / w * Fmt.bits dst = 2048 * d + n / w * w * Fmt.bits f := by rw [hbits, Nat.mul_assoc]
    _ ≤ 2048 * d + n * Fmt.bits f := by gcongr; exact Nat.div_mul_le_self n w
    _ ≤ 65536 := hfit

/-- Settles O47: each instruction is the loop of `Slate.wrote_foldl`, at the width of its destination's format. -/
theorem slateFloatElements : Obligations.SlateFloatElements := by
  unfold Obligations.SlateFloatElements
  rintro s u t l o _ h hfmt rfl hfit
  have hew := bits_dvd_of_laneFmt hfmt
  refine ⟨?vf, ?vfma, ?vwmul, ?noWiden, ?vdot, ?noDot, ?vcvt⟩
  case vf =>
    exact fun rm op => h.exec_wrote rfl (Slate.wrote_each hew hfit fun _ _ => rfl)
  case vfma =>
    exact fun rm op => h.exec_wrote rfl (Slate.wrote_each hew hfit fun _ _ => rfl)
  case vwmul =>
    intro rm acc dst hdst hfitD
    refine h.exec_wrote rfl ?_
    simp only [hdst]
    exact Slate.wrote_each (bits_dvd_of_laneFmt (laneFmt_of_wmulDst hdst)) hfitD fun _ _ => rfl
  case noWiden =>
    intro rm acc hnone
    refine h.exec_passed rfl ?_
    simp only [hnone]
  case vdot =>
    intro rm four dst w hdst hw
    obtain ⟨hlane, _⟩ := widths_of_dotDst hdst
    refine h.exec_wrote rfl ?_
    simp only [hdst, if_pos hw]
    refine Slate.wrote_foldl (bits_dvd_of_laneFmt hlane) (fitsV_of_dotDst hdst hfit) fun a j => ?_
    split <;> rfl
  case noDot =>
    intro rm four hno
    refine h.exec_passed rfl ?_
    cases hdst : dotDst t.fmt with
    | none => rfl
    | some p =>
      have hw : p.2 ≠ if four then 4 else 2 := fun e => hno p.1 (by rw [hdst, ← e])
      simp only [if_neg hw]
  case vcvt =>
    exact fun cvt dst hlane hfitD => h.exec_wrote rfl
      (Slate.wrote_each (bits_dvd_of_laneFmt hlane) hfitD fun _ _ => rfl)

end Sys2Proof.Machine
end

section
/-! SUPPORT. Output tiles of products and Swatch's recomputation: when a tile may finish, and what a finished tile, a stopped
product and a recomputed tile leave (04 R91, R101, R103, R107; 07 R193, R194, R197). -/

namespace Sys2Proof.Machine

/-! ### When an output tile may finish (04 R101, R103; 10 R280) -/

section
variable {s : State} {u e i j : Nat} {d : ProdDesc} {row : DotRow} {ue : Bool}

/-- `TileDue` is the condition that `PRODUCT_OUTPUT_TILE` checks. -/
theorem tileDue_iff : TileDue s u e d i j ↔
    (s.running e && decide (i < (prodTiles d).1) && decide (j < (prodTiles d).2) &&
      s.owns (s.entryOf e) u (j + (prodTiles d).2 * i) && !(s.tile u).stopped.contains (e, d.arr) &&
      !(s.tile u).work.contains (e, j + (prodTiles d).2 * i) && s.tileAvoids u d i j (s.unlanded u e)) = true := by
  simp only [Bool.and_eq_true, decide_eq_true_eq, Bool.not_eq_true']
  constructor
  · rintro ⟨hruns, ⟨hi, hj⟩, hown, hgoing, hfresh, hlanded⟩
    exact ⟨⟨⟨⟨⟨⟨hruns, hi⟩, hj⟩, hown⟩, hgoing⟩, hfresh⟩, hlanded⟩
  · rintro ⟨⟨⟨⟨⟨⟨hruns, hi⟩, hj⟩, hown⟩, hgoing⟩, hfresh⟩, hlanded⟩
    exact ⟨hruns, ⟨hi, hj⟩, hown, hgoing, hfresh, hlanded⟩

theorem doProductTile_noProduct (h : s.prodOf e = none) : doProductTile s u e i j ue = s := by
  simp only [doProductTile, h]

theorem doProductTile_notDue (hp : s.prodOf e = some (d, row)) (h : ¬ TileDue s u e d i j) :
    doProductTile s u e i j ue = s := by
  rw [tileDue_iff] at h
  simp only [doProductTile, hp, if_neg h]

theorem doProductTile_due (hp : s.prodOf e = some (d, row)) (h : TileDue s u e d i j) :
    doProductTile s u e i j ue = if ue || !s.tileAvoids u d i j (s.tile u).bad then stopProduct s u e d.arr
      else finishTile s u e i j d row := by
  rw [tileDue_iff] at h
  simp only [doProductTile, hp, if_pos h]

theorem State.inStep_of_running (h : s.running e = true) : s.job.inStep = true :=
  (Bool.and_eq_true_iff.mp h).1

end

/-! ### A product stopped (04 R103; 20 R533) -/

section
variable {s : State} {u e arr : Nat}

theorem State.contained_job_fault {r : FaultRec} (h : s.job.inStep = true) : (s.contained r).job.fault = true := by
  simp [State.contained, h]

theorem stopProduct_tile : (stopProduct s u e arr).tile u =
    { s.tile u with stopped := (e, arr) :: (s.tile u).stopped } := by
  rw [State.tile, stopProduct, State.contained_tiles]
  exact State.setTile_tile s

@[simp] theorem stopProduct_mem : (stopProduct s u e arr).mem = s.mem := by
  simp [stopProduct]

theorem stopProduct_fault (h : s.job.inStep = true) : (stopProduct s u e arr).job.fault = true :=
  State.contained_job_fault h

end

/-! ### A tile finished (04 R91, R101, R107, R115) -/

section
variable (s : State) (u e i j : Nat) (d : ProdDesc) (row : DotRow)

@[simp] theorem Tile.swapArr_work (t : Tile) (arr : Nat) (cells : List Nat) : (t.swapArr arr cells).work = t.work := by
  unfold Tile.swapArr
  split <;> rfl

@[simp] theorem State.countTile_tiles : (s.countTile u d row).tiles = s.tiles := by simp [State.countTile]
@[simp] theorem State.countTile_mem : (s.countTile u d row).mem = s.mem := by simp [State.countTile]
@[simp] theorem State.countTile_hostIf : (s.countTile u d row).hostIf = s.hostIf := by simp [State.countTile]
@[simp] theorem State.countTile_job : (s.countTile u d row).job = s.job := by simp [State.countTile]

/-- The unit with its output tile finished: the banks of the product's array swapped, the flags and counts of the sums and
of the drain raised, the tile done. -/
def State.tileFinished : Tile :=
  let accs := tileAccs s u d row i j
  let t := (s.tile u).swapArr d.arr (cellsOf accs.1)
  { t with u := t.u.raise (s.declOf e) (accs.2.join (drainTile s u d row i j accs.1).2)
           work := (e, j + (prodTiles d).2 * i) :: t.work }

/-- The state with the finished tile and its drained tile store in place, before anything is counted. -/
def State.tileDrained : State :=
  (s.setTile u (s.tileFinished u e i j d row)).setTileMem u (drainTile s u d row i j (tileAccs s u d row i j).1).1

/-- The job with the sampled tile's accumulators in a Swatch buffer (07 R192, R193). -/
def Job.swDrain (b : Job) (x : SwTile) : Job := { b with swBufs := b.swBufs ++ [x], swTiles := b.swTiles + 1 }

/-- Beyond what `tileDrained` says, a finished tile is counted and, when it is sampled, drained to a Swatch buffer. -/
theorem finishTile_eq : finishTile s u e i j d row =
    let x : SwTile := { unit := u, entry := e, ti := i, tj := j, acc := cellsOf (tileAccs s u d row i j).1 }
    { (s.tileDrained u e i j d row).countTile u d row with
      job := if s.swSampled d row i j then s.job.swDrain x else s.job } := by
  have hjob : ((s.tileDrained u e i j d row).countTile u d row).job = s.job := by simp [State.tileDrained]
  by_cases hs : s.swSampled d row i j = true
  · simp only [if_pos hs, ← hjob]
    exact if_pos hs
  · simp only [if_neg hs, ← hjob]
    exact if_neg hs

@[simp] theorem finishTile_tiles :
    (finishTile s u e i j d row).tiles = (s.setTile u (s.tileFinished u e i j d row)).tiles := by
  simp [finishTile_eq, State.tileDrained]

@[simp] theorem finishTile_mem : (finishTile s u e i j d row).mem =
    (s.setTileMem u (drainTile s u d row i j (tileAccs s u d row i j).1).1).mem := by
  simp [finishTile_eq, State.tileDrained, State.setTileMem]

@[simp] theorem finishTile_hostIf : (finishTile s u e i j d row).hostIf = s.hostIf := by
  simp [finishTile_eq, State.tileDrained]

@[simp] theorem finishTile_job_step : (finishTile s u e i j d row).job.step = s.job.step := by
  rw [finishTile_eq]
  dsimp only
  split <;> rfl

theorem finishTile_job_swTiles : (finishTile s u e i j d row).job.swTiles =
    s.job.swTiles + (if s.swSampled d row i j then 1 else 0) := by
  rw [finishTile_eq]
  dsimp only
  split <;> rfl

theorem finishTile_tile : (finishTile s u e i j d row).tile u = s.tileFinished u e i j d row := by
  rw [State.tile, finishTile_tiles]
  exact State.setTile_tile s

theorem finishTile_tile_ne {v : Nat} (h : v ≠ u) : (finishTile s u e i j d row).tile v = s.tile v := by
  rw [State.tile, finishTile_tiles]
  exact State.setTile_tile_ne s h

theorem finishTile_tileMem : (finishTile s u e i j d row).tileMem u =
    (drainTile s u d row i j (tileAccs s u d row i j).1).1 := by
  rw [State.tileMem, finishTile_mem]
  exact State.setTileMem_tileMem s

theorem finishTile_tileMem_ne {v : Nat} (h : v ≠ u) : (finishTile s u e i j d row).tileMem v = s.tileMem v := by
  rw [State.tileMem, finishTile_mem]
  exact State.setTileMem_tileMem_ne s h

end

/-! ### Swatch's recomputation (07 R193, R194, R197) -/

section
variable {s : State} {u e i j : Nat} {b : SwTile} {d : ProdDesc} {row : DotRow}

theorem doSwatch_buffer
    (hbuf : s.job.swBufs.find? (fun x => decide (x.unit = u ∧ x.entry = e ∧ x.ti = i ∧ x.tj = j)) = some b)
    (hp : s.prodOf e = some (d, row)) : doSwatch s u e i j = { s with job := { s.job with
      swBins := (tilePositions d i j).foldl (fun l p =>
        binAdd l (swBinOf (f32.decode (b.acc.getD (p.1 % 32 * 64 + p.2 % 64) 0)) (swRef s u d row p.1 p.2))) s.job.swBins
      swBufs := s.job.swBufs.filter (fun x => !decide (x.unit = u ∧ x.entry = e ∧ x.ti = i ∧ x.tj = j)) } } := by
  simp only [doSwatch, hbuf, hp]

theorem doSwatch_noBuffer
    (h : s.job.swBufs.find? (fun x => decide (x.unit = u ∧ x.entry = e ∧ x.ti = i ∧ x.tj = j)) = none ∨
      s.prodOf e = none) : doSwatch s u e i j = s := by
  obtain hbuf | hp := h
  · simp only [doSwatch, hbuf]
  · simp only [doSwatch, hp]
    split
    case h_1 hsome => cases hsome
    case h_2 => rfl

end

/-- Settles O42: a tile of a product finishes, stops or is left alone by `TileDue` and by the errors in what it reads; a
Swatch recomputation is its one branch with a buffer and a product. -/
theorem productTiles : Obligations.ProductTiles := by
  unfold Obligations.ProductTiles
  refine ⟨?noProduct, ?product, ?recompute, ?noBuffer⟩
  case noProduct => exact fun s u e i j ue h => congrArg _ (doProductTile_noProduct h)
  case product =>
    intro s u e i j d row hp
    refine ⟨?notDue, ?finishes, ?stops⟩
    case notDue => exact fun hdue ue => congrArg _ (doProductTile_notDue hp hdue)
    case finishes =>
      intro hdue hgood
      have hdo : doProductTile s u e i j false = finishTile s u e i j d row := by
        simp [doProductTile_due hp hdue, hgood]
      refine ⟨finishTile s u e i j d row, _, rfl, congrArg _ hdo, finishTile_tileMem .., ?_, ?_,
        fun v hv => ⟨finishTile_tile_ne s u e i j d row hv, finishTile_tileMem_ne s u e i j d row hv⟩, ?_, ?_,
        finishTile_hostIf .., finishTile_job_step .., finishTile_job_swTiles ..⟩
      · rw [finishTile_tile]
        exact congrArg _ (Tile.swapArr_work ..)
      · rw [finishTile_tile]
        rfl
      · rw [finishTile_mem, State.setTileMem]
      · rw [finishTile_mem, State.setTileMem]
    case stops =>
      intro hdue ue hbad
      have hdo : doProductTile s u e i j ue = stopProduct s u e d.arr := by
        rw [doProductTile_due hp hdue, if_pos (by simpa using hbad)]
      exact ⟨stopProduct s u e d.arr, congrArg _ hdo, by rw [stopProduct_tile], by rw [stopProduct_tile],
        stopProduct_fault (State.inStep_of_running hdue.runs), stopProduct_mem⟩
  case recompute =>
    intro s u e i j b d row hbuf hp
    exact congrArg _ (doSwatch_buffer hbuf hp)
  case noBuffer =>
    exact fun s u e i j h => congrArg _ (doSwatch_noBuffer h)

end Sys2Proof.Machine
end

section
/-! SUPPORT. The element chain: when an element may pass, what a pass, a stopped operation, a row program and a combined
split row leave (05 R117, R124, R133, R135, R139, R140, R145). -/

namespace Sys2Proof.Machine

/-! ### A unit's finished elements and rows after each operation -/

section
variable (s : State) {u v : Nat}

@[simp] theorem State.count_tile (k n : Nat) : (s.count k n).tile v = s.tile v := by simp [State.tile]

@[simp] theorem State.count_rowSt (k n w : Nat) : (s.count k n).rowSt v w = s.rowSt v w := by simp [State.rowSt]

@[simp] theorem State.raise_work (d : Decl) (ev : Ev) : ((s.raise u d ev).tile u).work = (s.tile u).work := by
  simp [State.raise]

@[simp] theorem State.raise_rowSt (d : Decl) (ev : Ev) (w : Nat) : (s.raise u d ev).rowSt v w = s.rowSt v w := by
  by_cases hv : v = u
  · subst hv; simp [State.rowSt, State.raise]
  · simp [State.rowSt, State.raise, State.setTile_tile_ne s hv]

@[simp] theorem State.setBlk_work (k : Nat) (b : BlkSt) : ((s.setBlk u k b).tile u).work = (s.tile u).work := by
  simp [State.setBlk]

@[simp] theorem State.setRow_mem (w : Nat) (x : RowSt) : (s.setRow u w x).mem = s.mem := rfl

@[simp] theorem State.setRow_work (w : Nat) (x : RowSt) : ((s.setRow u w x).tile u).work = (s.tile u).work := by
  simp [State.setRow]

@[simp] theorem State.setRow_rowSt (w : Nat) (x : RowSt) : (s.setRow u w x).rowSt u w = x := by
  simp [State.setRow, State.rowSt]

theorem State.setRow_rowSt_ne (h : v ≠ u) (w : Nat) (x : RowSt) : (s.setRow u w x).rowSt v w = s.rowSt v w := by
  simp [State.setRow, State.rowSt, State.setTile_tile_ne s h]

@[simp] theorem State.rowReady_mem (w : Nat) (z : List Nat) (yn : Nat) : (s.rowReady u w z yn).mem = s.mem := rfl

@[simp] theorem State.rowReady_rowSt (w : Nat) (z : List Nat) (yn : Nat) :
    (s.rowReady u w z yn).rowSt u w = { s.rowSt u w with z := z, yn := yn, ready := true } :=
  State.setRow_rowSt ..

theorem State.rowReady_rowSt_ne (h : v ≠ u) (w : Nat) (z : List Nat) (yn : Nat) :
    (s.rowReady u w z yn).rowSt v w = s.rowSt v w :=
  State.setRow_rowSt_ne s h ..

variable (e : Nat) (r : ChainRec) (pass iota : Nat)

@[simp] theorem State.countElem_tile : (s.countElem u e r pass iota).tile v = s.tile v := by simp [State.countElem]

@[simp] theorem State.countElem_rowSt (w : Nat) : (s.countElem u e r pass iota).rowSt v w = s.rowSt v w := by
  simp [State.countElem]

@[simp] theorem State.countElem_mem : (s.countElem u e r pass iota).mem = s.mem := by simp [State.countElem]

end

/-! ### The outputs of an element (05 R133) -/

theorem State.foldl_tiles {α : Type} {f : State → α → State} (h : ∀ x a, (f x a).tiles = x.tiles) (l : List α)
    (s : State) : (l.foldl f s).tiles = s.tiles :=
  List.foldlRecOn (motive := fun x => x.tiles = s.tiles) l f rfl fun x hx a _ => (h x a).trans hx

section
variable (s : State) (u : Nat)

@[simp] theorem padGroup_tiles (p i : Nat) : (padGroup s u p i).tiles = s.tiles :=
  State.foldl_tiles (fun x k => x.setTileElem_tiles u .fawn6 p k 0) ..

@[simp] theorem writeBlock_tiles (d : TDesc) (f : Fmt) (blk : Int) (b : BlkSt) :
    (writeBlock s u d f blk b).1.tiles = s.tiles :=
  (State.tileWr_tiles ..).trans (State.foldl_tiles (fun _ _ => State.setTileElem_tiles ..) ..)

variable (r : ChainRec) (iota : Nat) (x : ChainEnv) (raw : Option (DVal × Nat))

/-- An output goes to the tile store or to a gathered block: no element is done by it. -/
theorem writeOut_work (a : State × Ev) (j : Nat) :
    ((writeOut r u iota x raw a j).1.tile u).work = (a.1.tile u).work := by
  unfold writeOut
  dsimp only
  split
  case h_1 plain =>
    split
    case isTrue last => simp [State.tile]
    case isFalse inner => simp [State.tile]
  case h_2 n block =>
    simp only [List.length_append, List.length_singleton]
    split
    case isTrue full =>
      rw [State.tile, writeBlock_tiles]
      exact State.setBlk_work ..
    case isFalse part => exact State.setBlk_work ..

theorem writeOuts_work : ((writeOuts s u r iota x raw).1.tile u).work = (s.tile u).work :=
  List.foldlRecOn (motive := fun a => (a.1.tile u).work = (s.tile u).work) _ _ rfl
    fun a ha j _ => (writeOut_work u r iota x raw a j).trans ha

/-! ### The passes and a stopped operation (05 R133, R135, R145) -/

variable (e : Nat)

theorem passTwo_work : ((passTwo s u e r iota).tile u).work = (e, iota) :: (s.tile u).work := by
  simp [passTwo, writeOuts_work]

/-- The element that pass 1 feeds to its row: the wires and masks after the exit stage (05 R135, R136). -/
def passOneElem : ChainElem :=
  let x := runPass r (entryEnv s u r (loopIdx r.ext iota) 1) 1
  { pos := iota % r.ext.headD 1, w := x.w, m := x.m }

theorem passOne_elems : ((passOne s u e r iota).rowSt u (iota / r.ext.headD 1)).elems =
    (s.rowSt u (iota / r.ext.headD 1)).elems ++ [passOneElem s u r iota] := by
  simp [passOne, passOneElem]

theorem passOne_work : ((passOne s u e r iota).tile u).work = (s.tile u).work := by simp [passOne]

theorem passOne_mem : (passOne s u e r iota).mem = s.mem := by simp [passOne]

theorem stopChain_tile : (stopChain s u r).tile u =
    { s.tile u with chain := { (s.tile u).chain with stopped := true } } := by
  rw [State.tile, stopChain, State.contained_tiles]
  exact State.setTile_tile s

theorem stopChain_mem : (stopChain s u r).mem = s.mem := by simp [stopChain]

theorem stopChain_fault {s : State} (h : s.job.inStep = true) : (stopChain s u r).job.fault = true :=
  State.contained_job_fault h

end

/-! ### When an element may pass (05 R117, R124; 10 R280) -/

section
variable {s : State} {u e p n : Nat} {r : ChainRec} {ue : Bool}

/-- `ElemDue` is the condition that `CHAIN_ELEMENT_PASS` checks. -/
theorem elemDue_iff : ElemDue s u e r p n ↔
    (s.running e && s.owns (s.entryOf e) u n && !(s.tile u).chain.stopped && !(s.tile u).work.contains (e, n) &&
      s.inTurn u e r p n && s.elemAvoids u r p n (s.unlanded u e)) = true := by
  simp only [Bool.and_eq_true, Bool.not_eq_true']
  constructor
  · rintro ⟨hruns, hown, hgoing, hfresh, hturn, hlanded⟩
    exact ⟨⟨⟨⟨⟨hruns, hown⟩, hgoing⟩, hfresh⟩, hturn⟩, hlanded⟩
  · rintro ⟨⟨⟨⟨⟨hruns, hown⟩, hgoing⟩, hfresh⟩, hturn⟩, hlanded⟩
    exact ⟨hruns, hown, hgoing, hfresh, hturn, hlanded⟩

theorem doChainElem_noChain (h : s.chainOf e = none) : doChainElem s u e p n ue = s := by
  simp only [doChainElem, h]

theorem doChainElem_notDue (hr : s.chainOf e = some r) (h : ¬ ElemDue s u e r p n) :
    doChainElem s u e p n ue = s := by
  rw [elemDue_iff] at h
  simp only [doChainElem, hr, if_neg h]

theorem doChainElem_stops (hr : s.chainOf e = some r) (h : ElemDue s u e r p n)
    (hbad : ue = true ∨ s.elemAvoids u r p n (s.tile u).bad = false) :
    doChainElem s u e p n ue = stopChain s u r := by
  have hstop : (ue || !s.elemAvoids u r p n (s.tile u).bad) = true := by simpa using hbad
  rw [elemDue_iff] at h
  simp only [doChainElem, hr, if_pos h, if_pos hstop]

/-- The branches of a due element that meets no error, by row mode, pass and row (05 R135). -/
theorem doChainElem_passes {row : RowSt} (hr : s.chainOf e = some r) (hrow : row = s.rowSt u (n / r.ext.headD 1))
    (h : ElemDue s u e r p n) (hgood : s.elemAvoids u r p n (s.tile u).bad = true) :
    doChainElem s u e p n false =
      if r.rowMode = false then passTwo s u e r n
      else if p = 1 then if row.ready || row.has (n % r.ext.headD 1) then s else passOne s u e r n
      else if row.ready then passTwo s u e r n
      else s := by
  subst hrow
  rw [elemDue_iff] at h
  simp only [doChainElem, hr, if_pos h, hgood, Bool.not_true, Bool.or_self, Bool.false_eq_true, if_false,
    Bool.not_eq_true']

end

/-! ### The row program (05 R139) -/

section
variable {s : State} {u e w : Nat} {r : ChainRec}

theorem doRowProgram_noChain (h : s.chainOf e = none) : doRowProgram s u e w = s := by
  simp only [doRowProgram, h]

theorem doRowProgram_due (hr : s.chainOf e = some r) (hruns : s.running e = true) (hmode : r.rowMode = true)
    (hopen : (s.rowSt u w).ready = false) (hwhole : (s.rowSt u w).elems.length = r.ext.headD 1) :
    doRowProgram s u e w = State.count
      ((s.rowReady u w (runRow r (s.rowSt u w).elems).1 (runRow r (s.rowSt u w).elems).2.1).raise u (s.declOf e)
        { fl := (runRow r (s.rowSt u w).elems).2.2 }) (kChrRpWait u) (rowWait s u e w r) := by
  simp [doRowProgram, hr, hruns, hmode, hopen, hwhole]

theorem doRowProgram_notDue (hr : s.chainOf e = some r) (h : ¬ (s.running e = true ∧ r.rowMode = true ∧
    (s.rowSt u w).ready = false ∧ (s.rowSt u w).elems.length = r.ext.headD 1)) : doRowProgram s u e w = s := by
  simp only [doRowProgram, hr]
  exact if_neg (by simpa [and_assoc] using h)

end

/-! ### A row split over units (05 R140) -/

section
variable (e w : Nat) (r : ChainRec) (z : List Nat) (yn : Nat)

/-- The combined results returned to one part of a split row, its unit counting the row and its wait (05 R140, R144). -/
def State.partReady (s : State) (p : Nat × List ChainElem) : State :=
  ((s.rowReady p.1 w z yn).count (kChrSplit p.1) 1).count (kChrRpWait p.1) (rowWait s p.1 e w r)

/-- A unit's part of the row holds the results. -/
def State.rowHolds (s : State) (v : Nat) : Prop := (s.rowSt v w).ready = true ∧ (s.rowSt v w).z = z

variable {e w r z yn}

theorem State.partReady_mem (s : State) (p : Nat × List ChainElem) : (s.partReady e w r z yn p).mem = s.mem := by
  simp [State.partReady]

theorem State.partReady_rowHolds (s : State) (p : Nat × List ChainElem) :
    (s.partReady e w r z yn p).rowHolds w z p.1 := by
  simp [State.rowHolds, State.partReady]

theorem State.rowHolds.partReady {s : State} {v : Nat} (h : s.rowHolds w z v) (p : Nat × List ChainElem) :
    (s.partReady e w r z yn p).rowHolds w z v := by
  by_cases hv : v = p.1
  · exact hv ▸ s.partReady_rowHolds p
  · simpa [State.rowHolds, State.partReady, State.rowReady_rowSt_ne s hv] using h

theorem State.foldl_partReady_mem (s : State) (parts : List (Nat × List ChainElem)) :
    (parts.foldl (State.partReady e w r z yn) s).mem = s.mem :=
  List.foldlRecOn (motive := fun x : State => x.mem = s.mem) parts _ rfl fun x hx p _ =>
    (x.partReady_mem p).trans hx

/-- Once every part has its results returned, each holds them: a later return keeps an earlier one. -/
theorem State.foldl_partReady_rowHolds (parts : List (Nat × List ChainElem)) (s : State) :
    ∀ p ∈ parts, (parts.foldl (State.partReady e w r z yn) s).rowHolds w z p.1 := by
  induction parts generalizing s with
  | nil => simp
  | cons q qs ih =>
    rintro p (_ | ⟨_, hp⟩)
    · exact List.foldlRecOn (motive := fun x : State => x.rowHolds w z q.1) qs _ (s.partReady_rowHolds q)
        fun x hx p _ => hx.partReady p
    · exact ih (s.partReady e w r z yn q) p hp

end

section
variable {s : State} {u e w : Nat} {r : ChainRec}

/-- The results of a split row and its flags: of a row that lies on more than one package, the scalars that the exchange
gives; else the row program over all parts (05 R140; log 57). -/
def State.splitResult (s : State) (e w : Nat) (r : ChainRec) : List Nat × Nat × BitVec 5 :=
  if s.rowHere (s.entryOf e) (r.ext.headD 1) w < r.ext.headD 1 then (s.farRow e w, 0, 0)
  else runRow r ((s.rowParts (s.entryOf e) w).flatMap (fun p => p.2))

/-- The condition that `SPLIT_ROW_COMBINE` checks (05 R140). -/
def SplitDue (s : State) (u e w : Nat) (r : ChainRec) : Prop :=
  s.running e = true ∧ r.rowMode = true ∧ (s.rowSt u w).ready = false ∧
    u = combiner (s.rowParts (s.entryOf e) w) ∧ 0 < s.rowHere (s.entryOf e) (r.ext.headD 1) w ∧
    ((s.rowParts (s.entryOf e) w).flatMap (fun p => p.2)).length = s.rowHere (s.entryOf e) (r.ext.headD 1) w ∧
    (2 ≤ (s.rowParts (s.entryOf e) w).length ∨ s.rowHere (s.entryOf e) (r.ext.headD 1) w < r.ext.headD 1)

theorem splitDue_iff : SplitDue s u e w r ↔
    (s.running e && r.rowMode && !(s.rowSt u w).ready && decide (u = combiner (s.rowParts (s.entryOf e) w)) &&
      decide (0 < s.rowHere (s.entryOf e) (r.ext.headD 1) w) &&
      decide (((s.rowParts (s.entryOf e) w).flatMap (fun p => p.2)).length =
        s.rowHere (s.entryOf e) (r.ext.headD 1) w) &&
      (decide (2 ≤ (s.rowParts (s.entryOf e) w).length) ||
        decide (s.rowHere (s.entryOf e) (r.ext.headD 1) w < r.ext.headD 1))) = true := by
  simp only [SplitDue, Bool.and_eq_true, Bool.or_eq_true, Bool.not_eq_true', decide_eq_true_eq, and_assoc]

theorem doSplitRow_noChain (h : s.chainOf e = none) : doSplitRow s u e w = s := by
  simp only [doSplitRow, h]

theorem doSplitRow_notDue (hr : s.chainOf e = some r) (h : ¬ SplitDue s u e w r) : doSplitRow s u e w = s := by
  rw [splitDue_iff] at h
  simp only [doSplitRow, hr, if_neg h]

theorem doSplitRow_due (hr : s.chainOf e = some r) (h : SplitDue s u e w r) : doSplitRow s u e w =
    ((s.rowParts (s.entryOf e) w).foldl
      (State.partReady e w r (s.splitResult e w r).1 (s.splitResult e w r).2.1) s).raise u (s.declOf e)
      { fl := (s.splitResult e w r).2.2 } := by
  rw [splitDue_iff] at h
  simp only [doSplitRow, hr, if_pos h]
  rfl

end

/-- Settles O43: an element passes, stops or is left alone by `ElemDue`, the errors in its inputs, row mode and its row;
a row program is its one branch with a whole row, and a split row's results are returned part by part. -/
theorem chainOperations : Obligations.ChainOperations := by
  unfold Obligations.ChainOperations
  refine ⟨?noChain, ?element, ?rowProgram, ?splitRow, ?noRow⟩
  case noChain => exact fun s u e p n ue h => congrArg _ (doChainElem_noChain h)
  case element =>
    intro s u e p n r row hr hrow
    refine ⟨fun hdue ue => congrArg _ (doChainElem_notDue hr hdue), ?stops, fun hdue hgood => ?passes⟩
    case stops =>
      intro hdue ue hbad
      exact ⟨stopChain s u r, congrArg _ (doChainElem_stops hr hdue hbad), by rw [stopChain_tile],
        by rw [stopChain_tile], stopChain_mem .., stopChain_fault u r (State.inStep_of_running hdue.runs)⟩
    case passes =>
      have hdo := doChainElem_passes hr hrow hdue hgood
      refine ⟨fun hwrites => ⟨congrArg _ (hdo.trans ?writes), passTwo_work ..⟩,
        fun hmode hp hopen hnew => ⟨passOne s u e r n, passOneElem s u r n, congrArg _ (hdo.trans ?joins), rfl,
          hrow ▸ passOne_elems .., passOne_work .., passOne_mem ..⟩,
        fun hmode hidle => congrArg _ (hdo.trans ?rests)⟩
      case writes =>
        obtain hmode | ⟨hp, hready⟩ := hwrites
        · rw [if_pos hmode]
        · simp [hp, hready]
      case joins => simp [-List.headD_eq_head?_getD, hmode, hp, hopen, hnew]
      case rests =>
        obtain ⟨hp, hdone⟩ | ⟨hp, hopen⟩ := hidle
        · simp [-List.headD_eq_head?_getD, hmode, hp, hdone]
        · simp [hmode, hp, hopen]
  case rowProgram =>
    rintro s u e w r _ hr rfl
    refine ⟨fun hruns hmode hopen hwhole => ?_, fun h => congrArg _ (doRowProgram_notDue hr h)⟩
    refine ⟨_, congrArg Host.Outcome.next (doRowProgram_due hr hruns hmode hopen hwhole), ?_, ?_⟩
    · rw [State.count_rowSt, State.raise_rowSt, State.rowReady_rowSt]
    · rw [State.count_mem, State.raise_mem, State.rowReady_mem]
  case splitRow =>
    rintro s u e w r _ _ hr rfl rfl
    refine ⟨fun hruns hmode hopen hcomb hsome hall hsplit => ?_, fun h => congrArg _ (doSplitRow_notDue hr h)⟩
    have hdue : SplitDue s u e w r := ⟨hruns, hmode, hopen, hcomb, hsome, hall, hsplit⟩
    refine ⟨_, congrArg Host.Outcome.next (doSplitRow_due hr hdue), ?_, fun p hp => ?_⟩
    · rw [State.raise_mem, State.foldl_partReady_mem]
    · obtain ⟨hready, hz⟩ := State.foldl_partReady_rowHolds (e := e) (r := r) (yn := (s.splitResult e w r).2.1)
        (z := (s.splitResult e w r).1) _ s p hp
      rw [State.raise_rowSt]
      exact ⟨hready, hz.trans (apply_ite Prod.fst _ _ _)⟩
  case noRow =>
    exact fun s u e w h => ⟨congrArg _ (doRowProgram_noChain h), congrArg _ (doSplitRow_noChain h)⟩

end Sys2Proof.Machine
end

section
/-! SUPPORT. Scalar and mask registers of the lanes: what a write of one leaves, what the loop of a mask instruction leaves,
and the scalar, integer, selection, permutation, mask, count and reduction instructions by it (06 R146, R150 to R155, R159,
R168, R169). -/

namespace Sys2Proof.Machine

/-! ### A scalar register written (06 R146) -/

section
variable {l : Slate} {d k : Nat} {v : BitVec 64}

theorem Slate.xreg_setX : (l.setX d v).xreg k = if k = d ∧ d ≠ 0 then v else l.xreg k := by
  unfold Slate.setX
  by_cases hd : d = 0
  · simp [hd]
  · by_cases hk : k = d
    · subst hk
      simp [hd, Slate.xreg]
    · simp [hd, hk, Slate.xreg, Tab.get_set_ne hk]

theorem Slate.set_setX : l.Set (l.setX d v).next d v where
  regs _ := Slate.xreg_setX
  rest := by unfold Slate.setX; split <;> rfl

end

/-! ### A scalar instruction of a running kernel (06 R147) -/

section
variable {s : State} {u : Nat} {l : Slate} {f : Slate → Slate} {c : Instr}

theorem State.scalarOp_running (h : s.laneRuns u = true) :
    s.scalarOp u f = s.setSlate u (f (s.tile u).slate).next :=
  if_pos h

/-- An instruction that is a scalar operation writes the register that its function writes. -/
theorem exec_set {d : Nat} {v : BitVec 64} (h : s.laneRuns u = true) (hl : (s.tile u).slate = l)
    (hc : exec c s = .next (s.scalarOp u f)) (hf : l.Set (f l).next d v) :
    ∃ m, exec c s = .next (s.setSlate u m) ∧ l.Set m d v :=
  ⟨_, hc.trans (congrArg _ (State.scalarOp_running h)), by rwa [hl]⟩

end

/-! ### The vector length granted (06 R150) -/

/-- The lanes after `setvl` granted a length for a vtype. -/
def Slate.granted (l : Slate) (d a : Nat) (t : VType) : Slate :=
  { l.setX d (BitVec.ofNat 64 (min (l.xreg a).toNat t.vlmax)) with
    vtype := some t, vl := min (l.xreg a).toNat t.vlmax }

theorem exec_setvl {s : State} {u : Nat} (d a : Nat) (f : Fmt) (lg : Nat) (h : s.laneRuns u = true) :
    exec (.setvl u d a f lg) s = .next (s.setSlate u ((s.tile u).slate.granted d a { fmt := f, g := 2 ^ lg }).next) :=
  congrArg _ (State.scalarOp_running h)

theorem Slate.set_granted {l : Slate} {d a : Nat} {t : VType} :
    l.Set { (l.granted d a t).next with vl := l.vl, vtype := l.vtype } d
      (BitVec.ofNat 64 (min (l.xreg a).toNat t.vlmax)) where
  regs _ := Slate.xreg_setX
  rest := by unfold Slate.granted Slate.setX; split <;> rfl

theorem bits_ge_of_laneFmt {f : Fmt} (h : laneFmt f = true) : 8 ≤ Fmt.bits f := by
  revert h; cases f <;> decide

theorem VType.vlmax_le {f : Fmt} {lg : Nat} (hf : laneFmt f = true) (hlg : lg < 4) :
    VType.vlmax { fmt := f, g := 2 ^ lg } ≤ 2048 := by
  refine Nat.div_le_of_le_mul ?_
  calc 2048 * 2 ^ lg ≤ 2048 * 2 ^ 3 := by gcongr <;> omega
    _ ≤ Fmt.bits f * 2048 := by have := bits_ge_of_laneFmt hf; omega

/-- Settles O44: `setvl` leaves the lanes that `Slate.granted` says, and a lane format's elements have 8 bits or more. -/
theorem setvlGrants : Obligations.SetvlGrants := by
  unfold Obligations.SetvlGrants
  refine ⟨fun s u d a f lg h => ?_, fun f lg => VType.vlmax_le, by decide, by decide⟩
  have hset : ∀ k, (((s.tile u).slate.granted d a { fmt := f, g := 2 ^ lg }).next).xreg k = _ := Slate.set_granted.regs
  refine ⟨_, _, exec_setvl d a f lg h, rfl, ?_, ?_, fun hd => ?_, rfl⟩ <;> rw [State.setSlate_slate]
  · rfl
  · rfl
  · exact (hset d).trans (if_pos ⟨rfl, hd⟩)

/-- Settles O45: each scalar instruction is `Slate.set_setX` at its value; `sbnz` and `send` are their one branch in a
running kernel. -/
theorem slateScalars : Obligations.SlateScalars := by
  unfold Obligations.SlateScalars
  refine ⟨?writes, ?control⟩
  case writes =>
    rintro s u l h rfl
    refine ⟨fun d a f lg => ⟨_, exec_setvl d a f lg h, rfl, rfl, Slate.set_granted⟩, ?sli, ?slui, ?salu, ?vl, ?step,
      ?srdtime⟩
    all_goals intros; exact exec_set h rfl rfl Slate.set_setX
  case control =>
    rintro s u l h rfl
    refine ⟨fun a o ha => congrArg _ ((if_pos h).trans ?zero), fun a o ha => congrArg _ ((if_pos h).trans ?nonzero),
      congrArg _ (if_pos h)⟩
    case zero => exact congrArg (s.setSlate u) (if_neg (not_not_intro ha))
    case nonzero => exact congrArg (s.setSlate u) (if_pos ha)

/-! ### A mask bit written (06 R146) -/

section
variable {l l' : Slate} {d k n i j : Nat} {b : Bool}

theorem Slate.testBit_setMbit (v : Nat) : (v - bits v i 1 * 2 ^ i + (if b then 2 ^ i else 0)).testBit j =
    if j = i then b else v.testBit j := by
  have hb : (if b then 2 ^ i else 0) = b.toNat % 2 ^ 1 * 2 ^ i := by cases b <;> simp
  rw [hb, testBit_replaceBits]
  by_cases hj : j = i
  · subst hj; cases b <;> simp
  · rw [if_neg (by omega), if_neg hj]

theorem Slate.mbit_setMbit : (l.setMbit d i b).mbit k j = if k = d ∧ j = i ∧ i < 2048 then b else l.mbit k j := by
  by_cases hk : k = d
  · subst hk
    by_cases hj : j < 2048
    · simp only [Slate.mbit, Slate.setMbit, Slate.setM, Slate.mreg, Tab.get_set_same, BitVec.getLsbD_ofNat,
        Slate.testBit_setMbit, hj]
      by_cases hji : j = i
      · subst hji; simp [hj]
      · simp [hji, BitVec.testBit_toNat]
    · have hji : ¬ (j = i ∧ i < 2048) := by omega
      simp [Slate.mbit, hji, BitVec.getLsbD_of_ge _ _ (Nat.le_of_not_lt hj)]
  · simp [hk, Slate.mbit, Slate.setMbit, Slate.setM, Slate.mreg, Tab.get_set_ne hk]

variable {act r : Nat → Bool}

theorem Slate.Marked.zero : l.Marked l.next d 0 act r where
  bits _ _ := by simp [Slate.next, Slate.mbit, Slate.mreg]
  rest := rfl

/-- Bit `n` of the loop, left alone or written. -/
theorem Slate.Marked.succ (hm : l.Marked l'.next d n act r) :
    l.Marked (if act n then l'.setMbit d n (r n) else l').next d (n + 1) act r where
  bits k i := by
    have hold : l'.mbit k i = _ := hm.bits k i
    change (if act n then l'.setMbit d n (r n) else l').mbit k i = _
    by_cases ha : act n = true
    · rw [if_pos ha, Slate.mbit_setMbit, hold]
      by_cases hin : i = n
      · subst hin; by_cases hi : i < 2048 <;> simp [hi, ha]
      · simp [hin, show i < n + 1 ↔ i < n by omega]
    · rw [if_neg ha, hold]
      by_cases hin : i = n
      · subst hin; simp [ha]
      · simp [show i < n + 1 ↔ i < n by omega]
  rest := by
    rw [← hm.rest]
    split <;> rfl

/-- The loop over pairs of lanes and events, on the lanes alone. -/
theorem fst_foldl {is : List Nat} {f : Slate × Ev → Nat → Slate × Ev} {g : Slate → Nat → Slate} {a : Slate × Ev}
    (h : ∀ a i, (f a i).1 = g a.1 i) : (is.foldl f a).1 = is.foldl g a.1 :=
  (List.foldl_hom Prod.fst fun a i => (h a i).symm).symm

/-- A loop that writes bit i of a mask register wherever `act` admits i leaves what `Slate.Marked` says. -/
theorem Slate.marked_foldl : l.Marked
    ((List.range n).foldl (fun x i => if act i then x.setMbit d i (r i) else x) l).next d n act r := by
  induction n with
  | zero => exact Slate.Marked.zero
  | succ n ih =>
    rw [List.range_succ, List.foldl_append, List.foldl_cons, List.foldl_nil]
    exact ih.succ

/-- `Slate.each` with a mask bit for every element. -/
theorem Slate.marked_each {mu : Bool} {msk : Nat} {f : Nat → Slate → Slate × Ev}
    (hf : ∀ i x, (f i x).1 = x.setMbit d i (r i)) :
    l.Marked (l.each mu msk f).1.next d l.vl (fun i => l.active mu msk i) r := by
  rw [Slate.each, fst_foldl (g := fun x i => if l.active mu msk i then x.setMbit d i (r i) else x)]
  · exact Slate.marked_foldl
  · intro a i
    split
    case isTrue => exact hf i a.1
    case isFalse => rfl

end

/-! ### What a vector instruction writes besides elements -/

section
variable {s : State} {u : Nat} {t : VType} {l : Slate} {f : VType → Slate → Slate × Ev} {c : Instr} {d : Nat}

/-- An instruction that is a vector operation writes the mask bits that its loop writes, and no memory. -/
theorem Lanes.exec_marked {n : Nat} {act r : Nat → Bool} (h : Lanes s u t l)
    (hc : exec c s = .next (s.vectorOp u f)) (hm : l.Marked (f t l).1.next d n act r) :
    ∃ x, exec c s = .next x ∧ x.mem = s.mem ∧ l.Marked (x.tile u).slate d n act r :=
  ⟨_, hc, h.vectorOp_mem, by rwa [h.vectorOp_slate]⟩

/-- An instruction that is a vector operation writes the scalar register that its function writes, and no memory. -/
theorem Lanes.exec_setX {v : BitVec 64} (h : Lanes s u t l) (hc : exec c s = .next (s.vectorOp u f))
    (hf : (f t l).1 = l.setX d v) :
    ∃ x, exec c s = .next x ∧ x.mem = s.mem ∧ l.Set (x.tile u).slate d v :=
  ⟨_, hc, h.vectorOp_mem, by rw [h.vectorOp_slate, hf]; exact Slate.set_setX⟩

/-- An instruction that is a vector operation without a result leaves the lanes but for the pc. -/
theorem Lanes.exec_nothing (h : Lanes s u t l) (hc : exec c s = .next (s.vectorOp u f)) (hf : f t l = (l, {})) :
    ∃ x, exec c s = .next x ∧ (x.tile u).slate = { l with pc := l.pc + 4 } :=
  (h.exec_passed hc hf).imp fun _ ⟨hx, _, hl⟩ => ⟨hx, hl⟩

end

/-- A loop on the lanes alone that writes every element. -/
theorem Slate.wrote_foldl_all {l : Slate} {d dw n : Nat} {r : Nat → Nat} (hdw : dw ∣ 2048) (hfit : fitsV d dw n) :
    l.Wrote ((List.range n).foldl (fun x i => x.setElem d dw i (r i)) l).next d dw n (fun _ => true) r := by
  rw [← fst_foldl (f := fun a i => (a.1.setElem d dw i (r i), a.2)) (a := (l, {})) fun _ _ => rfl]
  exact Slate.wrote_foldl hdw hfit fun _ _ => rfl

/-- Settles O46: each instruction is the loop of `Slate.wrote_foldl` with its own result for an element, or the write of one
scalar register. -/
theorem slateIntegerElements : Obligations.SlateIntegerElements := by
  unfold Obligations.SlateIntegerElements
  rintro s u t l o _ h hfmt rfl hfit
  have hew := bits_dvd_of_laneFmt hfmt
  refine ⟨?vi, ?vsel, ?perm, ?compress, ?extract, ?extractNone⟩
  case vi => exact fun op => h.exec_wrote rfl (Slate.wrote_each hew hfit fun _ _ => rfl)
  case vsel => exact h.exec_wrote rfl (Slate.wrote_each hew hfit fun _ _ => rfl)
  case perm =>
    intro op hcompress hextract
    refine h.exec_wrote rfl ?_
    split
    case h_1 => exact absurd rfl hcompress
    case h_2 => exact absurd rfl hextract
    case h_3 => exact Slate.wrote_each hew hfit fun _ _ => rfl
  case compress => exact h.exec_wrote rfl (Slate.wrote_foldl_all hew hfit)
  case extract => exact fun hvl => h.exec_setX rfl (congrArg Prod.fst (if_neg hvl.ne'))
  case extractNone => exact fun hvl => h.exec_nothing rfl (if_pos hvl)

/-! ### Counts and reductions (06 R153, R159) -/

theorem vredWidth_dvd {f : Fmt} (op : RedOp) (h : laneFmt f = true) : vredWidth f op ∣ 2048 := by
  unfold vredWidth
  split
  case isTrue => decide
  case isFalse => exact bits_dvd_of_laneFmt h

theorem fitsV_one {d w : Nat} (hd : d < 32) (hw : w ∣ 2048) : fitsV d w 1 := by
  have := Nat.le_of_dvd (by decide) hw
  show 2048 * d + 1 * w ≤ 65536
  omega

/-- Element 0 alone written. -/
theorem Slate.wrote_one {l : Slate} {d w : Nat} {v : Nat} (hw : w ∣ 2048) (hfit : fitsV d w 1) :
    l.Wrote (l.setElem d w 0 v).next d w 1 (fun _ => true) (fun _ => v) :=
  (Slate.Wrote.zero (l := l) (act := fun _ => true) (r := fun _ => v)).setElem hw hfit rfl

/-- Settles O48: comparisons and mask logic are the loop of `Slate.marked_foldl`; a count or an index is one scalar register
written, a reduction one element; without elements nothing is written. -/
theorem slateMasksAndReductions : Obligations.SlateMasksAndReductions := by
  unfold Obligations.SlateMasksAndReductions
  rintro s u t l o _ h hfmt rfl
  refine ⟨?vcmp, ?vmlog, ?count, ?first, ?vmaxi, ?vred, ?nothing⟩
  case vcmp => exact fun c => h.exec_marked rfl (Slate.marked_each fun _ _ => rfl)
  case vmlog => exact fun k => h.exec_marked rfl (Slate.marked_each fun _ _ => rfl)
  case count => exact fun hvl => h.exec_setX rfl (congrArg Prod.fst (if_neg hvl.ne'))
  case first =>
    refine fun hvl => h.exec_setX rfl ((congrArg Prod.fst (if_neg hvl.ne')).trans ?_)
    cases (l.actives o.mu o.msk).filter (fun i => l.mbit o.a i) <;> rfl
  case vmaxi => exact fun hvl => h.exec_setX rfl (congrArg Prod.fst (if_neg hvl.ne'))
  case vred =>
    intro hvl hd op
    have hw := vredWidth_dvd op hfmt
    refine h.exec_wrote rfl ?_
    rw [if_neg hvl.ne']
    exact Slate.wrote_one hw (fitsV_one hd hw)
  case nothing =>
    rintro hvl c (⟨first, rfl⟩ | rfl | ⟨op, rfl⟩)
    all_goals exact h.exec_nothing rfl (if_pos hvl)

end Sys2Proof.Machine
end

section
/-! SUPPORT. Slate instructions by their shape: a scalar one sets the lanes, a vector one sets them and raises its events, a
memory one runs under a vtype; what the first two leave unchanged, and when none acts (06 R146 to R160). -/

namespace Sys2Proof.Machine

/-! ### What a register instruction leaves unchanged (06 R146, R160) -/

/-- Nothing changed but the lanes of one unit and its flags, counts and event bits, and no sticky flag was cleared. -/
structure LanesOnly (s t : State) (u : Nat) : Prop where
  rest : { t with tiles := s.tiles } = s
  units : ∀ v, v ≠ u → t.tile v = s.tile v
  parts : { t.tile u with slate := (s.tile u).slate, u := (s.tile u).u } = s.tile u
  flags : ∀ k, (s.tile u).u.flags.getLsbD k = true → (t.tile u).u.flags.getLsbD k = true

/-- The flags and event bits of one unit are as they were. -/
structure SameEvents (s t : State) (u : Nat) : Prop where
  flags : (t.tile u).u.flags = (s.tile u).u.flags
  nonfinite : (t.tile u).u.evNonfinite = (s.tile u).u.evNonfinite
  satFwd : (t.tile u).u.evSatFwd = (s.tile u).u.evSatFwd
  satBwd : (t.tile u).u.evSatBwd = (s.tile u).u.evSatBwd

section
variable {s t r : State} {u : Nat}

theorem LanesOnly.refl (s : State) (u : Nat) : LanesOnly s s u := ⟨rfl, fun _ _ => rfl, rfl, fun _ h => h⟩

theorem SameEvents.refl (s : State) (u : Nat) : SameEvents s s u := ⟨rfl, rfl, rfl, rfl⟩

theorem lanesOnly_setSlate (l : Slate) : LanesOnly s (s.setSlate u l) u where
  rest := rfl
  units _ hv := State.setSlate_tile_ne s hv
  parts := by rw [State.setSlate, State.setTile_tile]
  flags _ h := by rwa [State.setSlate, State.setTile_tile]

theorem sameEvents_setSlate (l : Slate) : SameEvents s (s.setSlate u l) u := by
  constructor <;> rw [State.setSlate, State.setTile_tile]

theorem State.raise_tile {d : Decl} {e : Ev} :
    (s.raise u d e).tile u = { s.tile u with u := (s.tile u).u.raise d e } :=
  State.setTile_tile s

theorem State.raise_tile_ne {d : Decl} {e : Ev} {v : Nat} (h : v ≠ u) : (s.raise u d e).tile v = s.tile v :=
  State.setTile_tile_ne s h

theorem LanesOnly.raise (h : LanesOnly s t u) (d : Decl) (e : Ev) : LanesOnly s (t.raise u d e) u where
  rest := h.rest
  units v hv := (State.raise_tile_ne hv).trans (h.units v hv)
  parts := by rw [State.raise_tile]; exact h.parts
  flags k hk := by
    rw [State.raise_tile]
    show ((t.tile u).u.flags ||| e.fl).getLsbD k = true
    rw [BitVec.getLsbD_or, h.flags k hk, Bool.true_or]

theorem SameEvents.raise_none (h : SameEvents s t u) (d : Decl) : SameEvents s (t.raise u d {}) u := by
  obtain ⟨hfl, hnon, hfwd, hbwd⟩ := h
  constructor <;> rw [State.raise_tile] <;> simp [UnitSt.raise, *]

end

/-! ### Instructions by their shape (06 R147, R149, R153) -/

section
variable {s : State} {u : Nat} {c : Instr}

/-- A scalar instruction sets the lanes of a running kernel, and does nothing else. -/
theorem exec_scalarUnit (s : State) (h : Instr.scalarUnit c = some u) :
    ∃ l, exec c s = .next (if s.laneRuns u then s.setSlate u l else s) := by
  unfold Instr.scalarUnit at h
  split at h <;> cases h <;> exact ⟨_, rfl⟩

theorem registerUnit_of_scalarUnit (h : Instr.scalarUnit c = some u) : Instr.registerUnit c = some u := by
  unfold Instr.scalarUnit at h
  split at h <;> cases h <;> rfl

/-- A register instruction that is not a scalar one is a vector operation. -/
theorem exec_vectorUnit (s : State) (h : Instr.registerUnit c = some u) (hn : Instr.scalarUnit c = none) :
    ∃ f, exec c s = .next (s.vectorOp u f) := by
  unfold Instr.registerUnit at h
  split at h <;> cases h <;> cases hn <;> exact ⟨_, rfl⟩

theorem State.moveOp_isMemOp {o : MOps} {load write counted : Bool} {addrs : VType → Slate → List (Nat × List Nat)}
    {fx : VType → Slate → List (Nat × List Nat) → State} :
    ∃ g, s.moveOp u o load write counted addrs fx = s.memOp u g :=
  ⟨_, rfl⟩

theorem exec_memoryUnit (s : State) (h : Instr.memoryUnit c = some u) : ∃ g, exec c s = .next (s.memOp u g) := by
  unfold Instr.memoryUnit at h
  split at h <;> cases h
  case h_8 => exact ⟨_, rfl⟩
  case h_12 => exact ⟨_, rfl⟩
  all_goals exact State.moveOp_isMemOp.imp fun _ => congrArg _

theorem Slate.each_quiet {l : Slate} {mu : Bool} {msk : Nat} {f : Nat → Slate → Slate × Ev} (hf : ∀ i x, (f i x).2 = {}) :
    (l.each mu msk f).2 = {} := by
  refine List.foldlRecOn (motive := fun a : Slate × Ev => a.2 = {}) (List.range l.vl) _ rfl fun a ha i _ => ?_
  dsimp only
  split
  case isTrue => rw [ha, hf i a.1]; rfl
  case isFalse => exact ha

/-- A vector instruction on integers, masks and bits raises nothing. -/
theorem exec_quietVector (s : State) (h : Instr.quietUnit c = some u) (hn : Instr.scalarUnit c = none) :
    ∃ f, exec c s = .next (s.vectorOp u f) ∧ ∀ t l, (f t l).2 = {} := by
  unfold Instr.quietUnit at h
  split at h <;> cases h <;> cases hn
  case h_8 => exact ⟨_, rfl, fun t l => Slate.each_quiet fun _ _ => rfl⟩
  case h_9 => exact ⟨_, rfl, fun t l => Slate.each_quiet fun _ _ => rfl⟩
  case h_10 => exact ⟨_, rfl, fun t l => Slate.each_quiet fun _ _ => rfl⟩
  case h_11 => exact ⟨_, rfl, fun t l => by dsimp only; split <;> rfl⟩
  case h_12 =>
    refine ⟨_, rfl, fun t l => ?_⟩
    split
    case h_1 => rfl
    case h_2 => split <;> rfl
    case h_3 => exact Slate.each_quiet fun _ _ => rfl
  case h_13 => exact ⟨_, rfl, fun t l => by dsimp only; split <;> rfl⟩

theorem registerUnit_of_quietUnit (h : Instr.quietUnit c = some u) : Instr.registerUnit c = some u := by
  unfold Instr.quietUnit at h
  split at h <;> cases h <;> rfl

/-- What a register instruction can be: one that sets the lanes of a running kernel, or a vector operation. -/
theorem exec_registerUnit (s : State) (h : Instr.registerUnit c = some u) :
    (∃ l, exec c s = .next (if s.laneRuns u then s.setSlate u l else s)) ∨ ∃ f, exec c s = .next (s.vectorOp u f) := by
  cases hs : Instr.scalarUnit c with
  | none => exact .inr (exec_vectorUnit s h hs)
  | some v =>
    obtain rfl : v = u := Option.some.inj ((registerUnit_of_scalarUnit hs).symm.trans h)
    exact .inl (exec_scalarUnit s hs)

/-- What an instruction that raises nothing can be. -/
theorem exec_quietUnit (s : State) (h : Instr.quietUnit c = some u) :
    (∃ l, exec c s = .next (if s.laneRuns u then s.setSlate u l else s)) ∨
      ∃ f, exec c s = .next (s.vectorOp u f) ∧ ∀ t l, (f t l).2 = {} := by
  cases hs : Instr.scalarUnit c with
  | none => exact .inr (exec_quietVector s h hs)
  | some v =>
    obtain rfl : v = u :=
      Option.some.inj ((registerUnit_of_scalarUnit hs).symm.trans (registerUnit_of_quietUnit h))
    exact .inl (exec_scalarUnit s hs)

/-! ### When a vector or memory instruction acts (06 R147, R149) -/

variable {f : VType → Slate → Slate × Ev} {g : VType → Slate → State}

theorem State.vectorOp_idle (h : s.laneRuns u = false) : s.vectorOp u f = s := by
  simp [State.vectorOp, h]

theorem State.vectorOp_noVtype (h : (s.tile u).slate.vtype = none) : s.vectorOp u f = s := by
  simp [State.vectorOp, h]

theorem State.memOp_idle (h : s.laneRuns u = false) : s.memOp u g = s := by
  simp [State.memOp, h]

theorem State.memOp_noVtype (h : (s.tile u).slate.vtype = none) : s.memOp u g = s := by
  simp [State.memOp, h]

/-- A vector operation does nothing, or sets the lanes and raises the events of its result. -/
theorem State.vectorOp_cases : s.vectorOp u f = s ∨
    ∃ t l d, s.vectorOp u f = (s.setSlate u (f t l).1.next).raise u d (f t l).2 := by
  unfold State.vectorOp
  split
  case isTrue =>
    split
    case h_1 => exact .inl rfl
    case h_2 t _ => exact .inr ⟨t, (s.tile u).slate, _, rfl⟩
  case isFalse => exact .inl rfl

theorem State.vectorOp_lanesOnly : LanesOnly s (s.vectorOp u f) u := by
  obtain h | ⟨t, l, d, h⟩ := s.vectorOp_cases (u := u) (f := f)
  · rw [h]
    exact LanesOnly.refl s u
  · rw [h]
    exact (lanesOnly_setSlate _).raise d _

theorem State.vectorOp_sameEvents (hf : ∀ t l, (f t l).2 = {}) : SameEvents s (s.vectorOp u f) u := by
  obtain h | ⟨t, l, d, h⟩ := s.vectorOp_cases (u := u) (f := f)
  · rw [h]
    exact SameEvents.refl s u
  · rw [h, hf]
    exact (sameEvents_setSlate _).raise_none d

theorem exec_lanesOnly {t : State} (h : Instr.registerUnit c = some u) (ht : exec c s = .next t) : LanesOnly s t u := by
  obtain ⟨l, hl⟩ | ⟨f, hf⟩ := exec_registerUnit s h
  · cases ht.symm.trans hl
    split
    case isTrue => exact lanesOnly_setSlate l
    case isFalse => exact LanesOnly.refl s u
  · cases ht.symm.trans hf
    exact State.vectorOp_lanesOnly

theorem exec_sameEvents {t : State} (h : Instr.quietUnit c = some u) (ht : exec c s = .next t) : SameEvents s t u := by
  obtain ⟨l, hl⟩ | ⟨f, hf, hquiet⟩ := exec_quietUnit s h
  · cases ht.symm.trans hl
    split
    case isTrue => exact sameEvents_setSlate l
    case isFalse => exact SameEvents.refl s u
  · cases ht.symm.trans hf
    exact State.vectorOp_sameEvents hquiet

theorem exec_registerUnit_idle (h : Instr.registerUnit c = some u) (hidle : s.laneRuns u = false) :
    exec c s = .next s := by
  obtain ⟨l, hl⟩ | ⟨f, hf⟩ := exec_registerUnit s h
  · rw [hl, hidle]
    rfl
  · rw [hf, State.vectorOp_idle hidle]

end

/-- Settles O49: by `exec_lanesOnly` and `exec_sameEvents`, and by what idle lanes and a missing vtype make of each shape of
instruction. -/
theorem slateRegisterFrame : Obligations.SlateRegisterFrame := by
  unfold Obligations.SlateRegisterFrame
  refine ⟨?frame, ?idle, ?noVtype⟩
  case frame =>
    intro c s t u hu ht
    obtain ⟨hrest, hunits, hparts, hflags⟩ := exec_lanesOnly hu ht
    refine ⟨hrest, hunits, hparts, fun k _ => hflags k, fun hq => ?_⟩
    obtain ⟨hfl, hnon, hfwd, hbwd⟩ := exec_sameEvents hq ht
    exact ⟨hfl, hnon, hfwd, hbwd⟩
  case idle =>
    rintro c s u (rfl | h | h) hidle
    · exact congrArg _ (if_neg (by simp [hidle]))
    · exact exec_registerUnit_idle h hidle
    · obtain ⟨g, hg⟩ := exec_memoryUnit s h
      rw [hg, State.memOp_idle hidle]
  case noVtype =>
    rintro c s u (h | h) hn hv
    · obtain ⟨f, hf⟩ := exec_vectorUnit s h hn
      rw [hf, State.vectorOp_noVtype hv]
    · obtain ⟨g, hg⟩ := exec_memoryUnit s h
      rw [hg, State.memOp_noVtype hv]

end Sys2Proof.Machine
end

section
/-! SUPPORT. Memory instructions of the lanes: the accesses that commit, what their requests and the end of the instruction
leave, and every such instruction as one shape (06 R153, R161, R162, R166, R168, R169; 10 R280, R297). -/

namespace Sys2Proof.Machine

/-! ### The accesses that commit (06 R162) -/

section
variable {cause : Nat → Nat → Option Nat} {as : List (Nat × List Nat)}

theorem scanMem_prefix : (scanMem cause as).1 <+: as := by
  induction as with
  | nil => exact List.prefix_rfl
  | cons p t ih =>
    rw [scanMem]
    split
    case h_1 => exact List.nil_prefix
    case h_2 => exact List.cons_prefix_cons.mpr ⟨rfl, ih⟩

theorem scanMem_clear (h : ∀ p ∈ as, ∀ a ∈ p.2, cause p.1 a = none) : scanMem cause as = (as, none) := by
  induction as with
  | nil => rfl
  | cons p t ih =>
    have hp : p.2.find? (fun a => (cause p.1 a).isSome) = none :=
      List.find?_eq_none.mpr fun a ha => by simp [h p List.mem_cons_self a ha]
    rw [scanMem, hp, ih fun q hq => h q (List.mem_cons_of_mem _ hq)]

end

section
variable {s : State} {u : Nat} {o : MOps} {load write : Bool} {n e : Nat} {as : List (Nat × List Nat)}

theorem State.scanFor_clear (h : Clear s u o load write n e as) :
    s.scanFor u o load write n e as = (s.fallen u o write as, none) := by
  rw [State.scanFor, scanMem_clear h.cause]
  rfl

theorem State.scanFor_prefix : (s.scanFor u o load write n e as).1 <+: s.fallen u o write as :=
  scanMem_prefix.map _

theorem State.fallen_keys {write : Bool} : (s.fallen u o write as).map Prod.fst = as.map Prod.fst := by
  simp [State.fallen]

end

/-! ### What requests leave alone (10 R286, R293, R297) -/

/-- Nothing changed that a kernel sees: the tiles, the job and every byte are as they were. -/
structure Unseen (s t : State) : Prop where
  tiles : t.tiles = s.tiles
  job : t.job = s.job
  bytes : sameBytes s t

section
variable {s t r : State}

theorem Unseen.refl (s : State) : Unseen s s := ⟨rfl, rfl, rfl, rfl, rfl⟩

theorem sameBytes.trans (h : sameBytes s t) (h' : sameBytes t r) : sameBytes s r :=
  ⟨h'.1.trans h.1, h'.2.1.trans h.2.1, h'.2.2.trans h.2.2⟩

theorem Unseen.trans (h : Unseen s t) (h' : Unseen t r) : Unseen s r :=
  ⟨h'.tiles.trans h.tiles, h'.job.trans h.job, h.bytes.trans h'.bytes⟩

theorem Unseen.tile (h : Unseen s t) (v : Nat) : t.tile v = s.tile v := congrArg _ h.tiles

theorem sameBytes_of_mem (h : t.mem = s.mem) : sameBytes s t := by simp [sameBytes, h]

theorem unseen_count (k n : Nat) : Unseen s (s.count k n) := ⟨by simp, by simp, sameBytes_of_mem (by simp)⟩

theorem unseen_post (q : MemReq) : Unseen s (s.post q) := by
  unfold State.post
  split
  case isTrue => exact ⟨rfl, rfl, rfl, rfl, rfl⟩
  case isFalse => exact .refl s

theorem unseen_askLines (req cls : Nat) (ls : List Nat) : Unseen s (s.askLines req cls ls) :=
  List.foldlRecOn (motive := Unseen s) ls _ (.refl s) fun _ hx _ _ => hx.trans (unseen_post _)

theorem unseen_clearPoison (spans : List (Nat × Nat)) : Unseen s (s.clearPoison spans) := ⟨rfl, rfl, rfl, rfl, rfl⟩

theorem unseen_memUe (a : Nat) : Unseen s (s.memUe a) := by
  unfold State.memUe
  dsimp only
  split
  case h_1 =>
    refine Unseen.trans ?_ (unseen_count _ 1)
    exact ⟨rfl, rfl, rfl, rfl, rfl⟩
  case h_2 => exact ⟨rfl, rfl, rfl, rfl, rfl⟩

variable {u : Nat} {o : MOps}

theorem unseen_askMem (write : Bool) (n : Nat) (acc : List (Nat × List Nat)) :
    Unseen s (s.askMem u o write n acc) := by
  unfold State.askMem
  split
  case isTrue =>
    split
    case isTrue => exact (unseen_askLines ..).trans (unseen_clearPoison _)
    case isFalse => exact unseen_askLines ..
  case isFalse => exact .refl s

theorem unseen_countLines (space : Bool) (acc : List (Nat × List Nat)) : Unseen s (s.countLines u space acc) := by
  unfold State.countLines
  split
  case isTrue => exact unseen_count ..
  case isFalse => exact .refl s

end

/-! ### The requests and the stall of an instruction's accesses (06 R168, R169) -/

/-- The state once the committed accesses of an instruction are requested and their stall counts. -/
def State.asked (s : State) (u : Nat) (o : MOps) (write counted : Bool) (n : Nat) (acc : List (Nat × List Nat)) : State :=
  (if counted then (s.askMem u o write n acc).countLines u o.space acc else s.askMem u o write n acc).stallBy u o

/-- The lanes with the stall of an instruction's accesses added. -/
def Slate.stalled (l : Slate) (o : MOps) : Slate := { l with stall := l.stall + (if o.space then o.late else 0) }

/-- What the requests and the stall leave: the lanes stalled; every other unit, the job and every byte as they were. -/
structure Asked (s t : State) (u : Nat) (o : MOps) : Prop where
  slate : (t.tile u).slate = (s.tile u).slate.stalled o
  units : ∀ v, v ≠ u → t.tile v = s.tile v
  job : t.job = s.job
  bytes : sameBytes s t

section
variable {s t r : State} {u : Nat} {o : MOps}

theorem Unseen.asked (h : Unseen s t) (h' : Asked t r u o) : Asked s r u o where
  slate := by rw [h'.slate, h.tile]
  units v hv := (h'.units v hv).trans (h.tile v)
  job := h'.job.trans h.job
  bytes := h.bytes.trans h'.bytes

theorem asked_stallBy : Asked s (s.stallBy u o) u o := by
  unfold State.stallBy
  split
  case isTrue hsp =>
    have hc := unseen_count (s := s.setSlate u { (s.tile u).slate with stall := (s.tile u).slate.stall + o.late })
      (kSlMemStall u) o.late
    refine ⟨?_, fun v hv => (hc.tile v).trans (State.setSlate_tile_ne s hv), hc.job, hc.bytes⟩
    rw [hc.tile, State.setSlate_slate, Slate.stalled, if_pos hsp]
  case isFalse hsp =>
    refine ⟨?_, fun _ _ => rfl, rfl, rfl, rfl, rfl⟩
    rw [Slate.stalled, if_neg hsp]
    rfl

theorem asked_asked (write counted : Bool) (n : Nat) (acc : List (Nat × List Nat)) :
    Asked s (s.asked u o write counted n acc) u o := by
  unfold State.asked
  split
  case isTrue => exact ((unseen_askMem ..).trans (unseen_countLines ..)).asked asked_stallBy
  case isFalse => exact (unseen_askMem ..).asked asked_stallBy

end

/-! ### The end of an instruction (06 R162, R166; 20 R532) -/

section
variable {s t : State} {u : Nat} {l : Slate} {f : MemStop} {space : Bool}

theorem State.entryOf_congr (h : t.job = s.job) (e : Nat) : t.entryOf e = s.entryOf e := by
  rw [State.entryOf, h, State.entryOf]

/-- A kernel stopped after operations that left the job and the other units alone. -/
theorem Stopped.of_kept {r : State} {elem addr cause : Nat} (h : Stopped t r u l elem addr cause) (hjob : t.job = s.job)
    (hunits : ∀ v, v ≠ u → t.tile v = s.tile v) : Stopped s r u l elem addr cause where
  run := h.run
  record := by rw [h.record, State.entryOf_congr hjob, hjob]
  contained hin := h.contained (by rw [hjob, hin])
  units v hv := (h.units v hv).trans (hunits v hv)

@[simp] theorem State.contained_tile (r : FaultRec) (v : Nat) : (s.contained r).tile v = s.tile v := by simp [State.tile]

/-- The lanes stopped at an element, with the record of R166. -/
def State.faulted (s : State) (u : Nat) (f : MemStop) : Slate :=
  { (s.tile u).slate with
    run := .faulted
    fault := some { addr := f.addr, opId := (s.entryOf (s.tile u).slate.entry).opId, pc := (s.tile u).slate.pc
                    elem := f.elem, cause := f.cause, unit := u, step := s.job.step } }

theorem State.slateFault_eq : ∃ r, s.slateFault u f = (s.setSlate u (s.faulted u f)).contained r := ⟨_, rfl⟩

theorem State.slateFault_slate : ((s.slateFault u f).tile u).slate = s.faulted u f := by
  obtain ⟨r, h⟩ := s.slateFault_eq (u := u) (f := f)
  rw [h, State.contained_tile, State.setSlate_slate]

theorem stopped_slateFault (hpc : (s.tile u).slate.pc = l.pc) (he : (s.tile u).slate.entry = l.entry) :
    Stopped s (s.slateFault u f) u l f.elem f.addr f.cause where
  run := by rw [State.slateFault_slate]; rfl
  record := by rw [State.slateFault_slate, State.faulted, hpc, he]
  contained hin := by
    obtain ⟨r, h⟩ := s.slateFault_eq (u := u) (f := f)
    rw [h]
    exact State.contained_job_fault hin
  units v hv := by
    obtain ⟨r, h⟩ := s.slateFault_eq (u := u) (f := f)
    rw [h, State.contained_tile, State.setSlate_tile_ne s hv]

@[simp] theorem State.slateFault_mem : (s.slateFault u f).mem = s.mem := by simp [State.slateFault]

/-- The state in which a fault of the memory space is recorded: its uncorrectable error is counted. -/
theorem State.endMem_some : ∃ y, Unseen s y ∧ s.endMem u space (some f) = y.slateFault u f := by
  by_cases hue : (space && decide (f.cause = 0x04) && !s.poisoned f.pos 1) = true
  · exact ⟨_, unseen_memUe f.pos, congrArg (State.slateFault · u f) (if_pos hue)⟩
  · exact ⟨s, .refl s, congrArg (State.slateFault · u f) (if_neg hue)⟩

theorem stopped_endMem (hpc : (s.tile u).slate.pc = l.pc) (he : (s.tile u).slate.entry = l.entry) :
    Stopped s (s.endMem u space (some f)) u l f.elem f.addr f.cause := by
  obtain ⟨y, hy, hend⟩ := s.endMem_some (u := u) (f := f) (space := space)
  rw [hend]
  exact (stopped_slateFault (by rw [hy.tile, hpc]) (by rw [hy.tile, he])).of_kept hy.job fun v _ => hy.tile v

theorem sameBytes_endMem (st : Option MemStop) : sameBytes s (s.endMem u space st) := by
  cases st with
  | none => exact ⟨rfl, rfl, rfl⟩
  | some f =>
    obtain ⟨y, hy, hend⟩ := s.endMem_some (u := u) (f := f) (space := space)
    rw [hend]
    exact hy.bytes.trans (sameBytes_of_mem State.slateFault_mem)

theorem State.endMem_v (st : Option MemStop) : ((s.endMem u space st).tile u).slate.v = (s.tile u).slate.v := by
  cases st with
  | none => rw [State.endMem, State.setSlate_slate]; rfl
  | some f =>
    obtain ⟨y, hy, hend⟩ := s.endMem_some (u := u) (f := f) (space := space)
    rw [hend, State.slateFault_slate, State.faulted, hy.tile]

theorem State.endMem_none_slate : ((s.endMem u space none).tile u).slate = (s.tile u).slate.next :=
  State.setSlate_slate s

theorem State.endMem_none_tile_ne {v : Nat} (hv : v ≠ u) : (s.endMem u space none).tile v = s.tile v :=
  State.setSlate_tile_ne s hv

end

/-! ### Memory instructions as one shape (06 R153, R161, R164) -/

/-- What the committed accesses of a memory instruction do to the registers or the memory: a load, a store, or an addition
in the order of arrival. -/
def State.effect (s : State) (u : Nat) (o : MOps) (t : VType) (l : Slate) (load write : Bool) (order : List Nat)
    (acc : List (Nat × List Nat)) : State :=
  match load, write with
  | true, true => s.addAll u o t l (arrival order acc)
  | false, true => s.storeAll u o.space t o.d l acc
  | _, false => s.setSlate u (loadAll (fun a => s.spaceRd u o.space a (Fmt.bits t.fmt / 8)) t o.d l acc)

theorem State.effect_load {s : State} {u : Nat} {o : MOps} {t : VType} {l : Slate} (load : Bool) (order : List Nat)
    (acc : List (Nat × List Nat)) : s.effect u o t l load false order acc =
      s.setSlate u (loadAll (fun a => s.spaceRd u o.space a (Fmt.bits t.fmt / 8)) t o.d l acc) := by
  cases load <;> rfl

/-- What a memory instruction leaves, from the effect of its committed accesses: nothing while they must wait, else the
effect, the requests, and the end at the element it stops at. -/
def State.accessed (s : State) (u : Nat) (o : MOps) (load write counted : Bool) (n e : Nat) (addrs : List (Nat × List Nat))
    (fx : List (Nat × List Nat) → State) : State :=
  let x := s.scanFor u o load write n e addrs
  if s.memReady u o load n e x.1 then ((fx x.1).asked u o write counted n x.1).endMem u o.space x.2 else s

section
variable {s : State} {u n e : Nat} {o : MOps} {t : VType} {l : Slate} {load write counted : Bool} {c : Instr}
  {addrs acc : List (Nat × List Nat)} {fx : List (Nat × List Nat) → State} {st : Option MemStop}

theorem Lanes.memOp {f : VType → Slate → State} (h : Lanes s u t l) : s.memOp u f = f t l := by
  obtain ⟨hruns, rfl, hv⟩ := h
  simp [State.memOp, hruns, hv]

theorem Lanes.moveOp {as : VType → Slate → List (Nat × List Nat)} {f : VType → Slate → List (Nat × List Nat) → State}
    (h : Lanes s u t l) : s.moveOp u o load write counted as f =
      s.accessed u o load write counted (Fmt.bits t.fmt / 8) l.entry (as t l) (f t l) :=
  h.memOp

/-- Every instruction that loads, stores or adds is `State.accessed` of its addresses and its effect. -/
theorem Lanes.exec_access (h : Lanes s u t l) (hn : n = Fmt.bits t.fmt / 8)
    (ha : Instr.access l n c = some (u, o, load, write, addrs)) : ∃ counted order,
      exec c s = .next (s.accessed u o load write counted n l.entry addrs (s.effect u o t l load write order)) := by
  subst hn
  unfold Instr.access at ha
  split at ha <;> cases ha
  case h_10 o' order => exact ⟨true, order, congrArg _ h.moveOp⟩
  all_goals exact ⟨_, [], congrArg _ h.moveOp⟩

theorem State.accessed_waits (hs : s.scanFor u o load write n e addrs = (acc, st))
    (hr : s.memReady u o load n e acc = false) : s.accessed u o load write counted n e addrs fx = s := by
  simp [State.accessed, hs, hr]

theorem State.accessed_ready (hs : s.scanFor u o load write n e addrs = (acc, st))
    (hr : s.memReady u o load n e acc = true) : s.accessed u o load write counted n e addrs fx =
      ((fx acc).asked u o write counted n acc).endMem u o.space st := by
  simp [State.accessed, hs, hr]

/-! ### Which elements an instruction accesses (06 R151, R161) -/

theorem access_keys (ha : Instr.access l n c = some (u, o, load, write, addrs)) :
    addrs.map Prod.fst = l.actives o.mu o.msk := by
  unfold Instr.access at ha
  split at ha <;> cases ha <;> simp [unitAddrs, strideAddrs, indexAddrs, Function.comp_def]

/-- Every access of an instruction has as many fields, and one field when it reads and writes the memory. -/
theorem access_fields (ha : Instr.access l n c = some (u, o, load, write, addrs)) :
    ∃ f, (∀ p ∈ addrs, p.2.length = f) ∧ (load = true → write = true → f = 1) := by
  unfold Instr.access at ha
  split at ha <;> cases ha
  case h_4 o f => exact ⟨f, by simp [unitAddrs], fun _ hw => nomatch hw⟩
  case h_8 o f => exact ⟨f, by simp [unitAddrs], fun hl => nomatch hl⟩
  all_goals exact ⟨1, by simp [unitAddrs, strideAddrs, indexAddrs], fun _ _ => rfl⟩

theorem actives_sorted (l : Slate) (mu : Bool) (msk : Nat) : (l.actives mu msk).Pairwise (· < ·) :=
  List.pairwise_lt_range.filter _

theorem mem_actives {mu : Bool} {msk i : Nat} : i ∈ l.actives mu msk ↔ i < l.vl ∧ l.active mu msk i = true := by
  simp [Slate.actives]

/-- The accesses of a scan come in ascending index, each of an active element. -/
theorem State.scanFor_keys (hk : addrs.map Prod.fst = l.actives o.mu o.msk)
    (hs : s.scanFor u o load write n e addrs = (acc, st)) : acc.map Prod.fst <+: l.actives o.mu o.msk := by
  have h := (State.scanFor_prefix (s := s) (u := u) (o := o) (load := load) (write := write) (n := n) (e := e)
    (as := addrs)).map Prod.fst
  rwa [hs, State.fallen_keys, hk] at h

theorem keys_sorted (h : acc.map Prod.fst <+: l.actives o.mu o.msk) : acc.Pairwise (fun p q => p.1 < q.1) :=
  List.pairwise_map.mp ((actives_sorted l o.mu o.msk).sublist h.sublist)

theorem key_active {p : Nat × List Nat} (h : acc.map Prod.fst <+: l.actives o.mu o.msk) (hp : p ∈ acc) :
    p.1 < l.vl ∧ l.active o.mu o.msk p.1 = true :=
  mem_actives.mp (h.subset (List.mem_map_of_mem hp))

end

/-! ### The fields of accesses -/

/-- One field of one access: the element, the field's number, and its address. -/
structure AccField where
  idx : Nat
  fld : Nat
  addr : Nat

/-- The fields of accesses, in the order in which they take effect. -/
def accFields (acc : List (Nat × List Nat)) : List AccField :=
  acc.flatMap fun p => p.2.zipIdx.map fun q => { idx := p.1, fld := q.2, addr := q.1 }

section
variable {acc : List (Nat × List Nat)} {as : List Nat} {i q a : Nat} {w : AccField}

theorem mem_accFields : w ∈ accFields acc ↔ ∃ as, (w.idx, as) ∈ acc ∧ as[w.fld]? = some w.addr := by
  simp only [accFields, List.mem_flatMap, List.mem_map]
  constructor
  · rintro ⟨⟨i, as⟩, hp, q, hq, rfl⟩
    exact ⟨as, hp, List.mem_zipIdx_iff_getElem?.mp hq⟩
  · rintro ⟨as, hp, hq⟩
    exact ⟨(w.idx, as), hp, (w.addr, w.fld), List.mem_zipIdx_iff_getElem?.mpr hq, rfl⟩

/-- Two accesses of the same element in ascending index are one. -/
theorem key_unique {p r : Nat × List Nat} (hs : acc.Pairwise (fun p q => p.1 < q.1)) (hp : p ∈ acc) (hr : r ∈ acc)
    (h : p.1 = r.1) : p = r :=
  List.inj_on_of_nodup_map (List.pairwise_map.mpr (hs.imp Nat.ne_of_lt)) hp hr h

/-- Where a field stands among the fields: the ones behind it are later fields of its access or fields of later accesses. -/
theorem accFields_split (hs : acc.Pairwise (fun p q => p.1 < q.1)) (hp : (i, as) ∈ acc) (hq : as[q]? = some a) :
    ∃ A B, accFields acc = A ++ { idx := i, fld := q, addr := a } :: B ∧
      ∀ w ∈ B, (i < w.idx ∧ w ∈ accFields acc) ∨ (w.idx = i ∧ q < w.fld ∧ w.addr ∈ as.drop (q + 1)) := by
  obtain ⟨before, after, rfl⟩ := List.append_of_mem hp
  obtain ⟨hlt, rfl⟩ := List.getElem?_eq_some_iff.mp hq
  have has : as = as.take q ++ as[q] :: as.drop (q + 1) := by
    rw [← List.drop_eq_getElem_cons hlt, List.take_append_drop]
  have hlater : ∀ p ∈ after, i < p.1 := (List.pairwise_cons.mp (List.pairwise_append.mp hs).2.1).1
  let field := fun x : Nat × Nat => AccField.mk i x.2 x.1
  refine ⟨accFields before ++ (as.take q).zipIdx.map field,
    ((as.drop (q + 1)).zipIdx (q + 1)).map field ++ accFields after, ?_, ?_⟩
  · have hlen : (as.take q).length = q := List.length_take_of_le hlt.le
    have hzip : as.zipIdx = (as.take q).zipIdx ++ (as[q], q) :: (as.drop (q + 1)).zipIdx (q + 1) := by
      conv_lhs => rw [has]
      rw [List.zipIdx_append, List.zipIdx_cons, hlen, Nat.zero_add]
    simp [accFields, hzip, field]
  · intro w hw
    rcases List.mem_append.mp hw with hw | hw
    · obtain ⟨x, hx, rfl⟩ := List.mem_map.mp hw
      obtain ⟨hle, _, hmem⟩ := List.mem_zipIdx hx
      exact .inr ⟨rfl, hle, (congrArg (· ∈ as.drop (q + 1)) hmem).mpr (List.getElem_mem _)⟩
    · have hall : w ∈ accFields (before ++ (i, as) :: after) := by
        simp only [accFields, List.flatMap_append, List.flatMap_cons] at hw ⊢
        simp [hw]
      obtain ⟨as', hmem, _⟩ := mem_accFields.mp hw
      exact .inl ⟨hlater _ hmem, hall⟩

end

end Sys2Proof.Machine
end

section
/-! SUPPORT. Loads of the lanes: what the elements hold after the committed accesses are loaded, the result mask of `vlxs`, and
the loads from the host (06 R151, R161 to R163, R166; 07 R188). -/

namespace Sys2Proof.Machine

/-! ### Fields loaded into registers (06 R148, R161) -/

section
variable {l : Slate} {d g ew i q k : Nat} {rd : Nat → Nat} {W : List AccField} {w : AccField}

/-- The lanes with one field of an access loaded: field q of an access goes to the group `d` + q·g. -/
def Slate.landField (rd : Nat → Nat) (d g ew : Nat) (l : Slate) (w : AccField) : Slate :=
  l.setElem (d + w.fld * g) ew w.idx (rd w.addr)

/-- Fields land inside the registers, each in its own group where they are not all of field `q`. -/
structure Lands (d g ew i q : Nat) (W : List AccField) : Prop where
  fits : ∀ w ∈ W, fitsV (d + w.fld * g) ew (w.idx + 1)
  groups : ∀ w ∈ W, w.fld = q ∨ ((w.idx + 1) * ew ≤ 2048 * g ∧ (i + 1) * ew ≤ 2048 * g)

theorem reg_in_group (hew : 0 < ew) (h : (i + 1) * ew ≤ 2048 * g) : i * ew / 2048 < g := by
  rw [Nat.add_one_mul] at h
  omega

theorem group_end_le {a b : Nat} (h : a < b) : a * g + g ≤ b * g := Nat.succ_mul a g ▸ Nat.mul_le_mul_right g h

theorem groups_apart {a b x y : Nat} (hab : a ≠ b) (hx : x < g) (hy : y < g) : d + a * g + x ≠ d + b * g + y := by
  rcases Nat.lt_or_gt_of_ne hab with hlt | hlt
  · have := group_end_le (g := g) hlt
    omega
  · have := group_end_le (g := g) hlt
    omega

theorem Slate.elem_landField_ne (hew : 0 < ew) (hfit : fitsV (d + w.fld * g) ew (w.idx + 1))
    (hgr : w.fld = q ∨ ((w.idx + 1) * ew ≤ 2048 * g ∧ (i + 1) * ew ≤ 2048 * g)) (hne : ¬ (w.idx = i ∧ w.fld = q)) :
    (l.landField rd d g ew w).elem (d + q * g) ew i = l.elem (d + q * g) ew i := by
  by_cases hq : w.fld = q
  · subst hq
    exact Slate.elem_setElem_ne hew hfit fun hi => hne ⟨hi.symm, rfl⟩
  · obtain ⟨hw, hi⟩ := hgr.resolve_left hq
    have hreg := groups_apart (d := d) (Ne.symm hq) (reg_in_group hew hi) (reg_in_group hew hw)
    rw [Slate.elem, Slate.landField, Slate.vreg_setElem_ne hreg, ← Slate.elem]

theorem Slate.elem_landAll_ne (hew : 0 < ew) (hl : Lands d g ew i q W) (hne : ∀ w ∈ W, ¬ (w.idx = i ∧ w.fld = q)) :
    (W.foldl (Slate.landField rd d g ew) l).elem (d + q * g) ew i = l.elem (d + q * g) ew i :=
  List.foldlRecOn (motive := fun x : Slate => x.elem (d + q * g) ew i = l.elem (d + q * g) ew i) W _ rfl
    fun _ hx w hw => (Slate.elem_landField_ne hew (hl.fits w hw) (hl.groups w hw) (hne w hw)).trans hx

theorem Slate.vreg_landAll (h : ∀ w ∈ W, k ≠ d + w.fld * g + w.idx * ew / 2048) :
    (W.foldl (Slate.landField rd d g ew) l).vreg k = l.vreg k :=
  List.foldlRecOn (motive := fun x : Slate => x.vreg k = l.vreg k) W _ rfl
    fun _ hx w hw => (Slate.vreg_setElem_ne (h w hw)).trans hx

end

/-! ### The committed accesses loaded (06 R161) -/

section
variable {l : Slate} {t : VType} {d i q a k n : Nat} {as : List Nat} {rd : Nat → Nat} {acc : List (Nat × List Nat)}

theorem loadAll_eq :
    loadAll rd t d l acc = (accFields acc).foldl (Slate.landField rd d t.g (Fmt.bits t.fmt)) l := by
  rw [accFields, List.foldl_flatMap, loadAll]
  congr 1
  funext x p
  rw [List.foldl_map, List.range_eq_range', ← List.zipIdx_eq_zip_range']
  rfl

/-- A load touches the vector registers alone. -/
theorem loadAll_rest : loadAll rd t d l acc = { l with v := (loadAll rd t d l acc).v } := by
  rw [loadAll_eq]
  refine List.foldlRecOn (motive := fun x : Slate => x = { l with v := x.v }) _ _ rfl fun x hx w _ => ?_
  unfold Slate.landField Slate.setElem Slate.setV
  dsimp only
  split
  case isTrue => rw [hx]
  case isFalse => exact hx

theorem loadAll_elem (hew : Fmt.bits t.fmt ∣ 2048) (hs : acc.Pairwise (fun p q => p.1 < q.1))
    (hl : Lands d t.g (Fmt.bits t.fmt) i q (accFields acc)) (hp : (i, as) ∈ acc) (hq : as[q]? = some a) :
    (loadAll rd t d l acc).elem (d + q * t.g) (Fmt.bits t.fmt) i = rd a % 2 ^ Fmt.bits t.fmt := by
  obtain ⟨A, B, hsplit, hB⟩ := accFields_split hs hp hq
  have hin : ∀ w ∈ B, w ∈ accFields acc := fun w hw => by simp [hsplit, hw]
  have hfit := hl.fits { idx := i, fld := q, addr := a } (by simp [hsplit])
  rw [loadAll_eq, hsplit, List.foldl_append, List.foldl_cons, Slate.elem_landAll_ne
    (Nat.pos_of_dvd_of_pos hew (by decide)) ⟨fun w hw => hl.fits w (hin w hw), fun w hw => hl.groups w (hin w hw)⟩]
  · exact Slate.elem_setElem_same hew hfit
  · rintro w hw ⟨hi, hf⟩
    rcases hB w hw with ⟨hlt, _⟩ | ⟨_, hlt, _⟩ <;> omega

theorem loadAll_elem_ne (hew : Fmt.bits t.fmt ∣ 2048) (hl : Lands d t.g (Fmt.bits t.fmt) i q (accFields acc))
    (hi : ∀ p ∈ acc, p.1 ≠ i) :
    (loadAll rd t d l acc).elem (d + q * t.g) (Fmt.bits t.fmt) i = l.elem (d + q * t.g) (Fmt.bits t.fmt) i := by
  rw [loadAll_eq, Slate.elem_landAll_ne (Nat.pos_of_dvd_of_pos hew (by decide)) hl]
  rintro w hw ⟨hwi, _⟩
  obtain ⟨as, hp, _⟩ := mem_accFields.mp hw
  exact hi _ hp hwi

theorem lands_of_single {g ew : Nat} (hfit : fitsV d ew n) (hn : ∀ p ∈ acc, p.1 < n) (h1 : ∀ p ∈ acc, p.2.length = 1) :
    Lands d g ew i 0 (accFields acc) := by
  have hzero : ∀ w ∈ accFields acc, w.fld = 0 ∧ w.idx < n := fun w hw => by
    obtain ⟨as, hp, hq⟩ := mem_accFields.mp hw
    obtain ⟨hlt, _⟩ := List.getElem?_eq_some_iff.mp hq
    have hlen : as.length = 1 := h1 _ hp
    exact ⟨by omega, hn _ hp⟩
  refine ⟨fun w hw => ?_, fun w hw => .inl (hzero w hw).1⟩
  obtain ⟨hf, hlt⟩ := hzero w hw
  rw [hf, Nat.zero_mul, Nat.add_zero]
  exact hfit.trans' (by gcongr; omega)

/-- Accesses of one field each, loaded: `Slate.Wrote` at the elements they are of. -/
theorem loadAll_wrote {act : Nat → Bool} {addr : Nat → Nat} (hew : Fmt.bits t.fmt ∣ 2048) (hfit : fitsV d (Fmt.bits t.fmt) n)
    (hs : acc.Pairwise (fun p q => p.1 < q.1)) (hmem : ∀ i as, (i, as) ∈ acc ↔ i < n ∧ act i = true ∧ as = [addr i]) :
    l.Wrote (loadAll rd t d l acc).next d (Fmt.bits t.fmt) n act (fun i => rd (addr i)) := by
  have hl : ∀ i, Lands d t.g (Fmt.bits t.fmt) i 0 (accFields acc) := fun i =>
    lands_of_single hfit (fun p hp => ((hmem p.1 p.2).mp hp).1) fun p hp => by rw [((hmem p.1 p.2).mp hp).2.2]; rfl
  refine ⟨fun i _ => ?_, fun k hk => ?_, ?_⟩
  · have hin := loadAll_elem (l := l) (rd := rd) (a := addr i) (as := [addr i]) hew hs (hl i)
    have hout := loadAll_elem_ne (l := l) (rd := rd) hew (hl i)
    rw [Nat.zero_mul, Nat.add_zero] at hin hout
    split
    case isTrue h => exact hin ((hmem i _).mpr ⟨h.1, h.2, rfl⟩) rfl
    case isFalse h =>
      refine hout fun p hp hpi => h ?_
      obtain ⟨hlt, hact, _⟩ := (hmem p.1 p.2).mp hp
      exact hpi ▸ ⟨hlt, hact⟩
  · rw [Slate.vreg_next, loadAll_eq]
    exact Slate.vreg_landAll fun w _ => by omega
  · exact congrArg (fun y : Slate => { y.next with v := l.v }) loadAll_rest

end

/-! ### What a load leaves (06 R161, R168) -/

@[simp] theorem Slate.vreg_stalled {l : Slate} {o : MOps} {k : Nat} : (l.stalled o).vreg k = l.vreg k := rfl

@[simp] theorem Slate.elem_stalled {l : Slate} {o : MOps} {r ew i : Nat} : (l.stalled o).elem r ew i = l.elem r ew i := rfl

/-- The lanes are `y`, stalled by the instruction's accesses and moved on; every other unit, the job and every byte are as
they were. -/
structure LoadLeft (s x : State) (u : Nat) (o : MOps) (y : Slate) : Prop where
  slate : (x.tile u).slate = (y.stalled o).next
  units : ∀ v, v ≠ u → x.tile v = s.tile v
  job : x.job = s.job
  bytes : sameBytes s x

section
variable {s x z : State} {u n : Nat} {o : MOps} {t : VType} {l y : Slate} {c : Instr} {addrs : List (Nat × List Nat)}

theorem LoadLeft.of_asked {r : State} {space : Bool} (ha : Asked (s.setSlate u y) z u o) (hz : Unseen z r) :
    LoadLeft s (r.endMem u space none) u o y where
  slate := by rw [State.endMem_none_slate, hz.tile, ha.slate, State.setSlate_slate]
  units v hv := by rw [State.endMem_none_tile_ne hv, hz.tile, ha.units v hv, State.setSlate_tile_ne s hv]
  job := hz.job.trans ha.job
  bytes := sameBytes.trans (t := s.setSlate u y) ⟨rfl, rfl, rfl⟩
    (ha.bytes.trans (hz.bytes.trans (sameBytes_endMem none)))

/-- A load whose accesses happen and meet no cause of a fault. -/
theorem Lanes.exec_load (h : Lanes s u t l) (hn : n = Fmt.bits t.fmt / 8)
    (ha : Instr.access l n c = some (u, o, true, false, addrs)) (hc : Clear s u o true false n l.entry addrs) :
    ∃ x, exec c s = .next x ∧
      LoadLeft s x u o (loadAll (fun a => s.spaceRd u o.space a n) t o.d l (s.fallen u o false addrs)) := by
  obtain ⟨counted, order, he⟩ := h.exec_access hn ha
  subst hn
  rw [he, State.accessed_ready (State.scanFor_clear hc) hc.ready]
  exact ⟨_, rfl, LoadLeft.of_asked (asked_asked ..) (.refl _)⟩

theorem mem_single {pl : Nat → Nat} {mu : Bool} {msk i : Nat} {as : List Nat} :
    (i, as) ∈ (l.actives mu msk).map (fun i => (i, [pl i])) ↔ i < l.vl ∧ l.active mu msk i = true ∧ as = [pl i] := by
  simp only [List.mem_map, mem_actives, Prod.mk.injEq]
  constructor
  · rintro ⟨j, ⟨hlt, hact⟩, rfl, rfl⟩
    exact ⟨hlt, hact, rfl⟩
  · rintro ⟨hlt, hact, rfl⟩
    exact ⟨i, ⟨hlt, hact⟩, rfl, rfl⟩

/-- The accesses of a list with one address for each active element, at the addresses at which they fall. -/
theorem mem_fallen_single {pl : Nat → Nat} {write : Bool} {i : Nat} {as : List Nat}
    (hA : addrs = (l.actives o.mu o.msk).map (fun i => (i, [pl i]))) : (i, as) ∈ s.fallen u o write addrs ↔
      i < l.vl ∧ l.active o.mu o.msk i = true ∧ as = [s.inUse u o.space write (pl i)] := by
  rw [hA, State.fallen, List.map_map]
  exact mem_single (pl := fun i => s.inUse u o.space write (pl i))

theorem sorted_of_keys (hk : addrs.map Prod.fst = l.actives o.mu o.msk) : addrs.Pairwise (fun p q => p.1 < q.1) :=
  List.pairwise_map.mp (hk ▸ actives_sorted l o.mu o.msk)

theorem fallen_sorted {write : Bool} (hk : addrs.map Prod.fst = l.actives o.mu o.msk) :
    (s.fallen u o write addrs).Pairwise (fun p q => p.1 < q.1) :=
  sorted_of_keys (State.fallen_keys.trans hk)

/-- A load of one address for each active element. -/
theorem Lanes.exec_loaded {pl : Nat → Nat} (h : Lanes s u t l) (hfmt : laneFmt t.fmt = true)
    (hfit : fitsV o.d (Fmt.bits t.fmt) l.vl)
    (ha : Instr.access l (Fmt.bits t.fmt / 8) c = some (u, o, true, false, addrs))
    (hA : addrs = (l.actives o.mu o.msk).map (fun i => (i, [pl i])))
    (hc : Clear s u o true false (Fmt.bits t.fmt / 8) l.entry addrs) : ∃ x, exec c s = .next x ∧
      Loaded s x u o l (Fmt.bits t.fmt) (fun i => s.slotRd u o (pl i) (Fmt.bits t.fmt / 8)) := by
  obtain ⟨x, hx, hleft⟩ := h.exec_load rfl ha hc
  refine ⟨x, hx, ⟨?_, ?_, hleft.bytes, hleft.units, hleft.job⟩⟩
  · obtain ⟨helems, hbelow, hrest⟩ := loadAll_wrote (l := l) (rd := fun a => s.spaceRd u o.space a (Fmt.bits t.fmt / 8))
      (bits_dvd_of_laneFmt hfmt) hfit (fallen_sorted (access_keys ha)) fun i as => mem_fallen_single (s := s) (u := u) hA
    rw [hleft.slate]
    exact ⟨helems, hbelow, congrArg (fun y : Slate => { y with stall := l.stall }) hrest⟩
  · rw [hleft.slate, loadAll_rest]
    rfl

theorem unitAddrs_one : unitAddrs l o n 1 =
    (l.actives o.mu o.msk).map (fun i => (i, [wrapAddr (((l.xreg o.a).toNat + i * n : Nat) : Int)])) := by
  simp [unitAddrs]

theorem indexAddrs_eq {place : Nat → Nat} (hplace : ∀ i, place i = wrapAddr (((l.xreg o.a).toNat : Int) +
      signed (if o.idx16 then 16 else 32) (l.elem o.b (if o.idx16 then 16 else 32) i) * (n : Int))) :
    indexAddrs l o n = (l.actives o.mu o.msk).map (fun i => (i, [place i])) := by
  simp [indexAddrs, hplace]

end

/-! ### Loads with a result mask (06 R163, R166) -/

section
variable {s : State} {u n k : Nat} {o : MOps} {t : VType} {l : Slate} {acc : List (Nat × List Nat)} {st : Option MemStop}

theorem Lanes.exec_vlxs_waits (h : Lanes s u t l) (hn : n = Fmt.bits t.fmt / 8)
    (hs : s.scanFor u o true false n l.entry (indexAddrs l o n) = (acc, st))
    (hr : s.memReady u o true n l.entry acc = false) : exec (.vlxs u o k) s = .next s := by
  subst hn
  refine congrArg Host.Outcome.next (h.memOp.trans ?_)
  simp [hs, hr]

/-- A data error ends `vlxs` as it ends every load. -/
theorem Lanes.exec_vlxs_fault {f : MemStop} (h : Lanes s u t l) (hn : n = Fmt.bits t.fmt / 8)
    (hs : s.scanFor u o true false n l.entry (indexAddrs l o n) = (acc, some f)) (hf : f.cause = 4)
    (hr : s.memReady u o true n l.entry acc = true) : exec (.vlxs u o k) s =
      .next (((s.setSlate u (loadAll (fun a => s.spaceRd u o.space a n) t o.d l acc)).asked u o false true n acc).endMem u
        o.space (some f)) := by
  subst hn
  obtain ⟨elem, addr, cause, pos⟩ := f
  obtain rfl : cause = 4 := hf
  refine congrArg Host.Outcome.next (h.memOp.trans ?_)
  simp [hs, hr, State.asked]

/-- Without a data error `vlxs` loads what commits, sets its result mask, and goes on. -/
theorem Lanes.exec_vlxs_masks (h : Lanes s u t l) (hn : n = Fmt.bits t.fmt / 8)
    (hs : s.scanFor u o true false n l.entry (indexAddrs l o n) = (acc, st)) (hst : ∀ f, st = some f → f.cause ≠ 4)
    (hr : s.memReady u o true n l.entry acc = true) : ∃ x, exec (.vlxs u o k) s = .next x ∧
      LoadLeft s x u o ((loadAll (fun a => s.spaceRd u o.space a n) t o.d l acc).resultMask k acc) := by
  subst hn
  refine ⟨_, congrArg Host.Outcome.next h.memOp, ?_⟩
  simp only [hs, hr, if_true]
  split
  case h_1 => exact absurd rfl (hst _ rfl)
  case h_2 =>
    refine LoadLeft.of_asked (asked_asked false true (Fmt.bits t.fmt / 8) acc) ?_
    split
    case isTrue => exact unseen_count ..
    case isFalse => exact .refl _

theorem Slate.marked_resultMask : l.Marked (l.resultMask k acc).next k l.vl (fun _ => true)
    (fun i => acc.any (fun p => decide (p.1 = i))) :=
  Slate.marked_foldl (act := fun _ => true)

theorem Slate.elem_congr {l' : Slate} {r ew i : Nat} (h : l'.v = l.v) : l'.elem r ew i = l.elem r ew i := by
  rw [Slate.elem, Slate.vreg, h, Slate.elem, Slate.vreg]

theorem Slate.resultMask_v : (l.resultMask k acc).v = l.v := by
  have hrest := (Slate.marked_resultMask (l := l) (k := k) (acc := acc)).rest
  have hv := congrArg Slate.v hrest
  exact hv

/-- The result mask of the elements that `act` names, set after a load that wrote vector registers. -/
theorem Slate.marked_loaded {y : Slate} {act : Nat → Bool} (hy : y = { l with v := y.v })
    (hact : ∀ i, i < l.vl → acc.any (fun p => decide (p.1 = i)) = act i) :
    l.Marked { ((y.resultMask k acc).stalled o).next with v := l.v, stall := l.stall } k l.vl (fun _ => true) act := by
  obtain ⟨v, rfl⟩ : ∃ v, y = { l with v := v } := ⟨_, hy⟩
  obtain ⟨hbits, hrest⟩ := Slate.marked_resultMask (l := { l with v := v }) (k := k) (acc := acc)
  refine ⟨fun j i => (hbits j i).trans ?_, congrArg (fun z : Slate => { z with v := l.v, stall := l.stall }) hrest⟩
  dsimp only
  split
  case isTrue h => rw [hact i (by omega)]
  case isFalse => rfl

/-- A load of what commits, with the result mask of the elements that `act` names. -/
theorem Lanes.exec_vlxs_loaded {act : Nat → Bool} {pl : Nat → Nat} (h : Lanes s u t l) (hfmt : laneFmt t.fmt = true)
    (hn : n = Fmt.bits t.fmt / 8) (hfit : fitsV o.d (Fmt.bits t.fmt) l.vl)
    (hs : s.scanFor u o true false n l.entry (indexAddrs l o n) = (acc, st)) (hst : ∀ f, st = some f → f.cause ≠ 4)
    (hr : s.memReady u o true n l.entry acc = true)
    (hmem : ∀ i as, (i, as) ∈ acc ↔ i < l.vl ∧ act i = true ∧ as = [s.inUse u o.space false (pl i)]) :
    ∃ x y, exec (.vlxs u o k) s = .next x ∧
      l.Marked { y with v := l.v, stall := l.stall } k l.vl (fun _ => true) act ∧ (x.tile u).slate = y ∧ sameBytes s x ∧
      ∀ i, fitsV o.d (Fmt.bits t.fmt) (i + 1) → y.elem o.d (Fmt.bits t.fmt) i =
        if i < l.vl ∧ act i = true then s.slotRd u o (pl i) n % 2 ^ Fmt.bits t.fmt else l.elem o.d (Fmt.bits t.fmt) i := by
  obtain ⟨x, hx, hleft⟩ := h.exec_vlxs_masks (k := k) hn hs hst hr
  have hk := State.scanFor_keys (access_keys (c := .vlx u o) rfl) hs
  have hw := loadAll_wrote (l := l) (rd := fun a => s.spaceRd u o.space a n) (bits_dvd_of_laneFmt hfmt) hfit
    (keys_sorted hk) hmem
  refine ⟨x, _, hx, Slate.marked_loaded loadAll_rest fun i hi => ?_, hleft.slate, hleft.bytes, fun i hi =>
    (Slate.elem_congr Slate.resultMask_v).trans (hw.elems i hi)⟩
  rw [Bool.eq_iff_iff, List.any_eq_true]
  constructor
  · rintro ⟨p, hp, hpi⟩
    obtain rfl : p.1 = i := of_decide_eq_true hpi
    exact ((hmem p.1 p.2).mp hp).2.1
  · exact fun ha => ⟨_, (hmem i _).mpr ⟨hi, ha, rfl⟩, decide_eq_true rfl⟩

/-- The accesses of a scan that one address for each active element gives, by the elements that they are of. -/
theorem mem_scan_single {addrs : List (Nat × List Nat)} {pl : Nat → Nat} {load write : Bool} {e : Nat}
    (hA : addrs = (l.actives o.mu o.msk).map (fun i => (i, [pl i])))
    (hs : s.scanFor u o load write n e addrs = (acc, st)) (i : Nat) (as : List Nat) : (i, as) ∈ acc ↔
      i < l.vl ∧ acc.any (fun p => decide (p.1 = i)) = true ∧ as = [s.inUse u o.space write (pl i)] := by
  have hsub : ∀ p ∈ acc, p.1 < l.vl ∧ p.2 = [s.inUse u o.space write (pl p.1)] := fun p hp => by
    have hpre := State.scanFor_prefix (s := s) (u := u) (o := o) (load := load) (write := write) (n := n) (e := e)
      (as := addrs)
    rw [hs] at hpre
    obtain ⟨hlt, _, has⟩ := (mem_fallen_single (i := p.1) (as := p.2) hA).mp (hpre.subset hp)
    exact ⟨hlt, has⟩
  constructor
  · intro hp
    exact ⟨(hsub _ hp).1, List.any_eq_true.mpr ⟨_, hp, decide_eq_true rfl⟩, (hsub _ hp).2⟩
  · rintro ⟨_, hany, rfl⟩
    obtain ⟨p, hp, hpi⟩ := List.any_eq_true.mp hany
    obtain rfl : p.1 = i := of_decide_eq_true hpi
    rw [← (hsub p hp).2]
    exact hp

end

/-! ### Loads from the host (06 R153, R166) -/

section
variable {s : State} {u : Nat} {o : MOps} {t : VType} {l : Slate} {acc : List (Nat × List Nat)} {st : Option MemStop}

theorem Lanes.exec_vlhost (h : Lanes s u t l) (hs : scanMem (fun i a => hostCause (Fmt.bits t.fmt / 8) a (o.ue == some i))
      (unitAddrs l o (Fmt.bits t.fmt / 8) 1) = (acc, st)) : exec (.vlhost u o) s =
    .next ((s.setSlate u (loadAll (fun a => leNat (s.hostRd (a % 2 ^ 52) (Fmt.bits t.fmt / 8))) t o.d l acc)).endMem u
      false st) := by
  refine congrArg Host.Outcome.next (h.memOp.trans ?_)
  simp [hs]

theorem Lanes.exec_vlhost_wrote (h : Lanes s u t l) (hfmt : laneFmt t.fmt = true)
    (hfit : fitsV o.d (Fmt.bits t.fmt) l.vl) (hclear : ∀ p ∈ unitAddrs l o (Fmt.bits t.fmt / 8) 1, ∀ a ∈ p.2,
      hostCause (Fmt.bits t.fmt / 8) a (o.ue == some p.1) = none) :
    ∃ x, exec (.vlhost u o) s = .next x ∧ x.mem = s.mem ∧
      l.Wrote (x.tile u).slate o.d (Fmt.bits t.fmt) l.vl (fun i => l.active o.mu o.msk i) (fun i =>
        leNat (s.hostRd (wrapAddr (((l.xreg o.a).toNat + i * (Fmt.bits t.fmt / 8) : Nat) : Int) % 2 ^ 52)
          (Fmt.bits t.fmt / 8))) := by
  refine ⟨_, h.exec_vlhost (scanMem_clear hclear), rfl, ?_⟩
  rw [State.endMem_none_slate, State.setSlate_slate]
  refine loadAll_wrote (rd := fun a => leNat (s.hostRd (a % 2 ^ 52) (Fmt.bits t.fmt / 8))) (bits_dvd_of_laneFmt hfmt) hfit
    (sorted_of_keys (access_keys (c := .vl u o) rfl)) fun i as => ?_
  rw [unitAddrs_one]
  exact mem_single

end

/-! ### Loads of records (06 R161) -/

section
variable {s : State} {u n f : Nat} {o : MOps} {t : VType} {l : Slate}

/-- The accesses of records of `f` fields, at the addresses at which they fall. -/
theorem fallen_unitAddrs {write : Bool} : s.fallen u o write (unitAddrs l o n f) = (l.actives o.mu o.msk).map (fun i =>
    (i, (List.range f).map (fun q =>
      s.inUse u o.space write (wrapAddr (((l.xreg o.a).toNat + (f * i + q) * n : Nat) : Int))))) := by
  simp [State.fallen, unitAddrs, Function.comp_def]

theorem record_fields {acc : List (Nat × List Nat)} {g ew n : Nat} (hn : n * ew ≤ 2048 * g) (hlt : ∀ p ∈ acc, p.1 < n)
    (hf : ∀ p ∈ acc, p.2.length = f) : ∀ w ∈ accFields acc, w.fld < f ∧ (w.idx + 1) * ew ≤ 2048 * g := by
  intro w hw
  obtain ⟨as, hp, hq⟩ := mem_accFields.mp hw
  obtain ⟨hlen, _⟩ := List.getElem?_eq_some_iff.mp hq
  have has : as.length = f := hf _ hp
  have hidx : w.idx + 1 ≤ n := hlt _ hp
  exact ⟨has ▸ hlen, (Nat.mul_le_mul_right ew hidx).trans hn⟩

/-- Records whose groups lie in the registers land in them. -/
theorem lands_of_records {W : List AccField} {d g ew i q : Nat} (hd : d + f * g ≤ 32) (hi : (i + 1) * ew ≤ 2048 * g)
    (hW : ∀ w ∈ W, w.fld < f ∧ (w.idx + 1) * ew ≤ 2048 * g) : Lands d g ew i q W := by
  refine ⟨fun w hw => ?_, fun w hw => .inr ⟨(hW w hw).2, hi⟩⟩
  obtain ⟨hfld, hidx⟩ := hW w hw
  have hgroup := group_end_le (g := g) hfld
  show 2048 * (d + w.fld * g) + (w.idx + 1) * ew ≤ 65536
  omega

theorem Lanes.exec_vlseg (h : Lanes s u t l) (hfmt : laneFmt t.fmt = true) (hn : n = Fmt.bits t.fmt / 8)
    (hc : Clear s u o true false n l.entry (unitAddrs l o n f)) (hvl : l.vl * Fmt.bits t.fmt ≤ 2048 * t.g)
    (hd : o.d + f * t.g ≤ 32) : ∃ x, exec (.vlseg u o f) s = .next x ∧ sameBytes s x ∧
      (∀ k, k < o.d ∨ o.d + f * t.g ≤ k → (x.tile u).slate.vreg k = l.vreg k) ∧
      ∀ i q, q < f → (i + 1) * Fmt.bits t.fmt ≤ 2048 * t.g → (x.tile u).slate.elem (o.d + q * t.g) (Fmt.bits t.fmt) i =
        if i < l.vl ∧ l.active o.mu o.msk i = true
        then s.slotRd u o (wrapAddr (((l.xreg o.a).toNat + (f * i + q) * n : Nat) : Int)) n % 2 ^ Fmt.bits t.fmt
        else l.elem (o.d + q * t.g) (Fmt.bits t.fmt) i := by
  obtain ⟨x, hx, hleft⟩ := h.exec_load (c := .vlseg u o f) hn rfl hc
  have hew := bits_dvd_of_laneFmt hfmt
  have hsort := fallen_sorted (s := s) (u := u) (write := false) (access_keys (l := l) (n := n) (c := .vlseg u o f) rfl)
  have hin : ∀ p ∈ s.fallen u o false (unitAddrs l o n f),
      (p.1 < l.vl ∧ l.active o.mu o.msk p.1 = true) ∧ p.2.length = f := fun p hp => by
    rw [fallen_unitAddrs] at hp
    obtain ⟨i, hi, rfl⟩ := List.mem_map.mp hp
    exact ⟨mem_actives.mp hi, by simp⟩
  have hW := record_fields hvl (fun p hp => (hin p hp).1.1) fun p hp => (hin p hp).2
  refine ⟨x, hx, hleft.bytes, fun k hk => ?_, fun i q hq hi => ?_⟩
  · rw [hleft.slate, Slate.vreg_next, Slate.vreg_stalled, loadAll_eq]
    refine Slate.vreg_landAll fun w hw => ?_
    obtain ⟨hfld, hidx⟩ := hW w hw
    have hreg := reg_in_group (Nat.pos_of_dvd_of_pos hew (by decide)) hidx
    have hgroup := group_end_le (g := t.g) hfld
    omega
  · rw [hleft.slate, Slate.elem_next, Slate.elem_stalled]
    split
    case isTrue h =>
      have hp : (i, (List.range f).map fun q => s.inUse u o.space false
          (wrapAddr (((l.xreg o.a).toNat + (f * i + q) * n : Nat) : Int))) ∈ s.fallen u o false (unitAddrs l o n f) := by
        rw [fallen_unitAddrs]
        exact List.mem_map.mpr ⟨i, mem_actives.mpr h, rfl⟩
      exact loadAll_elem hew hsort (lands_of_records hd hi hW) hp (by simp [hq])
    case isFalse h =>
      refine loadAll_elem_ne hew (lands_of_records hd hi hW) fun p hp hpi => h ?_
      exact hpi ▸ (hin p hp).1

end

/-- Settles O50: a load leaves what `loadAll` of its committed accesses leaves, an element of which is `loadAll_elem`; one
whose lines are not ready leaves the state. -/
theorem slateLoads : Obligations.SlateLoads := by
  unfold Obligations.SlateLoads
  rintro s u t l o _ _ h hfmt rfl rfl hfit
  refine ⟨?vl, ?vls, ?indexed, ?waits, ?vlhost, ?vlseg⟩
  case vl => exact fun hc => h.exec_loaded hfmt hfit rfl unitAddrs_one hc
  case vls => exact fun hc => h.exec_loaded hfmt hfit rfl rfl hc
  case indexed =>
    intro place hplace
    have hA := indexAddrs_eq hplace
    refine ⟨fun hc => h.exec_loaded hfmt hfit rfl hA hc, fun hc k => ?_, fun k acc st hs hst hr => ?_⟩
    · exact h.exec_vlxs_loaded hfmt rfl hfit (State.scanFor_clear hc) (fun _ hf => nomatch hf) hc.ready
        fun i as => mem_fallen_single hA
    · exact h.exec_vlxs_loaded hfmt rfl hfit hs (fun f hf => Option.some.inj hf ▸ hst) hr (mem_scan_single hA hs)
  case waits =>
    rintro c acc st addrs (ha | ⟨k, rfl, rfl⟩) hs hr
    · obtain ⟨counted, order, he⟩ := h.exec_access rfl ha
      rw [he, State.accessed_waits hs hr]
    · exact h.exec_vlxs_waits rfl hs hr
  case vlhost => exact fun hclear => h.exec_vlhost_wrote hfmt hfit hclear
  case vlseg => exact fun f hc hvl hd => h.exec_vlseg hfmt rfl hc hvl hd

end Sys2Proof.Machine
end

section
/-! SUPPORT. Stores and scatter-adds of the lanes: the bytes that a kernel's write leaves, the committed accesses stored in
ascending index or added in the order of arrival, and what stays as it was (06 R161, R164, R166, R168; 07 R188). -/

namespace Sys2Proof.Machine

/-! ### Numbers as bytes (00 R2) -/

theorem length_toLe (n v : Nat) : (toLe n v).length = n := by
  induction n generalizing v with
  | zero => rfl
  | succ n ih => rw [toLe, List.length_cons, ih]

theorem leNat_toLe (n v : Nat) : leNat (toLe n v) = v % 256 ^ n := by
  induction n generalizing v with
  | zero => simp [toLe, leNat, Nat.mod_one]
  | succ n ih =>
    rw [toLe, leNat, ih, BitVec.toNat_ofNat, pow_succ' 256 n]
    exact Nat.mod_mul.symm

theorem leNat_lt (bs : List Byte) : leNat bs < 256 ^ bs.length := by
  induction bs with
  | nil => exact Nat.one_pos
  | cons b bs ih =>
    have hb := b.isLt
    rw [leNat, List.length_cons, pow_succ']
    omega

/-- The bytes of a lane format's element hold its bits. -/
theorem pow_bytes_of_laneFmt {f : Fmt} (h : laneFmt f = true) : 256 ^ (Fmt.bits f / 8) = 2 ^ Fmt.bits f := by
  revert h; cases f <;> decide

theorem Slate.elem_lt {l : Slate} {r ew i : Nat} : l.elem r ew i < 2 ^ ew := Nat.mod_lt _ (Nat.two_pow_pos ew)

/-! ### The space that an instruction names (06 R161) -/

/-- Device memory, or a unit's tile store. -/
def State.spaceMem (s : State) (u : Nat) (space : Bool) : Mem := if space then s.mem.dram else s.tileMem u

section
variable {s t : State} {u a b n v : Nat} {space : Bool}

theorem State.spaceByte_eq : s.spaceByte u space b = (s.spaceMem u space).read b := by
  cases space <;> rfl

theorem State.spaceRd_eq : s.spaceRd u space a n = leNat ((s.spaceMem u space).readN (spaceAddr u space a) n) := by
  cases space <;> rfl

theorem State.spaceMem_spaceWr : (s.spaceWr u space a n v).spaceMem u space =
    (s.spaceMem u space).writeN (spaceAddr u space a) (toLe n v) := by
  cases space with
  | true => rfl
  | false => exact State.setTileMem_tileMem s

theorem State.spaceMem_congr (h : sameBytes s t) : t.spaceMem u space = s.spaceMem u space := by
  obtain ⟨hdram, htile, _⟩ := h
  rw [State.spaceMem, hdram, State.tileMem, htile, State.spaceMem, State.tileMem]

theorem State.spaceByte_congr (h : sameBytes s t) : t.spaceByte u space b = s.spaceByte u space b := by
  rw [State.spaceByte_eq, State.spaceMem_congr h, State.spaceByte_eq]

theorem State.spaceRd_congr (h : ∀ b, holdsByte u space n a b → t.spaceByte u space b = s.spaceByte u space b) :
    t.spaceRd u space a n = s.spaceRd u space a n := by
  rw [State.spaceRd_eq, State.spaceRd_eq]
  refine congrArg leNat (Mem.readN_congr fun i hi => ?_)
  rw [← State.spaceByte_eq, ← State.spaceByte_eq]
  exact h _ ⟨by omega, by omega⟩

theorem State.spaceRd_lt : s.spaceRd u space a n < 256 ^ n := by
  have h := leNat_lt ((s.spaceMem u space).readN (spaceAddr u space a) n)
  rwa [Mem.length_readN, ← State.spaceRd_eq] at h

theorem State.spaceByte_spaceWr (h : ¬ holdsByte u space n a b) :
    (s.spaceWr u space a n v).spaceByte u space b = s.spaceByte u space b := by
  rw [State.spaceByte_eq, State.spaceMem_spaceWr, Mem.read_writeN_outside, ← State.spaceByte_eq]
  rw [length_toLe]
  unfold holdsByte at h
  omega

theorem State.spaceRd_spaceWr : (s.spaceWr u space a n v).spaceRd u space a n = v % 256 ^ n := by
  have h := Mem.readN_writeN (s.spaceMem u space) (spaceAddr u space a) (toLe n v)
  rw [length_toLe] at h
  rw [State.spaceRd_eq, State.spaceMem_spaceWr, h, leNat_toLe]

end

/-! ### What writes of a kernel leave unchanged (06 R161, R164) -/

/-- Nothing changed but one space of a unit, its flags and counts, and the list of its stores kept for a fault. -/
structure KernelWrites (s t : State) (u : Nat) (space : Bool) : Prop where
  lanes : { (t.tile u).slate with stored := [] } = { (s.tile u).slate with stored := [] }
  units : ∀ v, v ≠ u → t.tile v = s.tile v ∧ t.tileMem v = s.tileMem v
  store : space = true → t.tileMem u = s.tileMem u
  device : space = false → t.mem.dram = s.mem.dram
  host : t.mem.host = s.mem.host
  job : t.job = s.job

section
variable {s t r : State} {u a n v : Nat} {space : Bool}

theorem KernelWrites.refl (s : State) (u : Nat) (space : Bool) : KernelWrites s s u space :=
  ⟨rfl, fun _ _ => ⟨rfl, rfl⟩, fun _ => rfl, fun _ => rfl, rfl, rfl⟩

theorem KernelWrites.trans (h : KernelWrites s t u space) (h' : KernelWrites t r u space) : KernelWrites s r u space where
  lanes := h'.lanes.trans h.lanes
  units v hv := ⟨(h'.units v hv).1.trans (h.units v hv).1, (h'.units v hv).2.trans (h.units v hv).2⟩
  store hs := (h'.store hs).trans (h.store hs)
  device hs := (h'.device hs).trans (h.device hs)
  host := h'.host.trans h.host
  job := h'.job.trans h.job

theorem kernelWrites_spaceWr : KernelWrites s (s.spaceWr u space a n v) u space := by
  cases space with
  | true =>
    refine ⟨?_, fun w hw => ⟨State.setSlate_tile_ne _ hw, rfl⟩, fun _ => rfl, fun h => (nomatch h), rfl, rfl⟩
    exact congrArg (fun l : Slate => { l with stored := [] }) (State.setSlate_slate _)
  | false =>
    refine ⟨?_, fun w hw => ⟨State.setSlate_tile_ne _ hw, State.setTileMem_tileMem_ne s hw⟩, fun h => (nomatch h),
      fun _ => rfl, rfl, rfl⟩
    exact congrArg (fun l : Slate => { l with stored := [] }) (State.setSlate_slate _)

theorem kernelWrites_raise (d : Decl) (e : Ev) : KernelWrites s (s.raise u d e) u space where
  lanes := by rw [State.raise_slate]
  units _ hv := ⟨State.raise_tile_ne hv, rfl⟩
  store _ := rfl
  device _ := rfl
  host := rfl
  job := rfl

theorem KernelWrites.foldl {α : Type} {f : State → α → State} (h : ∀ x a, KernelWrites x (f x a) u space) (as : List α)
    (s : State) : KernelWrites s (as.foldl f s) u space :=
  List.foldlRecOn (motive := fun x => KernelWrites s x u space) as f (.refl s u space) fun x hx a _ => hx.trans (h x a)

end

/-! ### The committed accesses stored (06 R161, R164) -/

section
variable {s : State} {u a b i q d : Nat} {space : Bool} {t : VType} {l : Slate} {as : List Nat}
  {acc : List (Nat × List Nat)} {W : List AccField}

/-- The state with one field of an access stored. -/
def State.storeField (u : Nat) (space : Bool) (t : VType) (d : Nat) (l : Slate) (s : State) (w : AccField) : State :=
  s.spaceWr u space w.addr (Fmt.bits t.fmt / 8) (l.elem (d + w.fld * t.g) (Fmt.bits t.fmt) w.idx)

theorem State.storeAll_eq :
    s.storeAll u space t d l acc = (accFields acc).foldl (State.storeField u space t d l) s := by
  rw [accFields, List.foldl_flatMap, State.storeAll]
  congr 1
  funext x p
  rw [List.foldl_map, List.range_eq_range', ← List.zipIdx_eq_zip_range']
  rfl

theorem State.spaceRd_storeField (hfmt : laneFmt t.fmt = true) {w : AccField} :
    (State.storeField u space t d l s w).spaceRd u space w.addr (Fmt.bits t.fmt / 8) =
      l.elem (d + w.fld * t.g) (Fmt.bits t.fmt) w.idx := by
  refine State.spaceRd_spaceWr.trans ?_
  rw [pow_bytes_of_laneFmt hfmt, Nat.mod_eq_of_lt Slate.elem_lt]

theorem kernelWrites_storeAll : KernelWrites s (s.storeAll u space t d l acc) u space := by
  rw [State.storeAll_eq]
  exact KernelWrites.foldl (fun _ _ => kernelWrites_spaceWr) ..

theorem State.spaceByte_storeFields (h : ∀ w ∈ W, ¬ holdsByte u space (Fmt.bits t.fmt / 8) w.addr b) :
    (W.foldl (State.storeField u space t d l) s).spaceByte u space b = s.spaceByte u space b :=
  List.foldlRecOn (motive := fun x : State => x.spaceByte u space b = s.spaceByte u space b) W _ rfl
    fun _ hx w hw => (State.spaceByte_spaceWr (h w hw)).trans hx

theorem State.spaceByte_storeAll (h : ¬ touched u space (Fmt.bits t.fmt / 8) acc b) :
    (s.storeAll u space t d l acc).spaceByte u space b = s.spaceByte u space b := by
  rw [State.storeAll_eq]
  refine State.spaceByte_storeFields fun w hw hb => h ?_
  obtain ⟨as, hp, hq⟩ := mem_accFields.mp hw
  exact ⟨_, hp, _, List.mem_of_getElem? hq, hb⟩

/-- The bytes at a field's address hold the element stored there when no later field takes one of them. -/
theorem State.spaceRd_storeAll (hfmt : laneFmt t.fmt = true) (hs : acc.Pairwise (fun p q => p.1 < q.1))
    (hp : (i, as) ∈ acc) (hq : as[q]? = some a) (hlater : alone u space (Fmt.bits t.fmt / 8) acc (fun j => i < j) a)
    (hself : alone u space (Fmt.bits t.fmt / 8) [(0, as.drop (q + 1))] (fun _ => True) a) :
    (s.storeAll u space t d l acc).spaceRd u space a (Fmt.bits t.fmt / 8) =
      l.elem (d + q * t.g) (Fmt.bits t.fmt) i := by
  obtain ⟨A, B, hsplit, hB⟩ := accFields_split hs hp hq
  rw [State.storeAll_eq, hsplit, List.foldl_append, List.foldl_cons]
  refine (State.spaceRd_congr fun b hb => State.spaceByte_storeFields fun w hw => ?_).trans
    (State.spaceRd_storeField hfmt)
  rcases hB w hw with ⟨hlt, hmem⟩ | ⟨_, _, hmem⟩
  · obtain ⟨as', hp', hq'⟩ := mem_accFields.mp hmem
    exact hlater _ hp' hlt _ (List.mem_of_getElem? hq') b hb
  · exact hself _ List.mem_cons_self trivial _ hmem b hb

end

/-! ### The order of arrival (06 R164) -/

theorem nodup_eraseDups (is : List Nat) : is.eraseDups.Nodup := by
  match is with
  | [] => exact List.nodup_nil
  | i :: is =>
    rw [List.eraseDups_cons]
    refine List.nodup_cons.mpr ⟨fun h => ?_, nodup_eraseDups _⟩
    simpa using List.mem_eraseDups.mp h
termination_by is.length
decreasing_by exact Nat.lt_succ_of_le (List.length_filter_le _ _)

section
variable {acc : List (Nat × List Nat)} {order : List Nat} {p : Nat × List Nat}

/-- The accesses that an order names. -/
def namedIn (order : List Nat) (acc : List (Nat × List Nat)) : List (Nat × List Nat) :=
  order.eraseDups.filterMap (fun i => acc.find? (fun p => decide (p.1 = i)))

theorem arrival_eq : arrival order acc = namedIn order acc ++ acc.filter (fun p => !order.contains p.1) := rfl

theorem arrival_nil : arrival [] acc = acc := by simp [arrival_eq, namedIn]

theorem key_of_find {i : Nat} (h : acc.find? (fun p => decide (p.1 = i)) = some p) : p ∈ acc ∧ p.1 = i :=
  ⟨List.mem_of_find?_eq_some h, by simpa using List.find?_some h⟩

theorem mem_namedIn (hs : acc.Pairwise (fun p q => p.1 < q.1)) : p ∈ namedIn order acc ↔ p ∈ acc ∧ p.1 ∈ order := by
  rw [namedIn, List.mem_filterMap]
  constructor
  · rintro ⟨i, hi, hfind⟩
    obtain ⟨hp, rfl⟩ := key_of_find hfind
    exact ⟨hp, List.mem_eraseDups.mp hi⟩
  · rintro ⟨hp, hi⟩
    refine ⟨p.1, List.mem_eraseDups.mpr hi, ?_⟩
    obtain ⟨q, hq⟩ := Option.isSome_iff_exists.mp
      (List.find?_isSome (p := fun q => decide (q.1 = p.1)).mpr ⟨p, hp, decide_eq_true rfl⟩)
    rw [hq, key_unique hs hp (key_of_find hq).1 (key_of_find hq).2.symm]

/-- The order of arrival takes every access. -/
theorem mem_arrival (hs : acc.Pairwise (fun p q => p.1 < q.1)) : p ∈ arrival order acc ↔ p ∈ acc := by
  rw [arrival_eq, List.mem_append, mem_namedIn hs, List.mem_filter]
  by_cases h : p.1 ∈ order <;> simp [h]

/-- The order of arrival takes every access once. -/
theorem arrival_nodup (hs : acc.Pairwise (fun p q => p.1 < q.1)) :
    (arrival order acc).Pairwise (fun p q => p.1 ≠ q.1) := by
  refine List.pairwise_append.mpr ⟨?_, (hs.imp Nat.ne_of_lt).filter _, fun p hp q hq => ?_⟩
  · refine List.Pairwise.filterMap _ (fun i j hij p hp q hq => ?_) (nodup_eraseDups order)
    rwa [(key_of_find hp).2, (key_of_find hq).2]
  · have hin := ((mem_namedIn hs).mp hp).2
    have hout : q.1 ∉ order := by simpa using (List.mem_filter.mp hq).2
    exact fun h => hout (h ▸ hin)

end

/-! ### The committed accesses added (06 R164) -/

section
variable {s : State} {u a b i : Nat} {o : MOps} {t : VType} {l : Slate} {p : Nat × List Nat}
  {acc L : List (Nat × List Nat)}

/-- The state with the element of one access added to the memory. -/
def State.addAccess (u : Nat) (o : MOps) (t : VType) (l : Slate) (s : State) (p : Nat × List Nat) : State :=
  let a := p.2.headD 0
  let r := scatterAdd t.fmt (s.spaceRd u o.space a (Fmt.bits t.fmt / 8)) (l.elem o.d (Fmt.bits t.fmt) p.1)
  (s.spaceWr u o.space a (Fmt.bits t.fmt / 8) r.1).raise u (s.declOf l.entry) r.2

theorem State.addAll_eq : s.addAll u o t l acc = acc.foldl (State.addAccess u o t l) s := rfl

theorem kernelWrites_addAll : KernelWrites s (s.addAll u o t l acc) u o.space := by
  rw [State.addAll_eq]
  exact KernelWrites.foldl (fun _ _ => kernelWrites_spaceWr.trans (kernelWrites_raise ..)) ..

theorem State.spaceByte_raise {d : Decl} {e : Ev} {space : Bool} :
    (s.raise u d e).spaceByte u space b = s.spaceByte u space b := rfl

theorem State.spaceByte_addAll (h1 : ∀ p ∈ acc, p.2.length = 1) (h : ¬ touched u o.space (Fmt.bits t.fmt / 8) acc b) :
    (s.addAll u o t l acc).spaceByte u o.space b = s.spaceByte u o.space b := by
  rw [State.addAll_eq]
  refine List.foldlRecOn (motive := fun x : State => x.spaceByte u o.space b = s.spaceByte u o.space b) acc _ rfl
    fun x hx p hp => ?_
  obtain ⟨a, ha⟩ := List.length_eq_one_iff.mp (h1 p hp)
  rw [State.addAccess, State.spaceByte_raise, State.spaceByte_spaceWr, hx]
  rw [ha]
  exact fun hb => h ⟨p, hp, a, by simp [ha], hb⟩

/-- The bytes at the address of an access met once hold their old value plus its element. -/
theorem State.spaceRd_addAll (hfmt : laneFmt t.fmt = true) (h1 : ∀ p ∈ L, p.2.length = 1)
    (hL : L.Pairwise (fun p q => p.1 ≠ q.1)) (hp : (i, [a]) ∈ L)
    (halone : alone u o.space (Fmt.bits t.fmt / 8) L (fun j => j ≠ i) a) :
    (s.addAll u o t l L).spaceRd u o.space a (Fmt.bits t.fmt / 8) =
      (scatterAdd t.fmt (s.spaceRd u o.space a (Fmt.bits t.fmt / 8)) (l.elem o.d (Fmt.bits t.fmt) i)).1 %
        2 ^ Fmt.bits t.fmt := by
  obtain ⟨A, B, rfl⟩ := List.append_of_mem hp
  obtain ⟨_, hB, hAB⟩ := List.pairwise_append.mp hL
  have hkept : ∀ (x : State) (M : List (Nat × List Nat)), (∀ p ∈ M, p ∈ A ++ (i, [a]) :: B ∧ p.1 ≠ i) →
      (x.addAll u o t l M).spaceRd u o.space a (Fmt.bits t.fmt / 8) = x.spaceRd u o.space a (Fmt.bits t.fmt / 8) :=
    fun x M hM => State.spaceRd_congr fun b hb => State.spaceByte_addAll (fun p hp => h1 p (hM p hp).1)
      fun ⟨p, hp, c, hc, hcb⟩ => halone p (hM p hp).1 (hM p hp).2 c hc b hb hcb
  have hsplit : s.addAll u o t l (A ++ (i, [a]) :: B) =
      (State.addAccess u o t l (s.addAll u o t l A) (i, [a])).addAll u o t l B := by
    simp [State.addAll_eq]
  have hA := hkept s A fun p hp => ⟨by simp [hp], hAB p hp _ List.mem_cons_self⟩
  rw [hsplit, hkept _ B fun p hp => ⟨by simp [hp], ((List.pairwise_cons.mp hB).1 p hp).symm⟩, ← hA,
    ← pow_bytes_of_laneFmt hfmt]
  exact State.spaceRd_spaceWr

end

/-! ### What a store leaves (06 R161, R168) -/

section
variable {s x y : State} {u n : Nat} {o : MOps} {t : VType} {l : Slate} {c : Instr} {load : Bool}
  {addrs acc : List (Nat × List Nat)}

/-- The bytes that a kernel's writes leave, once they are requested and the instruction has ended. -/
structure StoreLeft (s y x : State) (u : Nat) (o : MOps) (n : Nat) (acc : List (Nat × List Nat)) : Prop where
  stored : Stored s x u o n acc
  bytes : sameBytes y x

theorem StoreLeft.of_asked {z : State} (hy : KernelWrites s y u o.space)
    (hb : ∀ b, ¬ touched u o.space n acc b → y.spaceByte u o.space b = s.spaceByte u o.space b) (hz : Asked y z u o) :
    StoreLeft s y (z.endMem u o.space none) u o n acc := by
  have hbytes : sameBytes y (z.endMem u o.space none) := hz.bytes.trans (sameBytes_endMem none)
  obtain ⟨hdram, htile, hhost⟩ := hbytes
  have hmem : ∀ v, (z.endMem u o.space none).tileMem v = y.tileMem v := fun v => by
    rw [State.tileMem, htile, State.tileMem]
  refine ⟨⟨fun b h => (State.spaceByte_congr ⟨hdram, htile, hhost⟩).trans (hb b h), ?_, fun v hv => ⟨?_, ?_⟩,
    fun h => (hmem u).trans (hy.store h), fun h => hdram.trans (hy.device h), hhost.trans hy.host,
    hz.job.trans hy.job⟩, hdram, htile, hhost⟩
  · rw [State.endMem_none_slate, hz.slate]
    exact congrArg (fun l : Slate => { (l.stalled o).next with stored := [] }) hy.lanes
  · rw [State.endMem_none_tile_ne hv, hz.units v hv, (hy.units v hv).1]
  · rw [hmem, (hy.units v hv).2]

/-- A store whose accesses happen and meet no cause of a fault. -/
theorem Lanes.exec_store (h : Lanes s u t l) (hn : n = Fmt.bits t.fmt / 8)
    (ha : Instr.access l n c = some (u, o, false, true, addrs)) (hc : Clear s u o false true n l.entry addrs) :
    ∃ x, exec c s = .next x ∧
      StoreLeft s (s.storeAll u o.space t o.d l (s.fallen u o true addrs)) x u o n (s.fallen u o true addrs) := by
  obtain ⟨counted, order, he⟩ := h.exec_access hn ha
  subst hn
  rw [he, State.accessed_ready (State.scanFor_clear hc) hc.ready]
  exact ⟨_, rfl, StoreLeft.of_asked kernelWrites_storeAll (fun _ => State.spaceByte_storeAll) (asked_asked ..)⟩

/-- A store of one address for each active element. -/
theorem Lanes.exec_stored (h : Lanes s u t l) (hfmt : laneFmt t.fmt = true)
    (ha : Instr.access l (Fmt.bits t.fmt / 8) c = some (u, o, false, true, addrs))
    (hc : Clear s u o false true (Fmt.bits t.fmt / 8) l.entry addrs) : ∃ x acc, exec c s = .next x ∧
      acc = s.fallen u o true addrs ∧ Stored s x u o (Fmt.bits t.fmt / 8) acc ∧
      ∀ i as q a, (i, as) ∈ acc → as[q]? = some a → alone u o.space (Fmt.bits t.fmt / 8) acc (fun j => i < j) a →
        alone u o.space (Fmt.bits t.fmt / 8) [(0, as.drop (q + 1))] (fun _ => True) a →
        x.spaceRd u o.space a (Fmt.bits t.fmt / 8) = l.elem (o.d + q * t.g) (Fmt.bits t.fmt) i := by
  obtain ⟨x, hx, hleft⟩ := h.exec_store rfl ha hc
  refine ⟨x, _, hx, rfl, hleft.stored, fun i as q a hp hq hlater hself => ?_⟩
  rw [State.spaceRd_congr fun b _ => State.spaceByte_congr hleft.bytes]
  exact State.spaceRd_storeAll hfmt (fallen_sorted (access_keys ha)) hp hq hlater hself

theorem fallen_fields {write : Bool} {f : Nat} (h : ∀ p ∈ addrs, p.2.length = f) :
    ∀ p ∈ s.fallen u o write addrs, p.2.length = f := by
  intro p hp
  obtain ⟨q, hq, rfl⟩ := List.mem_map.mp hp
  simpa using h q hq

theorem indexAddrs_fields : ∀ p ∈ indexAddrs l o n, p.2.length = 1 := by simp [indexAddrs]

theorem not_touched_arrival {order : List Nat} {b : Nat} (hs : acc.Pairwise (fun p q => p.1 < q.1))
    (h : ¬ touched u o.space n acc b) : ¬ touched u o.space n (arrival order acc) b :=
  fun ⟨p, hp, ha⟩ => h ⟨p, (mem_arrival hs).mp hp, ha⟩

/-- A scatter-add whose accesses happen and meet no cause of a fault. -/
theorem Lanes.exec_add {order : List Nat} (h : Lanes s u t l) (hfmt : laneFmt t.fmt = true)
    (hc : Clear s u o true true (Fmt.bits t.fmt / 8) l.entry (indexAddrs l o (Fmt.bits t.fmt / 8)))
    (hacc : acc = s.fallen u o true (indexAddrs l o (Fmt.bits t.fmt / 8)))
    (he : exec c s = .next (s.scatterAddOp u o order)) : ∃ x, exec c s = .next x ∧
      Stored s x u o (Fmt.bits t.fmt / 8) acc ∧
      (∀ b, x.spaceByte u o.space b = (s.addAll u o t l (arrival order acc)).spaceByte u o.space b) ∧
      ∀ i a, (i, [a]) ∈ acc → alone u o.space (Fmt.bits t.fmt / 8) acc (fun j => j ≠ i) a →
        x.spaceRd u o.space a (Fmt.bits t.fmt / 8) =
          (scatterAdd t.fmt (s.spaceRd u o.space a (Fmt.bits t.fmt / 8)) (l.elem o.d (Fmt.bits t.fmt) i)).1 %
            2 ^ Fmt.bits t.fmt := by
  have hs : acc.Pairwise (fun p q => p.1 < q.1) :=
    hacc ▸ fallen_sorted (access_keys (c := .vsxadd u o) rfl)
  have h1 : ∀ p ∈ arrival order acc, p.2.length = 1 := fun p hp =>
    fallen_fields indexAddrs_fields p (hacc ▸ (mem_arrival hs).mp hp)
  have hleft : StoreLeft s (s.addAll u o t l (arrival order acc)) (s.scatterAddOp u o order) u o (Fmt.bits t.fmt / 8) acc := by
    rw [State.scatterAddOp, h.moveOp, State.accessed_ready (State.scanFor_clear hc) hc.ready, ← hacc]
    exact StoreLeft.of_asked kernelWrites_addAll
      (fun b hb => State.spaceByte_addAll h1 (not_touched_arrival hs hb)) (asked_asked ..)
  refine ⟨_, he, hleft.stored, fun b => State.spaceByte_congr hleft.bytes, fun i a hp halone => ?_⟩
  rw [State.spaceRd_congr fun b _ => State.spaceByte_congr hleft.bytes]
  exact State.spaceRd_addAll hfmt h1 (arrival_nodup hs) ((mem_arrival hs).mpr hp)
    fun p hp => halone p ((mem_arrival hs).mp hp)

end

/-- Settles O51: a store leaves what `storeAll` leaves of the bytes, a scatter-add what `addAll` in the order of arrival
leaves; `StoreLeft` says what stays. -/
theorem slateStores : Obligations.SlateStores := by
  unfold Obligations.SlateStores
  refine ⟨?stores, ?adds⟩
  case stores =>
    rintro s u t l o _ _ h hfmt rfl rfl
    refine ⟨fun c addrs hcase hc => ?_, fun f hc => h.exec_stored (c := .vsseg u o f) hfmt rfl hc⟩
    have ha : Instr.access l (Fmt.bits t.fmt / 8) c = some (u, o, false, true, addrs) := by
      rcases hcase with ⟨rfl, rfl⟩ | ⟨rfl, rfl⟩ | ⟨rfl, rfl⟩ <;> rfl
    obtain ⟨x, acc, hx, hacc, hst, hval⟩ := h.exec_stored hfmt ha hc
    refine ⟨x, acc, hx, hacc, hst, fun i a hp halone => ?_⟩
    have hself : alone u o.space (Fmt.bits t.fmt / 8) [(0, [a].drop (0 + 1))] (fun _ => True) a := by
      simp [alone]
    have hv := hval i [a] 0 a hp rfl halone hself
    rwa [Nat.zero_mul, Nat.add_zero] at hv
  case adds =>
    rintro s u t l o _ _ acc h hfmt rfl rfl hc hacc
    have hs : acc.Pairwise (fun p q => p.1 < q.1) := hacc ▸ fallen_sorted (access_keys (c := .vsxadd u o) rfl)
    refine ⟨fun order p => mem_arrival hs, ?_⟩
    rintro c inOrder (⟨rfl, rfl⟩ | ⟨order, rfl, rfl⟩)
    · have hadd := h.exec_add (order := []) (c := .vsxadd u o) hfmt hc hacc rfl
      rwa [arrival_nil] at hadd
    · exact h.exec_add hfmt hc hacc rfl

end Sys2Proof.Machine
end

section
/-! SUPPORT. Faults of the lanes: what a memory instruction leaves that stops at an element, and the end of a budget (06 R162,
R163, R166, R168; 20 R531 to R533). -/

namespace Sys2Proof.Machine

/-! ### The accesses before the stop (06 R162) -/

section
variable {s y z : State} {u n e : Nat} {o : MOps} {t : VType} {l : Slate} {load write : Bool} {f : MemStop}
  {order : List Nat} {acc addrs : List (Nat × List Nat)} {st : Option MemStop}

theorem scanFor_fields {k : Nat} (h : ∀ p ∈ addrs, p.2.length = k) (hs : s.scanFor u o load write n e addrs = (acc, st)) :
    ∀ p ∈ acc, p.2.length = k := by
  have hpre := State.scanFor_prefix (s := s) (u := u) (o := o) (load := load) (write := write) (n := n) (e := e)
    (as := addrs)
  rw [hs] at hpre
  exact fun p hp => fallen_fields h p (hpre.subset hp)

/-- The effect of accesses on one space, on the vector registers or on the memory. -/
structure Effected (s y : State) (u : Nat) (o : MOps) (n : Nat) (acc : List (Nat × List Nat)) : Prop where
  pc : (y.tile u).slate.pc = (s.tile u).slate.pc
  entry : (y.tile u).slate.entry = (s.tile u).slate.entry
  units : ∀ v, v ≠ u → y.tile v = s.tile v
  job : y.job = s.job
  bytes : ∀ b, ¬ touched u o.space n acc b → y.spaceByte u o.space b = s.spaceByte u o.space b

theorem KernelWrites.effected (h : KernelWrites s y u o.space)
    (hb : ∀ b, ¬ touched u o.space n acc b → y.spaceByte u o.space b = s.spaceByte u o.space b) :
    Effected s y u o n acc where
  pc := by simpa using congrArg Slate.pc h.lanes
  entry := by simpa using congrArg Slate.entry h.lanes
  units v hv := (h.units v hv).1
  job := h.job
  bytes := hb

theorem effected_load (hl : (s.tile u).slate = l) {rd : Nat → Nat} :
    Effected s (s.setSlate u (loadAll rd t o.d l acc)) u o n acc where
  pc := by rw [State.setSlate_slate, loadAll_rest, hl]
  entry := by rw [State.setSlate_slate, loadAll_rest, hl]
  units _ hv := State.setSlate_tile_ne s hv
  job := rfl
  bytes _ _ := State.spaceByte_congr ⟨rfl, rfl, rfl⟩

theorem effected_effect (hl : (s.tile u).slate = l) (hs : acc.Pairwise (fun p q => p.1 < q.1))
    (h1 : load = true → write = true → ∀ p ∈ acc, p.2.length = 1) :
    Effected s (s.effect u o t l load write order acc) u o (Fmt.bits t.fmt / 8) acc := by
  match load, write with
  | true, true =>
    exact kernelWrites_addAll.effected fun b hb => State.spaceByte_addAll
      (fun p hp => h1 rfl rfl p ((mem_arrival hs).mp hp)) (not_touched_arrival hs hb)
  | false, true => exact kernelWrites_storeAll.effected fun b hb => State.spaceByte_storeAll hb
  | true, false => exact effected_load hl
  | false, false => exact effected_load hl

/-- The kernel stops at the element with the effect of the accesses before it. -/
theorem Effected.stopped (h : Effected s y u o n acc) (hl : (s.tile u).slate = l) (hz : Asked y z u o) {space : Bool} :
    Stopped s (z.endMem u space (some f)) u l f.elem f.addr f.cause := by
  refine (stopped_endMem (l := l) ?_ ?_).of_kept (hz.job.trans h.job) fun v hv => (hz.units v hv).trans (h.units v hv)
  · rw [hz.slate, Slate.stalled, h.pc, hl]
  · rw [hz.slate, Slate.stalled, h.entry, hl]

theorem Effected.bytes_endMem (h : Effected s y u o n acc) (hz : Asked y z u o) {b : Nat}
    (hb : ¬ touched u o.space n acc b) :
    (z.endMem u o.space st).spaceByte u o.space b = s.spaceByte u o.space b :=
  (State.spaceByte_congr (hz.bytes.trans (sameBytes_endMem st))).trans (h.bytes b hb)

/-- A load leaves every byte, wherever it ends. -/
theorem sameBytes_loadStop {counted : Bool} : sameBytes s
    (((s.setSlate u l).asked u o write counted n acc).endMem u o.space st) :=
  sameBytes.trans (t := s.setSlate u l) ⟨rfl, rfl, rfl⟩ ((asked_asked ..).bytes.trans (sameBytes_endMem st))

/-- The elements that a load wrote stand wherever it ends. -/
theorem elem_loadStop {counted : Bool} {d ew i : Nat} :
    ((((s.setSlate u l).asked u o write counted n acc).endMem u o.space st).tile u).slate.elem d ew i = l.elem d ew i := by
  rw [Slate.elem_congr (State.endMem_v st), (asked_asked ..).slate, Slate.elem_stalled, State.setSlate_slate]

/-- An element that a load read before its stop, each access being of one field. -/
theorem loadAll_elem_single {d i a : Nat} {rd : Nat → Nat} (hfmt : laneFmt t.fmt = true)
    (hfit : fitsV d (Fmt.bits t.fmt) l.vl) (hk : acc.map Prod.fst <+: l.actives o.mu o.msk)
    (h1 : ∀ p ∈ acc, p.2.length = 1) (hp : (i, [a]) ∈ acc) :
    (loadAll rd t d l acc).elem d (Fmt.bits t.fmt) i = rd a % 2 ^ Fmt.bits t.fmt := by
  have h := loadAll_elem (l := l) (rd := rd) (bits_dvd_of_laneFmt hfmt) (keys_sorted hk)
    (lands_of_single hfit (fun p hp => (key_active hk hp).1) h1) hp (q := 0) rfl
  rwa [Nat.zero_mul, Nat.add_zero] at h

end

/-- Settles O52: a memory instruction that stops is `State.accessed` with a stop, which `Effected.stopped` describes; `vlxs`
and `vlhost` end in the same way, and the budget's end is the fault itself. -/
theorem slateFaults : Obligations.SlateFaults := by
  unfold Obligations.SlateFaults
  refine ⟨?access, ?vlxs, ?vlhost, ?budget⟩
  case access =>
    rintro c s u t l o load write _ addrs acc st h rfl ha hs
    obtain ⟨counted, order, he⟩ := h.exec_access rfl ha
    refine ⟨fun hr => by rw [he, State.accessed_waits hs hr], fun f hr hst => ?_⟩
    subst hst
    obtain ⟨k, hk, hone⟩ := access_fields ha
    have hkeys := State.scanFor_keys (access_keys ha) hs
    have hlen := scanFor_fields hk hs
    have heff := effected_effect (o := o) (t := t) (order := order) h.lanes (keys_sorted hkeys)
      fun hl hw p hp => (hlen p hp).trans (hone hl hw)
    rw [he, State.accessed_ready hs hr]
    refine ⟨_, rfl, heff.stopped h.lanes (asked_asked ..), fun b hb => heff.bytes_endMem (asked_asked ..) hb, ?_⟩
    rintro rfl
    rw [State.effect_load]
    refine ⟨sameBytes_loadStop, fun hfit hfmt i a hp => ?_⟩
    have h1 : ∀ p ∈ acc, p.2.length = 1 := fun p hp' => (hlen p hp').trans (hlen _ hp).symm
    rw [elem_loadStop, loadAll_elem_single hfmt hfit hkeys h1 hp, ← pow_bytes_of_laneFmt hfmt]
    exact Nat.mod_eq_of_lt State.spaceRd_lt
  case vlxs =>
    rintro s u t l o n acc f k h hn hs hf hr
    refine ⟨_, h.exec_vlxs_fault hn hs hf hr, ?_, ?_⟩
    · exact hf ▸ (effected_load (n := n) h.lanes).stopped h.lanes (asked_asked ..)
    · exact sameBytes_loadStop
  case vlhost =>
    rintro s u t l o _ acc f h rfl hs
    refine ⟨_, h.exec_vlhost hs, ?_, State.slateFault_mem⟩
    exact (stopped_endMem (by rw [State.setSlate_slate, loadAll_rest]) (by rw [State.setSlate_slate, loadAll_rest])).of_kept
      rfl fun v hv => State.setSlate_tile_ne s hv
  case budget =>
    rintro s u l rfl
    refine ⟨fun hrun hover => ?_, fun hno => congrArg _ (if_neg ?_)⟩
    · exact ⟨s.slateFault u { elem := 0, addr := 0, cause := 6 }, congrArg Host.Outcome.next (if_pos ⟨hrun, hover⟩),
        stopped_slateFault rfl rfl, State.slateFault_mem⟩
    · rintro ⟨hrun, hover⟩
      rcases hno with hno | hno
      · exact hno hrun
      · simp [hover] at hno

end Sys2Proof.Machine
end

section
/-! SUPPORT. Combined verdict messages: the fields of a combination, and why their order and grouping do not matter (07 R175,
R177). -/

namespace Sys2Proof.Machine

/-! ### The lower of two words (07 R177) -/

/-- The lower of two words, as `step` and `livery` combine. -/
def lower (a b : BitVec 64) : BitVec 64 := if a ≤ b then a else b

theorem lower_self (a : BitVec 64) : lower a a = a := ite_self a

theorem lower_comm (a b : BitVec 64) : lower a b = lower b a := by
  unfold lower; split <;> split <;> bv_omega

theorem lower_assoc (a b c : BitVec 64) : lower (lower a b) c = lower a (lower b c) := by
  by_cases hab : a ≤ b <;> by_cases hbc : b ≤ c <;> simp only [lower, hab, hbc, if_true, if_false]
  · rw [if_pos (BitVec.le_trans hab hbc)]
  · rw [if_neg (by bv_omega)]

/-! ### Fields that differ (07 R177) -/

/-- Whether the fields of three messages differ somewhere is seen in either grouping. -/
theorem differ_assoc {α : Type} [DecidableEq α] {f : α → α → α} (hf : ∀ a, f a a = a) (a b c : α) :
    (decide (a ≠ b) || decide (f a b ≠ c)) = (decide (b ≠ c) || decide (a ≠ f b c)) := by
  by_cases hab : a = b
  · subst hab
    by_cases hac : a = c
    · simp [hac, hf]
    · simp [hac, hf]
  · by_cases hbc : b = c
    · simp [hbc ▸ hab, hbc, hf]
    · simp [hab, hbc]

theorem vfIf_or (c d : Bool) (f : BitVec 32) : vfIf c f ||| vfIf d f = vfIf (c || d) f := by
  cases c <;> cases d <;> simp [vfIf]

theorem vfIf_getLsbD (c : Bool) (f : BitVec 32) (k : Nat) : (vfIf c f).getLsbD k = (c && f.getLsbD k) := by
  cases c <;> simp [vfIf]

/-- Whether two messages are of different steps or loss scales. -/
def VerdictMsg.disagree (a b : VerdictMsg) : Bool := decide (a.step ≠ b.step) || decide (a.lsExp ≠ b.lsExp)

/-- The flags that a combination raises itself. -/
def VerdictMsg.raised (a b : VerdictMsg) : BitVec 32 :=
  vfIf (disagree a b) vfAgree ||| vfIf (decide (a.livery ≠ b.livery)) vfLivery

section
variable (a b c : VerdictMsg)

theorem VerdictMsg.raised_comm : raised a b = raised b a := by
  simp only [raised, disagree, ne_comm]

theorem VerdictMsg.combine_flags : (combine a b).flags = a.flags ||| b.flags ||| raised a b :=
  BitVec.or_assoc ..

theorem VerdictMsg.combine_bins : (combine a b).swBin =
    (List.range 16).map fun k => min (a.swBin.getD k 0 + b.swBin.getD k 0) (2 ^ 48 - 1) := rfl

theorem VerdictMsg.combine_swBin {k : Nat} (hk : k < 16) :
    (combine a b).swBin.getD k 0 = min (a.swBin.getD k 0 + b.swBin.getD k 0) (2 ^ 48 - 1) := by
  simp [combine, hk]

theorem VerdictMsg.disagree_assoc :
    (disagree a b || disagree (combine a b) c) = (disagree b c || disagree a (combine b c)) := by
  have regroup : ∀ x y z w : Bool, ((x || y) || (z || w)) = ((x || z) || (y || w)) := fun _ _ _ _ => by ac_rfl
  have hstep := differ_assoc lower_self a.step b.step c.step
  have hexp := differ_assoc (f := min) Int.min_self a.lsExp b.lsExp c.lsExp
  unfold disagree
  rw [regroup, regroup (decide (b.step ≠ c.step))]
  exact congrArg₂ or hstep hexp

/-- Both groupings raise the same flags. -/
theorem VerdictMsg.raised_assoc : raised a b ||| raised (combine a b) c = raised b c ||| raised a (combine b c) := by
  have regroup : ∀ x y z w : BitVec 32, (x ||| y) ||| (z ||| w) = (x ||| z) ||| (y ||| w) := fun _ _ _ _ => by ac_rfl
  have hlivery := differ_assoc lower_self a.livery b.livery c.livery
  unfold raised
  rw [regroup, regroup (vfIf (disagree b c) _), vfIf_or, vfIf_or, vfIf_or, vfIf_or, disagree_assoc]
  exact congrArg (fun l => _ ||| vfIf l vfLivery) hlivery

theorem VerdictMsg.combine_comm : combine a b = combine b a := by
  have hflags : (combine a b).flags = (combine b a).flags := by
    rw [combine_flags, combine_flags, raised_comm, BitVec.or_comm a.flags]
  have hbins : (combine a b).swBin = (combine b a).swBin := by
    simp only [combine_bins, Nat.add_comm]
  rw [combine, combine, Sys2Proof.VerdictMsg.mk.injEq]
  exact ⟨Nat.add_comm .., hbins, lower_comm .., lower_comm .., hflags, Nat.add_comm .., Int.min_comm ..⟩

theorem VerdictMsg.combine_assoc : combine (combine a b) c = combine a (combine b c) := by
  have hbins : (combine (combine a b) c).swBin = (combine a (combine b c)).swBin := by
    rw [combine_bins (combine a b) c, combine_bins a (combine b c)]
    refine List.map_congr_left fun k hk => ?_
    rw [combine_swBin a b (List.mem_range.mp hk), combine_swBin b c (List.mem_range.mp hk)]; omega
  have hflags : (combine (combine a b) c).flags = (combine a (combine b c)).flags := by
    simp only [combine_flags]
    calc a.flags ||| b.flags ||| raised a b ||| c.flags ||| raised (combine a b) c
        = a.flags ||| b.flags ||| c.flags ||| (raised a b ||| raised (combine a b) c) := by ac_rfl
      _ = a.flags ||| b.flags ||| c.flags ||| (raised b c ||| raised a (combine b c)) := by rw [raised_assoc]
      _ = a.flags ||| (b.flags ||| c.flags ||| raised b c) ||| raised a (combine b c) := by ac_rfl
  rw [combine, combine, Sys2Proof.VerdictMsg.mk.injEq]
  exact ⟨Nat.add_assoc .., hbins, lower_assoc .., lower_assoc .., hflags, Nat.add_assoc .., Int.min_assoc ..⟩

/-- The bits of a combination's flags: `agree_fail` is bit 5, `livery_mismatch` bit 4 (07 R175). -/
theorem VerdictMsg.combine_flags_bit (k : Nat) : (combine a b).flags.getLsbD k =
    (a.flags.getLsbD k || b.flags.getLsbD k || (decide (k = 5) && disagree a b) ||
      (decide (k = 4) && decide (a.livery ≠ b.livery))) := by
  have agree : vfAgree.getLsbD k = decide (k = 5) := by
    rw [show vfAgree = BitVec.twoPow 32 5 from rfl, BitVec.getLsbD_twoPow]; simp [eq_comm]
  have livery : vfLivery.getLsbD k = decide (k = 4) := by
    rw [show vfLivery = BitVec.twoPow 32 4 from rfl, BitVec.getLsbD_twoPow]; simp [eq_comm]
  simp only [combine_flags, raised, BitVec.getLsbD_or, vfIf_getLsbD, agree, livery, Bool.and_comm, Bool.or_assoc]

end

/-- Settles O40: the sums, the lower values and the OR of the flags are commutative and associative, and `raised_assoc` is why
the disagreements found are the same in every grouping. -/
theorem verdictCombination : Obligations.VerdictCombination := by
  unfold Obligations.VerdictCombination
  exact ⟨VerdictMsg.combine_comm, VerdictMsg.combine_assoc, fun a b => ⟨rfl, fun k => VerdictMsg.combine_swBin a b, rfl,
    fun k _ => VerdictMsg.combine_flags_bit a b k, fun h => if_pos h, fun h => if_pos h, fun h => Int.min_eq_left h⟩⟩

end Sys2Proof.Machine
end

section
/-! SUPPORT. The outcome of a verdict: what it records, counts, flips and publishes, outcome by outcome, and the loss scale that
it leaves (07 R179, R181 to R191; 20 R534). -/

namespace Sys2Proof.Machine

/-! ### Keys and bytes written -/

section
variable (s : State) {k j n : Nat} {v : BitVec 64}

theorem State.kvNat_congr {s t : State} (h : t.kv = s.kv) : t.kvNat k = s.kvNat k := by
  simp only [State.kvNat, State.kvGet, h]

theorem State.kvSet_kvNat_ne (h : j ≠ k) : (s.kvSet k v).kvNat j = s.kvNat j := by
  rw [State.kvNat, State.kvSet_kvGet_ne s h, State.kvNat]

theorem State.countNow_kvNat : (s.countNow k n).kvNat k = satAdd (s.kvNat k) n := by
  have h : satAdd (s.kvNat k) n < 2 ^ 64 := by unfold satAdd cntMax; omega
  rw [State.countNow, State.kvNat, State.kvSet_kvGet, BitVec.toNat_ofNat, Nat.mod_eq_of_lt h]

theorem State.countNow_kvNat_ne (h : j ≠ k) : (s.countNow k n).kvNat j = s.kvNat j := s.kvSet_kvNat_ne h

theorem State.foldl_mem {α : Type} {f : State → α → State} (h : ∀ x a, (f x a).mem = x.mem) (l : List α) :
    (l.foldl f s).mem = s.mem :=
  List.foldlRecOn (motive := fun x : State => x.mem = s.mem) l f rfl fun x hx a _ => (h x a).trans hx

theorem State.foldl_kvNat {α : Type} {l : List α} {f : State → α → State}
    (h : ∀ x, ∀ a ∈ l, (f x a).kvNat k = x.kvNat k) : (l.foldl f s).kvNat k = s.kvNat k :=
  List.foldlRecOn (motive := fun x : State => x.kvNat k = s.kvNat k) l f rfl fun x hx a ha => (h x a ha).trans hx

theorem Mem.readN_take (m : Mem) (a n k : Nat) : m.readN a (min n k) = (m.readN a k).take n := by
  induction k generalizing a n with
  | zero => simp [Mem.readN]
  | succ k ih =>
    cases n with
    | zero => simp [Mem.readN]
    | succ n => rw [Nat.succ_min_succ, Mem.readN_succ, Mem.readN_succ, List.take_succ_cons, ih]

/-- The first bytes read where a string was written. -/
theorem Mem.readN_writeN_take (m : Mem) (a : Nat) {bs : List Byte} (h : n ≤ bs.length) :
    (m.writeN a bs).readN a n = bs.take n := by
  have := (m.writeN a bs).readN_take a n bs.length
  rwa [Nat.min_eq_left h, Mem.readN_writeN] at this

theorem State.placed_congr {s t : State} (h : t.job.bound = s.job.bound) : t.placed k = s.placed k := by
  simp [State.placed, h]

end

/-! ### A job stopped, and a faulted step counted (20 R534, R539) -/

section
variable (s : State)

@[simp] theorem State.haltJob_job (reason sub : Nat) :
    (s.haltJob reason sub).job = { s.job with jobFault := some reason } := by
  simp [State.haltJob, State.jobFaulted]

theorem State.haltJob_kvNat {reason sub k : Nat} (h : k ≠ kFltJob) : (s.haltJob reason sub).kvNat k = s.kvNat k := by
  have hkv : (s.haltJob reason sub).kv = (s.countNow kFltJob 1).kv := by
    simp only [State.haltJob, State.jobFaulted, State.record]
    split <;> simp [fltCounter]
  rw [State.kvNat_congr hkv, s.countNow_kvNat_ne h]

/-- A withheld step counted, before the count is held to its limit. -/
def State.withheldCounted : State := (s.countNow kFltRun 1).countNow kFltWithheld 1

@[simp] theorem State.withheldCounted_job : s.withheldCounted.job = s.job := by simp [State.withheldCounted]

theorem State.withheldCounted_run : s.withheldCounted.kvNat kFltRun = satAdd (s.kvNat kFltRun) 1 := by
  rw [State.withheldCounted, State.countNow_kvNat_ne _ (by decide), State.countNow_kvNat]

theorem State.withheldCounted_withheld : s.withheldCounted.kvNat kFltWithheld = satAdd (s.kvNat kFltWithheld) 1 := by
  rw [State.withheldCounted, State.countNow_kvNat, State.countNow_kvNat_ne _ (by decide)]

theorem State.withheldCounted_limit : s.withheldCounted.kvNat kWithholdLimit = s.kvNat kWithholdLimit := by
  rw [State.withheldCounted, State.countNow_kvNat_ne _ (by decide), State.countNow_kvNat_ne _ (by decide)]

theorem State.countFault_withheld : s.countFault true =
    if s.kvNat kWithholdLimit ≤ satAdd (s.kvNat kFltRun) 1 then s.withheldCounted.haltJob 0x0605 0x0E
    else s.withheldCounted := by
  rw [← s.withheldCounted_run, ← s.withheldCounted_limit]; rfl

theorem State.countFault_kvNat {k : Nat} (h : k ≠ kFltJob) :
    (s.countFault true).kvNat k = s.withheldCounted.kvNat k := by
  rw [State.countFault_withheld]
  split
  · exact State.haltJob_kvNat _ h
  · rfl

theorem State.countFault_job : (s.countFault true).job = { s.job with
    jobFault := if s.kvNat kWithholdLimit ≤ satAdd (s.kvNat kFltRun) 1 then some 0x0605 else s.job.jobFault } := by
  rw [State.countFault_withheld]; split <;> simp

end

/-! ### The parts of an outcome's application (07 R179 to R191) -/

section
variable (s x : State) (v : VerdictMsg) (o : Outc)

/-- The loss-scale state that a verdict leaves (07 R184). -/
def State.nextScale : Scale := s.scale.next s.scaleCfg (s.outcomeOf v) (s.numSkip v)

/-- The job with that loss scale. -/
def State.rescaled : State := { s with job := { s.job with
  lsE := (s.nextScale v).e, lsC := (s.nextScale v).c, lsK := (s.nextScale v).k } }

/-- The outcome once the run of skips is held to its limit (07 R185). -/
def State.limited : Outc :=
  if s.outcomeOf v = .skip ∧ s.kvNat kSkipLimit ≤ (s.nextScale v).k then .halt else s.outcomeOf v

/-- The faults recorded and the run of withheld steps counted or ended (07 R185, R186; 20 R534). -/
def State.ruled : State :=
  match s.outcomeOf v, s.limited v with
  | .halt, _ => ((s.rescaled v).kvSet kFltRun 0).haltJob 0x0603 0x04
  | .skip, .halt => ((s.rescaled v).kvSet kFltRun 0).haltJob 0x0604 0x04
  | .withhold, _ => (s.rescaled v).countFault true
  | _, _ => (s.rescaled v).kvSet kFltRun 0

/-- The outcome that the step is recorded with. -/
def State.recorded : Outc :=
  if decide (s.limited v = .halt) || (decide (s.outcomeOf v = .withhold) && (s.ruled v).job.jobFault.isSome) then .halt
  else s.limited v

/-- A verdict's norm and clipping (07 R180). -/
def State.clipOf : NormClip := normClip v.ssq v.lsExp (s.kvNat kClip)

/-- The flip and `opt_step` of a commit, the count of a skip (07 R182, R185, R189, R191). -/
def State.counted (clip32 : Nat) : State :=
  let y := if o = .commit then
      { x.flip with job := { x.flip.job with lagClip := clip32, optStep := x.job.optStep + 1 } } else x
  if o = .skip then y.countNow kStepsSkipped 1 else y

/-- The `verdict` token of an outcome (07 R181). -/
def State.tokenOf : VerdictTok :=
  { e := (s.nextScale v).e, clip32 := (s.clipOf v).clip32, unscale32 := (s.clipOf v).unscale32
    clip64 := (s.clipOf v).clip64, norm := (s.clipOf v).norm, flags := v.flags.toNat, outcome := o.code
    step := s.job.step.toNat, optStep := x.job.optStep.toNat, lag := x.job.lagClip }

/-- The keys of the last verdict and of its Swatch bins (07 R201, R202). -/
def State.published (nc : NormClip) : State :=
  (List.range 16).foldl (fun y k => y.kvSet (kSwHist0 + k) (BitVec.ofNat 64 (v.swBin.getD k 0)))
    (((x.kvSet kLastNorm (BitVec.ofNat 64 nc.norm)).kvSet kLastClip (BitVec.ofNat 64 nc.clip64)).kvSet kLastFlags
      (BitVec.ofNat 64 v.flags.toNat))

/-- What the outcome `o` of a verdict on `s` writes, once `x` holds its faults: its counts, token and keys. -/
def State.settled (clip32 : Nat) : State :=
  ((x.counted o clip32).putVerdict (s.tokenOf (x.counted o clip32) v o)).published v (s.clipOf v)

/-- The state that the outcome leaves: with what it writes, and the step number that it gives (07 R179). -/
def State.concluded : State :=
  let z := s.settled x v o (s.clipOf v).clip32
  { z with job := { z.job with
      outcome := some o, lastRun := s.job.step, step := if o = .halt then s.job.step else s.job.step + 1 } }

theorem State.applyOutcome_eq : s.applyOutcome v = s.concluded (s.ruled v) v (s.recorded v) := by
  unfold State.applyOutcome; rfl

end

/-! ### What a conclusion leaves -/

section
variable (s x : State) (v : VerdictMsg) (o : Outc) (nc : NormClip)

@[simp] theorem State.published_job : (x.published v nc).job = x.job := by
  simp [State.published, State.foldl_job fun (y : State) (k : Nat) => y.kvSet_job (kSwHist0 + k) _]

@[simp] theorem State.published_mem : (x.published v nc).mem = x.mem := by
  simp [State.published, State.foldl_mem _ fun (y : State) (k : Nat) => y.kvSet_mem (kSwHist0 + k) _]

/-- A key that no verdict publishes. -/
def unpublished (k : Nat) : Prop :=
  k ≠ kLastNorm ∧ k ≠ kLastClip ∧ k ≠ kLastFlags ∧ ¬ (kSwHist0 ≤ k ∧ k < kSwHist0 + 16)

theorem State.published_kvNat {k : Nat} (h : unpublished k) : (x.published v nc).kvNat k = x.kvNat k := by
  obtain ⟨hn, hc, hf, hs⟩ := h
  rw [State.published, State.foldl_kvNat _ fun y b hb => ?bin, State.kvSet_kvNat_ne _ hf, State.kvSet_kvNat_ne _ hc,
    State.kvSet_kvNat_ne _ hn]
  case bin =>
    have := List.mem_range.mp hb
    exact State.kvSet_kvNat_ne y (by omega)

@[simp] theorem State.counted_bound (c : Nat) : (x.counted o c).job.bound = x.job.bound := by
  unfold State.counted; cases o <;> simp [State.flip]

theorem State.counted_commit_job (c : Nat) : (x.counted .commit c).job =
    { x.flip.job with lagClip := c, optStep := x.job.optStep + 1 } := rfl

theorem State.counted_skip_eq (c : Nat) : x.counted .skip c = x.countNow kStepsSkipped 1 := rfl

theorem State.counted_other {o : Outc} (c : Nat) (h : o = .halt ∨ o = .withhold) : x.counted o c = x := by
  rcases h with rfl | rfl <;> rfl

theorem State.concluded_job : (s.concluded x v o).job = { (x.counted o (s.clipOf v).clip32).job with
    outcome := some o, lastRun := s.job.step, step := if o = .halt then s.job.step else s.job.step + 1 } := by
  simp [State.concluded, State.settled, State.putVerdict]

theorem State.settled_kvNat {c k : Nat} (h : unpublished k) :
    (s.settled x v o c).kvNat k = (x.counted o c).kvNat k := by
  rw [State.settled, State.published_kvNat _ _ _ h]
  exact State.kvNat_congr (State.dramWr_kv ..)

theorem State.concluded_kvNat {k : Nat} (h : unpublished k) :
    (s.concluded x v o).kvNat k = (x.counted o (s.clipOf v).clip32).kvNat k := by
  rw [← s.settled_kvNat x v o h]
  exact State.kvNat_congr (by simp only [State.concluded])

/-- The `verdict` token's first fields: the scale and its inverse (07 R181). -/
theorem VerdictTok.encode_take (t : VerdictTok) :
    t.encode.take 8 = toLe 4 (pow2F32 t.e) ++ toLe 4 (pow2F32 (-t.e)) ∧ 8 ≤ t.encode.length := by
  simp only [VerdictTok.encode, List.append_assoc, List.length_append, length_toLe]
  rw [← List.append_assoc]
  exact ⟨List.take_left' (by simp [length_toLe]), by omega⟩

theorem State.concluded_token (h : x.job.bound = s.job.bound) :
    (s.concluded x v o).dramRd (s.placed verdictTok).addr0 8 =
      toLe 4 (pow2F32 (s.nextScale v).e) ++ toLe 4 (pow2F32 (-(s.nextScale v).e)) := by
  have hp := State.placed_congr (k := verdictTok) ((x.counted_bound o (s.clipOf v).clip32).trans h)
  obtain ⟨htake, hlen⟩ := VerdictTok.encode_take (s.tokenOf (x.counted o (s.clipOf v).clip32) v o)
  rw [← hp]
  simp only [State.concluded, State.settled, State.dramRd, State.published_mem]
  exact (Mem.readN_writeN_take _ _ hlen).trans htake

theorem State.scale_fields {a : Scale} (h : s.scale = a) : s.job.lsE = a.e ∧ s.job.lsC = a.c ∧ s.job.lsK = a.k :=
  h ▸ ⟨rfl, rfl, rfl⟩

@[simp] theorem State.counted_scale (c : Nat) : (x.counted o c).scale = x.scale := by
  unfold State.counted; cases o <;> simp [State.flip, State.scale]

theorem State.concluded_scale : (s.concluded x v o).scale = x.scale := by
  rw [← x.counted_scale o (s.clipOf v).clip32]
  simp only [State.scale, State.concluded_job]

theorem State.ruled_job : ∃ f, (s.ruled v).job = { (s.rescaled v).job with jobFault := f } := by
  unfold State.ruled
  split
  · exact ⟨_, State.haltJob_job ..⟩
  · exact ⟨_, State.haltJob_job ..⟩
  · exact ⟨_, State.countFault_job _⟩
  · exact ⟨_, rfl⟩

end

/-! ### Outcome by outcome (07 R179; 20 R534) -/

section
variable {s : State} {v : VerdictMsg}

theorem State.limited_of_ne_skip (h : s.outcomeOf v ≠ .skip) : s.limited v = s.outcomeOf v := if_neg fun hs => h hs.1

theorem State.applyOutcome_commit (h : s.outcomeOf v = .commit) :
    s.applyOutcome v = s.concluded ((s.rescaled v).kvSet kFltRun 0) v .commit := by
  rw [State.applyOutcome_eq]
  simp [State.recorded, State.ruled, State.limited_of_ne_skip, h]

theorem State.applyOutcome_halt (h : s.outcomeOf v = .halt) :
    s.applyOutcome v = s.concluded (((s.rescaled v).kvSet kFltRun 0).haltJob 0x0603 0x04) v .halt := by
  rw [State.applyOutcome_eq]
  simp [State.recorded, State.ruled, State.limited_of_ne_skip, h]

theorem State.nextScale_skip_k (h : s.outcomeOf v = .skip) : (s.nextScale v).k = s.job.lsK + 1 := by
  simp only [State.nextScale, Scale.next, h]
  split <;> rfl

theorem State.applyOutcome_skip (h : s.outcomeOf v = .skip) (hk : s.job.lsK + 1 < s.kvNat kSkipLimit) :
    s.applyOutcome v = s.concluded ((s.rescaled v).kvSet kFltRun 0) v .skip := by
  have hl : s.limited v = .skip := by rw [State.limited, State.nextScale_skip_k h, if_neg (by omega), h]
  rw [State.applyOutcome_eq]
  simp [State.recorded, State.ruled, hl, h]

theorem State.applyOutcome_skipLimit (h : s.outcomeOf v = .skip) (hk : s.kvNat kSkipLimit ≤ s.job.lsK + 1) :
    s.applyOutcome v = s.concluded (((s.rescaled v).kvSet kFltRun 0).haltJob 0x0604 0x04) v .halt := by
  have hl : s.limited v = .halt := by rw [State.limited, State.nextScale_skip_k h, if_pos ⟨h, hk⟩]
  rw [State.applyOutcome_eq]
  simp [State.recorded, State.ruled, hl, h]

/-- Whether a withheld step stops the job: the run of them reaches its limit, or a fault stands (20 R534, R539). -/
abbrev State.withholdStops (s : State) : Prop :=
  s.kvNat kWithholdLimit ≤ satAdd (s.kvNat kFltRun) 1 ∨ s.job.jobFault ≠ none

/-- The faults that a withheld step leaves recorded: its own at the limit, else what stood (20 R534). -/
theorem State.withheld_job : ((s.rescaled v).countFault true).job = { (s.rescaled v).job with
    jobFault := if s.kvNat kWithholdLimit ≤ satAdd (s.kvNat kFltRun) 1 then some 0x0605 else s.job.jobFault } :=
  State.countFault_job _

theorem State.applyOutcome_withhold (h : s.outcomeOf v = .withhold) :
    s.applyOutcome v = s.concluded ((s.rescaled v).countFault true) v
      (if s.withholdStops then .halt else .withhold) := by
  have hf : ((s.rescaled v).countFault true).job.jobFault.isSome = true ↔ s.withholdStops := by
    rw [State.withheld_job, Option.isSome_iff_ne_none]
    split <;> simp [State.withholdStops, *]
  rw [State.applyOutcome_eq]
  simp [State.recorded, State.ruled, State.limited_of_ne_skip, h, hf]

theorem State.concluded_job_other {x : State} {o : Outc} (h : o = .halt ∨ o = .withhold) :
    (s.concluded x v o).job = { x.job with
      outcome := some o, lastRun := s.job.step, step := if o = .halt then s.job.step else s.job.step + 1 } := by
  rw [State.concluded_job, State.counted_other x _ h]

theorem State.concluded_kvNat_other {x : State} {o : Outc} {k : Nat} (h : o = .halt ∨ o = .withhold)
    (hk : unpublished k) : (s.concluded x v o).kvNat k = x.kvNat k := by
  rw [State.concluded_kvNat s x v o hk, State.counted_other x _ h]

end

theorem unpublished_run : unpublished kFltRun := by unfold unpublished; decide

theorem unpublished_withheld : unpublished kFltWithheld := by unfold unpublished; decide

theorem unpublished_skipped : unpublished kStepsSkipped := by unfold unpublished; decide

/-- Settles O38: each outcome is one conclusion (`State.concluded`) of a state that holds its faults, and the clauses read off
its job and its keys. -/
theorem stepOutcomes : Obligations.StepOutcomes := by
  unfold Obligations.StepOutcomes
  refine ⟨?halts, ?withholds, ?numbers, ?commit, ?skip, ?skipLimit, ?withhold, ?halt⟩
  case halts =>
    intro s v h
    rw [State.outcomeOf, if_pos (by rwa [Bool.or_eq_true])]
  case withholds =>
    intro s v hl ha hf
    rw [State.outcomeOf, hl, ha, hf]; rfl
  case numbers =>
    intro s v hl ha hf
    rw [State.outcomeOf, hl, ha, hf]
    simp [State.numSkip, State.skipOnSat, State.alarmSkip, or_assoc]
  case commit =>
    rintro s _ v rfl h
    rw [State.applyOutcome_commit h, State.concluded_job, State.counted_commit_job,
      State.concluded_kvNat _ _ _ _ unpublished_run]
    exact ⟨rfl, rfl, rfl, congrArg BitVec.toNat (State.kvSet_kvGet ..), rfl, rfl⟩
  case skip =>
    rintro s _ v rfl h hk
    rw [State.applyOutcome_skip h hk, State.concluded_job, State.concluded_kvNat _ _ _ _ unpublished_skipped,
      State.concluded_kvNat _ _ _ _ unpublished_run, State.counted_skip_eq, State.countNow_kvNat,
      State.countNow_kvNat_ne _ (by decide), State.kvSet_kvNat_ne _ (by decide)]
    exact ⟨rfl, rfl, rfl, rfl, rfl, State.nextScale_skip_k h, congrArg BitVec.toNat (State.kvSet_kvGet ..)⟩
  case skipLimit =>
    rintro s _ v rfl h hk
    rw [State.applyOutcome_skipLimit h hk, State.concluded_job_other (.inl rfl), State.haltJob_job]
    exact ⟨rfl, rfl, rfl, rfl, rfl⟩
  case withhold =>
    rintro s _ v n rfl h rfl
    have ho := ite_eq_or_eq s.withholdStops Outc.halt Outc.withhold
    have hscale : s.nextScale v = s.scale := by rw [State.nextScale, h]; rfl
    rw [State.applyOutcome_withhold h, State.concluded_job_other ho, State.concluded_kvNat_other ho unpublished_run,
      State.concluded_kvNat_other ho unpublished_withheld, State.countFault_kvNat _ (by decide),
      State.countFault_kvNat _ (by decide), State.withheldCounted_run, State.withheldCounted_withheld, State.withheld_job]
    refine ⟨rfl, rfl, rfl, rfl, congrArg Scale.e hscale, fun hn hf => ?_, fun hf => ?_, fun hn => ?_⟩
    · have hgo : ¬ s.withholdStops := fun hs => hs.elim (Nat.not_le.mpr hn) fun h => h hf
      rw [if_neg hgo, if_neg (Nat.not_le.mpr hn)]
      exact ⟨rfl, hf, rfl⟩
    · have hstop : s.withholdStops := .inr hf
      rw [if_pos hstop]
      exact ⟨rfl, rfl⟩
    · have hstop : s.withholdStops := .inl hn
      rw [if_pos hstop, if_pos hn]
      exact ⟨rfl, rfl, rfl⟩
  case halt =>
    rintro s _ v rfl h
    rw [State.applyOutcome_halt h, State.concluded_job_other (.inl rfl), State.haltJob_job]
    exact ⟨rfl, rfl, rfl, rfl, rfl⟩

/-- Settles O39: the rows are the cases of `Scale.next`, and every conclusion keeps the new scale and writes it in the token. -/
theorem lossScale : Obligations.LossScale := by
  unfold Obligations.LossScale
  refine ⟨fun a g num h => if_neg h, fun a g num h => if_pos h, fun a g => rfl, fun a g => rfl,
    fun a g num => ⟨rfl, rfl⟩, fun a g h => ⟨?floor, rfl⟩, fun s v => rfl, fun s v => ?token⟩
  case floor =>
    simp [Scale.next, h]
  case token =>
    obtain ⟨f, hf⟩ := s.ruled_job v
    have hscale : (s.applyOutcome v).scale = s.nextScale v := by
      rw [State.applyOutcome_eq, State.concluded_scale, State.scale, hf]; rfl
    obtain ⟨he, hc, hk⟩ := State.scale_fields _ hscale
    refine ⟨_, rfl, he, hc, hk, ?_⟩
    rw [State.applyOutcome_eq]
    exact State.concluded_token _ _ _ _ (by rw [hf]; rfl)

end Sys2Proof.Machine
end

section
/-! SUPPORT. The step verdict on its way: this node's contribution, what is joined and goes on, the combined verdict, and how a
verdict message is received (07 R172, R177, R178; 11 R321, R335). -/

namespace Sys2Proof.Machine

section
variable (s : State) (m : VerdictMsg)

/-! ### What sending leaves of the job (11 R335, R336; 12 R361) -/

@[simp] theorem State.inject_job (g : Msg) (ctx cls : Nat) : (s.inject g ctx cls).job = s.job := by
  unfold State.inject; dsimp only; split <;> simp

@[simp] theorem State.sendVerdict_job (r : Nat × Nat × Nat) : (s.sendVerdict m r).job = s.job := by
  unfold State.sendVerdict; dsimp only; split <;> simp

/-! ### The combined verdict (07 R178; 11 R335) -/

theorem State.applyVerdict_job : (s.applyVerdict m).job = { s.job with combined := some (s.evaluate m) } := by
  unfold State.applyVerdict
  dsimp only
  rw [State.foldl_job fun x c => x.sendVerdict_job (s.evaluate m) c]
  split <;> simp

/-- Whether a flag word carries a flag. -/
def flagged (w f : BitVec 32) : Bool := decide (w &&& f ≠ 0)

theorem flagged_or (w x f : BitVec 32) : flagged (w ||| x) f = (flagged w f || flagged x f) := by
  have h : (w ||| x) &&& f = (w &&& f) ||| (x &&& f) := by
    ext k hk; simp [Bool.and_or_distrib_right]
  simp only [flagged, h, ne_eq, BitVec.ofNat_eq_ofNat, BitVec.or_eq_zero_iff, not_and_or, Bool.decide_or]

theorem flagged_vfIf (c : Bool) (g f : BitVec 32) : flagged (vfIf c g) f = (c && flagged g f) := by
  cases c <;> simp [vfIf, flagged]

theorem State.evaluate_has (f : BitVec 32) : VerdictMsg.has (s.evaluate m) f = (VerdictMsg.has m f ||
    (decide (m.nContrib ≠ s.nodes) && flagged vfAgree f) || (s.swatchAlarm m && flagged vfSwatch f)) := by
  change flagged (m.flags ||| vfIf _ vfAgree ||| vfIf _ vfSwatch) f = _
  rw [flagged_or, flagged_or, flagged_vfIf, flagged_vfIf]
  rfl

theorem State.evaluate_agree : VerdictMsg.has (s.evaluate m) vfAgree =
    (VerdictMsg.has m vfAgree || decide (m.nContrib ≠ s.nodes)) := by
  rw [State.evaluate_has, show flagged vfAgree vfAgree = true by decide, show flagged vfSwatch vfAgree = false by decide,
    Bool.and_true, Bool.and_false, Bool.or_false]

theorem State.evaluate_swatch : VerdictMsg.has (s.evaluate m) vfSwatch =
    (VerdictMsg.has m vfSwatch || s.swatchAlarm m) := by
  rw [State.evaluate_has, show flagged vfAgree vfSwatch = false by decide, show flagged vfSwatch vfSwatch = true by decide,
    Bool.and_true, Bool.and_false, Bool.or_false]

/-! ### Forwarding (11 R335) -/

theorem State.forwardVerdict_waits (h : s.job.part = none ∨ s.job.sent = false ∨ s.job.vFwd = true ∨
    s.job.vGot < (s.vChildren s.rel).length) : s.forwardVerdict = s := by
  unfold State.forwardVerdict
  split
  · rfl
  · next p hp =>
    refine if_neg ?_
    rcases h with h | h | h | h
    · simp [h] at hp
    · simp [h]
    · simp [h]
    · simp [Nat.not_le.mpr h]

theorem State.forwardVerdict_goes {s u : State} {m : VerdictMsg} (hp : s.job.part = some m) (hs : s.job.sent = true)
    (hf : s.job.vFwd = false) (hn : (s.vChildren s.rel).length ≤ s.job.vGot)
    (hu : u = { s with job := { s.job with part := none, vGot := 0, vFwd := true } }) :
    s.forwardVerdict = match u.vParent u.rel with | some p => u.sendVerdict m p | none => u.applyVerdict m := by
  subst hu
  have hgo : (s.job.sent && !s.job.vFwd && decide ((s.vChildren s.rel).length ≤ s.job.vGot)) = true := by simp [hs, hf, hn]
  unfold State.forwardVerdict
  rw [hp]
  exact if_pos hgo

end

/-! ### The contribution (07 R172, R197) -/

theorem exec_verdictContribution (s : State) : exec .verdictContribution s =
    .next (if s.job.inStep = true ∧ s.gradient = true ∧ s.job.sent = false ∧ s.entriesEnded = true ∧ s.job.swBufs = [] then
      (State.joinVerdict { s with job := { s.job with sent := true, ssq := s.contribution.ssq } }
        s.contribution).forwardVerdict
    else s) := by
  refine congrArg Host.Outcome.next (if_congr ?_ rfl rfl)
  simp [and_assoc]

/-! ### A message received (11 R321, R335) -/

/-- What the receive rules make of a message, rule by rule (11 R321). -/
theorem State.takeMsg_eq (s : State) (h : MsgHdr) (cur : Nat) (expected : Bool) (landed : State) :
    s.takeMsg h cur expected landed =
      if h.epoch ≠ s.job.epoch ∨ s.job.bound.isNone = true then s.count kIxStale 1
      else if seqEarlier h.seq cur = true then (s.count kIxDup 1).sendAck h
      else if h.seq ≠ cur then s.count kIxStale 1
      else if (s.ctx h.ctx).arrived.contains (h.src, h.segment) = true then (s.count kIxDup 1).sendAck h
      else if expected = true then landed.sendAck h
      else s.count kIxStale 1 := by
  unfold State.takeMsg State.rxAct
  split_ifs <;> rfl

/-- Settles O41: a contribution and a message are joined and go on when this node and every node below are in; the receive rules
decide what a message does. -/
theorem verdicts : Obligations.Verdicts := by
  unfold Obligations.Verdicts
  refine ⟨exec_verdictContribution, fun s m => rfl, fun s => s.forwardVerdict_waits,
    fun s u m => State.forwardVerdict_goes, fun s m => ?applied, ?received,
    fun s u src m hu => ?landed⟩
  case applied =>
    rw [State.applyVerdict_job]
    exact ⟨rfl, rfl, rfl, s.evaluate_agree m, s.evaluate_swatch m⟩
  case received =>
    rintro s src seq epoch m _ rfl
    exact congrArg Host.Outcome.next (s.takeMsg_eq ..)
  case landed =>
    subst hu
    exact ⟨fun h => if_pos h, fun h => ⟨_, rfl, if_neg h⟩⟩

end Sys2Proof.Machine
end

section
/-! SUPPORT. The start of a step: what it clears in every unit, arbiter and context (07 R176, R194; 10 R295; 11 R318; 16 R449,
R451). -/

namespace Sys2Proof.Machine

/-- A property of the default and of every value listed holds of every value read. -/
theorem Tab.get_property {α : Type} {P : α → Prop} {d : α} {k : Nat} {t : List (Nat × α)} (hd : P d)
    (h : ∀ p ∈ t, P p.2) : P (Tab.get d k t) := by
  induction t with
  | nil => exact hd
  | cons p t ih =>
    rw [Tab.get]
    split
    · exact h p List.mem_cons_self
    · exact ih fun q hq => h q (List.mem_cons_of_mem _ hq)

/-- A unit at the start of a step: no event mark, work or stop of an earlier one (07 R176). -/
structure Tile.Cleared (t : Tile) : Prop where
  work : t.work = []
  stopped : t.stopped = []
  chain : t.chain = {}
  bad : t.bad = []
  cancelled : t.cancelled = []
  nonfinite : t.u.evNonfinite = false
  satFwd : t.u.evSatFwd = false
  satBwd : t.u.evSatBwd = false

theorem Tile.cleared_default : Tile.Cleared {} := ⟨rfl, rfl, rfl, rfl, rfl, rfl, rfl, rfl⟩

theorem Tile.cleared_beginStep (t : Tile) : t.beginStep.Cleared := ⟨rfl, rfl, rfl, rfl, rfl, rfl, rfl, rfl⟩

section
variable (s : State)

theorem State.beginStep_tile (u : Nat) : (s.beginStep.tile u).Cleared := by
  refine Tab.get_property Tile.cleared_default fun p hp => ?_
  obtain ⟨q, _, rfl⟩ := List.mem_map.mp (List.mem_of_mem_filter hp)
  exact q.2.cleared_beginStep

theorem State.beginStep_arb (p : Nat) : (s.beginStep.arb p).ptr = 0 := by
  refine Tab.get_property (P := fun a : ArbPort => a.ptr = 0) rfl fun q hq => ?_
  obtain ⟨r, _, rfl⟩ := List.mem_map.mp (List.mem_of_mem_filter hq)
  rfl

theorem State.beginStep_ctx (c : Nat) : (s.beginStep.ctx c).round = 0 ∧ (s.beginStep.ctx c).complete = false := by
  refine Tab.get_property (P := fun x : CtxSt => x.round = 0 ∧ x.complete = false) ⟨rfl, rfl⟩ fun q hq => ?_
  obtain ⟨r, _, rfl⟩ := List.mem_map.mp hq
  exact ⟨rfl, rfl⟩

theorem exec_stepStart : exec .stepStart s = .next (if s.startDue = true then s.beginStep else s) := rfl

end

/-- Settles O35: what a start clears in the tables is a property of the defaults and of every value listed, so of every value
read; the rest are the fields that the start sets or leaves. -/
theorem stepStarts : Obligations.StepStarts := by
  unfold Obligations.StepStarts
  refine ⟨fun s h => ?notDue, fun s h => ⟨s.beginStep, ?due, rfl, rfl, rfl, rfl, rfl, rfl, rfl, rfl, rfl, rfl, rfl, rfl, rfl,
    rfl, s.beginStep_arb, s.beginStep_ctx, fun u => ?tile, rfl, rfl, rfl, rfl⟩⟩
  case notDue => rw [exec_stepStart, h, if_neg Bool.false_ne_true]
  case due => rw [exec_stepStart, if_pos h]
  case tile =>
    obtain ⟨work, stopped, chain, bad, cancelled, nonfinite, satFwd, satBwd⟩ := s.beginStep_tile u
    exact ⟨work, stopped, chain, bad, cancelled, nonfinite, satFwd, satBwd⟩

end Sys2Proof.Machine
end

section
/-! SUPPORT. `CHECKPOINT` and `RESTORE`: the command as it begins, the rows of a capture, and the rows of a restore (07 R198 to
R200; 14 R416, R422, R423; 20 R536). -/

namespace Sys2Proof.Machine

/-! ### Address parameters (14 R416) -/

theorem addrParam_device {a : Nat} (h : a < 2 ^ 48) : addrParam a = some (false, a) := by
  have hbit : bitOf a 63 = false := Nat.testBit_lt_two_pow (h.trans (by decide))
  rw [addrParam, hbit, if_neg Bool.false_ne_true, if_pos h]

theorem addrParam_host {a : Nat} (h : 2 ^ 48 ≤ a) (hs : (addrParam a).isSome = true) :
    ∃ x, addrParam a = some (true, x) := by
  unfold addrParam at hs ⊢
  by_cases hbit : bitOf a 63 = true
  · rw [if_pos hbit] at hs ⊢
    by_cases hz : bits a 52 11 = 0
    · exact ⟨_, if_pos hz⟩
    · simp [hz] at hs
  · rw [if_neg hbit, if_neg (Nat.not_lt.mpr h)] at hs
    cases hs

/-! ### A command as it begins (14 R419) -/

section
variable {s : State} {h : Hdr} {op : HostOp}

theorem State.listed_job : (s.listed h op).job = s.job := by simp [State.listed]

/-- Acceptance that does nothing itself leaves the job. -/
theorem State.begun_job (ha : s.accepted h op = s.listed h op) : (s.begun h op).job = s.job := by
  rw [State.begun, ha]
  exact State.listed_job

theorem State.imageRuns_eq (s : State) :
    s.imageRuns = (s.job.inStep || s.hostIf.cmds.any fun c => c.started && HostOp.isRun c.op) := rfl

/-- A command other than `RUN_STEPS` that begins starts no run. -/
theorem State.begun_imageRuns (ha : s.accepted h op = s.listed h op) (hr : HostOp.isRun op = false) :
    (s.begun h op).imageRuns = s.imageRuns := by
  have hcmds : (s.begun h op).hostIf.cmds = s.hostIf.cmds ++ [{ s.kept h op with started := true }] := rfl
  rw [State.imageRuns_eq, State.imageRuns_eq, State.begun_job ha, hcmds]
  simp [State.kept_op, hr]

end

/-! ### A capture (07 R198, R199; 14 R422; 20 R536) -/

/-- A `CHECKPOINT` that has started. -/
def ckCmd (h : Hdr) (dest cap : Nat) : Cmd := { hdr := h, op := .checkpoint dest cap, started := true }

section
variable {u : State} {h : Hdr} {dest cap : Nat} {i : Image} {b : Bound}

theorem State.capture_noRoom (hi : u.job.img = some i) (hb : u.job.bound = some b) (hc : cap < u.ckLen) :
    u.capture (ckCmd h dest cap) = u.retire h (refuse stRefusedFit 0x0006) := by
  simp only [State.capture, ckCmd, hi, hb, hc, if_true]

theorem State.capture_whole (hi : u.job.img = some i) (hb : u.job.bound = some b) (hc : u.ckLen ≤ cap)
    (hp : u.ckPoison i = none) : u.capture (ckCmd h dest cap) =
      (u.dramWr dest (u.ckHeader i ((sha512 (u.ckBody i)).take 32) ++ u.ckBody i)).retire h { result := u.ckLen } := by
  simp only [State.capture, ckCmd, hi, hb, hp, Nat.not_lt.mpr hc, if_false]

theorem State.capture_poisoned {k off : Nat} (hi : u.job.img = some i) (hb : u.job.bound = some b) (hc : u.ckLen ≤ cap)
    (hp : u.ckPoison i = some (k, off)) : u.capture (ckCmd h dest cap) =
      ((u.dramWr dest (u.ckHeader i (List.replicate 32 0) ++ (u.ckBody i).take (off - 128))).record
        { sub := 0x0A, cause := Config.faultCause 15 % 256, cls := 1, seq := BitVec.ofNat 64 h.seq }).retire h
          { status := stFaultContained } := by
  simp only [State.capture, ckCmd, hi, hb, hp, Nat.not_lt.mpr hc, if_false]

/-! ### `CHECKPOINT` (14 R422) -/

theorem Served.exec_checkpoint {s : State} (v : Served s h (.checkpoint dest cap)) : exec (.checkpoint h dest cap) s =
    .next ((s.begun h (.checkpoint dest cap)).cmdCheckpoint (ckCmd h dest cap) dest).checkJournal :=
  congrArg Host.Outcome.next v.submit

theorem State.cmdCheckpoint_unbound (hb : u.job.bound = none) :
    u.cmdCheckpoint (ckCmd h dest cap) dest = u.retire h (refuse stRefusedFit 0x0201) := by
  simp only [State.cmdCheckpoint, ckCmd, hb, Option.isNone_none, if_true]

theorem State.cmdCheckpoint_host {x : Nat} (hb : u.job.bound = some b) (ha : addrParam dest = some (true, x)) :
    u.cmdCheckpoint (ckCmd h dest cap) dest = u.retire h (refuse stRefusedShape 0x0005) := by
  simp only [State.cmdCheckpoint, ckCmd, hb, ha, Option.isNone_some, Bool.false_eq_true, if_false]

theorem State.cmdCheckpoint_device (hb : u.job.bound = some b) (ha : dest < 2 ^ 48) :
    u.cmdCheckpoint (ckCmd h dest cap) dest =
      if u.ckDest dest u.ckLen = false then u.retire h (refuse stRefusedShape 0x0005)
      else if u.imageRuns = true then u else u.capture (ckCmd h dest cap) := by
  simp only [State.cmdCheckpoint, ckCmd, hb, addrParam_device ha, Option.isNone_some, Bool.false_eq_true, if_false,
    Bool.not_eq_true']

theorem State.cmdCheckpoint_captures (hb : u.job.bound = some b) (ha : dest < 2 ^ 48)
    (hd : u.ckDest dest u.ckLen = true) (hr : u.imageRuns = false) :
    u.cmdCheckpoint (ckCmd h dest cap) dest = u.capture (ckCmd h dest cap) := by
  rw [State.cmdCheckpoint_device hb ha, hd, hr, if_neg Bool.true_eq_false.mp, if_neg Bool.false_ne_true]

end

/-! ### `RESTORE` (07 R200; 14 R423) -/

/-- The record that `RESTORE` reads: as long as its header says, where all of that is mapped. -/
def State.recordAt (u : State) (a : Bool × Nat) : List Byte :=
  let n := fieldLe (u.rdAt a 128) 88 8
  u.rdAt a (if 128 ≤ n ∧ u.spanOk a n = true then n else 128)

theorem State.recordAt_eq (u : State) (a : Bool × Nat) : u.recordAt a =
    if 128 ≤ fieldLe (u.rdAt a 128) 88 8 ∧ u.spanOk a (fieldLe (u.rdAt a 128) 88 8) = true then
      u.rdAt a (fieldLe (u.rdAt a 128) 88 8) else u.rdAt a 128 := apply_ite (u.rdAt a) ..

section
variable {u : State} {h : Hdr} {r e : Nat} {i : Image} {a : Bool × Nat}

theorem Served.exec_restore {s : State} (v : Served s h (.restore r e)) :
    exec (.restore h r e) s = .next ((s.begun h (.restore r e)).cmdRestore h r e).checkJournal :=
  congrArg Host.Outcome.next v.submit

theorem State.cmdRestore_unbound (hj : u.job.bound = none ∨ u.job.img = none) :
    u.cmdRestore h r e = u.retire h (refuse stRefusedFit 0x0201) := by
  unfold State.cmdRestore
  split
  · next i x hi _ => exact if_pos (by simpa [hi] using hj)
  · rfl

section
variable (hi : u.job.img = some i) (hb : u.job.bound.isSome = true) (ha : addrParam r = some a)
include hi hb ha

theorem State.cmdRestore_runs (hr : u.imageRuns = true) :
    u.cmdRestore h r e = u.retire h (refuse stRefusedFit 0x0202) := by
  simp only [State.cmdRestore, hi, ha, Option.isNone_eq_false_iff.mpr hb, hr, Bool.false_eq_true, if_false, if_true]

theorem State.cmdRestore_unmapped (hr : u.imageRuns = false) (hs : u.spanOk a 128 = false) :
    u.cmdRestore h r e = u.retire h (refuse stRefusedShape 0x0005) := by
  simp only [State.cmdRestore, hi, ha, Option.isNone_eq_false_iff.mpr hb, hr, hs, Bool.false_eq_true, Bool.not_false,
    if_false, if_true]

theorem State.cmdRestore_failed {f : Nat × Nat} (hr : u.imageRuns = false) (hs : u.spanOk a 128 = true)
    (hc : u.checkRecord i (u.recordAt a) e = some f) :
    u.cmdRestore h r e = u.retire h (refuse f.1 (freeReason f.2)) := by
  simp only [State.cmdRestore, hi, ha, Option.isNone_eq_false_iff.mpr hb, hr, hs, ← State.recordAt_eq, hc,
    Bool.false_eq_true, Bool.not_true, if_false]

theorem State.cmdRestore_passed (hr : u.imageRuns = false) (hs : u.spanOk a 128 = true)
    (hc : u.checkRecord i (u.recordAt a) e = none) : u.cmdRestore h r e =
      (u.restoreFrom i (u.recordAt a) e).retire h { result := (u.restoreFrom i (u.recordAt a) e).job.step.toNat } := by
  simp only [State.cmdRestore, hi, ha, Option.isNone_eq_false_iff.mpr hb, hr, hs, ← State.recordAt_eq, hc,
    Bool.false_eq_true, Bool.not_true, if_false]

end

end

/-- Settles O10: a command that starts at once runs on the state in which it begins, which holds the job and the runs of the state
before; the rows of `CHECKPOINT` and `RESTORE` follow in their order. -/
theorem checkpointAndRestore : Obligations.CheckpointAndRestore := by
  unfold Obligations.CheckpointAndRestore
  refine ⟨?checkpoint, ?restore⟩
  case checkpoint =>
    rintro s h dest cap u v rfl
    have hjob : (s.begun h (.checkpoint dest cap)).job = s.job := State.begun_job rfl
    have hruns : (s.begun h (.checkpoint dest cap)).imageRuns = s.imageRuns := State.begun_imageRuns rfl rfl
    have hexec := v.exec_checkpoint
    have haddr : (addrParam dest).isSome = true := by simpa [HostOp.badField] using v.fields
    generalize s.begun h (.checkpoint dest cap) = u at *
    rw [hexec, ← hjob, ← hruns]
    refine ⟨fun hb => ?unbound, fun i b hi hb => ⟨fun hd => ?refused, fun hlow hd => ⟨fun hr => ?waits,
      fun hr hc => ?noRoom, fun hr hc hp => ?whole, fun k off hr hc hp => ?poisoned⟩⟩⟩
    case unbound =>
      rw [State.cmdCheckpoint_unbound hb]; rfl
    case refused =>
      by_cases hlow : dest < 2 ^ 48
      · rw [State.cmdCheckpoint_device hb hlow, if_pos (hd.resolve_right (by omega))]; rfl
      · obtain ⟨x, hx⟩ := addrParam_host (Nat.not_lt.mp hlow) haddr
        rw [State.cmdCheckpoint_host hb hx]; rfl
    case waits =>
      rw [State.cmdCheckpoint_device hb hlow, hd, if_neg Bool.true_eq_false.mp, if_pos hr]
    case noRoom =>
      rw [State.cmdCheckpoint_captures hb hlow hd hr, State.capture_noRoom hi hb hc]; rfl
    case whole =>
      rw [State.cmdCheckpoint_captures hb hlow hd hr, State.capture_whole hi hb hc hp]; rfl
    case poisoned =>
      rw [State.cmdCheckpoint_captures hb hlow hd hr, State.capture_poisoned hi hb hc hp]; rfl
  case restore =>
    rintro s h r e a u v rfl ha
    have hjob : (s.begun h (.restore r e)).job = s.job := State.begun_job rfl
    have hruns : (s.begun h (.restore r e)).imageRuns = s.imageRuns := State.begun_imageRuns rfl rfl
    have hexec := v.exec_restore
    generalize s.begun h (.restore r e) = u at *
    rw [hexec, ← hjob, ← hruns]
    refine ⟨fun hj => ?unbound, fun i hi hb => ⟨fun hr => ?runs, fun hr hs => ?unmapped, ?read⟩⟩
    case unbound =>
      rw [State.cmdRestore_unbound hj]; rfl
    case runs =>
      rw [State.cmdRestore_runs hi hb ha hr]; rfl
    case unmapped =>
      rw [State.cmdRestore_unmapped hi hb ha hr hs]; rfl
    case read =>
      rintro _ _ hr hs rfl rfl
      refine ⟨fun st k hc => ⟨(refuse st (freeReason k)).detail, ?_⟩, fun hc => ⟨_, rfl, ?_⟩⟩
      · rw [State.cmdRestore_failed hi hb ha hr hs hc]; rfl
      · rw [State.cmdRestore_passed hi hb ha hr hs hc]; rfl

end Sys2Proof.Machine
end


section
/-! SUPPORT. The Umber engines: what the work beside an engine leaves of all four, what an ended or stopped solve leaves on its
engine, and the marks that a dynamics operation puts on its engines (08 R221, R233, R237, R241; 09 R264, R266, R270; 20 R533,
R539). -/

namespace Sys2Proof.Machine

/-! ### What leaves the engines alone -/

section
variable (s : State)

theorem State.foldl_engines {α : Type} {f : State → α → State} (h : ∀ x a, (f x a).engines = x.engines) (l : List α) :
    (l.foldl f s).engines = s.engines :=
  List.foldlRecOn (motive := fun x : State => x.engines = s.engines) l f rfl fun x hx a _ => (h x a).trans hx

theorem State.engine_congr {s t : State} (h : t.engines = s.engines) (g : Nat) : t.engine g = s.engine g := by
  rw [State.engine, h, State.engine]

theorem State.setEngine_engine_ne {f g : Nat} {x : Engine} (h : g ≠ f) : (s.setEngine f x).engine g = s.engine g :=
  getD_setAt_ne h

/-- An engine replaced in states with the same engines (08 R203). -/
theorem State.setEngine_engines_congr {s t : State} (h : t.engines = s.engines) (f : Nat) (x : Engine) :
    (t.setEngine f x).engines = (s.setEngine f x).engines := by
  rw [State.setEngine, h, State.setEngine]

@[simp] theorem State.keyEffect_engines (k : Nat) (old : BitVec 64) : (s.keyEffect k old).engines = s.engines := by
  unfold State.keyEffect
  split
  case isTrue => split <;> simp
  case isFalse => split <;> simp

@[simp] theorem State.foldWrite_engines (p : Nat × BitVec 64) : (s.foldWrite p).engines = s.engines := by
  unfold State.foldWrite; split <;> simp

@[simp] theorem State.fold_engines : s.fold.engines = s.engines := by
  simp [State.fold, State.foldl_engines _ State.foldWrite_engines,
    State.foldl_engines _ fun (x : State) (p : Nat × Nat) => x.countNow_engines p.1 p.2]

@[simp] theorem State.foldIfIdle_engines : s.foldIfIdle.engines = s.engines := by
  unfold State.foldIfIdle; split <;> simp

@[simp] theorem State.umberAnswer_engines (src : UmberSrc) (status result : Nat) :
    (s.umberAnswer src status result).engines = s.engines := by
  cases src <;> simp [State.umberAnswer]

@[simp] theorem State.umberAnswer_job (src : UmberSrc) (status result : Nat) :
    (s.umberAnswer src status result).job = s.job := by
  cases src <;> simp [State.umberAnswer]

@[simp] theorem State.countSolve_engines (f : Nat) (t : SolveSt) : (s.countSolve f t).engines = s.engines := by
  simp [State.countSolve]

@[simp] theorem State.countSolve_job (f : Nat) (t : SolveSt) : (s.countSolve f t).job = s.job := by
  simp [State.countSolve]

@[simp] theorem State.solveLost_engines (d : SolveDesc) : (s.solveLost d).engines = s.engines := by
  unfold State.solveLost; dsimp only; split <;> simp

@[simp] theorem State.solveLost_job (d : SolveDesc) : (s.solveLost d).job = s.job := by
  unfold State.solveLost; dsimp only; split <;> simp

@[simp] theorem State.writeFx_engines (fmt base : Nat) (point : Int) (vals : List (Nat × Dy)) :
    (s.writeFx fmt base point vals).1.engines = s.engines :=
  List.foldlRecOn (motive := fun a : State × Ev => a.1.engines = s.engines) vals _ rfl fun _ ha _ _ => ha

@[simp] theorem State.post_engines (q : MemReq) : (s.post q).engines = s.engines := by
  unfold State.post; split <;> simp [State.park]

@[simp] theorem State.askRange_engines (req cls a n : Nat) : (s.askRange req cls a n).engines = s.engines := by
  unfold State.askRange
  apply State.foldl_engines
  intro x l
  apply State.post_engines

@[simp] theorem State.askAll_engines (req cls : Nat) (rs : List (Nat × Nat)) :
    (s.askAll req cls rs).engines = s.engines := by
  unfold State.askAll
  apply State.foldl_engines
  intro x r
  apply State.askRange_engines

theorem unseen_askRange (req cls a n : Nat) : Unseen s (s.askRange req cls a n) :=
  List.foldlRecOn (motive := Unseen s) _ _ (.refl s) fun _ hx _ _ => hx.trans (unseen_post _)

theorem unseen_askAll (req cls : Nat) (rs : List (Nat × Nat)) : Unseen s (s.askAll req cls rs) :=
  List.foldlRecOn (motive := Unseen s) rs _ (.refl s) fun x hx r _ => hx.trans (unseen_askRange x req cls r.1 r.2)

@[simp] theorem State.dynLost_engines (t : DynSt) (rs : List TreeRes) : (s.dynLost t rs).engines = s.engines := by
  cases h : t.src with
  | cmd _ => simp [State.dynLost, h]
  | entry _ =>
    simp only [State.dynLost, h, State.dramForget_engines]
    exact State.foldl_engines s (fun x k => (State.dramForget_engines _ _ _).trans (x.dramForget_engines _ _)) _

end

/-! ### What a solve leaves on its engine when it ends (08 R241) -/

section
variable {s : State} {f g : Nat} {t : SolveSt}

theorem SolveSt.after_cmd {h : Hdr} (hsrc : t.src = .cmd h) : t.after = none := by rw [SolveSt.after, hsrc]

theorem SolveSt.after_entry {e : Nat} (hsrc : t.src = .entry e) : t.after = some { t with phase := .ended } := by
  rw [SolveSt.after, hsrc]

/-- The state with the solve on an engine replaced. -/
def State.setSolve (s : State) (f : Nat) (x : Option SolveSt) : State := s.setEngine f { s.engine f with solve := x }

theorem State.setSolve_solve {x : Option SolveSt} (h : f < s.engines.length) : ((s.setSolve f x).engine f).solve = x := by
  rw [State.setSolve, s.setEngine_engine h]

theorem State.setSolve_ne {x : Option SolveSt} (h : g ≠ f) : (s.setSolve f x).engine g = s.engine g :=
  s.setEngine_engine_ne h

theorem State.setSolve_engines_congr {t : State} (h : t.engines = s.engines) (f : Nat) (x : Option SolveSt) :
    (t.setSolve f x).engines = (s.setSolve f x).engines := by
  rw [State.setSolve, State.setSolve, State.engine_congr h, State.setEngine_engines_congr h]

@[simp] theorem State.setSolve_job (x : Option SolveSt) : (s.setSolve f x).job = s.job := rfl

/-- An ended solve leaves the engines as `after` gives them, with the saturations of its forward solution (08 R210, R241). -/
theorem State.finishSolve_engines : ∃ n, (s.finishSolve f t).engines = (s.setSolve f (t.withSat n).after).engines := by
  refine ⟨(Ev.joinAll ((s.forwardX t.desc).map (fun x => x.2))).sat, ?_⟩
  unfold State.finishSolve
  simp only [State.umberAnswer_engines, State.countSolve_engines]
  refine State.setSolve_engines_congr ?_ f _
  split <;> simp

/-! ### A solve stopped by an uncorrectable line (08 R233; 20 R533, R539) -/

/-- The state in which a stopped solve's fault is recorded: its engine left, the counts and the record written (08 R233, R242). -/
def State.solveStopped (s : State) (f : Nat) (t : SolveSt) : State :=
  ((s.setSolve f t.after).countSolve f t).dramWr (t.desc.slots.getD 9 0)
    (t.record (if t.desc.dist then stFaultJob else stFaultContained))

@[simp] theorem State.solveStopped_engines : (s.solveStopped f t).engines = (s.setSolve f t.after).engines := by
  simp [State.solveStopped]

@[simp] theorem State.solveStopped_job : (s.solveStopped f t).job = s.job := by
  simp [State.solveStopped]

theorem State.faultSolve_dist (a : Nat) (h : t.desc.dist = true) : ∃ r, s.faultSolve f t a =
    ((s.solveStopped f t).umberAnswer t.src stFaultJob t.iters).jobFaultNow 0x0607 r :=
  ⟨_, if_pos h⟩

theorem State.faultSolve_cmd {h : Hdr} (a : Nat) (hd : t.desc.dist = false) (hsrc : t.src = .cmd h) :
    ∃ r, s.faultSolve f t a = ((s.solveStopped f t).record r).umberAnswer t.src stFaultContained t.iters := by
  simp only [State.faultSolve, hd, hsrc, Bool.false_eq_true, if_false]
  exact ⟨_, by simp only [State.solveStopped, hd, Bool.false_eq_true, if_false]; rfl⟩

theorem State.faultSolve_entry {e : Nat} (a : Nat) (hd : t.desc.dist = false) (hsrc : t.src = .entry e) :
    ∃ r, s.faultSolve f t a = ((s.solveStopped f t).solveLost t.desc).contained r := by
  simp only [State.faultSolve, hd, hsrc, Bool.false_eq_true, if_false]
  exact ⟨_, by simp only [State.solveStopped, hd, Bool.false_eq_true, if_false]; rfl⟩

/-- A stopped solve that is not distributed leaves its engine as an ended one does, the other engines alone. -/
theorem State.faultSolve_engines (a : Nat) (hd : t.desc.dist = false) :
    (s.faultSolve f t a).engines = (s.setSolve f t.after).engines := by
  cases hsrc : t.src with
  | cmd h => obtain ⟨r, heq⟩ := State.faultSolve_cmd (s := s) (f := f) a hd hsrc; simp [heq]
  | entry e => obtain ⟨r, heq⟩ := State.faultSolve_entry (s := s) (f := f) a hd hsrc; simp [heq]

theorem State.faultSolve_fault {e : Nat} (a : Nat) (hd : t.desc.dist = false) (hsrc : t.src = .entry e)
    (hin : s.job.inStep = true) : (s.faultSolve f t a).job.fault = true := by
  obtain ⟨r, heq⟩ := State.faultSolve_entry (s := s) (f := f) a hd hsrc
  rw [heq]
  exact State.contained_job_fault (by simpa using hin)

/-- A job fault while an image is bound and the job has not stopped: the reason, and no step in progress (20 R539). -/
theorem State.jobFaultNow_job {reason : Nat} {r : FaultRec} (hb : s.job.bound.isSome = true) (hf : s.job.jobFault = none) :
    (s.jobFaultNow reason r).job.jobFault = some reason ∧ (s.jobFaultNow reason r).job.inStep = false := by
  have hacts : (s.job.bound.isSome && s.job.jobFault.isNone) = true := by rw [hb, hf]; rfl
  rw [State.jobFaultNow, if_pos hacts, State.endRun_job]
  exact ⟨rfl, rfl⟩

theorem State.faultSolve_jobFault (a : Nat) (hd : t.desc.dist = true) (hb : s.job.bound.isSome = true)
    (hf : s.job.jobFault = none) :
    (s.faultSolve f t a).job.jobFault = some 0x0607 ∧ (s.faultSolve f t a).job.inStep = false := by
  obtain ⟨r, heq⟩ := State.faultSolve_dist (s := s) (f := f) a hd
  rw [heq]
  exact State.jobFaultNow_job (by simpa using hb) (by simpa using hf)

end

/-! ### What a part of a solve leaves (08 R221, R228, R232) -/

section
variable {s : State} {f : Nat} {t : SolveSt} {r : Run}

theorem State.runPass_poisoned {a : Nat} (h : s.solvePoisoned t = some a) : s.runPass f t = s.faultSolve f t a := by
  rw [State.runPass, h]

theorem State.runPass_sound (h : s.solvePoisoned t = none) : s.runPass f t = s.commitRun f (s.withForward t)
    (if t.phase = .prepass then s.prepassRun (s.withForward t)
     else ((iterate t.desc.bnd s.now).run { st := s.withForward t, inp := (s.withForward t).netIn }).2) := by
  rw [State.runPass, h]

/-- The part of a command for solves in phase `p`: of the engine's solve when it is in that phase (08 R221, R228). -/
def State.partIn (s : State) (p : SolvePhase) (f : Nat) : State :=
  match (s.engine f).solve with
  | some t => if t.phase = p then s.runPass f t else s
  | none => s

theorem State.partIn_idle {p : SolvePhase} (h : ∀ t, (s.engine f).solve = some t → t.phase ≠ p) : s.partIn p f = s := by
  unfold State.partIn
  split
  case h_1 t ht => exact if_neg (h t ht)
  case h_2 => rfl

theorem State.partIn_runs (ht : (s.engine f).solve = some t) : s.partIn t.phase f = s.runPass f t := by
  simp only [State.partIn, ht, if_pos]

theorem exec_umberSPrepass : exec (.umberSPrepass f) s = .next (s.partIn .prepass f) := rfl

theorem exec_umberSIteration : exec (.umberSIteration f) s = .next (s.partIn .iterate f) := rfl

/-- Either command runs a part of the solve that is in its phase. -/
theorem exec_solvePart {c : Instr} (ht : (s.engine f).solve = some t)
    (hc : (c = .umberSPrepass f ∧ t.phase = .prepass) ∨ (c = .umberSIteration f ∧ t.phase = .iterate)) :
    exec c s = .next (s.runPass f t) := by
  rw [← State.partIn_runs ht]
  obtain ⟨rfl, hp⟩ | ⟨rfl, hp⟩ := hc
  · rw [exec_umberSPrepass, hp]
  · rw [exec_umberSIteration, hp]

/-- The solve that a part which waits for nothing leaves (08 R232). -/
def Run.next (r : Run) : SolveSt := { r.st with netIn := r.inp, asked := none, ev := {} }

/-- The state beside the engine after such a part: flags raised, reads requested, factors of a pre-pass kept (08 R220, R225). -/
def State.partCounted (s : State) (f : Nat) (t : SolveSt) (r : Run) : State :=
  let s1 := (s.raise (umberUnit f) t.decl r.st.ev).askPass f t
  if r.st.desc.pcReuse || t.phase ≠ .prepass then s1
  else { s1 with mem := { s1.mem with pcStore := Tab.insert (r.st.desc.slots.getD 7 0) r.st.pcd s1.mem.pcStore } }

@[simp] theorem State.partCounted_engines : (s.partCounted f t r).engines = s.engines := by
  have hask : ((s.raise (umberUnit f) t.decl r.st.ev).askPass f t).engines = s.engines := State.askAll_engines _ _ _ _
  unfold State.partCounted; dsimp only; split <;> exact hask

theorem State.partCounted_dram : (s.partCounted f t r).mem.dram = s.mem.dram := by
  have hask : ((s.raise (umberUnit f) t.decl r.st.ev).askPass f t).mem.dram = s.mem.dram := (unseen_askAll _ _ _ _).bytes.1
  unfold State.partCounted; dsimp only; split <;> exact hask

theorem State.commitRun_waits {a : NetAsk} (h : r.ask = some a) :
    s.commitRun f t r = s.setSolve f (some { t with asked := some a }) := by
  rw [State.commitRun, h]; rfl

theorem State.commitRun_continues (h : r.ask = none) (hp : r.st.phase ≠ .ended) :
    s.commitRun f t r = (s.partCounted f t r).setSolve f (some r.next) := by
  rw [State.commitRun, h]; exact if_neg hp

theorem State.commitRun_ends (h : r.ask = none) (hp : r.st.phase = .ended) :
    s.commitRun f t r = (s.partCounted f t r).finishSolve f r.next := by
  rw [State.commitRun, h]; exact if_pos hp

theorem State.commitRun_ends_solve (hf : f < s.engines.length) (h : r.ask = none) (hp : r.st.phase = .ended) :
    ∃ n, ((s.commitRun f t r).engine f).solve = (r.next.withSat n).after := by
  obtain ⟨n, heng⟩ := State.finishSolve_engines (s := s.partCounted f t r) (f := f) (t := r.next)
  refine ⟨n, ?_⟩
  rw [State.commitRun_ends h hp, State.engine_congr heng, State.setSolve_solve (by simpa using hf)]

end

/-! ### Marks on the engines of a dynamics operation (09 R264, R270) -/

/-- Marks put on the listed engines one after the other: an engine in the list bears its mark, once, the others none. -/
theorem State.foldl_dyn {F : State → Nat → State} {mark : Nat → Option DynSt → Option DynSt}
    (hlen : ∀ x g, (F x g).engines.length = x.engines.length)
    (hF : ∀ x g h, h < x.engines.length →
      ((F x g).engine h).dyn = if h = g then mark h (x.engine h).dyn else (x.engine h).dyn)
    (hmark : ∀ g d, mark g (mark g d) = mark g d) (l : List Nat) (s : State) {h : Nat} (hh : h < s.engines.length) :
    ((l.foldl F s).engine h).dyn = if h ∈ l then mark h (s.engine h).dyn else (s.engine h).dyn := by
  induction l generalizing s with
  | nil => simp
  | cons g l ih =>
    rw [List.foldl_cons, ih (F s g) (by rwa [hlen]), hF s g h hh]
    by_cases hg : h = g
    · subst hg; simp [hmark]
    · simp [hg]

section
variable {s : State} {f g : Nat} {t : DynSt}

theorem State.setEngine_dyn {x : Engine} (hg : g < s.engines.length) :
    ((s.setEngine f x).engine g).dyn = if g = f then x.dyn else (s.engine g).dyn := by
  split
  case isTrue h => subst h; rw [s.setEngine_engine hg]
  case isFalse h => rw [s.setEngine_engine_ne h]

/-- What the end of an operation leaves of it on its engines (09 R266). -/
def UmberSrc.freed (src : UmberSrc) (d : Option DynSt) : Option DynSt :=
  match src with
  | .cmd _ => none
  | .entry _ => d.map (fun t => { t with done := true })

theorem UmberSrc.freed_freed (src : UmberSrc) (d : Option DynSt) : src.freed (src.freed d) = src.freed d := by
  cases src with
  | cmd _ => rfl
  | entry _ => cases d <;> rfl

theorem State.freeDyn_dyn {src : UmberSrc} {fields : List Nat} (hf : f ∈ fields) (hlen : f < s.engines.length) :
    ((s.freeDyn src fields).engine f).dyn = src.freed (s.engine f).dyn := by
  refine (State.foldl_dyn (mark := fun _ => src.freed) (fun _ _ => State.setEngine_length ..) (fun x g h hh => ?_)
    (fun _ => src.freed_freed) fields s hlen).trans (if_pos hf)
  rw [State.setEngine_dyn hh]
  split
  case isTrue hg => subst hg; rfl
  case isFalse => rfl

theorem State.finishDyn_waits (h : s.dynDone t.fields = false) : s.finishDyn t = s := by
  rw [State.finishDyn, h]; rfl

/-- The end of an operation frees its engines; the summary, the outputs lost and the answer leave them alone. -/
theorem State.finishDyn_engines (h : s.dynDone t.fields = true) :
    (s.finishDyn t).engines = (s.freeDyn t.src t.fields).engines := by
  rw [State.finishDyn, h, Bool.not_true, if_neg Bool.false_ne_true]
  dsimp only
  split <;> simp

theorem State.finishDyn_dyn (h : s.dynDone t.fields = true) (hf : f ∈ t.fields) (hlen : f < s.engines.length) :
    ((s.finishDyn t).engine f).dyn = t.src.freed (s.engine f).dyn := by
  rw [State.engine_congr (State.finishDyn_engines h), State.freeDyn_dyn hf hlen]

/-- The operation on engine `g` after an uncorrectable error on engine `f`: stopped there, elsewhere to stop after its group
(09 R270). -/
def DynSt.faultMark (f g : Nat) (y : DynSt) : DynSt := if g = f then { y with faulted := true } else { y with halt := true }

theorem DynSt.faultMark_faultMark (f g : Nat) (y : DynSt) :
    (y.faultMark f g).faultMark f g = y.faultMark f g := by
  unfold DynSt.faultMark; split <;> rfl

/-- An error on engine `f` marked on engine `g` (09 R270). -/
def State.markFault (f : Nat) (x : State) (g : Nat) : State :=
  match (x.engine g).dyn with
  | some y => x.setEngine g { x.engine g with dyn := some (y.faultMark f g) }
  | none => x

@[simp] theorem State.markFault_length (x : State) : (x.markFault f g).engines.length = x.engines.length := by
  unfold State.markFault; split <;> simp

@[simp] theorem State.markFault_job (x : State) : (x.markFault f g).job = x.job := by
  unfold State.markFault; split <;> simp

theorem State.markFault_dyn (x : State) {h : Nat} (hh : h < x.engines.length) : ((x.markFault f g).engine h).dyn =
    if h = g then (x.engine h).dyn.map (DynSt.faultMark f h) else (x.engine h).dyn := by
  unfold State.markFault
  split
  case h_1 y hy =>
    rw [State.setEngine_dyn hh]
    split
    case isTrue hg => subst hg; rw [hy]; rfl
    case isFalse => rfl
  case h_2 hn =>
    split
    case isTrue hg => subst hg; rw [hn]; rfl
    case isFalse => rfl

theorem State.markFaults_dyn (fields : List Nat) (hg : g < s.engines.length) :
    ((fields.foldl (State.markFault f) s).engine g).dyn =
      if g ∈ fields then (s.engine g).dyn.map (DynSt.faultMark f g) else (s.engine g).dyn :=
  State.foldl_dyn (mark := fun h => Option.map (DynSt.faultMark f h)) (fun x _ => x.markFault_length)
    (fun x _ _ hh => x.markFault_dyn hh)
    (fun h d => by simp [Function.comp_def, DynSt.faultMark_faultMark]) fields s hg

/-- An uncorrectable error ends the operation, once its engines are done, in the state in which it is recorded: the engines
bear the marks, and an entry's step in progress is contained (09 R270; 20 R533). -/
theorem State.faultDyn_eq (a : Nat) : ∃ u : State, s.faultDyn f t a = u.finishDyn t ∧
    u.engines = (t.fields.foldl (State.markFault f) s).engines ∧
    ∀ e, t.src = .entry e → s.job.inStep = true → u.job.fault = true := by
  cases hsrc : t.src with
  | cmd _ =>
    refine ⟨_, by rw [State.faultDyn, hsrc]; rfl, State.record_engines _ _, fun e he => ?_⟩
    cases he
  | entry _ =>
    refine ⟨_, by rw [State.faultDyn, hsrc]; rfl, State.contained_engines _ _, fun e _ hin => ?_⟩
    exact State.contained_job_fault ((congrArg Job.inStep (State.foldl_job (fun x g => x.markFault_job) t.fields s)).trans hin)

/-! ### A group of trees (09 R264, R270) -/

/-- A run that collects one result for each item collects as many as there are items. -/
theorem length_foldl_collect {α β γ : Type} (step : α → γ → α × β) (l : List γ) (acc : α × List β) :
    (l.foldl (fun a k => ((step a.1 k).1, a.2 ++ [(step a.1 k).2])) acc).2.length = acc.2.length + l.length := by
  induction l generalizing acc with
  | nil => rfl
  | cons k l ih => simp only [List.foldl_cons, ih, List.length_append, List.length_cons, List.length_nil]; omega

theorem exec_umberJGroup {ue : Bool} : exec (.umberJGroup f ue) s = execUmberJGroup f ue s := rfl

theorem exec_umberJGroup_idle {ue : Bool} (h : ∀ t, (s.engine f).dyn = some t → t.stop ≤ t.next ∨ t.faulted = true) :
    exec (.umberJGroup f ue) s = .next s := by
  rw [exec_umberJGroup, execUmberJGroup]
  split
  case h_1 t ht =>
    have hdone : ¬ (t.next < t.stop ∧ (!t.faulted) = true) := by
      rintro ⟨hnext, hsound⟩
      rcases h t ht with hstop | hfault
      · omega
      · simp [hfault] at hsound
    rw [if_neg hdone]
  case h_2 => rfl

theorem exec_umberJGroup_runs {ue : Bool} (ht : (s.engine f).dyn = some t) (hn : t.next < t.stop)
    (hf : t.faulted = false) : exec (.umberJGroup f ue) s = .next (s.runGroup f t ue) := by
  have hruns : t.next < t.stop ∧ (!t.faulted) = true := ⟨hn, by rw [hf]; rfl⟩
  simp only [exec_umberJGroup, execUmberJGroup, ht, if_pos hruns]

theorem State.runTrees_length (n : Nat) : (s.runTrees f t n).2.length = n := by
  unfold State.runTrees
  exact (length_foldl_collect (fun x k => State.runOneTree x f t k) _ _).trans (by simp [rangeFrom])

theorem State.runGroup_poisoned {n a : Nat} {ue : Bool} (hn : n = min 4 (t.stop - t.next))
    (h : s.groupPoisoned t n = some a) : s.runGroup f t ue = s.faultDyn f t a := by
  subst hn
  simp only [State.runGroup, h]

theorem State.runGroup_error {n : Nat} (hn : n = min 4 (t.stop - t.next)) (h : s.groupPoisoned t n = none) :
    ∃ a, s.runGroup f t true = s.faultDyn f t a := by
  subst hn
  exact ⟨_, by simp only [State.runGroup, h]; rfl⟩

/-- The operation on an engine after a group with these results (09 R264, R270). -/
def DynSt.advanced (t : DynSt) (n : Nat) (rs : List TreeRes) : DynSt :=
  { t with next := t.next + n, results := t.results ++ rs, faulted := t.halt }

/-- The state in which a group is computed: its reads and writes requested (09 R262, R267). -/
def State.groupAsked (s : State) (f : Nat) (t : DynSt) (n : Nat) : State :=
  (s.askAll (reqUmber + f) 0 (t.inputs n)).askAll (reqUmber + f) 2 (t.outputs n)

theorem State.runGroup_sound {n : Nat} {x : State × List TreeRes} (hn : n = min 4 (t.stop - t.next))
    (h : s.groupPoisoned t n = none) (hx : x = (s.groupAsked f t n).runTrees f t n) :
    s.runGroup f t false =
      (x.1.setEngine f { x.1.engine f with dyn := some (t.advanced n x.2) }).finishDyn (t.advanced n x.2) := by
  subst hn hx
  simp only [State.runGroup, h]
  rfl

end

/-- Settles O53: a command runs the part or group in turn, an ended or stopped solve leaves its engine as `after` says, and the
marks of a dynamics operation go over its engines one after the other. -/
theorem umberParts : Obligations.UmberParts := by
  unfold Obligations.UmberParts
  refine ⟨fun s f h => ?notPrepass, fun s f h => ?notIterate, fun s f t c ht hc => ?part, fun s f t a hf hd => ?contained,
    fun s f t a hd hb hj => State.faultSolve_jobFault a hd hb hj, fun s f t r a _ h => State.commitRun_waits h,
    fun s f t r hf h hp => ?goesOn, fun s f t r hf h hp => ?ended, fun s f ue h => exec_umberJGroup_idle h,
    fun s f t n ht hnext hfault hn => ?group, fun s t h => State.finishDyn_waits h, fun s t f h hmem hf => ?freed,
    fun s f t a => ?error⟩
  case notPrepass => rw [exec_umberSPrepass, State.partIn_idle h]
  case notIterate => rw [exec_umberSIteration, State.partIn_idle h]
  case part =>
    rw [exec_solvePart ht hc]
    refine ⟨fun a h => by rw [State.runPass_poisoned h], ?_⟩
    rintro _ h rfl
    rw [State.runPass_sound h]
  case contained =>
    have heng := State.faultSolve_engines (s := s) (f := f) a hd
    refine ⟨?_, fun e hsrc hin => State.faultSolve_fault a hd hsrc hin, fun g hg => ?_⟩
    · rw [State.engine_congr heng, State.setSolve_solve hf]
    · rw [State.engine_congr heng, State.setSolve_ne hg]
  case goesOn =>
    rw [State.commitRun_continues h hp]
    refine ⟨State.setSolve_solve (by simpa using hf), State.partCounted_dram, fun g hg => ?_⟩
    rw [State.setSolve_ne hg, State.engine_congr State.partCounted_engines]
  case ended =>
    obtain ⟨n, hsolve⟩ := State.commitRun_ends_solve (t := t) hf h hp
    rw [hsolve]
    cases hsrc : r.st.src with
    | cmd _ => exact SolveSt.after_cmd hsrc
    | entry _ => exact ⟨_, SolveSt.after_entry hsrc, rfl, hsrc⟩
  case group =>
    refine ⟨fun ue a h => ?_, fun h => ?_, fun h => ⟨_, t.advanced n _, rfl, State.runTrees_length n, rfl, ?_⟩⟩
    · rw [exec_umberJGroup_runs ht hnext hfault, State.runGroup_poisoned hn h]
    · obtain ⟨a, ha⟩ := State.runGroup_error (f := f) hn h
      exact ⟨a, by rw [exec_umberJGroup_runs ht hnext hfault, ha]⟩
    · rw [exec_umberJGroup_runs ht hnext hfault, State.runGroup_sound hn h rfl]
      rfl
  case freed =>
    rw [State.finishDyn_dyn h hmem hf]
    cases t.src <;> rfl
  case error =>
    obtain ⟨u, heq, heng, hfault⟩ := State.faultDyn_eq (s := s) (f := f) (t := t) a
    refine ⟨u, heq, fun g hg => ?_, hfault⟩
    rw [State.engine_congr heng, State.markFaults_dyn t.fields hg]
    rfl

end Sys2Proof.Machine
end

section
/-! SUPPORT. The ports of the shared arbiter: what parked requests and accesses leave of every port, when a grant ends, and
which request wins (10 R275 to R278, R294 to R298). -/

namespace Sys2Proof.Machine

/-! ### A table written twice -/

section
variable {α : Type} {d : α} {k : Nat} {v : α} {t : List (Nat × α)}

theorem Tab.erase_erase : Tab.erase k (Tab.erase k t) = Tab.erase k t := by
  induction t with
  | nil => rfl
  | cons p t ih =>
    by_cases h : p.1 = k
    · simp only [Tab.erase, h, if_true, ih]
    · simp only [Tab.erase, h, if_false, ih]

theorem Tab.insert_insert : Tab.insert k v (Tab.insert k v t) = Tab.insert k v t := by
  induction t with
  | nil => simp [Tab.insert]
  | cons p t ih =>
    by_cases h : p.1 = k
    · simp [Tab.insert, h]
    · by_cases hk : k < p.1
      · simp [Tab.insert, h, hk]
      · simp [Tab.insert, h, hk, ih]

theorem Tab.set_set [DecidableEq α] : Tab.set d k v (Tab.set d k v t) = Tab.set d k v t := by
  by_cases h : v = d
  · simp only [h, Tab.set_default, Tab.erase_erase]
  · simp only [Tab.set_insert h, Tab.insert_insert]

end

/-! ### An arbiter port replaced -/

section
variable {s t : State} {p q : Nat}

theorem State.arb_congr (h : t.mem.ports = s.mem.ports) (q : Nat) : t.arb q = s.arb q :=
  congrArg (Tab.get ({} : ArbPort) q) h

theorem State.setArb_setArb (a : ArbPort) : (s.setArb p a).setArb p a = s.setArb p a :=
  congrArg (fun ports => { s with mem := { s.mem with ports := ports } }) Tab.set_set

/-- A port replaced by itself: every port reads as before. -/
@[simp] theorem State.setArb_self_arb (q : Nat) : (s.setArb p (s.arb p)).arb q = s.arb q := by
  by_cases h : q = p
  · rw [h, State.setArb_arb]
  · rw [State.setArb_arb_ne _ h]

theorem State.setArb_self_room (q req : Nat) : (s.setArb p (s.arb p)).room q req = s.room q req := by
  rw [State.room, State.setArb_self_arb]; rfl

theorem State.setArb_self_eligible (q : Nat) (l : List MemReq) :
    (s.setArb p (s.arb p)).eligible q l = s.eligible q l := by
  have hslice (r : MemReq) : (s.setArb p (s.arb p)).sliceReady r = s.sliceReady r := by
    simp only [State.sliceReady, State.setArb_self_room]; rfl
  simp only [State.eligible, hslice]; rfl

theorem State.setArb_self_winner (q : Nat) (l : List MemReq) : (s.setArb p (s.arb p)).winner q l = s.winner q l := by
  simp only [State.winner, State.setArb_self_arb]; rfl

/-- A request as it waits in its port's queue (10 R294, R297). -/
def MemReq.parked (r : MemReq) (now : Nat) : MemReq := { r with beats := max 1 r.beats, stamp := now, rest := 0 }

@[simp] theorem State.park_arb (r : MemReq) :
    (s.park r).arb r.port = { s.arb r.port with pend := (s.arb r.port).pend ++ [MemReq.parked r s.now] } := State.setArb_arb _

theorem State.park_arb_ne {r : MemReq} (h : q ≠ r.port) : (s.park r).arb q = s.arb q := State.setArb_arb_ne _ h

theorem State.post_arb_ne {r : MemReq} (h : q ≠ r.port) : (s.post r).arb q = s.arb q := by
  unfold State.post
  split
  · exact State.park_arb_ne h
  · rfl

end

/-! ### The Hue map (10 R288 to R290) -/

section
variable {s : State} {a f o c ca : Nat}

theorem State.hueReg_field_lt (h : s.hueReg a = some (.field f o)) : f < 4 := by
  unfold State.hueReg at h
  dsimp only at h
  split_ifs at h <;> cases h
  omega

theorem State.hueReg_cap_lt (h : s.hueReg a = some (.cap f o)) : f < 4 := by
  unfold State.hueReg at h
  dsimp only at h
  split_ifs at h <;> cases h
  omega

/-- The map names the 320 channels only. -/
theorem State.hueMap_lt (h : s.hueMap a = some (c, ca)) : c < 320 := by
  unfold State.hueMap at h
  split at h
  case h_1 => cases h
  case h_2 => cases h; omega
  case h_3 hf => cases h; have := State.hueReg_field_lt hf; omega
  case h_4 hf => cases h; have := State.hueReg_cap_lt hf; omega

end

/-! ### What an access leaves of the ports (10 R276, R278, R286) -/

/-- Only the inputs of the channels, the ports below 320, can differ, and every byte of device memory stays. -/
structure SlicePortsKept (s t : State) : Prop where
  arb : ∀ q, 320 ≤ q → t.arb q = s.arb q
  dram : t.mem.dram = s.mem.dram

section
variable {s t u : State} {p q : Nat}

theorem SlicePortsKept.refl (s : State) : SlicePortsKept s s := ⟨fun _ _ => rfl, rfl⟩

theorem SlicePortsKept.trans (h : SlicePortsKept s t) (h' : SlicePortsKept t u) : SlicePortsKept s u :=
  ⟨fun q hq => (h'.arb q hq).trans (h.arb q hq), h'.dram.trans h.dram⟩

theorem SlicePortsKept.of_mem (h : t.mem = s.mem) : SlicePortsKept s t :=
  ⟨fun q _ => State.arb_congr (by rw [h]) q, by rw [h]⟩

theorem SlicePortsKept.count (h : SlicePortsKept s t) (k n : Nat) : SlicePortsKept s (t.count k n) :=
  h.trans (.of_mem (by simp))

theorem SlicePortsKept.setPearl (h : SlicePortsKept s t) (x : PearlSet) : SlicePortsKept s (t.setPearl x) :=
  h.trans ⟨fun _ _ => rfl, rfl⟩

theorem SlicePortsKept.toChannel (h : SlicePortsKept s t) (r : MemReq) (line cls : Nat) (store : Bool) :
    SlicePortsKept s (t.toChannel r line cls store) := by
  refine h.trans ?_
  unfold State.toChannel
  split
  · exact .refl t
  · next c _ hc =>
    have := State.hueMap_lt hc
    exact ⟨fun q hq => State.post_arb_ne (by simp only; omega), (unseen_post _).bytes.1⟩

theorem SlicePortsKept.ite (h : SlicePortsKept s t) (h' : SlicePortsKept s u) (b : Bool) :
    SlicePortsKept s (if b then t else u) := by
  split
  · exact h
  · exact h'

theorem State.pearlAccess_kept (r : MemReq) : SlicePortsKept s (s.pearlAccess r) := by
  have hs := SlicePortsKept.refl s
  unfold State.pearlAccess
  dsimp only
  split
  case h_1 => exact hs
  case h_2 =>
    split
    case isTrue => exact hs.toChannel ..
    case isFalse =>
      split
      case h_1 => exact (hs.setPearl _).count ..
      case h_2 =>
        split
        case isTrue => exact (hs.count ..).toChannel ..
        case isFalse =>
          have h2 (i : Nat) (x : PearlSet) := (hs.count (kPearlMisses i) 1).setPearl x
          have h3 (i : Nat) (x : PearlSet) (b : Bool) := (h2 i x).ite ((h2 i x).toChannel r (r.addr / 64 * 64) r.cls false) b
          split
          · split
            · exact (h3 ..).toChannel ..
            · exact h3 ..
          · exact h3 ..

@[simp] theorem State.memUe_ports (a : Nat) : (s.memUe a).mem.ports = s.mem.ports := by
  unfold State.memUe
  dsimp only
  split
  · rw [State.count_mem]
  · rfl

@[simp] theorem State.memCe_ports (c : Nat) : (s.memCe c).mem.ports = s.mem.ports := by
  simp [State.memCe, State.corrected, State.setChan]

@[simp] theorem State.memCe_dram (c : Nat) : (s.memCe c).mem.dram = s.mem.dram := by
  simp [State.memCe, State.corrected, State.setChan]

/-- A write's line stored. -/
def State.storeOf (s : State) (r : MemReq) : State :=
  match r.write with
  | some d => s.dramWr (r.addr / 64 * 64) (d.take 64)
  | none => s

/-- The errors that an access meets. -/
def State.errorsOf (s : State) (r : MemReq) : State :=
  let s1 := if r.ue then s.memUe r.addr else s
  match s1.hueMap r.addr with
  | some (c, _) => if r.ce then s1.memCe c else s1
  | none => s1

theorem State.access_eq (r : MemReq) : s.access p r =
    ((if 320 ≤ p then s.pearlAccess { r with ue := false, ce := false } else s).storeOf r).errorsOf r := rfl

@[simp] theorem State.storeOf_ports (r : MemReq) : (s.storeOf r).mem.ports = s.mem.ports := by
  unfold State.storeOf
  split <;> rfl

theorem State.storeOf_dram (r : MemReq) : (s.storeOf r).mem.dram = match r.write with
    | some d => s.mem.dram.writeN (r.addr / 64 * 64) (d.take 64)
    | none => s.mem.dram := by
  unfold State.storeOf
  split <;> rfl

@[simp] theorem State.errorsOf_ports (r : MemReq) : (s.errorsOf r).mem.ports = s.mem.ports := by
  unfold State.errorsOf
  dsimp only
  split <;> split_ifs <;> simp

@[simp] theorem State.errorsOf_dram (r : MemReq) : (s.errorsOf r).mem.dram = s.mem.dram := by
  have hue : (s.memUe r.addr).mem.dram = s.mem.dram := (unseen_memUe r.addr).bytes.1
  unfold State.errorsOf
  dsimp only
  split <;> split_ifs <;> simp [hue]

theorem State.access_arb_of_lt {r : MemReq} (h : p < 320) (q : Nat) : (s.access p r).arb q = s.arb q := by
  rw [State.access_eq, if_neg (Nat.not_le.mpr h)]
  exact State.arb_congr (by simp) q

/-- The access of a slice leaves the ports that are no channel's input. -/
theorem State.access_arb_of_le {r : MemReq} (h : 320 ≤ q) : (s.access p r).arb q = s.arb q := by
  rcases Nat.lt_or_ge p 320 with hp | hp
  · exact State.access_arb_of_lt hp q
  · rw [State.access_eq, if_pos hp]
    rw [State.arb_congr ((State.errorsOf_ports r).trans (State.storeOf_ports r)) q]
    exact (State.pearlAccess_kept _).arb q h

theorem State.access_dram (r : MemReq) : (s.access p r).mem.dram = match r.write with
    | some d => s.mem.dram.writeN (r.addr / 64 * 64) (d.take 64)
    | none => s.mem.dram := by
  rw [State.access_eq, State.errorsOf_dram, State.storeOf_dram]
  split_ifs
  · rw [(State.pearlAccess_kept _).dram]
  · rfl

end

/-! ### The end of a grant (10 R296, R298) -/

section
variable {a : ArbPort} {r : MemReq} {now : Nat} {memory : Bool}

theorem ArbPort.ended_idle (h : a.cur = none) : a.ended now memory = a := by rw [ArbPort.ended, h]

theorem ArbPort.ended_waits (h : a.cur = some r) (hb : now < a.busyUntil ∨ memory = false) : a.ended now memory = a := by
  rw [ArbPort.ended, h]
  refine if_neg ?_
  simp only [Bool.and_eq_true, decide_eq_true_eq, not_and]
  rcases hb with hb | hb
  · omega
  · simp [hb]

theorem ArbPort.ended_done (h : a.cur = some r) (hb : a.busyUntil ≤ now) : a.ended now true = { a with
    cur := none
    pend := a.pend ++
      (if 0 < r.rest then [{ r with beats := r.rest, rest := 0, stamp := a.busyUntil }] else []) } := by
  simp [ArbPort.ended, h, hb]

end

/-! ### A decision (10 R295, R296) -/

section
variable {s : State} {p : Nat} {r : MemReq}

theorem exec_arbiterDecision (hp : p < 392) : exec (.arbiterDecision p) s = .next (s.decideArb p) :=
  congrArg Host.Outcome.next (if_pos hp)

theorem exec_arbiterDecision_out (hp : 392 ≤ p) : exec (.arbiterDecision p) s = .next s :=
  congrArg Host.Outcome.next (if_neg (Nat.not_lt.mpr hp))

theorem State.decideArb_busy (hc : (s.arb p).cur = some r) (hb : s.now < (s.arb p).busyUntil ∨ 384 ≤ p) :
    s.decideArb p = s.setArb p (s.arb p) := by
  have he : (s.arb p).ended s.now (decide (p < 384)) = s.arb p :=
    ArbPort.ended_waits hc (hb.imp_right fun h => decide_eq_false (Nat.not_lt.mpr h))
  simp only [State.decideArb, he, hc, Option.isSome_some, Bool.true_or, if_true]

theorem State.setArb_self_grants : (s.setArb p (s.arb p)).grants p = s.grants p := rfl

theorem State.decideArb_keeps (hc : (s.arb p).cur = none)
    (h : s.grants p = false ∨ s.winner p (s.eligible p (s.arb p).pend) = none) :
    s.decideArb p = s.setArb p (s.arb p) := by
  simp only [State.decideArb, ArbPort.ended_idle hc, hc, State.setArb_self_grants, State.setArb_self_winner,
    State.setArb_self_eligible]
  rcases h with h | h
  · rw [if_pos (by simp [h])]
  · rw [h]; exact ite_self _

theorem State.decideArb_grants (hc : (s.arb p).cur = none) (hg : s.grants p = true)
    (hw : s.winner p (s.eligible p (s.arb p).pend) = some r) : s.decideArb p =
      ((s.setArb p (s.arb p)).setArb p { s.arb p with ptr := ((s.arb p).ptr + 1) % 16 }).grant p r := by
  simp only [State.decideArb, ArbPort.ended_idle hc, hc, State.setArb_self_grants, State.setArb_self_winner,
    State.setArb_self_eligible, hg, hw, Option.isSome_none, Bool.not_true, Bool.or_self, Bool.false_eq_true, if_false]

/-- A decision after a memory port's last beat: the grant ends first. -/
theorem State.decideArb_ends (hp : p < 384) (hc : (s.arb p).cur = some r) (hb : (s.arb p).busyUntil ≤ s.now) :
    s.decideArb p = (s.setArb p ((s.arb p).ended s.now true)).decideArb p := by
  have hcur : ((s.arb p).ended s.now true).cur = none := by rw [ArbPort.ended_done hc hb]
  have hended : ((s.arb p).ended s.now true).ended (s.setArb p ((s.arb p).ended s.now true)).now true =
      (s.arb p).ended s.now true := ArbPort.ended_idle hcur
  simp only [State.decideArb, State.setArb_arb, State.setArb_setArb, hp, decide_true, hended]

/-- The port that a grant leaves: the request gone from the queue, and holding the port (10 R296). -/
def ArbPort.granted (a : ArbPort) (r : MemReq) (n now : Nat) : ArbPort :=
  { a with pend := a.pend.erase r, cur := some { r with beats := n, rest := r.beats - n }, busyUntil := now + n }

/-- The beats of a request's next grant at a port (10 R296). -/
def State.grantLen (s : State) (p : Nat) (r : MemReq) : Nat :=
  min r.beats (max 1 (burstOf (s.kvNat (if p < 384 then kBurstMax else kFlBurst)) r.cls))

theorem State.grant_eq (r : MemReq) : s.grant p r =
    if p < 384 ∧ r.beats - s.grantLen p r = 0 then
      (s.setArb p ((s.arb p).granted r (s.grantLen p r) s.now)).access p r
    else s.setArb p ((s.arb p).granted r (s.grantLen p r) s.now) := rfl

theorem State.grant_arb_self (r : MemReq) : (s.grant p r).arb p = (s.arb p).granted r (s.grantLen p r) s.now := by
  have hset := State.setArb_arb s (p := p) (x := (s.arb p).granted r (s.grantLen p r) s.now)
  rw [State.grant_eq]
  split
  · rcases Nat.lt_or_ge p 320 with hp | hp
    · rw [State.access_arb_of_lt hp, hset]
    · rw [State.access_arb_of_le hp, hset]
  · exact hset

theorem State.grant_arb_ne {q : Nat} (hq : q ≠ p) (h : p < 320 ∨ 320 ≤ q) : (s.grant p r).arb q = s.arb q := by
  rw [State.grant_eq]
  split
  · rw [← State.setArb_arb_ne s hq]
    exact h.elim (fun hp => State.access_arb_of_lt hp q) State.access_arb_of_le
  · exact State.setArb_arb_ne s hq

theorem State.grant_dram (r : MemReq) : (s.grant p r).mem.dram =
    if p < 384 ∧ r.beats ≤ s.grantLen p r then match r.write with
      | some d => s.mem.dram.writeN (r.addr / 64 * 64) (d.take 64)
      | none => s.mem.dram
    else s.mem.dram := by
  rw [State.grant_eq]
  simp only [Nat.sub_eq_zero_iff_le]
  split
  · exact State.access_dram r
  · rfl

end

/-- Settles O54: a request is parked or not by the conditions of its arrival; a decision ends the grant that has reached its
last beat, and grants the winner of an idle port, whose access can only park requests at the channels' inputs. -/
theorem memoryGrants : Obligations.MemoryGrants := by
  unfold Obligations.MemoryGrants
  refine ⟨?unmapped, ?parked, ?waits, ?granted, ?kept, ?busy, ?ended, ?out⟩
  case unmapped => intro s r h; simp only [exec, execMemoryRequest, h]
  case parked =>
    intro s r hm ha
    obtain ⟨c, hc⟩ := Option.isSome_iff_exists.mp hm
    simp only [exec, execMemoryRequest, hc, ha, if_true]; rfl
  case waits =>
    intro s r hm ha
    obtain ⟨c, hc⟩ := Option.isSome_iff_exists.mp hm
    simp only [exec, execMemoryRequest, hc, ha, if_false, Bool.false_eq_true]
  case granted =>
    rintro s p r n hp hc hg hw rfl
    let u := (s.setArb p (s.arb p)).setArb p { s.arb p with ptr := ((s.arb p).ptr + 1) % 16 }
    have hexec : exec (.arbiterDecision p) s = .next (u.grant p r) := by
      rw [exec_arbiterDecision hp, State.decideArb_grants hc hg hw]
    have harb := State.grant_arb_self (s := u) (p := p) r
    rw [State.setArb_arb] at harb
    refine ⟨_, hexec, ?_, ?_, ?_, ?_, fun q hq h => ?_, State.grant_dram r⟩
    · rw [harb]; rfl
    · rw [harb]; rfl
    · rw [harb]; rfl
    · rw [harb]; rfl
    · rw [State.grant_arb_ne hq h, State.setArb_arb_ne _ hq, State.setArb_arb_ne _ hq]
  case kept =>
    intro s p hp hc h
    exact ⟨_, by rw [exec_arbiterDecision hp, State.decideArb_keeps hc h], rfl, fun q => State.setArb_self_arb q⟩
  case busy =>
    intro s p r hp hc hb
    rw [exec_arbiterDecision hp, State.decideArb_busy hc hb]
  case ended =>
    rintro s u p r hp hc hb rfl
    rw [exec_arbiterDecision (hp.trans (by decide)), exec_arbiterDecision (hp.trans (by decide)),
      State.decideArb_ends hp hc hb, ArbPort.ended_done hc hb]
  case out => exact fun s p hp => exec_arbiterDecision_out hp

/-! ### The order of requests (10 R295) -/

section
variable {a b q r : MemReq} {l : List MemReq}

theorem MemReq.not_before_iff : MemReq.before a b = false ↔ b.stamp < a.stamp ∨
    (b.stamp = a.stamp ∧ (b.req < a.req ∨ (b.req = a.req ∧ b.cls ≤ a.cls))) := by
  simp only [MemReq.before, Bool.or_eq_false_iff, Bool.and_eq_false_iff, decide_eq_false_iff_not]
  omega

theorem MemReq.not_before_of_before (h : MemReq.before a b = true) : MemReq.before b a = false := by
  rw [MemReq.not_before_iff]
  simp only [MemReq.before, Bool.or_eq_true, Bool.and_eq_true, decide_eq_true_eq] at h
  omega

theorem MemReq.not_before_trans (h : MemReq.before a b = false) (h' : MemReq.before b q = false) :
    MemReq.before a q = false := by
  rw [MemReq.not_before_iff] at *
  omega

theorem oldestReq_cons (a : MemReq) (l : List MemReq) : oldestReq (a :: l) = match oldestReq l with
    | none => some a
    | some q => if MemReq.before q a then some q else some a := rfl

theorem oldestReq_eq_none (h : oldestReq l = none) : l = [] := by
  cases l with
  | nil => rfl
  | cons a l =>
    rw [oldestReq_cons] at h
    split at h
    · cases h
    · split at h <;> cases h

/-- The oldest request is listed, and no listed one goes before it. -/
theorem oldestReq_spec (h : oldestReq l = some r) : r ∈ l ∧ ∀ e ∈ l, MemReq.before e r = false := by
  induction l generalizing r with
  | nil => cases h
  | cons a l ih =>
    have hrefl : MemReq.before a a = false := by simp [MemReq.before]
    rw [oldestReq_cons] at h
    split at h
    case h_1 hl =>
      cases h
      rw [oldestReq_eq_none hl]
      simp [hrefl]
    case h_2 q hl =>
      obtain ⟨hmem, hold⟩ := ih hl
      split at h
      case isTrue hq =>
        cases h
        exact ⟨List.mem_cons_of_mem _ hmem, List.forall_mem_cons.mpr ⟨MemReq.not_before_of_before hq, hold⟩⟩
      case isFalse hq =>
        cases h
        exact ⟨List.mem_cons_self, List.forall_mem_cons.mpr ⟨hrefl, fun e he =>
          MemReq.not_before_trans (hold e he) (Bool.eq_false_iff.mpr hq)⟩⟩

/-- Of two requests of which neither goes before the other the earlier one of the list is taken. -/
theorem oldestReq_cons_of_equal (h : oldestReq l = some r) (hra : MemReq.before r a = false) :
    oldestReq (a :: l) = some a := by
  rw [oldestReq_cons, h]
  exact if_neg (Bool.eq_false_iff.mp hra)

end

/-! ### The winner (10 R295, R303) -/

section
variable {s : State} {p k : Nat} {r : MemReq} {es : List MemReq}

/-- The class that the wheel's slot under a port's pointer names. -/
def State.wheelAt (s : State) (p : Nat) : Nat :=
  wheelClass (s.kvNat (if p < 384 then kArbWheel else kFlWheel)) (s.arb p).ptr

theorem State.winner_def : s.winner p es =
    match oldestReq (if p < 320 then es.filter (fun e => decide (e.stamp ≤ (s.chan p).fenceAt)) else []),
      oldestReq (es.filter (fun e => decide (e.cls = s.wheelAt p))) with
    | some r, _ => some r
    | none, some r => some r
    | none, none => oldestReq es := rfl

/-- Without requests parked at the channel's fence the wheel decides. -/
theorem State.winner_eq (h : 320 ≤ p ∨ ∀ e ∈ es, (s.chan p).fenceAt < e.stamp) : s.winner p es =
    match oldestReq (es.filter (fun e => decide (e.cls = s.wheelAt p))) with
    | some r => some r
    | none => oldestReq es := by
  have hparked : (if p < 320 then es.filter (fun e => decide (e.stamp ≤ (s.chan p).fenceAt)) else []) = [] := by
    split
    · next hp =>
      have hlate := h.resolve_left (Nat.not_le.mpr hp)
      exact List.filter_eq_nil_iff.mpr fun e he => by simpa using hlate e he
    · rfl
  rw [State.winner_def, hparked]
  cases oldestReq (es.filter fun e => decide (e.cls = s.wheelAt p)) <;> rfl

theorem State.winner_of_class (h : 320 ≤ p ∨ ∀ e ∈ es, (s.chan p).fenceAt < e.stamp) (hw : s.winner p es = some r)
    (hk : ∃ e ∈ es, e.cls = s.wheelAt p) : oldestReq (es.filter (fun e => decide (e.cls = s.wheelAt p))) = some r := by
  obtain ⟨e, he, hec⟩ := hk
  rw [State.winner_eq h] at hw
  split at hw
  · next q hq => rw [hq, hw]
  · next hn =>
    have := oldestReq_eq_none hn
    simp_all

theorem State.winner_of_noClass (h : 320 ≤ p ∨ ∀ e ∈ es, (s.chan p).fenceAt < e.stamp) (hw : s.winner p es = some r)
    (hk : ∀ e ∈ es, e.cls ≠ s.wheelAt p) : oldestReq es = some r := by
  have hnone : es.filter (fun e => decide (e.cls = s.wheelAt p)) = [] :=
    List.filter_eq_nil_iff.mpr fun e he => by simpa using hk e he
  rwa [State.winner_eq h, hnone] at hw

end

/-! ### The pointers at the start of a step and at `BIND` (10 R295) -/

theorem State.resetWheels_ptr (s : State) (p : Nat) : (s.resetWheels.arb p).ptr = 0 := by
  refine Tab.get_property (P := fun a : ArbPort => a.ptr = 0) rfl fun q hq => ?_
  obtain ⟨r, _, rfl⟩ := List.mem_map.mp (List.mem_of_mem_filter hq)
  rfl

theorem State.bindWith_ptr (s : State) (i : Image) (b : Bound) (e p : Nat) : ((s.bindWith i b e).arb p).ptr = 0 :=
  State.resetWheels_ptr _ p

/-- Settles O55: the oldest request of a list is one before which none goes, the wheel's class is asked first, and the pointers
are those of a decision, a step's start and `BIND`. -/
theorem arbiterOrder : Obligations.ArbiterOrder := by
  unfold Obligations.ArbiterOrder
  refine ⟨fun s p es r h hw => ⟨s.wheelAt p, rfl, fun hk => ?named, fun hk => ?other⟩, fun a l r hl hra _ => ?equal,
    fun s p hp hc hg hw => ?pointer, fun s p => s.beginStep_arb p, fun s i b e p => s.bindWith_ptr i b e p, ?wheel⟩
  case named =>
    obtain ⟨hmem, hold⟩ := oldestReq_spec (State.winner_of_class h hw hk)
    obtain ⟨hes, hcls⟩ := List.mem_filter.mp hmem
    have hcls : r.cls = s.wheelAt p := of_decide_eq_true hcls
    refine ⟨hes, hcls, fun e he hec => ?_⟩
    have := MemReq.not_before_iff.mp (hold e (List.mem_filter.mpr ⟨he, decide_eq_true hec⟩))
    omega
  case other =>
    obtain ⟨hmem, hold⟩ := oldestReq_spec (State.winner_of_noClass h hw hk)
    exact ⟨hmem, fun e he => MemReq.not_before_iff.mp (hold e he)⟩
  case equal => exact oldestReq_cons_of_equal hl hra
  case pointer =>
    obtain ⟨r, hr⟩ := Option.isSome_iff_exists.mp hw
    refine ⟨_, by rw [exec_arbiterDecision (hp.trans (by decide)), State.decideArb_grants hc hg hr], ?_⟩
    rw [State.grant_arb_self, State.setArb_arb]
    rfl
  case wheel => decide

end Sys2Proof.Machine
end

section
/-! SUPPORT. The memory channels: what serving held requests, replies and a retirement leave of them, and refresh, fences and
retraining channel by channel (10 R300, R303, R304; 20 R540). -/

namespace Sys2Proof.Machine

/-! ### What leaves the channels alone -/

/-- A part that each pass of a loop keeps is kept by the loop. -/
theorem State.foldl_keeps {α β : Type} {π : State → β} {f : State → α → State} (h : ∀ x a, π (f x a) = π x) (l : List α)
    (s : State) : π (l.foldl f s) = π s :=
  List.foldlRecOn (motive := fun x => π x = π s) l f rfl fun x hx a _ => (h x a).trans hx

section
variable {s t : State}

theorem State.chan_congr (h : t.mem.chans = s.mem.chans) (c : Nat) : t.chan c = s.chan c :=
  congrArg (Tab.get ({} : Chan) c) h

@[simp] theorem State.post_chans (r : MemReq) : (s.post r).mem.chans = s.mem.chans := by
  unfold State.post; split <;> rfl

@[simp] theorem State.serveCxl_chans (r : CxlReq) : (s.serveCxl r).mem.chans = s.mem.chans := by
  unfold State.serveCxl
  dsimp only
  split
  · exact State.post_chans _
  · exact State.post_chans _

@[simp] theorem State.serveHeld_chans : s.serveHeld.mem.chans = s.mem.chans :=
  List.foldlRecOn (motive := fun x : State × List CxlReq => x.1.mem.chans = s.mem.chans) s.hostIf.memHeld _ rfl
    fun x hx r _ => by split <;> simp [hx]

@[simp] theorem State.serveWaiting_chans : s.serveWaiting.mem.chans = s.mem.chans := by
  unfold State.serveWaiting; split <;> simp

@[simp] theorem State.postReply_chans (r : Nat) (x : ReplyRec) : (s.postReply r x).mem.chans = s.mem.chans := by
  unfold State.postReply; dsimp only; split <;> split <;> rfl

@[simp] theorem State.queueReply_chans (r : Nat) (x : ReplyRec) : (s.queueReply r x).mem.chans = s.mem.chans := by
  unfold State.queueReply; dsimp only; split <;> simp

@[simp] theorem State.raiseW_chans : s.raiseW.mem.chans = s.mem.chans := by
  unfold State.raiseW; split <;> rfl

@[simp] theorem State.writeResult_chans (h : Hdr) (bs : List Byte) : (s.writeResult h bs).mem.chans = s.mem.chans := by
  unfold State.writeResult State.wrAt
  split_ifs
  · rfl
  · split
    · split <;> rfl
    · rfl

@[simp] theorem State.countReply_chans (st : Nat) : (s.countReply st).mem.chans = s.mem.chans := by
  unfold State.countReply; split_ifs <;> rfl

@[simp] theorem State.retire_chans (h : Hdr) (a : Answer) : (s.retire h a).mem.chans = s.mem.chans := by
  unfold State.retire
  dsimp only
  rw [State.queueReply_chans]
  split
  · simp
  · simp [State.modJournal]

theorem State.failCmds_chans : s.failCmds.mem.chans = s.mem.chans :=
  State.foldl_keeps (π := fun x => x.mem.chans) (fun _ _ => State.retire_chans ..) ..

theorem State.abortTransit_chans (p : Nat) : (s.abortTransit p).mem.chans = s.mem.chans := by
  unfold State.abortTransit
  refine State.foldl_keeps (π := fun x => x.mem.chans) ?_ ..
  intros; rfl

theorem State.leaveRun_chans (p reason : Nat) (st : PortState) : (s.leaveRun p reason st).mem.chans = s.mem.chans := by
  unfold State.leaveRun
  dsimp only
  rw [State.setPort_mem, State.abortTransit_chans]
  split_ifs <;> simp

theorem State.portOff_chans (p reason : Nat) : (s.portOff p reason).mem.chans = s.mem.chans := by
  unfold State.portOff
  split
  · exact State.leaveRun_chans ..
  · simp

theorem State.sendRetire_chans : s.sendRetire.mem.chans = s.mem.chans := by
  unfold State.sendRetire
  refine State.foldl_keeps (π := fun x => x.mem.chans) (fun x p => ?_) ..
  split
  · exact State.portOff_chans ..
  · rfl

end

/-! ### A channel that fails retires the package (10 R304; 20 R540) -/

/-- The values of a table changed, the default staying: a value read is changed with them, while it differs from the default. -/
theorem Tab.get_map_filter {α : Type} [DecidableEq α] {d : α} {g : α → α} {k : Nat} {t : List (Nat × α)} (hd : g d = d)
    (h : g (Tab.get d k t) ≠ d) :
    Tab.get d k ((t.map fun p => (p.1, g p.2)).filter fun p => decide (p.2 ≠ d)) = g (Tab.get d k t) := by
  induction t with
  | nil => exact absurd hd h
  | cons p t ih =>
    by_cases hk : p.1 = k
    · have hp : Tab.get d k (p :: t) = p.2 := if_pos hk
      rw [hp] at h ⊢
      rw [List.map_cons, List.filter_cons_of_pos (by simpa using h)]
      exact if_pos hk
    · have hp : Tab.get d k (p :: t) = Tab.get d k t := if_neg hk
      rw [hp] at h ⊢
      rw [List.map_cons, List.filter_cons]
      split
      · exact (if_neg hk).trans (ih h)
      · exact ih h

section
variable {s : State} {c : Nat}

theorem State.stopAll_failed (h : (s.chan c).failed = true) : (s.stopAll.chan c).failed = true := by
  have hne : ({ s.chan c with tgRun := false, tgStop := false } : Chan) ≠ {} := fun he =>
    Bool.false_ne_true ((congrArg Chan.failed he).symm.trans h)
  have hstop : s.stopAll.chan c = { s.chan c with tgRun := false, tgStop := false } :=
    Tab.get_map_filter (g := fun x : Chan => { x with tgRun := false, tgStop := false }) rfl hne
  rw [hstop]
  exact h

theorem State.retirePackage_retired (r : FaultRec) : (s.retirePackage r).flt.retired = true := by
  unfold State.retirePackage
  split
  · assumption
  · rfl

theorem State.retirePackage_failed (r : FaultRec) (h : (s.chan c).failed = true) :
    ((s.retirePackage r).chan c).failed = true := by
  unfold State.retirePackage
  split
  · exact h
  · have hkept := State.stopAll_failed h
    generalize s.stopAll = u at hkept ⊢
    rw [State.chan_congr (s := u)]
    · exact hkept
    · simp [State.markRetired, State.failCmds_chans, State.sendRetire_chans]

end

/-! ### Refresh (10 R300) -/

section
variable {s : State} {c d : Nat}

theorem exec_refresh {u : State} {hot : Bool} (hc : c < 320) (hu : u = s.setChan c { s.chan c with hot := hot }) :
    exec (.refresh ⟨c, hot⟩) s = .next (if u.refreshDue c then u.refresh c else u) := by
  simp only [exec, execRefresh, if_pos hc, hu]

theorem exec_refresh_out {hot : Bool} (hc : 320 ≤ c) : exec (.refresh ⟨c, hot⟩) s = .next s := by
  have hdue : s.refreshDue c = false := by simp [State.refreshDue, Nat.not_lt.mpr hc]
  simp only [exec, execRefresh, if_neg (Nat.not_lt.mpr hc), hdue, Bool.false_eq_true, if_false]

theorem State.refresh_done (h : s.kvNat kRefMode ≠ 1 ∨ s.job.inStep = false) :
    s.refresh c = (s.refreshEvent c).setChan c { s.chan c with lastRefresh := s.now } := by
  unfold State.refresh
  refine if_neg fun ⟨hmode, hstep⟩ => ?_
  exact h.elim (fun hn => hn hmode) fun hn => Bool.false_ne_true (hn.symm.trans hstep)

theorem State.refresh_owed (hmode : s.kvNat kRefMode = 1) (hstep : s.job.inStep = true) : s.refresh c =
    if (s.chan c).debt < 8 then s.setChan c { s.chan c with debt := (s.chan c).debt + 1, lastRefresh := s.now }
    else s.forceRefresh c := if_pos ⟨hmode, hstep⟩

/-- Counts and timing marks leave the channels. -/
theorem State.forceRefresh_chans : (s.forceRefresh c).mem.chans =
    (s.setChan c { s.chan c with debt := 0, lastRefresh := s.now }).mem.chans := by simp [State.forceRefresh]

theorem exec_forcedRefresh : exec (.forcedRefresh c) s =
    .next (if c < 320 ∧ 8 ≤ (s.chan c).debt ∧ (s.chan c).fenced = false then s.forceRefresh c else s) := by
  simp only [exec, execForcedRefresh, Bool.and_eq_true, decide_eq_true_eq, Bool.not_eq_true', and_assoc]

/-! ### Fences and retraining (10 R303) -/

theorem exec_unscheduledRetraining : exec (.unscheduledRetraining c) s =
    .next (if c < 320 ∧ (s.chan c).fenced = false ∧ (s.chan c).failed = false ∧ s.retrainTrigger c = true then s.fence c
      else s) := by
  simp only [exec, execUnscheduledRetraining, Bool.and_eq_true, decide_eq_true_eq, Bool.not_eq_true', and_assoc]

/-- Another channel of the same stack or package is fenced. -/
def State.groupFenced (s : State) (c : Nat) : Prop :=
  ∃ d, d < 320 ∧ d ≠ c ∧ chanGroup d = chanGroup c ∧ (s.chan d).fenced = true

theorem State.groupBusy_iff : (List.range 320).any (fun d => decide (d ≠ c) && decide (chanGroup d = chanGroup c) &&
    (s.chan d).fenced) = true ↔ s.groupFenced c := by
  simp only [List.any_eq_true, List.mem_range, Bool.and_eq_true, decide_eq_true_eq, State.groupFenced, and_assoc]

theorem State.fence_waits (h : s.groupFenced c) : s.fence c = s.setChan c { s.chan c with waitTurn := true } :=
  if_pos (State.groupBusy_iff.mpr h)

theorem State.fence_alone (h : ¬ s.groupFenced c) : (s.fence c).mem.chans = (s.setChan c { s.chan c with
    fenced := true, fenceAt := s.now, waitTurn := false, ceTicks := [] }).mem.chans := by
  unfold State.fence
  dsimp only
  rw [if_neg (mt State.groupBusy_iff.mp h)]
  simp

theorem State.unfence_chan : (s.unfence c).chan c =
    { s.chan c with fenced := false, fenceAt := s.now, lastTrain := s.now, debt := 0, lastRefresh := s.now } := by
  refine (State.chan_congr (s := s.setChan c _) ?_ c).trans (State.setChan_chan s)
  simp only [State.unfence, State.fenceLength, State.serveWaiting_chans, State.count_mem]

theorem exec_unfence : exec (.unfence c) s = .next (
    if (s.chan c).fenced = true ∧ (s.chan c).failed = false ∧ s.now ≤ 4500 + (s.chan c).fenceAt then s.unfence c
    else s) := by
  simp only [exec, execUnfence, Bool.and_eq_true, decide_eq_true_eq, Bool.not_eq_true', and_assoc]

theorem exec_channelFailed : ∃ r, exec (.channelFailed c) s = .next (
    if c < 320 ∧ (s.chan c).failed = false ∧ ((s.chan c).fenced = true ∨ s.sable = true) then
      (s.setChan c { s.chan c with failed := true }).retirePackage r
    else s) := by
  simp only [exec, execChannelFailed, Bool.and_eq_true, Bool.or_eq_true, decide_eq_true_eq, Bool.not_eq_true', and_assoc]
  exact ⟨_, rfl⟩

end

/-- Settles O57: what a refresh, a fence and its end write of the channel; counts, timing marks, held requests and the
retirement leave the channels otherwise. -/
theorem channelUpkeep : Obligations.ChannelUpkeep := by
  unfold Obligations.ChannelUpkeep
  refine ⟨?refresh, fun s c hot hc => exec_refresh_out hc, fun s c => exec_forcedRefresh, fun s c => ?forced,
    fun s c => exec_unscheduledRetraining, fun s c h => ?alone, fun s c d hd hne hgroup hf =>
      State.fence_waits ⟨d, hd, hne, hgroup, hf⟩, ?unfence, ?failed⟩
  case refresh =>
    intro s u c hot hc hu
    have hx : u.chan c = { s.chan c with hot := hot } := hu ▸ State.setChan_chan s
    have hnow : u.now = s.now := by rw [hu]; rfl
    have hmode : u.kvNat kRefMode = s.kvNat kRefMode := by rw [hu]; rfl
    have hjob : u.job = s.job := by rw [hu]; rfl
    rw [exec_refresh hc hu, ← hmode, ← hjob]
    refine ⟨fun hdue => ?notDue, fun hdue h => ⟨_, by rw [if_pos hdue], ?done⟩, fun hdue hmode hstep => ?owed⟩
    case notDue => rw [hdue]; rfl
    case done => rw [State.refresh_done h, State.setChan_chan, hx, hnow]
    case owed => rw [if_pos hdue, State.refresh_owed hmode hstep, hx, hnow]
  case forced =>
    refine ⟨(State.chan_congr State.forceRefresh_chans c).trans (State.setChan_chan s), fun d hd => ?_⟩
    rw [State.chan_congr State.forceRefresh_chans, State.setChan_chan_ne s hd]
  case alone =>
    have hg : ¬ s.groupFenced c := fun ⟨d, hd, hne, hgroup, hf⟩ =>
      Bool.false_ne_true ((h d hd hne hgroup).symm.trans hf)
    have hkept := State.fence_alone hg
    have hx := (State.chan_congr hkept c).trans (State.setChan_chan s)
    refine ⟨_, rfl, ?_, ?_, ?_, fun d hd => ?_⟩
    · rw [hx]
    · rw [hx]
    · rw [hx]
    · rw [State.chan_congr hkept, State.setChan_chan_ne s hd]
  case unfence =>
    rintro s c ok rfl
    rw [exec_unfence]
    exact ⟨fun h => by rw [if_neg h], fun h => ⟨_, by rw [if_pos h], by rw [State.unfence_chan], by rw [State.unfence_chan],
      by rw [State.unfence_chan], by rw [State.unfence_chan]⟩⟩
  case failed =>
    rintro s c ok rfl
    obtain ⟨r, hexec⟩ := exec_channelFailed (s := s) (c := c)
    rw [hexec]
    have hfailed : ((s.setChan c { s.chan c with failed := true }).chan c).failed = true := by rw [State.setChan_chan]
    exact ⟨fun h => by rw [if_neg h], fun h => ⟨_, by rw [if_pos h], State.retirePackage_failed r hfailed,
      State.retirePackage_retired r⟩⟩

end Sys2Proof.Machine
end

section
/-! SUPPORT. Prefetch and write streams: what a request, a landing, an acceptance and a cancellation leave of the slot and of
the memories (10 R279 to R283, R286). -/

namespace Sys2Proof.Machine

section
variable {s : State} {u k n : Nat} {x : StreamSlot} {d : StreamDesc}

theorem State.setSlot_tile (x : StreamSlot) :
    (s.setSlot u k x).tile u = { s.tile u with streams := Tab.set {} k x (s.tile u).streams } := State.setTile_tile s

@[simp] theorem State.setSlot_slot (x : StreamSlot) : (s.setSlot u k x).slot u k = x := by
  rw [State.slot, State.setSlot_tile]
  exact Tab.get_set_same

theorem State.tileMem_congr {t : State} (h : t.mem.tile = s.mem.tile) (v : Nat) : t.tileMem v = s.tileMem v :=
  congrArg (Tab.get (freshTile v 1) v) h

/-! ### Requests (10 R279 to R281) -/

theorem State.activate_idle (h : (s.slot u k).desc.isSome = true ∨ s.job.inStep = false) : s.activate u k = s := by
  refine if_pos ?_
  rcases h with h | h <;> simp [h]

theorem State.activate_free (hd : (s.slot u k).desc = none) (hs : s.job.inStep = true) : s.activate u k =
    match (s.slotRefs u k).find? (fun r => !s.endedEnt r.1.entry && !(s.tile u).cancelled.contains (r.1.entry, k)) with
    | some r => if s.landKept u r then s else s.setSlot u k (s.slotFor r)
    | none => s := if_neg (by simp [hd, hs])

theorem State.askLine_waits (hd : (s.slot u k).desc = some d) (h : s.mayAsk u (s.slot u k) d = false) :
    s.askLine u k = s := by
  simp only [State.askLine, hd, h, Bool.false_eq_true, if_false]

theorem State.askLine_asks (hd : (s.slot u k).desc = some d) (h : s.mayAsk u (s.slot u k) d = true) : s.askLine u k =
    (s.setSlot u k { s.slot u k with asked := (s.slot u k).asked + 1 }).park
      (s.streamReq u d ((s.slot u k).lines.getD (s.slot u k).asked 0)) := by
  simp only [State.askLine, hd, h, if_true]

/-! ### A line landed (10 R280, R286) -/

/-- Elements landed: the bytes of device memory, the poisoned lines and the other units' tile stores are as they were. -/
theorem State.foldl_setTileElem (f : Fmt) (base : Nat) (code : State → Nat → Nat) (l : List Nat) (s : State) :
    (l.foldl (fun z i => z.setTileElem u f base i (code z i)) s).mem.dram = s.mem.dram ∧
    (l.foldl (fun z i => z.setTileElem u f base i (code z i)) s).mem.poison = s.mem.poison ∧
    ∀ v, v ≠ u → (l.foldl (fun z i => z.setTileElem u f base i (code z i)) s).tileMem v = s.tileMem v :=
  ⟨State.foldl_keeps (π := fun z => z.mem.dram) (fun _ _ => by rfl) ..,
    State.foldl_keeps (π := fun z => z.mem.poison) (fun _ _ => by rfl) .., fun v hv =>
    State.foldl_keeps (π := fun z => z.tileMem v) (fun z i => State.setTileMem_tileMem_ne z hv) ..⟩

theorem State.landLine_slot (n : Nat) : (s.landLine u k n x d).slot u k = { x with landed := x.landed ++ [n] } :=
  State.setSlot_slot _

theorem State.landLine_kept (n : Nat) : (s.landLine u k n x d).mem.dram = s.mem.dram ∧
    (s.landLine u k n x d).mem.poison = s.mem.poison ∧
    ∀ v, v ≠ u → (s.landLine u k n x d).tileMem v = s.tileMem v :=
  State.foldl_setTileElem _ d.land (fun z i => z.dramElem _ (streamPos d i).1 (streamPos d i).2) _ s

theorem State.memUe_poison (a : Nat) : (s.memUe a).mem.poison.contains (a / 64 * 64) = true := by
  have hmark : (if s.mem.poison.contains (a / 64 * 64) then s.mem.poison else a / 64 * 64 :: s.mem.poison).contains
      (a / 64 * 64) = true := by
    split
    · assumption
    · simp
  unfold State.memUe
  dsimp only
  split
  · rw [State.count_mem]; exact hmark
  · exact hmark

theorem exec_streamLineLanded {ue : Bool} (hd : (s.slot u k).desc = some d) : exec (.streamLineLanded u k n ue) s = .next (
    if d.write = false ∧ n < (s.slot u k).asked ∧ (s.slot u k).landed.contains n = false ∧
        s.waits u 1 ((s.slot u k).lines.getD n 0) = false then
      (if ue then s.memUe ((s.slot u k).lines.getD n 0) else s).landLine u k n (s.slot u k) d
    else s) := by
  simp only [exec, execStreamLineLanded, hd, Bool.and_eq_true, decide_eq_true_eq, Bool.not_eq_true', and_assoc]

/-! ### A written line accepted (10 R283) -/

theorem State.storeLine_slot : (s.storeLine u k x d).slot u k = { x with accepted := x.accepted + 1 } :=
  State.setSlot_slot _

theorem State.storeLine_tileStores : (s.storeLine u k x d).mem.tile = s.mem.tile := by
  unfold State.storeLine
  dsimp only
  rw [State.setSlot, State.setTile_mem]
  split <;> exact State.foldl_keeps (π := fun z => z.mem.tile) (fun _ _ => by rfl) ..

theorem exec_writeStreamAccepted (hd : (s.slot u k).desc = some d) : exec (.writeStreamAccepted u k) s = .next (
    if d.write = true ∧ (s.slot u k).accepted < (s.slot u k).asked ∧
        s.waits u 2 ((s.slot u k).lines.getD (s.slot u k).accepted 0) = false ∧ s.running d.entry = true then
      s.storeLine u k (s.slot u k) d
    else s) := by
  simp only [exec, execWriteStreamAccepted, hd, Bool.and_eq_true, decide_eq_true_eq, Bool.not_eq_true', and_assoc]

/-! ### A stream cancelled (10 R282) -/

theorem exec_streamCancel (hd : (s.slot u k).desc = some d) : exec (.streamCancel u k) s = .next (
    if d.write = false ∧ (s.slot u k).landed.length < (s.slot u k).lines.length ∧ s.pastEnd d.entry = true then
      s.cancelStream u k
    else s) := by
  simp only [exec, execStreamCancel, hd, Bool.and_eq_true, decide_eq_true_eq, Bool.not_eq_true', and_assoc]

/-- A cancelled stream: the unit's tile store, the ports' queues and the mark of the entry change, and the slot is free. -/
theorem State.cancelStream_eq (hd : (s.slot u k).desc = some d) (hw : d.write = false) : ∃ (y : State) (c m : Nat),
    y.tiles = s.tiles ∧ y.mem.dram = s.mem.dram ∧ s.cancelStream u k =
      ((y.setTile u { y.tile u with cancelled := (d.entry, k) :: (y.tile u).cancelled }).setSlot u k {}).count c m := by
  unfold State.cancelStream
  simp only [hd, hw, Bool.false_eq_true, if_false]
  refine ⟨_, _, _, ?_, ?_, rfl⟩
  · dsimp only
    split
    · rfl
    · exact State.foldl_keeps (π := State.tiles) (fun _ _ => by split <;> rfl) ..
  · dsimp only
    split
    · rfl
    · exact State.foldl_keeps (π := fun z => z.mem.dram) (fun _ _ => by split <;> rfl) ..

end

/-- Settles O56: each command acts by its condition on the slot, and what it writes is the slot, the unit's tile store or the
device memory. -/
theorem streams : Obligations.Streams := by
  unfold Obligations.Streams
  refine ⟨fun s u k => rfl, fun s u k => ⟨State.activate_idle, fun r hd hs hr => hr ▸ State.activate_free hd hs⟩, ?asks,
    ?lands, ?accepts, ?cancels, ?free⟩
  case asks =>
    rintro s u k d x rfl hd
    let q := s.streamReq u d ((s.slot u k).lines.getD (s.slot u k).asked 0)
    exact ⟨State.askLine_waits hd, fun h => ⟨_, MemReq.parked q s.now, State.askLine_asks hd h, State.setSlot_slot _,
      congrArg ArbPort.pend (State.park_arb q), rfl, rfl, rfl, rfl, rfl⟩⟩
  case lands =>
    rintro s u k n ue d x rfl hd ok rfl
    rw [exec_streamLineLanded hd]
    refine ⟨fun h => by rw [if_neg h], fun h => ⟨_, by rw [if_pos h], rfl, State.landLine_slot n, ?_⟩⟩
    obtain ⟨hdram, hpoison, htile⟩ := State.landLine_kept (u := u) (k := k) (x := s.slot u k) (d := d)
      (s := if ue then s.memUe ((s.slot u k).lines.getD n 0) else s) n
    rw [hdram, hpoison]
    cases ue
    case false => exact ⟨rfl, htile, fun h => by cases h⟩
    case true =>
      obtain ⟨hd', ht', -⟩ := (unseen_memUe (s := s) ((s.slot u k).lines.getD n 0)).bytes
      exact ⟨hd', fun v hv => (htile v hv).trans (State.tileMem_congr ht' v), fun _ => State.memUe_poison _⟩
  case accepts =>
    rintro s u k d x rfl hd ok rfl
    rw [exec_writeStreamAccepted hd]
    exact ⟨fun h => by rw [if_neg h],
      fun h => ⟨_, by rw [if_pos h], rfl, State.storeLine_slot, State.storeLine_tileStores⟩⟩
  case cancels =>
    rintro s u k d x rfl hd ok rfl
    rw [exec_streamCancel hd]
    refine ⟨fun h => by rw [if_neg h], fun h => ⟨_, by rw [if_pos h], rfl, ?_⟩⟩
    obtain ⟨y, c, m, htiles, hdram, heq⟩ := State.cancelStream_eq hd h.1
    have htile : y.tile u = s.tile u := congrArg (Tab.get ({} : Tile) u) htiles
    rw [heq, State.slot, State.count_tile, State.count_mem, ← State.slot]
    refine ⟨State.setSlot_slot _, ?_, hdram⟩
    rw [State.setSlot_tile, State.setTile_tile, htile]
  case free =>
    intro s u k n ue hd
    simp only [exec, execStreamLineLanded, execWriteStreamAccepted, execStreamCancel, hd, and_self]

end Sys2Proof.Machine
end

section
/-! SUPPORT. Traffic generators: their start and stop, and one line of a running one (10 R305 to R307, R311; 14 R418). -/

namespace Sys2Proof.Machine

/-! ### `TEST_TRAFFIC` (14 R418) -/

section
variable {s u : State} {h : Hdr} {kind first count ctl base len seed passes : Nat}

theorem Served.exec_testTraffic (v : Served s h (.testTraffic kind first count ctl base len seed passes)) :
    exec (.testTraffic h kind first count ctl base len seed passes) s = .next (State.checkJournal
      ((s.begun h (.testTraffic kind first count ctl base len seed passes)).cmdTest h kind first count ctl base len seed
        passes)) := congrArg Host.Outcome.next v.submit

theorem State.cmdTest_starts {v : State} {prev : List Nat}
    (hw : setPairs ((testChans kind first count).flatMap fun c => testPairs c ctl base len seed passes) 0 u [] =
      .ok (v, prev)) : u.cmdTest h kind first count ctl base len seed passes = v.testsDone := by
  simp only [State.cmdTest, hw]

theorem State.cmdTest_refused {e : Answer}
    (hw : setPairs ((testChans kind first count).flatMap fun c => testPairs c ctl base len seed passes) 0 u [] =
      .error e) : u.cmdTest h kind first count ctl base len seed passes =
        u.retire h { status := e.status, detail := e.detail % 65536 } := by
  have hr : refuse e.status (e.detail % 65536) = { status := e.status, detail := e.detail % 65536 } := by simp [refuse]
  simp only [State.cmdTest, hw, hr]

end

/-! ### `tg_go` (10 R305, R306, R311) -/

section
variable {s : State} {c : Nat}

theorem exec_tgStart : exec (.tgStart c) s =
    .next (if s.tgAllowed c (s.tgCfg c) = true then (s.writeGo c true).tgGo c true else s) := rfl

theorem State.tgGo_starts (hr : (s.chan c).tgRun = false) (ha : s.tgAllowed c (s.tgCfg c) = true) :
    s.tgGo c true = s.tgRunNow c := by
  simp only [State.tgGo, hr, ha, Bool.not_false, Bool.and_self, if_true]

theorem State.tgGo_runs (hr : (s.chan c).tgRun = true) : s.tgGo c true = s := by
  simp only [State.tgGo, hr, Bool.not_true, Bool.false_and, Bool.false_eq_true, if_true, if_false]

theorem State.writeGo_chan (go : Bool) : (s.writeGo c go).chan c = s.chan c := rfl

theorem exec_tgStop : exec (.tgStop c) s = .next (if (s.chan c).tgRun = true then
    (s.writeGo c false).setChan c { s.chan c with tgStop := true } else s.writeGo c false) := rfl

/-! ### One line of a generator (10 R286, R293, R305, R307) -/

theorem exec_tgLine_waits {e : LineEcc} (h : (s.chan c).tgRun = false ∨ s.tgMay c = false) :
    exec (.tgLine c e) s = .next s := by
  simp only [exec, execTgLine]
  rcases h with h | h <;> simp [h]

section
variable (hr : (s.chan c).tgRun = true) (hm : s.tgMay c = true)
include hr hm

theorem exec_tgLine_ends {e : LineEcc} (hs : (s.chan c).tgStop = true) : exec (.tgLine c e) s =
    .next (s.setChan c { s.chan c with tgRun := false, tgStop := false }).testsDone := by
  simp only [exec, execTgLine, hr, hm, hs, Bool.and_self, if_true]

theorem exec_tgLine_steps {ce p : Bool} (hs : (s.chan c).tgStop = false) :
    exec (.tgLine c ⟨ce, p⟩) s = .next (s.tgStep c ce p).testsDone := by
  simp only [exec, execTgLine, hr, hm, hs, Bool.and_self, Bool.false_eq_true, if_true, if_false]

end

/-- The address that a generator's next line has in device memory (10 R305). -/
def State.tgAddr (s : State) (c : Nat) : Nat :=
  s.chanAddr c ((s.tgCfg c).base + 64 * (s.tgCfg c).visit (s.chan c).tgIdx)

/-- The generator's request at its channel's input, and the corrected error that the access meets. -/
def State.tgAsked (s : State) (c : Nat) (ce : Bool) : State :=
  let u := s.post { port := c, cls := 3, req := reqTg, addr := s.tgAddr c, store := !(s.chan c).tgRead }
  if ce then u.memCe c else u

/-- The generator past a line. -/
def State.tgMoved (s w : State) (c : Nat) : State :=
  w.setChan c { tgNext (s.tgCfg c) (w.chan c) with tgTicks := s.now :: s.tgRecent c }

theorem State.tgStep_writes {ce p : Bool} (h : (s.chan c).tgRead = false) : s.tgStep c ce p =
    s.tgMoved ((s.tgAsked c ce).dramWr (s.tgAddr c)
      ((s.tgCfg c).data ((s.tgCfg c).base + 64 * (s.tgCfg c).visit (s.chan c).tgIdx))) c := by
  simp only [State.tgStep, State.tgMoved, State.tgAsked, State.tgAddr, h, Bool.false_eq_true, if_false]

theorem State.tgStep_reads {ce p : Bool} (h : (s.chan c).tgRead = true) : s.tgStep c ce p =
    s.tgMoved ((if p && !(s.tgAsked c ce).poisoned (s.tgAddr c) 64 then (s.tgAsked c ce).memUe (s.tgAddr c)
      else s.tgAsked c ce).tgCheck c ((s.tgCfg c).base + 64 * (s.tgCfg c).visit (s.chan c).tgIdx) (s.tgCfg c)) c := by
  simp only [State.tgStep, State.tgMoved, State.tgAsked, State.tgAddr, h, if_true]

end

/-- Settles O15: the rows of the command and of the three events of a generator, by its flags. -/
theorem trafficGenerators : Obligations.TrafficGenerators := by
  unfold Obligations.TrafficGenerators
  refine ⟨?test, fun s c => ⟨fun ha => ?refused, fun ha => ?starts, State.tgGo_starts, State.tgGo_runs⟩,
    fun s c => ⟨fun hr => ?stops, fun hr => ?idle⟩, fun s c ce p h => exec_tgLine_waits h,
    fun s c ce p hr hm hs => exec_tgLine_ends hr hm hs, ?line⟩
  case test =>
    rintro s h kind first count ctl base len seed passes w u v rfl rfl
    rw [v.exec_testTraffic]
    exact ⟨fun x prev hw => by rw [State.cmdTest_starts hw], fun e hw => by rw [State.cmdTest_refused hw]; rfl⟩
  case refused => rw [exec_tgStart, ha, if_neg Bool.false_ne_true]
  case starts => rw [exec_tgStart, if_pos ha]
  case stops => rw [exec_tgStop, if_pos hr]
  case idle => rw [exec_tgStop, hr, if_neg Bool.false_ne_true]
  case line =>
    rintro s c ce p g x la a u v hr hm hs rfl rfl rfl rfl rfl rfl
    rw [exec_tgLine_steps hr hm hs]
    exact ⟨fun hw => ⟨_, rfl, by rw [State.tgStep_writes hw]; rfl⟩, fun hw => ⟨_, rfl, by rw [State.tgStep_reads hw]; rfl⟩⟩

end Sys2Proof.Machine
end

section
/-! SUPPORT. The start-up from the rails to `ready`: the functions and ports after the self-test, what replies leave, and the
rows that stop the boot (01 R15; 10 R309; 14 R426; 17 R472, R473, R482). -/

namespace Sys2Proof.Machine

/-! ### What replies to the host leave (14 R407, R413, R426) -/

/-- The clocks, the security state, the two bits of the device status and every key but the two counts of answers are as they
were. -/
structure ReplyKept (s t : State) : Prop where
  clk : t.clk = s.clk
  sec : t.sec = s.sec
  ready : t.hostIf.ready = s.hostIf.ready
  inReset : t.hostIf.inReset = s.hostIf.inReset
  keys : ∀ k, k ≠ kCmdRefused → k ≠ kCmdDup → t.kvNat k = s.kvNat k

section
variable {s t u : State}

theorem ReplyKept.refl (s : State) : ReplyKept s s := ⟨rfl, rfl, rfl, rfl, fun _ _ _ => rfl⟩

theorem ReplyKept.trans (h : ReplyKept s t) (h' : ReplyKept t u) : ReplyKept s u :=
  ⟨h'.clk.trans h.clk, h'.sec.trans h.sec, h'.ready.trans h.ready, h'.inReset.trans h.inReset,
    fun k hr hd => (h'.keys k hr hd).trans (h.keys k hr hd)⟩

theorem ReplyKept.foldl {α : Type} {f : State → α → State} (h : ∀ x a, ReplyKept x (f x a)) (l : List α) (s : State) :
    ReplyKept s (l.foldl f s) :=
  List.foldlRecOn (motive := ReplyKept s) l f (.refl s) fun x hx a _ => hx.trans (h x a)

theorem State.latchWaiting_kept : ReplyKept s s.latchWaiting := by
  refine ReplyKept.foldl (fun x r => ?_) ..
  split
  · exact ⟨rfl, rfl, rfl, rfl, fun _ _ _ => rfl⟩
  · exact .refl x

theorem State.queueReply_kept (r : Nat) (x : ReplyRec) : ReplyKept s (s.queueReply r x) := by
  unfold State.queueReply State.postReply
  dsimp only
  split_ifs <;> exact ⟨rfl, rfl, rfl, rfl, fun _ _ _ => rfl⟩

theorem State.writeResult_kept (h : Hdr) (bs : List Byte) : ReplyKept s (s.writeResult h bs) := by
  unfold State.writeResult State.wrAt
  split
  · exact .refl s
  · split
    · split_ifs <;> exact ⟨rfl, rfl, rfl, rfl, fun _ _ _ => rfl⟩
    · exact .refl s

theorem State.countReply_kept (st : Nat) : ReplyKept s (s.countReply st) := by
  unfold State.countReply
  split_ifs
  · exact ⟨rfl, rfl, rfl, rfl, fun k hr _ => State.countNow_kvNat_ne s hr⟩
  · exact ⟨rfl, rfl, rfl, rfl, fun k _ hd => State.countNow_kvNat_ne s hd⟩
  · exact .refl s

theorem State.raiseW_kept : ReplyKept s s.raiseW := by
  unfold State.raiseW
  split
  · exact .refl s
  · exact ⟨rfl, rfl, rfl, rfl, fun _ _ _ => rfl⟩

theorem State.retire_kept (h : Hdr) (a : Answer) : ReplyKept s (s.retire h a) := by
  unfold State.retire
  dsimp only
  refine ReplyKept.trans ?_ (State.queueReply_kept ..)
  have hc : ReplyKept s ((s.writeResult h a.bytes).countReply a.status) :=
    (State.writeResult_kept ..).trans (State.countReply_kept _)
  split
  · exact hc.trans ⟨rfl, rfl, rfl, rfl, fun _ _ _ => rfl⟩
  · refine hc.trans (ReplyKept.trans ?_ State.raiseW_kept)
    exact ⟨rfl, rfl, rfl, rfl, fun _ _ _ => rfl⟩

theorem State.replayJournal_kept : ReplyKept s s.replayJournal := by
  refine ReplyKept.foldl (fun x e => ?_) ..
  split_ifs
  · exact State.queueReply_kept ..
  · exact State.retire_kept ..
  · exact .refl x

end

/-! ### Functions switched on, ports started (12 R373; 17 R484) -/

section
variable {s : State} {p q : Nat}

/-- The functions of a list switched on. -/
theorem State.foldl_fnOn (l : List Nat) (s : State) {f : Nat} (hf : f < s.pwr.fns.length)
    (h : f ∈ l ∨ (s.fn f).state = .on) :
    ((l.foldl (fun x f => x.setFn f { x.fn f with state := .on }) s).fn f).state = .on := by
  induction l generalizing s with
  | nil => exact h.resolve_left List.not_mem_nil
  | cons g l ih =>
    refine ih _ (by simpa using hf) ?_
    by_cases hg : f = g
    · exact .inr (by rw [hg, State.setFn_fn s (hg ▸ hf)])
    · rw [State.setFn_fn_ne s hg]
      exact h.imp_left fun hm => (List.mem_cons.mp hm).resolve_left hg

theorem State.fnsOn_fn {lo n f : Nat} (hf : f < s.pwr.fns.length) (hlo : lo ≤ f) (hn : f < lo + n) :
    ((s.fnsOn lo n).fn f).state = .on :=
  State.foldl_fnOn _ s hf (.inl (List.mem_map.mpr ⟨f - lo, List.mem_range.mpr (by omega), by omega⟩))

section
variable (lo n : Nat)

@[simp] theorem State.fnsOn_clk : (s.fnsOn lo n).clk = s.clk := State.foldl_keeps (π := State.clk) (fun _ _ => by rfl) ..
@[simp] theorem State.fnsOn_sec : (s.fnsOn lo n).sec = s.sec := State.foldl_keeps (π := State.sec) (fun _ _ => by rfl) ..
@[simp] theorem State.fnsOn_flt : (s.fnsOn lo n).flt = s.flt := State.foldl_keeps (π := State.flt) (fun _ _ => by rfl) ..
@[simp] theorem State.fnsOn_ports : (s.fnsOn lo n).ports = s.ports :=
  State.foldl_keeps (π := State.ports) (fun _ _ => by rfl) ..
@[simp] theorem State.fnsOn_kv : (s.fnsOn lo n).kv = s.kv := State.foldl_keeps (π := State.kv) (fun _ _ => by rfl) ..

end

section
variable (p : Nat)

@[simp] theorem State.startPort_clk : (s.startPort p).clk = s.clk := by unfold State.startPort; split <;> rfl
@[simp] theorem State.startPort_sec : (s.startPort p).sec = s.sec := by unfold State.startPort; split <;> rfl
@[simp] theorem State.startPort_pwr : (s.startPort p).pwr = s.pwr := by unfold State.startPort; split <;> rfl
@[simp] theorem State.startPort_flt : (s.startPort p).flt = s.flt := by unfold State.startPort; split <;> rfl
@[simp] theorem State.startPort_torus : (s.startPort p).torus = s.torus := by unfold State.startPort; split <;> rfl
@[simp] theorem State.startPort_kv : (s.startPort p).kv = s.kv := by unfold State.startPort; split <;> rfl

end

theorem State.port_congr {t : State} (h : t.ports = s.ports) (q : Nat) : t.port q = s.port q :=
  congrArg (List.getD · q ({} : Port)) h

/-- A port may start to train: it is off, it may train, and the package has not retired (12 R373; 20 R540). -/
def State.portDue (s : State) (q : Nat) : Prop :=
  (s.port q).state = .off ∧ s.mayTrain q = true ∧ s.flt.retired = false

theorem State.startPort_starts (h : s.portDue p) :
    s.startPort p = s.setPort p { s.port p with state := .pmdTrain, enteredAt := s.now } :=
  if_pos (by simp [h.1, h.2.1, h.2.2])

theorem State.startPort_stays (h : ¬ s.portDue p) : s.startPort p = s :=
  if_neg fun hc => h (by simpa [State.portDue, and_assoc] using hc)

theorem State.startPort_enabled : ((s.startPort p).port q).enabled = (s.port q).enabled := by
  by_cases h : s.portDue p
  · rw [State.startPort_starts h]
    by_cases hq : q = p
    · subst hq
      rcases Nat.lt_or_ge q s.ports.length with hlt | hle
      · rw [State.setPort_port s hlt]
      · exact congrArg Port.enabled (getD_setAt_out hle)
    · rw [State.setPort_port_ne s hq]
  · rw [State.startPort_stays h]

theorem State.startPort_mayTrain : (s.startPort p).mayTrain q = s.mayTrain q := by
  simp only [State.mayTrain, State.startPort_enabled, State.kvNat_congr (State.startPort_kv p), State.portRec, State.ownEntry,
    State.startPort_torus]

theorem State.startPort_length : (s.startPort p).ports.length = s.ports.length := by
  unfold State.startPort; split <;> simp

theorem State.startPort_state_self (hp : p < s.ports.length) (ho : (s.port p).state = .off) :
    ((s.startPort p).port p).state = if s.mayTrain p = true ∧ s.flt.retired = false then .pmdTrain else .off := by
  split
  · next h => rw [State.startPort_starts ⟨ho, h⟩, State.setPort_port s hp]
  · next h => rw [State.startPort_stays fun hs => h hs.2, ho]

theorem State.startPort_port_ne (h : q ≠ p) : (s.startPort p).port q = s.port q := by
  unfold State.startPort
  split
  · exact State.setPort_port_ne s h
  · rfl

theorem State.foldl_startPort_of_not_mem (l : List Nat) (s : State) (h : q ∉ l) :
    (l.foldl State.startPort s).port q = s.port q := by
  induction l generalizing s with
  | nil => rfl
  | cons p l ih =>
    obtain ⟨hp, hl⟩ := not_or.mp (mt List.mem_cons.mpr h)
    exact (ih _ hl).trans (State.startPort_port_ne hp)

/-- A port that is off starts to train when its turn comes. -/
theorem State.foldl_startPort_state (l : List Nat) (s : State) (hnd : l.Nodup) (hq : q ∈ l) (hlen : q < s.ports.length)
    (ho : (s.port q).state = .off) : ((l.foldl State.startPort s).port q).state =
      if s.mayTrain q = true ∧ s.flt.retired = false then .pmdTrain else .off := by
  induction l generalizing s with
  | nil => cases hq
  | cons p l ih =>
    obtain ⟨hp, hl⟩ := List.nodup_cons.mp hnd
    rcases List.mem_cons.mp hq with rfl | hm
    · rw [List.foldl_cons, State.foldl_startPort_of_not_mem l _ hp, State.startPort_state_self hlen ho]
    · have hne : q ≠ p := fun e => hp (e ▸ hm)
      rw [List.foldl_cons, ih _ hl hm (by rwa [State.startPort_length]) (by rwa [State.startPort_port_ne hne]),
        State.startPort_mayTrain, State.startPort_flt]

/-- The state after a self-test that passed (17 R482). -/
def State.testPassed (s : State) : State := (s.mapSpares.toRow .memTrain).fnsOn 1 12

/-- The ports of the package that start after the self-test. -/
def State.portsStarted (s : State) : State := (List.range 8).foldl State.startPort s

@[simp] theorem State.portsStarted_clk : s.portsStarted.clk = s.clk :=
  State.foldl_keeps (π := State.clk) (fun _ _ => State.startPort_clk _) ..
@[simp] theorem State.portsStarted_sec : s.portsStarted.sec = s.sec :=
  State.foldl_keeps (π := State.sec) (fun _ _ => State.startPort_sec _) ..
@[simp] theorem State.portsStarted_pwr : s.portsStarted.pwr = s.pwr :=
  State.foldl_keeps (π := State.pwr) (fun _ _ => State.startPort_pwr _) ..

theorem State.portsStarted_state (hlen : s.ports.length = 8) (hq : q < 8) (ho : (s.port q).state = .off) :
    (s.portsStarted.port q).state =
      if s.portsStarted.mayTrain q = true ∧ s.flt.retired = false then .pmdTrain else .off := by
  have hm : s.portsStarted.mayTrain q = s.mayTrain q :=
    State.foldl_keeps (π := fun x => x.mayTrain q) (fun _ _ => State.startPort_mayTrain) ..
  rw [hm]
  exact State.foldl_startPort_state _ s List.nodup_range (List.mem_range.mpr hq) (hlen ▸ hq) ho

theorem exec_ivorySelfTestDone_passed (h : s.clk.row = .selfTest) :
    exec (.ivorySelfTestDone none) s = .next s.testPassed.portsStarted := by
  simp only [exec, execIvorySelfTestDone, h, if_true]; rfl

end

/-! ### Memory training (10 R309) -/

theorem wrongPackage_eq_none {n : Nat} {ds : List Nat} :
    wrongPackage n ds = none ↔ (n = 32 ∨ n = 64 ∨ n = 128) ∧ ∀ k, k < 16 → ds.getD k 0 = n := by
  unfold wrongPackage
  split
  · next h => simp [h, List.find?_eq_none]
  · next h => simp [h]

section
variable {s : State} {ds : List Nat} {c lp : Nat}

theorem exec_memoryTrainingDone_failed (h : s.clk.row = .memTrain) :
    exec (.memoryTrainingDone ds (some c)) s = .next (s.stopBoot (.memTrain (some c)) (.memTrain (some c))) :=
  congrArg Host.Outcome.next (if_pos h)

theorem exec_memoryTrainingDone_wrong (h : s.clk.row = .memTrain) (hw : wrongPackage s.sec.policy.lpGib ds = some c) :
    exec (.memoryTrainingDone ds none) s = .next (s.stopBoot (.memTrain (some c)) (.memTrain (some c))) := by
  rw [show exec (.memoryTrainingDone ds none) s = execMemoryTrainingDone ds none s from rfl]
  unfold execMemoryTrainingDone
  rw [if_pos h, hw]

theorem exec_memoryTrainingDone_ready (h : s.clk.row = .memTrain) (hw : wrongPackage s.sec.policy.lpGib ds = none) :
    exec (.memoryTrainingDone ds none) s = .next (s.becomeReady s.sec.policy.lpGib) := by
  rw [show exec (.memoryTrainingDone ds none) s = execMemoryTrainingDone ds none s from rfl]
  unfold execMemoryTrainingDone
  rw [if_pos h, hw]

/-- `ready` before the rings are latched and the journal is replayed. -/
def State.madeReady (s : State) (lp : Nat) : State :=
  let s1 := ((({ s with fresh := s.fresh + 1 } : State).kvSet kLpGib (BitVec.ofNat 64 lp)).kvSet kBootMsKey
    (BitVec.ofNat 64 (Config.bootMs s.fresh))).fnsOn 13 1
  { s1 with
    hostIf := { s1.hostIf with ready := true, inReset := false }
    clk := { s1.clk with phase := .run, row := .done }
    pwr := { s1.pwr with lpSelfRefresh := false }
    mem := { s1.mem with chans := freshChans s1.now }
    sec := s1.sec.raiseFuses }

theorem State.becomeReady_eq (lp : Nat) : s.becomeReady lp = (s.madeReady lp).latchWaiting.replayJournal := rfl

theorem State.becomeReady_kept (lp : Nat) : ReplyKept (s.madeReady lp) (s.becomeReady lp) :=
  State.latchWaiting_kept.trans State.replayJournal_kept

theorem State.madeReady_clk : (s.madeReady lp).clk = { s.clk with phase := .run, row := .done } := by
  simp only [State.madeReady, State.fnsOn_clk]; rfl

theorem State.madeReady_sec : (s.madeReady lp).sec = s.sec.raiseFuses := by
  simp only [State.madeReady, State.fnsOn_sec]; rfl

theorem State.madeReady_lpGib : (s.madeReady lp).kvNat kLpGib = lp % 2 ^ 64 := by
  have hkv (x : State) : (x.fnsOn 13 1).kvNat kLpGib = x.kvNat kLpGib := State.kvNat_congr (State.fnsOn_kv 13 1)
  have hset (x : State) (v : BitVec 64) : ((x.kvSet kLpGib (BitVec.ofNat 64 lp)).kvSet kBootMsKey v).kvNat kLpGib =
      lp % 2 ^ 64 := by
    rw [State.kvSet_kvNat_ne _ (by decide), State.kvNat, State.kvSet_kvGet, BitVec.toNat_ofNat]
  exact (hkv _).trans (hset { s with fresh := s.fresh + 1 } _)

end

/-! ### The boot stopped (17 R482) -/

section
variable {s : State}

theorem State.missingRail_eq_none : s.missingRail = none ↔ ∀ r ∈ allRails, s.pwr.rails.contains r = true := by
  simp only [State.missingRail, List.find?_eq_none, Bool.not_eq_true', Bool.not_eq_false]

theorem exec_bootLimitExceeded_over {r : BootReport} {e : Event} (hp : s.clk.phase ≠ .off) (hl : s.rowLimit ≤ s.now)
    (hr : s.rowReport = some (r, e)) : exec .bootLimitExceeded s = .next (s.stopBoot r e) := by
  simp only [exec, execBootLimitExceeded, hp, Nat.not_lt.mpr hl, or_self, if_false, hr]

theorem exec_bootLimitExceeded_within (h : s.clk.phase = .off ∨ s.now < s.rowLimit ∨ s.rowReport = none) :
    exec .bootLimitExceeded s = .next s := by
  simp only [exec, execBootLimitExceeded]
  split
  · rfl
  · next hn =>
    have hr : s.rowReport = none := by tauto
    rw [hr]

end

/-- Settles O21: each row's command by its row; the ports and functions after the self-test by their turns in the loops, and
what `ready` leaves by what replies leave. -/
theorem bootToReady : Obligations.BootToReady := by
  unfold Obligations.BootToReady
  refine ⟨fun s hr h => ?rails, fun s h => ?noRails, fun s => ⟨fun h => ?plls, fun h => ?noPlls⟩, fun s h hok => ?tested,
    fun s b h => ?badTile, fun s b h => ?noTest, fun s ds h hw => ?ready, fun n ds => wrongPackage_eq_none,
    fun s ds c h => ⟨?failed, fun hw => ?wrong⟩, fun s ds c h => ?noTrain,
    fun s r e hp hl hr => ⟨_, exec_bootLimitExceeded_over hp hl hr, rfl, rfl⟩, fun s h => exec_bootLimitExceeded_within h⟩
  case rails => exact congrArg Host.Outcome.next (if_pos ⟨hr, State.missingRail_eq_none.mpr h⟩)
  case noRails =>
    refine congrArg Host.Outcome.next (if_neg fun ⟨hr, hm⟩ => ?_)
    obtain hne | ⟨r, hr', hf⟩ := h
    · exact hne hr
    · exact Bool.false_ne_true (hf.symm.trans (State.missingRail_eq_none.mp hm r hr'))
  case plls => exact congrArg Host.Outcome.next (if_pos h)
  case noPlls => exact congrArg Host.Outcome.next (if_neg h)
  case tested =>
    have hparts : s.pwr.fns.length = 15 ∧ s.ports.length = 8 := by
      simp only [State.ok, State.partsOk, Bool.and_eq_true, decide_eq_true_eq] at hok
      exact ⟨hok.1.1.1.1.2, hok.1.2⟩
    refine ⟨_, exec_ivorySelfTestDone_passed h, ?_, ?_, fun f h1 h12 => ?_, fun p hp ho => ?_⟩
    · rw [State.portsStarted_clk, State.testPassed, State.fnsOn_clk]; rfl
    · rw [State.portsStarted_sec, State.testPassed, State.fnsOn_sec]; rfl
    · rw [State.fn, State.portsStarted_pwr, State.testPassed]
      exact State.fnsOn_fn (s := s.mapSpares.toRow .memTrain) (hparts.1 ▸ by omega) h1 (by omega)
    · have hports : s.testPassed.ports = s.ports := by rw [State.testPassed, State.fnsOn_ports]; rfl
      have hflt : s.testPassed.flt = s.flt := by rw [State.testPassed, State.fnsOn_flt]; rfl
      have hlen : s.testPassed.ports.length = 8 := by rw [hports, hparts.2]
      have hoff : (s.testPassed.port p).state = .off := by rw [State.port_congr hports, ho]
      rw [State.portsStarted_state hlen hp hoff, hflt]
  case badTile => exact ⟨_, congrArg Host.Outcome.next (if_pos h), rfl, rfl⟩
  case noTest => exact congrArg Host.Outcome.next (if_neg h)
  case ready =>
    have hkept := State.becomeReady_kept (s := s) s.sec.policy.lpGib
    have hsmall : s.sec.policy.lpGib < 2 ^ 64 := by
      have := (wrongPackage_eq_none.mp hw).1
      omega
    refine ⟨_, exec_memoryTrainingDone_ready h hw, hkept.ready, hkept.inReset, ?_, ?_, ?_, ?_, ?_⟩
    · rw [hkept.clk, State.madeReady_clk]
    · rw [hkept.clk, State.madeReady_clk]
    · rw [hkept.keys _ (by decide) (by decide), State.madeReady_lpGib, Nat.mod_eq_of_lt hsmall]
    · rw [hkept.sec, State.madeReady_sec]; rfl
    · rw [hkept.sec, State.madeReady_sec]; rfl
  case failed => exact ⟨_, exec_memoryTrainingDone_failed h, rfl, rfl⟩
  case wrong => exact ⟨_, exec_memoryTrainingDone_wrong h hw, rfl, rfl⟩
  case noTrain => exact congrArg Host.Outcome.next (if_neg h)

end Sys2Proof.Machine
end

section
/-! SUPPORT. Warm resets and sleep: what the fold, the held switch-in messages and the ports going off leave alone, what the
fast domains take with them, and the wake inputs (10 R310; 14 R428; 17 R480, R481; 18 R493, R498). -/

namespace Sys2Proof.Machine

/-! ### Undefined contents (10 R310) -/

theorem Mem.undefAt_addRange_inside {a : Nat} {x : Undef} {us : List Undef} (h1 : x.lo ≤ a) (h2 : a < x.hi)
    (h : Mem.undefAt a us = none) : Mem.undefAt a (Mem.addRange x us) = some x := by
  have hx : ¬ x.hi ≤ x.lo := by omega
  induction us with
  | nil => rw [Mem.addRange, if_pos (by omega), Mem.undefAt_singleton, if_pos ⟨h1, h2⟩]
  | cons u us ih =>
    rw [Mem.undefAt] at h
    split at h
    · cases h
    · next hu =>
      rw [Mem.addRange, if_neg hx]
      split
      · exact if_pos ⟨h1, h2⟩
      · rw [Mem.undefAt, if_neg hu, ih h]

theorem Mem.undefAt_addRange_outside {a : Nat} {x : Undef} {us : List Undef} (h : a < x.lo ∨ x.hi ≤ a) :
    Mem.undefAt a (Mem.addRange x us) = Mem.undefAt a us := by
  have hx : ¬ (x.lo ≤ a ∧ a < x.hi) := by omega
  induction us with
  | nil =>
    rw [Mem.addRange]
    split
    · rw [Mem.undefAt_singleton, if_neg hx]; rfl
    · rfl
  | cons u us ih =>
    rw [Mem.addRange]
    split
    · rfl
    · split
      · exact if_neg hx
      · rw [Mem.undefAt, Mem.undefAt, ih]

theorem Mem.read_forget_inside {m : Mem} {a lo hi gen : Nat} (h1 : lo ≤ a) (h2 : a < hi) :
    (m.forget lo hi gen).read a = Config.freeByte gen a := by
  have hu := Mem.undefAt_addRange_inside (x := { lo := lo, hi := hi, gen := gen }) h1 h2
    (Mem.undefAt_carve_inside (us := m.undef) h1 h2)
  rw [Mem.read_eq, Mem.forget, hu]
  rfl

theorem Mem.read_forget_outside {m : Mem} {a lo hi gen : Nat} (h : a < lo ∨ hi ≤ a) :
    (m.forget lo hi gen).read a = m.read a := by
  have hu := Mem.undefAt_addRange_outside (x := { lo := lo, hi := hi, gen := gen }) (us := Mem.carve lo hi m.undef) h
  rw [Mem.read_eq, Mem.read_eq, Mem.forget, hu, Mem.undefAt_carve_outside h, Tab.get_filter fun _ => by simpa using h]

theorem Tab.get_filter_out {α : Type} {d : α} {k : Nat} {f : Nat × α → Bool} (hf : ∀ v, f (k, v) = false)
    (t : List (Nat × α)) : Tab.get d k (t.filter f) = d := by
  induction t with
  | nil => rfl
  | cons p t ih =>
    obtain ⟨j, v⟩ := p
    rw [List.filter_cons]
    split
    · next h =>
      have hj : j ≠ k := fun e => Bool.false_ne_true ((hf v).symm.trans (e ▸ h))
      rw [Tab.get, if_neg hj, ih]
    · exact ih

/-! ### What goes off leaves alone -/

/-- The clocks, the host attachment, host memory and LPDDR5X are as they were, and generations only rise. -/
structure OutsideKept (s t : State) : Prop where
  clk : t.clk = s.clk
  hostIf : t.hostIf = s.hostIf
  host : t.mem.host = s.mem.host
  gen : s.mem.memGen ≤ t.mem.memGen
  lpddr : ∀ a, 2 ^ 40 ≤ a → t.mem.dram.read a = s.mem.dram.read a

section
variable {s t u : State}

theorem OutsideKept.of_mem (hc : t.clk = s.clk) (hi : t.hostIf = s.hostIf) (hm : t.mem = s.mem) : OutsideKept s t :=
  ⟨hc, hi, by rw [hm], by rw [hm], fun _ _ => by rw [hm]⟩

theorem OutsideKept.trans (h : OutsideKept s t) (h' : OutsideKept t u) : OutsideKept s u :=
  ⟨h'.clk.trans h.clk, h'.hostIf.trans h.hostIf, h'.host.trans h.host, h.gen.trans h'.gen,
    fun a ha => (h'.lpddr a ha).trans (h.lpddr a ha)⟩

theorem OutsideKept.foldl {α : Type} {f : State → α → State} (h : ∀ x a, OutsideKept x (f x a)) (l : List α) (s : State) :
    OutsideKept s (l.foldl f s) :=
  List.foldlRecOn (motive := OutsideKept s) l f (.of_mem rfl rfl rfl) fun x hx a _ => hx.trans (h x a)

theorem State.dramForget_outside : OutsideKept s (s.dramForget 0 (2 ^ 40)) :=
  ⟨rfl, rfl, rfl, Nat.le_succ _, fun _ ha => Mem.read_forget_outside (.inr ha)⟩

theorem State.countNow_outside (k n : Nat) : OutsideKept s (s.countNow k n) := .of_mem rfl rfl rfl

theorem State.event_outside (e : Event) : OutsideKept s (s.event e) := .of_mem rfl rfl rfl

theorem State.setArb_outside (p : Nat) (a : ArbPort) : OutsideKept s (s.setArb p a) :=
  ⟨rfl, rfl, rfl, le_rfl, fun _ _ => rfl⟩

theorem State.keyEffect_outside (k : Nat) (old : BitVec 64) : OutsideKept s (s.keyEffect k old) := by
  unfold State.keyEffect
  split_ifs
  · exact .of_mem rfl rfl rfl
  · exact State.dramForget_outside
  · exact .of_mem rfl rfl rfl
  · exact .of_mem rfl rfl rfl

theorem State.foldWrite_outside (p : Nat × BitVec 64) : OutsideKept s (s.foldWrite p) := by
  unfold State.foldWrite
  split
  · exact OutsideKept.trans (t := s.kvSet p.1 _) (.of_mem rfl rfl rfl) (State.keyEffect_outside ..)
  · exact .of_mem rfl rfl rfl

theorem State.fold_outside : OutsideKept s s.fold := by
  unfold State.fold
  refine OutsideKept.trans (OutsideKept.trans ?_ (.foldl (fun _ p => State.foldWrite_outside p) s.pendW _))
    (.of_mem rfl rfl rfl)
  refine OutsideKept.trans ?_ (.foldl (fun _ p => State.countNow_outside p.1 p.2) s.acc _)
  exact .of_mem rfl rfl rfl

theorem State.applySwitch_outside (m : Nat × Nat × Nat × Nat) : OutsideKept s (s.applySwitch m) := by
  unfold State.applySwitch
  refine OutsideKept.trans ?_ (.foldl (fun _ (p : Nat × Nat) => State.event_outside (.rowPair p.1 p.2)) _ _)
  split_ifs <;> exact .of_mem rfl rfl rfl

theorem State.applyHeld_outside : OutsideKept s s.applyHeld :=
  .trans (.foldl (fun _ => State.applySwitch_outside) s.torus.heldSwitch s) (.of_mem rfl rfl rfl)

theorem State.abortTransit_outside (p : Nat) : OutsideKept s (s.abortTransit p) := by
  unfold State.abortTransit
  exact OutsideKept.trans (.foldl (fun _ _ => State.setArb_outside ..) _ s) (.of_mem rfl rfl rfl)

theorem State.leaveRun_outside (p reason : Nat) (st : PortState) : OutsideKept s (s.leaveRun p reason st) := by
  unfold State.leaveRun
  refine OutsideKept.trans (OutsideKept.trans ?_ (State.abortTransit_outside p)) (.of_mem rfl rfl rfl)
  split_ifs <;> exact .of_mem (by simp) (by simp) (by simp)

theorem State.portOff_outside (p reason : Nat) : OutsideKept s (s.portOff p reason) := by
  unfold State.portOff
  split
  · exact State.leaveRun_outside ..
  · exact .of_mem rfl rfl rfl

end

/-! ### The tile stores and the fast domains (17 R467, R480, R483) -/

theorem Tab.get_freshTiles {gen u : Nat} (l : List Nat) (t : Tab Mem)
    (h : u ∈ l ∨ Tab.get (freshTile u 1) u t = freshTile u gen) :
    Tab.get (freshTile u 1) u (l.foldl (fun t v => Tab.set (freshTile v 1) v (freshTile v gen) t) t) = freshTile u gen := by
  induction l generalizing t with
  | nil => exact h.resolve_left List.not_mem_nil
  | cons v l ih =>
    refine ih _ ?_
    by_cases hv : u = v
    · exact .inr (by rw [hv, Tab.get_set_same])
    · rw [Tab.get_set_ne hv]
      exact h.imp_left fun hm => (List.mem_cons.mp hm).resolve_left hv

theorem mem_rangeFrom {lo n u : Nat} (h1 : lo ≤ u) (h2 : u < lo + n) : u ∈ rangeFrom lo n :=
  List.mem_map.mpr ⟨u - lo, List.mem_range.mpr (by omega), by omega⟩

section
variable {s : State} {u : Nat}

theorem State.unitsLost_tile {lo n : Nat} (h1 : lo ≤ u) (h2 : u < lo + n) : (s.unitsLost lo n).tile u = {} :=
  Tab.get_filter_out (fun _ => by simp [h1, h2]) _

theorem State.unitsLost_tileMem {lo n : Nat} (h1 : lo ≤ u) (h2 : u < lo + n) :
    (s.unitsLost lo n).tileMem u = freshTile u (s.mem.memGen + 1) :=
  Tab.get_freshTiles _ _ (.inl (mem_rangeFrom h1 h2))

/-- The state after the ports have gone off. -/
def State.portsOff (s : State) : State := (List.range 8).foldl (fun x p => x.portOff p 1) s

theorem State.portsOff_outside : OutsideKept s s.portsOff := .foldl (fun _ p => State.portOff_outside p 1) _ s

/-- What the fast domains leave once the ports are off and the tiles lost (17 R467). -/
def State.domainsOff (s : State) : State :=
  { s with
    engines := List.replicate 4 {}
    exch := {}
    job := noJob
    mem := { s.mem with pearl := [], chans := [], ports := [] }
    pwr := { s.pwr with fns := List.replicate 15 {}, regs := false, clamps := true, opChange := none, holdUntil := 0 }
    clk := { s.clk with corePll := false, fieldPll := List.replicate 4 false } }

theorem State.fastOff_eq : s.fastOff = (s.portsOff.unitsLost 0 224).domainsOff := by
  unfold State.fastOff State.portsOff State.domainsOff
  rfl

/-- What the fast domains going off leaves. -/
structure FastOff (s t : State) : Prop where
  clk : t.clk = { s.clk with corePll := false, fieldPll := List.replicate 4 false }
  hostIf : t.hostIf = s.hostIf
  job : t.job = noJob ∧ t.exch = {}
  power : t.pwr.regs = false ∧ t.pwr.clamps = true
  tiles : ∀ u, u < 224 → t.tile u = {} ∧ ∃ g, s.mem.memGen < g ∧ t.tileMem u = freshTile u g
  host : t.mem.host = s.mem.host
  gen : s.mem.memGen ≤ t.mem.memGen
  lpddr : ∀ a, 2 ^ 40 ≤ a → t.mem.dram.read a = s.mem.dram.read a

theorem State.unitsLost_host (lo n : Nat) : (s.unitsLost lo n).mem.host = s.mem.host := rfl
theorem State.unitsLost_dram (lo n : Nat) : (s.unitsLost lo n).mem.dram = s.mem.dram := rfl
theorem State.unitsLost_memGen (lo n : Nat) : (s.unitsLost lo n).mem.memGen = s.mem.memGen + 1 := rfl
theorem State.domainsOff_host : s.domainsOff.mem.host = s.mem.host := rfl
theorem State.domainsOff_dram : s.domainsOff.mem.dram = s.mem.dram := rfl
theorem State.domainsOff_memGen : s.domainsOff.mem.memGen = s.mem.memGen := rfl
theorem State.domainsOff_tile : s.domainsOff.tile u = s.tile u := rfl
theorem State.domainsOff_tileMem : s.domainsOff.tileMem u = s.tileMem u := rfl

theorem State.domainsOff_fastOff : FastOff s (s.unitsLost 0 224).domainsOff where
  clk := rfl
  hostIf := rfl
  job := ⟨rfl, rfl⟩
  power := ⟨rfl, rfl⟩
  tiles u hu := by
    rw [State.domainsOff_tile, State.domainsOff_tileMem, State.unitsLost_tile (Nat.zero_le u) (by omega),
      State.unitsLost_tileMem (Nat.zero_le u) (by omega)]
    exact ⟨rfl, _, Nat.lt_succ_self _, rfl⟩
  host := by rw [State.domainsOff_host, State.unitsLost_host]
  gen := by rw [State.domainsOff_memGen, State.unitsLost_memGen]; omega
  lpddr _ _ := by rw [State.domainsOff_dram, State.unitsLost_dram]

/-- The fast domains off: the ports' part and the rest. -/
theorem State.fastOff_off : FastOff s s.fastOff := by
  have hp := State.portsOff_outside (s := s)
  have hd := State.domainsOff_fastOff (s := s.portsOff)
  rw [State.fastOff_eq]
  exact
    { clk := by rw [hd.clk, hp.clk]
      hostIf := hd.hostIf.trans hp.hostIf
      job := hd.job
      power := hd.power
      tiles := fun u hu => (hd.tiles u hu).imp_right fun ⟨g, hg, ht⟩ => ⟨g, hp.gen.trans_lt hg, ht⟩
      host := hd.host.trans hp.host
      gen := hp.gen.trans hd.gen
      lpddr := fun a ha => (hd.lpddr a ha).trans (hp.lpddr a ha) }

/-! ### A warm reset (17 R480) -/

theorem State.hbmLost_read_inside {a : Nat} (h : a < 2 ^ 40) :
    s.hbmLost.mem.dram.read a = Config.freeByte (s.mem.memGen + 1) a := Mem.read_forget_inside (Nat.zero_le a) h
theorem State.hbmLost_read_outside {a : Nat} (h : 2 ^ 40 ≤ a) : s.hbmLost.mem.dram.read a = s.mem.dram.read a :=
  Mem.read_forget_outside (.inr h)

/-- The start-up resumed at the verification row. -/
def State.resumed (s : State) : State :=
  { s with
    hostIf := { s.hostIf.down with inReset := true }
    clk := { s.clk with phase := .boot, row := .verify, cold := false, report := none, verifyAt := s.now }
    pwr := { s.pwr with lpSelfRefresh := true, sleepAt := none }
    sec := { s.sec with booted := false, idLocked := false, updating := none, activate := false, pendPref := none } }

theorem State.warmReset_eq : s.warmReset =
    if s.clk.phase = .sleep then
      (s.fold.applyHeld.fastOff.hbmLost.resumed.alert
        (!s.fold.applyHeld.fastOff.hbmLost.resumed.flt.queue.isEmpty)).pinsBegin
    else s.fold.applyHeld.fastOff.hbmLost.resumed := by
  unfold State.warmReset State.resumed
  rfl

/-- A warm reset resumes the start-up from any state with the fast domains off. -/
theorem FastOff.restarted {x t : State} (hk : OutsideKept s x) (h : FastOff x t) : Restarted s t.hbmLost.resumed where
  boot := ⟨rfl, rfl, rfl, (congrArg Clk.corePll h.clk :)⟩
  time := by
    have ht : t.clk.cobalt = s.clk.cobalt := by rw [h.clk, hk.clk]
    exact ht
  attachment := ⟨rfl, rfl, rfl, rfl⟩
  journal := by
    have hi : t.hostIf = s.hostIf := h.hostIf.trans hk.hostIf
    exact ⟨(congrArg HostIf.journal hi :), (congrArg HostIf.wm hi :)⟩
  job := by
    obtain ⟨hj, hx⟩ := h.job
    exact ⟨congrArg Job.img hj, congrArg Job.bound hj, congrArg Exch.ctxs hx⟩
  power := ⟨h.power.1, h.power.2, rfl, rfl⟩
  tiles u hu := (h.tiles u hu).imp_right fun ⟨g, hg, ht⟩ => ⟨g, hk.gen.trans_lt hg, ht⟩
  hbm := ⟨_, Nat.lt_succ_of_le (hk.gen.trans h.gen), fun _ ha => State.hbmLost_read_inside ha⟩
  rest := ⟨h.host.trans hk.host, fun a ha =>
    ((State.hbmLost_read_outside ha).trans (h.lpddr a ha)).trans (hk.lpddr a ha)⟩

theorem Restarted.pinsBegin {t : State} (h : Restarted s t) (b : Bool) : Restarted s (t.alert b).pinsBegin :=
  ⟨h.boot, h.time, h.attachment, h.journal, h.job, h.power, h.tiles, h.hbm, h.rest⟩

theorem State.warmReset_restarted : Restarted s s.warmReset := by
  have h : Restarted s s.fold.applyHeld.fastOff.hbmLost.resumed :=
    State.fastOff_off.restarted (State.fold_outside.trans State.applyHeld_outside)
  rw [State.warmReset_eq]
  split
  · exact h.pinsBegin _
  · exact h

theorem exec_warmReset_acts {c : WarmCause} (hw : s.canWarm = true) (h : c = .perst ∨ s.clk.phase = .sleep) :
    exec (.warmReset c) s = .next s.warmReset := congrArg Host.Outcome.next (if_pos (by simpa [hw] using h))

theorem exec_warmReset_stays {c : WarmCause} (h : s.canWarm = false ∨ (c ≠ .perst ∧ s.clk.phase ≠ .sleep)) :
    exec (.warmReset c) s = .next s := by
  refine congrArg Host.Outcome.next (if_neg ?_)
  rcases h with hw | ⟨hc, hp⟩ <;> simp [*]

/-! ### `RESET_FUNCTION` kind 0 (14 R426, R428) -/

theorem Served.exec_resetFunctionWarm {h : Hdr} (v : Served s h (.resetFunction 0)) :
    exec (.resetFunctionWarm h) s = .next ((s.begun h (.resetFunction 0)).cmdWarm h).checkJournal :=
  congrArg Host.Outcome.next v.submit

theorem State.cmdWarm_unsequenced {h : Hdr} (hs : h.seq = 0) : s.cmdWarm h = (s.retire h {}).warmReset := if_pos hs

theorem State.cmdWarm_sequenced {h : Hdr} (hs : h.seq ≠ 0) : s.cmdWarm h =
    (s.modJournal h.seq fun e => if e.state = 1 ∧ e.hdr = h then
      { e with state := 2, reply := answerReply h {} } else e).raiseW.warmReset := if_neg hs

/-! ### Sleep (17 R479, R481; 18 R493) -/

/-- The package put to sleep, its fast domains off. -/
def State.slept (s : State) : State :=
  let s1 := { s with
    clk := { s.clk with phase := .sleep }
    hostIf := s.hostIf.down
    pwr := { s.pwr with sleepAt := none, lpSelfRefresh := true } }
  (s1.alert true).pinsBegin

theorem exec_sleepEntry_due {d : Nat} (hd : s.pwr.sleepAt = some d) (hn : d ≤ s.now) (hi : s.job.img = none)
    (hp : s.clk.phase = .run) : exec .sleepEntry s = .next s.fold.fastOff.slept := by
  simp only [exec, execSleepEntry, hd, hn, hi, hp, Option.isNone_none, and_self, if_true]
  rfl

/-- Falling asleep, from a state whose fast domains are off. -/
theorem State.slept_fields : s.slept.clk = { s.clk with phase := .sleep } ∧ s.slept.pins.alert = true ∧
    s.slept.hostIf = s.hostIf.down ∧ s.slept.pwr.sleepAt = none ∧ s.slept.pwr.lpSelfRefresh = true ∧
    s.slept.pwr.regs = s.pwr.regs := ⟨rfl, rfl, rfl, rfl, rfl, rfl⟩

theorem exec_sleepEntry_none (h : s.pwr.sleepAt = none) : exec .sleepEntry s = .next s := by
  simp only [exec, execSleepEntry, h]

theorem exec_sleepEntry_waits {d : Nat} (hd : s.pwr.sleepAt = some d)
    (h : s.now < d ∨ s.job.img.isSome = true ∨ s.clk.phase ≠ .run) : exec .sleepEntry s = .next s := by
  have hn : ¬ (d ≤ s.now ∧ s.job.img.isNone = true ∧ s.clk.phase = .run) := by
    rintro ⟨h1, h2, h3⟩
    rcases h with h | h | h
    · omega
    · simp [Option.isNone_iff_eq_none.mp h2] at h
    · exact h h3
  simp only [exec, execSleepEntry, hd, if_neg hn]

/-! ### The wake inputs (17 R481; 18 R496, R498) -/

theorem pinActive_not (n : Nat) (l : Bool) : pinActive n (!l) = !pinActive n l := by
  unfold pinActive; split <;> simp

/-- An event to the level a pin has already arms it: one of the two levels it passes is the inactive one (18 R498). -/
theorem Pin.take_take_armed (n now : Nat) (l : Bool) (p : Pin) : ((p.take n now (!l)).take n now l).armed = true := by
  simp only [Pin.take, pinActive_not, Bool.or_assoc, Bool.not_not, Bool.or_not_self, Bool.or_true]

theorem State.pinChange_armed {n : Nat} (l : Bool) (hn : n < s.pins.inp.length) (h : s.pinFree n = true) :
    ((s.pinChange n l).pin n).armed = true := by
  have hm : (s.pin n).masked = false := by
    unfold State.pinFree at h
    exact (Bool.not_eq_true' _).mp ((Bool.and_eq_true _ _).mp h).1
  have he : s.pinChange n l = (s.setPin n (((s.pin n).take n s.now (!l)).take n s.now l)).countNow kPinEvents
      (if (s.pin n).level = l then 2 else 1) := by
    simp only [State.pinChange, hm, h, if_true, Bool.false_eq_true, if_false]
  rw [he]
  exact (congrArg Pin.armed (State.setPin_pin s hn)).trans (Pin.take_take_armed ..)

theorem exec_wakeInput_wakes {n : Nat} (hp : s.clk.phase = .sleep) (hn : n = 3 ∨ n = 5) (hf : s.pinFree n = true)
    (ha : ((s.pinChange n false).pin n).armed = true) : exec (.wakeInput n) s = .next (s.pinChange n false).warmReset := by
  simp only [exec, execWakeInput, hp, hn, hf, ha, and_self, Bool.and_self, if_true]

theorem exec_wakeInput_changes {n : Nat} (hp : s.clk.phase = .sleep) (hn : n = 3 ∨ n = 5)
    (h : s.pinFree n = false ∨ ((s.pinChange n false).pin n).armed = false) :
    exec (.wakeInput n) s = .next (s.pinChange n false) := by
  have hc : ¬ (s.pinFree n && ((s.pinChange n false).pin n).armed) = true := by
    rcases h with h | h <;> simp [h]
  simp only [exec, execWakeInput, hp, hn, and_self, if_true, if_neg hc]

theorem exec_wakeInput_out {n : Nat} (h : s.clk.phase ≠ .sleep ∨ (n ≠ 3 ∧ n ≠ 5)) : exec (.wakeInput n) s = .next s :=
  congrArg Host.Outcome.next (if_neg (by tauto))

end

/-- Settles O22: what the fold, the switch-in messages and the ports leave outside the fast domains is as it was, and the
domains take the rest; sleep goes through the same fast domains. -/
theorem resetsAndSleep : Obligations.ResetsAndSleep := by
  unfold Obligations.ResetsAndSleep
  refine ⟨fun s => State.warmReset_restarted, fun s hw => ⟨?perst, ?wake, ?noWake⟩, fun s c hw => ?cannot,
    fun s h u v hu => ?kind0, fun s d hd hn hi hp => ?sleeps, fun s h => ?awake,
    fun s n hp hn => ⟨exec_wakeInput_wakes hp hn, exec_wakeInput_changes hp hn⟩, fun s n => exec_wakeInput_out,
    fun s n => State.pinChange_armed false⟩
  case perst => exact exec_warmReset_acts hw (.inl rfl)
  case wake => exact fun hp => exec_warmReset_acts hw (.inr hp)
  case noWake => exact fun hp => exec_warmReset_stays (.inr ⟨WarmCause.noConfusion, hp⟩)
  case cannot => exact exec_warmReset_stays (.inl hw)
  case kind0 =>
    subst hu
    rw [v.exec_resetFunctionWarm]
    exact ⟨fun hs => by rw [State.cmdWarm_unsequenced hs], fun hs => by rw [State.cmdWarm_sequenced hs]⟩
  case sleeps =>
    have hoff := State.fastOff_off (s := s.fold)
    have hclk : s.fold.clk = s.clk := State.fold_outside.clk
    obtain ⟨hc, ha, hh, hs, hr, hg⟩ := State.slept_fields (s := s.fold.fastOff)
    refine ⟨_, exec_sleepEntry_due hd hn hi hp, ?_, ha, ?_, ?_, hs, hr, hg.trans hoff.power.1, ?_, ?_⟩
    · rw [hc]
    · rw [hh]; rfl
    · rw [hh]; rfl
    · rw [hc, hoff.clk]
    · rw [hc, hoff.clk, hclk]
  case awake =>
    rcases hs : s.pwr.sleepAt with _ | d
    · exact exec_sleepEntry_none hs
    · refine exec_sleepEntry_waits hs ?_
      rcases h with h | ⟨d', h, hd⟩ | h
      · cases hs.symm.trans h
      · cases hs.symm.trans h
        exact .inl hd
      · exact .inr h

end Sys2Proof.Machine
end

section
/-! SUPPORT. Rounds, sends and additions of the Indigo ring: what a round's start and end leave of a context, when a message
is sent, and what the addition pass reads (11 R317, R318, R320 to R322, R333, R336). -/

namespace Sys2Proof.Machine

/-! ### What leaves the contexts alone (10 R286, R293; 20 R532) -/

section
variable {s : State}

@[simp] theorem State.post_exch (r : MemReq) : (s.post r).exch = s.exch := by
  unfold State.post
  split <;> rfl

@[simp] theorem State.askRange_exch (req cls a n : Nat) : (s.askRange req cls a n).exch = s.exch :=
  State.foldl_keeps (π := State.exch) (fun _ _ => State.post_exch _) ..

@[simp] theorem State.collWritten_exch (w : List (Nat × Nat)) : (s.collWritten w).exch = s.exch :=
  State.askRange_exch ..

@[simp] theorem State.ctxFault_exch (c cause elem node : Nat) : (s.ctxFault c cause elem node).exch = s.exch :=
  State.contained_exch ..

@[simp] theorem State.ctxPoison_exch (c elem node : Nat) : (s.ctxPoison c elem node).exch = s.exch :=
  State.ctxFault_exch ..

@[simp] theorem State.checkPairs_exch (c : Nat) : (s.checkPairs c).exch = s.exch := by
  refine State.foldl_keeps (π := State.exch) (fun x p => ?_) ..
  refine State.foldl_keeps (π := State.exch) (fun y i => ?_) ..
  dsimp only
  split
  · rfl
  · exact State.ctxFault_exch ..

@[simp] theorem State.gatherPoison_exch (c : Nat) : (s.gatherPoison c).exch = s.exch := by
  unfold State.gatherPoison
  dsimp only
  split
  · rfl
  · split
    · exact State.foldl_keeps (π := State.exch) (fun _ _ => by rfl) ..
    · exact State.ctxPoison_exch ..

/-- A loop over states and events whose passes leave the contexts alone leaves them alone. -/
theorem State.foldl_fst_exch {α : Type} {f : State × Ev → α → State × Ev} (h : ∀ a x, (f a x).1.exch = a.1.exch)
    (l : List α) (a : State × Ev) : (l.foldl f a).1.exch = a.1.exch :=
  List.foldlRecOn (motive := fun b : State × Ev => b.1.exch = a.1.exch) l f rfl fun b hb x _ => (h b x).trans hb

/-- The elements of a collective's result change memory, ports' queues and counts alone. -/
@[simp] theorem State.writeColl_exch (c : Nat) (d : Decl) (es : List Nat) : (s.writeColl c d es).exch = s.exch := by
  unfold State.writeColl
  dsimp only
  split
  case isTrue =>
    rw [State.raise_exch, State.collWritten_exch]
    refine State.foldl_fst_exch (fun a k => ?_) ..
    exact State.foldl_keeps (π := State.exch) (fun _ _ => by rfl) ..
  case isFalse =>
    rw [State.raise_exch, State.collWritten_exch]
    refine (State.foldl_keeps (π := State.exch) (fun _ _ => by rfl) ..).trans ?_
    exact State.foldl_fst_exch (fun _ _ => by rfl) ..

theorem State.inject_exch (m : Msg) (ctx cls : Nat) : (s.inject m ctx cls).exch = s.exch := by
  unfold State.inject
  dsimp only
  split <;> rfl

theorem State.inject_dram (m : Msg) (ctx cls : Nat) : (s.inject m ctx cls).mem.dram = s.mem.dram := by
  unfold State.inject
  dsimp only
  split <;> rfl

theorem State.ctx_congr {t : State} (h : t.exch = s.exch) (c : Nat) : t.ctx c = s.ctx c :=
  congrArg (Tab.get ({} : CtxSt) c) (congrArg Exch.ctxs h)

end

/-! ### The end of a round (11 R321, R322, R334) -/

/-- What the end of a round leaves of a context: its record, peer table and send state are as they were, and landed
elements are at most taken. -/
structure CtxSt.Rests (x y : CtxSt) : Prop where
  cfg : y.cfg = x.cfg
  peers : y.peers = x.peers
  send : y.send = x.send
  pairs : x.pairs = [] → y.pairs = []

/-- What the end of a round leaves of the memories and of every context. -/
structure Rests (s t : State) : Prop where
  mem : t.mem = s.mem
  ctx : ∀ c, (s.ctx c).Rests (t.ctx c)

section
variable {s t u : State}

theorem CtxSt.Rests.refl (x : CtxSt) : x.Rests x := ⟨rfl, rfl, rfl, id⟩

theorem CtxSt.Rests.trans {x y z : CtxSt} (h : x.Rests y) (h' : y.Rests z) : x.Rests z :=
  ⟨h'.cfg.trans h.cfg, h'.peers.trans h.peers, h'.send.trans h.send, fun hx => h'.pairs (h.pairs hx)⟩

theorem Rests.refl (s : State) : Rests s s := ⟨rfl, fun _ => .refl _⟩

theorem Rests.trans (h : Rests s t) (h' : Rests t u) : Rests s u :=
  ⟨h'.mem.trans h.mem, fun c => (h.ctx c).trans (h'.ctx c)⟩

theorem Rests.foldl {α : Type} {f : State → α → State} (h : ∀ x a, Rests x (f x a)) (l : List α) (s : State) :
    Rests s (l.foldl f s) :=
  List.foldlRecOn (motive := Rests s) l f (.refl s) fun x hx a _ => hx.trans (h x a)

theorem State.setCtx_rests {c : Nat} {y : CtxSt} (h : (s.ctx c).Rests y) : Rests s (s.setCtx c y) := by
  refine ⟨rfl, fun d => ?_⟩
  by_cases hd : d = c
  · subst hd
    rwa [State.setCtx_ctx]
  · rw [State.setCtx_ctx_ne s hd]
    exact .refl _

theorem State.setEngine_rests (f : Nat) (x : Engine) : Rests s (s.setEngine f x) := ⟨rfl, fun _ => .refl _⟩

/-- A solve that takes what its contexts brought empties them. -/
theorem State.feedSolve_rests (f : Nat) : Rests s (s.feedSolve f) := by
  unfold State.feedSolve
  split
  · exact .refl s
  · dsimp only
    split
    · refine (State.setEngine_rests ..).trans (.foldl (fun x c => ?_) ..)
      exact State.setCtx_rests ⟨rfl, rfl, rfl, fun _ => rfl⟩
    · exact .refl s

theorem State.tryEnd_rests (c : Nat) : Rests s (s.tryEnd c) := by
  unfold State.tryEnd
  dsimp only
  split
  · refine Rests.trans (State.setCtx_rests ?_) (.foldl (fun x f => x.feedSolve_rests f) ..)
    exact ⟨rfl, rfl, rfl, id⟩
  · exact .refl s

end

/-! ### The start of a round (11 R318, R320, R326 to R329) -/

/-- The record and the peer table of a context. -/
def State.tables (s : State) (c : Nat) : CtxRec × List Peer := ((s.ctx c).cfg, (s.ctx c).peers)

section
variable {s t : State} {c : Nat}

theorem State.tables_congr (h : t.exch = s.exch) : t.tables c = s.tables c := by
  simp only [State.tables, State.ctx_congr h]

theorem State.setCtx_tables (x : CtxSt) : (s.setCtx c x).tables c = (x.cfg, x.peers) := by
  simp only [State.tables, State.setCtx_ctx]

theorem Rests.tables (h : Rests s t) : t.tables c = s.tables c := by
  simp only [State.tables, (h.ctx c).cfg, (h.ctx c).peers]

theorem State.drainColl_tables : (s.drainColl c).tables c = s.tables c :=
  (State.tables_congr (State.raise_exch ..)).trans (State.setCtx_tables _)

/-- The result of a collective written once its last message has landed. -/
theorem State.gatherColl_tables (d : Decl) (es : List Nat) :
    (((s.setCtx c { s.ctx c with complete := true }).writeColl c d es).gatherPoison c).tables c = s.tables c := by
  rw [State.tables_congr (State.gatherPoison_exch c), State.tables_congr (State.writeColl_exch c d es),
    State.setCtx_tables]
  rfl

theorem State.afterLanding_tables : (s.afterLanding c).tables c = s.tables c := by
  unfold State.afterLanding
  extract_lets k coll s1 x g s3 n s2
  have h1 : s1.tables c = s.tables c := by
    unfold s1
    split
    · exact State.drainColl_tables
    · rfl
  have h2 : s2.tables c = s1.tables c := by
    unfold s2
    split
    · split
      · exact State.gatherColl_tables ..
      · exact State.setCtx_tables _
    · rfl
  exact (State.tryEnd_rests c).tables.trans (h2.trans h1)

theorem State.runAdmission_tables : (s.runAdmission c).tables c = s.tables c := State.setCtx_tables _

theorem State.sourcePoison_tables (n : Nat) : (s.sourcePoison c n).tables c = s.tables c := by
  unfold State.sourcePoison
  extract_lets x f own hit
  split
  · rfl
  · split
    · exact State.setCtx_tables _
    · exact State.tables_congr (State.ctxPoison_exch ..)

theorem State.beginKind_tables : (s.beginKind c).tables c = s.tables c := by
  unfold State.beginKind
  dsimp only
  split
  case h_1 => exact State.runAdmission_tables
  case h_2 => exact State.setCtx_tables _
  case h_3 | h_4 | h_5 =>
    rw [State.tables_congr (State.raise_exch ..), State.sourcePoison_tables, State.setCtx_tables]
    rfl
  case h_6 | h_7 =>
    refine State.tables_congr ((State.checkPairs_exch c).trans ?_)
    rw [State.dramWr_exch, State.askRange_exch]
  case h_8 => rfl

/-- A started round has its number and the job's epoch; the rest of the record and the peer table are as they were. -/
theorem State.startRound_tables : (s.startRound c).tables c =
    ({ (s.ctx c).cfg with seq := s.roundSeq (s.ctx c).round, epoch := s.job.epoch }, (s.ctx c).peers) := by
  unfold State.startRound
  extract_lets x cfg s1 s2
  have h1 : s2.tables c = s1.tables c := State.beginKind_tables
  have h2 : (s2.setCtx c { s2.ctx c with expect := s2.expected c }).tables c = s2.tables c := State.setCtx_tables _
  exact State.afterLanding_tables.trans (h2.trans (h1.trans (State.setCtx_tables _)))

theorem exec_roundStart : exec (.roundStart c) s = .next (if s.mayStartRound c = true then s.startRound c else s) := rfl

end

/-! ### A message sent (11 R317, R320, R322, R336) -/

section
variable {s : State} {c k : Nat} {p : PeerSt} {m : Msg}

theorem State.askSeg_dram (g : Nat) : (s.askSeg c k g).mem.dram = s.mem.dram := by
  unfold State.askSeg
  dsimp only
  split
  · exact (unseen_askAll ..).bytes.1
  · rfl

/-- A message's first sending, with its reads asked for and counted, when it goes to another node (11 R320, R322). -/
def State.sent (s : State) (c k : Nat) (p : PeerSt) (m : Msg) : State :=
  (((s.askSeg c k p.next).count kIxMsgs 1).setCtx c { s.ctx c with send := setAt (s.ctx c).send k { p with
    next := p.next + 1, credits := p.credits - 1
    unacked := p.unacked ++ [{ msg := m, sendings := 1, lastSent := s.now }] } }).inject m c m.hdr.cls

/-- A message that lands on its own node, with its reads asked for and counted (11 R320). -/
def State.sentHere (s : State) (c k : Nat) (p : PeerSt) (m : Msg) : State :=
  ((((s.askSeg c k p.next).count kIxMsgs 1).setCtx c { s.ctx c with
    send := setAt (s.ctx c).send k { p with next := p.next + 1 } }).landMsg m.hdr.ctx s.nodeIndex p.next m).tryEnd c

/-- Nothing is sent without a round, a credit, a ready payload and a message. -/
theorem State.sendNext_stays (h : ∀ p, (s.ctx c).send[k]? = some p → (s.ctx c).active = false ∨ p.credits = 0 ∨
    s.segReady c k p.next = false ∨ s.buildMsg c k p.next = none) : s.sendNext c k = s := by
  unfold State.sendNext
  dsimp only
  split
  · rfl
  · rename_i p hp
    split
    · rename_i hsend
      obtain ⟨⟨ha, hc⟩, hr⟩ : ((s.ctx c).active = true ∧ 0 < p.credits) ∧ s.segReady c k p.next = true := by
        simpa using hsend
      rcases h p hp with h | h | h | h
      · simp [h] at ha
      · omega
      · simp [h] at hr
      · rw [h]
    · rfl

/-- A message that may be sent leaves for another node, lands here, or waits for its context here to start. -/
theorem State.sendNext_sends (hp : (s.ctx c).send[k]? = some p) (ha : (s.ctx c).active = true) (hc : 0 < p.credits)
    (hr : s.segReady c k p.next = true) (hm : s.buildMsg c k p.next = some m) : s.sendNext c k =
      if (m.hdr.dstX, m.hdr.dstY, m.hdr.dstZ) = (s.torus.x, s.torus.y, s.torus.z) then
        if s.selfReady m.hdr = true then s.sentHere c k p m else s
      else s.sent c k p m := by
  have hsend : ((s.ctx c).active && decide (0 < p.credits) && s.segReady c k p.next) = true := by simp [ha, hc, hr]
  simp only [State.sendNext, hp, hm]
  exact if_pos hsend

theorem exec_messageSend : exec (.messageSend c k) s = .next (s.sendNext c k) := rfl

theorem State.sent_send : ((s.sent c k p m).ctx c).send = setAt (s.ctx c).send k { p with
    next := p.next + 1, credits := p.credits - 1
    unacked := p.unacked ++ [{ msg := m, sendings := 1, lastSent := s.now }] } := by
  rw [State.sent, State.ctx_congr (State.inject_exch ..), State.setCtx_ctx]

theorem State.sent_dram : (s.sent c k p m).mem.dram = s.mem.dram := by
  rw [State.sent, State.inject_dram]
  exact (congrArg MemSys.dram (State.count_mem ..)).trans (State.askSeg_dram _)

end

/-! ### The addition pass (11 R333) -/

section
variable {s t : State} {c : Nat}

/-- What an addition reads of the job and the torus: the image, its placement and the machine (07 R176; 13 R385). -/
def State.placing (s : State) : Option Image × Option Bound × Torus := (s.job.img, s.job.bound, s.torus)

theorem State.ctxDecl_congr (h : t.placing = s.placing) : t.ctxDecl c = s.ctxDecl c := by
  simp only [State.placing, Prod.mk.injEq] at h
  obtain ⟨himg, -, -⟩ := h
  simp only [State.ctxDecl, himg]

theorem State.keyNode_congr (h : t.placing = s.placing) (x : CtxSt) (key : Nat) : t.keyNode x key = s.keyNode x key := by
  simp only [State.placing, Prod.mk.injEq] at h
  obtain ⟨-, hbound, htorus⟩ := h
  simp only [State.keyNode, State.peerNode, State.blockOf, hbound, htorus]

@[simp] theorem State.post_torus (r : MemReq) : (s.post r).torus = s.torus := by
  unfold State.post
  split <;> rfl

@[simp] theorem State.askRange_torus (req cls a n : Nat) : (s.askRange req cls a n).torus = s.torus :=
  State.foldl_keeps (π := State.torus) (fun _ _ => State.post_torus _) ..

theorem State.contained_placing (r : FaultRec) : (s.contained r).placing = s.placing := by
  unfold State.contained
  dsimp only
  split <;> simp [State.placing]

theorem State.addPair_placing (d : Decl) (node i v : Nat) : (s.addPair c d node i v).placing = s.placing := by
  unfold State.addPair
  dsimp only
  split
  · simp [State.placing, (unseen_askRange ..).job]
  · exact State.contained_placing _

/-- Additions change nothing that the next one reads of the job and the torus. -/
theorem State.foldl_addPair (x : CtxSt) (l : List (Nat × Nat × Nat)) (s : State) :
    l.foldl (fun y v => y.addPair c (y.ctxDecl c) (y.keyNode x v.1) v.2.1 v.2.2) s =
    l.foldl (fun y v => y.addPair c (s.ctxDecl c) (s.keyNode x v.1) v.2.1 v.2.2) s := by
  suffices h : ∀ y : State, y.placing = s.placing →
      l.foldl (fun y v => y.addPair c (y.ctxDecl c) (y.keyNode x v.1) v.2.1 v.2.2) y =
      l.foldl (fun y v => y.addPair c (s.ctxDecl c) (s.keyNode x v.1) v.2.1 v.2.2) y from h s rfl
  induction l with
  | nil => exact fun y _ => rfl
  | cons v l ih =>
    intro y hy
    rw [List.foldl_cons, List.foldl_cons, State.ctxDecl_congr hy, State.keyNode_congr hy]
    exact ih _ ((State.addPair_placing ..).trans hy)

theorem exec_accumulateAddPass_adds {x : CtxSt} {u : State} (hx : x = s.ctx c)
    (h : x.cfg.kind = 7 ∧ x.active = true ∧ x.complete = true)
    (hu : u = x.pairs.foldl (fun y v => y.addPair c (s.ctxDecl c) (s.keyNode x v.1) v.2.1 v.2.2) s) :
    exec (.accumulateAddPass c) s = .next ((u.setCtx c { u.ctx c with pairs := [] }).tryEnd c) := by
  subst hx
  rw [hu, ← State.foldl_addPair]
  exact congrArg Host.Outcome.next (if_pos h)

theorem exec_accumulateAddPass_stays
    (h : (s.ctx c).cfg.kind ≠ 7 ∨ (s.ctx c).active = false ∨ (s.ctx c).complete = false) :
    exec (.accumulateAddPass c) s = .next s := by
  refine congrArg Host.Outcome.next (if_neg ?_)
  rintro ⟨hk, ha, hc⟩
  simp [hk, ha, hc] at h

/-- A context emptied of its pairs ends its round without any, and the device memory is as it was. -/
theorem State.emptied_tryEnd : (((s.setCtx c { s.ctx c with pairs := [] }).tryEnd c).ctx c).pairs = [] ∧
    ((s.setCtx c { s.ctx c with pairs := [] }).tryEnd c).mem.dram = s.mem.dram := by
  obtain ⟨hmem, hctx⟩ := State.tryEnd_rests (s := s.setCtx c { s.ctx c with pairs := [] }) c
  exact ⟨(hctx c).pairs (by rw [State.setCtx_ctx]), congrArg MemSys.dram hmem⟩

end

/-- Settles O58: the start of a round and its end keep the context's tables, and a send is the record of its message or its
landing. -/
theorem roundsAndSends : Obligations.RoundsAndSends := by
  unfold Obligations.RoundsAndSends
  refine ⟨fun s c h => ?waits, fun s c h => ?starts, fun s c k h => congrArg Host.Outcome.next (State.sendNext_stays h),
    ?sends, ?adds, fun s c => exec_accumulateAddPass_stays⟩
  case waits => rw [exec_roundStart, h, if_neg Bool.false_ne_true]
  case starts =>
    obtain ⟨hcfg, hpeers⟩ := Prod.mk.inj (s.startRound_tables (c := c))
    exact ⟨_, by rw [exec_roundStart, if_pos h], rfl, by rw [hcfg], by rw [hcfg], hpeers⟩
  case sends =>
    rintro s u c k p m hp ha hc hr hm rfl
    rw [exec_messageSend, State.sendNext_sends hp ha hc hr hm]
    refine ⟨fun hd => ⟨_, by rw [if_neg hd], State.sent_send, ?_, State.sent_dram⟩, fun hd hself => ?_, fun hd hself => ?_⟩
    · rw [State.sent_send]
      rfl
    · rw [if_pos hd, if_pos hself]
      rfl
    · rw [if_pos hd, hself, if_neg Bool.false_ne_true]
  case adds =>
    intro s u c x hx hk ha hc hu
    obtain ⟨hpairs, hdram⟩ := State.emptied_tryEnd
    exact ⟨_, exec_accumulateAddPass_adds hx ⟨hk, ha, hc⟩ hu, rfl, hpairs, hdram⟩

end Sys2Proof.Machine
end

section
/-! SUPPORT. Receptions of the Indigo ring: the outcomes of a message received under the receive rules, and what an
acknowledgement releases (11 R319 to R322; 12 R360, R361). -/

namespace Sys2Proof.Machine

/-! ### A message received (11 R319, R321; 12 R361) -/

section
variable {s : State} {m : Msg}

theorem exec_messageReceived : exec (.messageReceived m) s = .next (s.msgRx m) := rfl

theorem State.msgRx_bad (h : m.mcrcOk = false ∨ 2 < m.hdr.mkind) : s.msgRx m = s.count (kMsgBad m.port) 1 :=
  if_pos (by simpa using h)

/-- A message with a good CRC and a kind that R361 names is handled by its kind. -/
theorem State.msgRx_good (hc : m.mcrcOk = true) (hk : m.hdr.mkind ≤ 2) : s.msgRx m =
    if m.hdr.mkind = 1 then s.ackMsg m else if m.hdr.mkind = 2 then s else s.dataMsg m :=
  if_neg (by simp [hc, hk])

theorem State.msgRx_test (hc : m.mcrcOk = true) (hk : m.hdr.mkind = 2) : s.msgRx m = s := by
  rw [State.msgRx_good hc hk.le, hk]
  rfl

theorem State.msgRx_ack (hc : m.mcrcOk = true) (hk : m.hdr.mkind = 1) : s.msgRx m = s.ackMsg m := by
  rw [State.msgRx_good hc (by omega), if_pos hk]

theorem State.msgRx_data (hc : m.mcrcOk = true) (hk : m.hdr.mkind = 0) : s.msgRx m = s.dataMsg m := by
  rw [State.msgRx_good hc (by omega), hk]
  rfl

theorem State.dataMsg_verdict (h : m.hdr.ctx = 0) : s.dataMsg m = s.verdictRx m.hdr (VerdictMsg.decode m.body) := if_pos h

theorem State.dataMsg_context (h : m.hdr.ctx ≠ 0) : s.dataMsg m = s.takeMsg m.hdr (s.ctx m.hdr.ctx).cfg.seq
    ((s.ctx m.hdr.ctx).expect.contains (m.hdr.src, m.hdr.segment)) (s.landMsg m.hdr.ctx m.hdr.src m.hdr.segment m) :=
  if_neg h

end

/-! ### An acknowledgement (11 R320, R322; 12 R361) -/

theorem getElem?_setAt_same {α : Type} {l : List α} {i : Nat} {v : α} (h : i < l.length) : (setAt l i v)[i]? = some v := by
  have hi : i < (setAt l i v).length := by rwa [length_setAt]
  rw [List.getElem?_eq_getElem hi, ← List.getD_eq_getElem _ v hi, getD_setAt_same h]

/-- Whether a kept message has a sequence number and a segment. -/
def Unacked.is (q g : Nat) (u : Unacked) : Bool := decide (u.msg.hdr.seq = q) && decide (u.msg.hdr.segment = g)

/-- A peer's send state without a kept message, its credit returned (11 R320, R322). -/
def PeerSt.released (p : PeerSt) (q g : Nat) : PeerSt :=
  { p with unacked := p.unacked.filter (fun u => !u.is q g), credits := p.credits + 1 }

section
variable {s : State} {c k q g : Nat} {p : PeerSt}

theorem exec_acknowledgement : exec (.acknowledgement c k q g) s = .next (s.ackRx c k q g) := rfl

theorem State.ackRx_releases (hp : (s.ctx c).send[k]? = some p) (h : p.unacked.any (Unacked.is q g) = true) :
    s.ackRx c k q g =
      (s.setCtx c { s.ctx c with send := setAt (s.ctx c).send k (p.released q g) }).tryEnd c := by
  simp only [State.ackRx, hp]
  exact if_pos h

theorem State.ackRx_stays (h : ∀ p, (s.ctx c).send[k]? = some p → p.unacked.any (Unacked.is q g) = false) :
    s.ackRx c k q g = s := by
  unfold State.ackRx
  dsimp only
  split
  · rfl
  · rename_i p hp
    exact if_neg (ne_true_of_eq_false (h p hp))

/-- What the round's end may do afterwards leaves the released send state. -/
theorem State.ackRx_send (hp : (s.ctx c).send[k]? = some p) (h : p.unacked.any (Unacked.is q g) = true) :
    ((s.ackRx c k q g).ctx c).send[k]? = some (p.released q g) := by
  obtain ⟨hk, -⟩ := List.getElem?_eq_some_iff.mp hp
  rw [State.ackRx_releases hp h, ((State.tryEnd_rests c).ctx c).send, State.setCtx_ctx]
  exact getElem?_setAt_same hk

end

/-- Settles O59: each kind of message is handled by its rule, and an acknowledgement of a kept message releases it. -/
theorem messagesReceived : Obligations.MessagesReceived := by
  unfold Obligations.MessagesReceived
  refine ⟨fun s m h => ?bad, fun s m hc hk => ?test, fun s m hc hk => ?ack, fun s m hc hk h0 => ?verdict, ?data,
    fun s c k q g p hp h => ⟨_, exec_acknowledgement, rfl, _, State.ackRx_send hp h, rfl, rfl⟩,
    fun s c k q g h => congrArg Host.Outcome.next (State.ackRx_stays h)⟩
  case bad => rw [exec_messageReceived, State.msgRx_bad h]
  case test => rw [exec_messageReceived, State.msgRx_test hc hk]
  case ack =>
    rw [exec_messageReceived, State.msgRx_ack hc hk]
    rfl
  case verdict => rw [exec_messageReceived, State.msgRx_data hc hk, State.dataMsg_verdict h0]
  case data =>
    rintro s m h x hc rfl rfl hk h0
    rw [exec_messageReceived, State.msgRx_data hc hk, State.dataMsg_context h0, State.takeMsg_eq]

end Sys2Proof.Machine
end

section
/-! SUPPORT. `PORT_CTL`: what leaving `RUN`, going off and starting to train leave of a port, and what each action leaves of
it (12 R373, R376; 14 R428). -/

namespace Sys2Proof.Machine

/-! ### A port that leaves its state (12 R373, R374) -/

section
variable {s : State} {p reason : Nat} {st : PortState}

theorem State.abortTransit_ports : (s.abortTransit p).ports = s.ports := by
  unfold State.abortTransit
  exact State.foldl_keeps (π := State.ports) (fun _ _ => by rfl) ..

@[simp] theorem State.leaveRun_length : (s.leaveRun p reason st).ports.length = s.ports.length := by
  unfold State.leaveRun
  dsimp only
  rw [State.setPort_length, State.abortTransit_ports]
  split_ifs <;> simp

theorem State.leaveRun_state (hp : p < s.ports.length) : ((s.leaveRun p reason st).port p).state = st := by
  have hlen : p < (s.leaveRun p reason st).ports.length := by rwa [State.leaveRun_length]
  unfold State.leaveRun at hlen ⊢
  rw [State.setPort_port _ (by rwa [State.setPort_length] at hlen)]

theorem State.retrain_up (hu : (s.port p).up = true) : s.retrain p reason = s.leaveRun p reason .retrain := if_pos hu

theorem State.retrain_down (hu : (s.port p).up = false) : s.retrain p reason = s := if_neg (ne_true_of_eq_false hu)

@[simp] theorem State.portOff_length : (s.portOff p reason).ports.length = s.ports.length := by
  unfold State.portOff
  split <;> simp

theorem State.portOff_state (hp : p < s.ports.length) : ((s.portOff p reason).port p).state = .off := by
  unfold State.portOff
  split
  · exact State.leaveRun_state hp
  · rw [State.setPort_port _ (by simpa using hp)]

theorem State.startPort_loopback (hp : p < s.ports.length) :
    ((s.startPort p).port p).loopback = (s.port p).loopback := by
  by_cases h : s.portDue p
  · rw [State.startPort_starts h, State.setPort_port s hp]
  · rw [State.startPort_stays h]

end

/-! ### The actions (12 R373, R376; 14 R428) -/

section
variable {u : State} {p act a b : Nat}

theorem State.portRefusal_iff : u.portRefusal p act = true ↔
    (3 ≤ act ∧ act ≤ 6 ∧ u.imageRuns = true) ∨ ((act = 0 ∨ act = 1 ∨ act = 3) ∧ u.boundHop p = true) ∨
      (act = 7 ∧ (u.port p).state ≠ .failed) := by
  simp only [State.portRefusal, Bool.or_eq_true, Bool.and_eq_true, decide_eq_true_eq, bne_iff_ne, or_assoc, and_assoc]

/-- An action that is not refused returns a port from `FAILED` only. -/
theorem State.failed_of_return (h : u.portRefusal p 7 = false) : (u.port p).state = .failed := by
  by_contra hs
  exact Bool.false_ne_true (h.symm.trans (State.portRefusal_iff.mpr (.inr (.inr ⟨rfl, hs⟩))))

theorem State.portAct_enable_loopback (hl : (u.port p).loopback = true) :
    u.portAct p 0 a b = u.setPort p { u.port p with enabled := true } := if_pos hl

theorem State.portAct_enable_starts (hl : (u.port p).loopback = false) :
    u.portAct p 0 a b = (u.setPort p { u.port p with enabled := true }).startPort p := if_neg (ne_true_of_eq_false hl)

theorem State.portAct_retrain_up (hu : (u.port p).up = true) : u.portAct p 2 a b = u.leaveRun p 1 .retrain :=
  State.retrain_up hu

theorem State.portAct_retrain_down (hu : (u.port p).up = false) : u.portAct p 2 a b = u := State.retrain_down hu

theorem State.portAct_unloop (hl : (u.port p).loopback = true) :
    u.portAct p 4 a b = (u.setPort p { u.port p with loopback := false }).startPort p := if_pos hl

theorem State.portAct_unloop_stays (hl : (u.port p).loopback = false) : u.portAct p 4 a b = u :=
  if_neg (ne_true_of_eq_false hl)

section
variable (hp : p < u.ports.length)
include hp

theorem State.portAct_enabled : ((u.portAct p 0 a b).port p).enabled = true := by
  cases hl : (u.port p).loopback
  · rw [State.portAct_enable_starts hl, State.startPort_enabled, State.setPort_port u hp]
  · rw [State.portAct_enable_loopback hl, State.setPort_port u hp]

theorem State.portAct_disable : (u.portAct p 1 a b).port p = { (u.portOff p 1).port p with enabled := false } :=
  State.setPort_port _ (by simpa using hp)

theorem State.portAct_loop : (u.portAct p 3 a b).port p = { (u.portOff p 1).port p with loopback := true } :=
  State.setPort_port _ (by simpa using hp)

theorem State.portAct_unloop_loopback : ((u.portAct p 4 a b).port p).loopback = false := by
  cases hl : (u.port p).loopback
  · rw [State.portAct_unloop_stays hl, hl]
  · rw [State.portAct_unloop hl, State.startPort_loopback (by simpa using hp), State.setPort_port u hp]

theorem State.portAct_test :
    (u.portAct p 5 a b).port p = { u.port p with test := some (a, b), testSent := 0 } := State.setPort_port u hp

theorem State.portAct_testStop : (u.portAct p 6 a b).port p = { u.port p with test := none } := State.setPort_port u hp

theorem State.portAct_return :
    (u.portAct p 7 a b).port p = { u.port p with state := .off, enteredAt := u.now } := State.setPort_port u hp

end

end

/-! ### The command (14 R418, R428) -/

/-- The instructions of `PORT_CTL` by their action (14 R428). -/
def portActions (h : Hdr) (p a b : Nat) : List (Nat × Instr) :=
  [(0, .portCtlEnable h p a b), (1, .portCtlDisable h p a b), (2, .portCtlRetrain h p a b),
    (3, .portCtlLoopbackStart h p a b), (4, .portCtlLoopbackStop h p a b), (5, .portCtlTestStart h p a b),
    (6, .portCtlTestStop h p a b), (7, .portCtlReturnFromFailed h p a b)]

section
variable {s u : State} {h : Hdr} {op : HostOp} {p q act a b : Nat} {c : Instr} {x : Answer}

/-- Acceptance that does nothing itself leaves the ports. -/
theorem State.begun_ports (ha : s.accepted h op = s.listed h op) : (s.begun h op).ports = s.ports := by
  rw [State.begun, ha]
  simp [State.listed]

theorem State.answered_port : (u.answered h x).port q = u.port q := State.port_congr (by simp [State.answered]) q

theorem exec_portAction (hc : (act, c) ∈ portActions h p a b) :
    exec c s = .next (s.submit h (.portCtl p act a b)) := by
  simp only [portActions, List.mem_cons, Prod.mk.injEq, List.not_mem_nil, or_false] at hc
  rcases hc with ⟨rfl, rfl⟩ | ⟨rfl, rfl⟩ | ⟨rfl, rfl⟩ | ⟨rfl, rfl⟩ | ⟨rfl, rfl⟩ | ⟨rfl, rfl⟩ | ⟨rfl, rfl⟩ | ⟨rfl, rfl⟩ <;>
    rfl

theorem Served.exec_portCtl (v : Served s h (.portCtl p act a b)) (hc : (act, c) ∈ portActions h p a b) :
    exec c s = .next ((s.begun h (.portCtl p act a b)).cmdPort h p act a b).checkJournal :=
  (exec_portAction hc).trans (congrArg Host.Outcome.next v.submit)

theorem State.cmdPort_refused (hr : u.portRefusal p act = true) :
    (u.cmdPort h p act a b).checkJournal = u.answered h { status := 0x10, detail := 0x0202 } :=
  congrArg State.checkJournal (if_pos hr)

theorem State.cmdPort_acts (hr : u.portRefusal p act = false) : (u.cmdPort h p act a b).checkJournal =
    (u.portAct p act a b).answered h { result := ((u.portAct p act a b).port p).state.code } :=
  congrArg State.checkJournal (if_neg (ne_true_of_eq_false hr))

end

/-- Settles O13: the answer is that of the action taken, and each action by its own rule. -/
theorem portControl : Obligations.PortControl := by
  unfold Obligations.PortControl
  refine ⟨?command, fun u p act => State.portRefusal_iff⟩
  rintro s h p act a b c u v rfl hc
  have hports : (s.begun h (.portCtl p act a b)).ports = s.ports := State.begun_ports rfl
  rw [v.exec_portCtl hc, ← State.port_congr hports p, ← hports]
  generalize s.begun h (.portCtl p act a b) = u
  refine ⟨fun hr => by rw [State.cmdPort_refused hr], fun hr => ⟨_, _, by rw [State.cmdPort_acts hr], rfl, rfl, ?acts⟩⟩
  simp only [State.answered_port, true_and]
  refine fun hp => ⟨?enabled, ?stays, ?trains, ?disable, ?up, ?down, ?loop, ?unloop, ?test, ?testStop, ?failed⟩
  case enabled => rintro rfl; exact State.portAct_enabled hp
  case stays => rintro rfl hl; exact State.portAct_enable_loopback hl
  case trains => rintro rfl hl; exact State.portAct_enable_starts hl
  case disable =>
    rintro rfl
    rw [State.portAct_disable hp]
    exact ⟨rfl, State.portOff_state hp⟩
  case up =>
    rintro rfl hu
    rw [State.portAct_retrain_up hu]
    exact State.leaveRun_state hp
  case down => rintro rfl hu; exact State.portAct_retrain_down hu
  case loop =>
    rintro rfl
    rw [State.portAct_loop hp]
    exact ⟨rfl, State.portOff_state hp⟩
  case unloop => rintro rfl; exact State.portAct_unloop_loopback hp
  case test =>
    rintro rfl
    rw [State.portAct_test hp]
    exact ⟨rfl, rfl⟩
  case testStop =>
    rintro rfl
    rw [State.portAct_testStop hp]
    exact ⟨rfl, rfl⟩
  case failed =>
    rintro rfl
    rw [State.portAct_return hp]
    exact ⟨State.failed_of_return hr, rfl⟩

end Sys2Proof.Machine
end

section
/-! SUPPORT. The slots of a Flosin port: what a flit of a slot leaves of the port, which flit a slot carries, and what a replay
asks and gives back (12 R346, R351 to R354, R359, R365, R366, R371, R376). -/

namespace Sys2Proof.Machine

/-! ### A flit in a slot (12 R346, R352, R353, R366) -/

section
variable {s : State} {p : Nat} {f : Flit}

theorem State.slotFlit_port (hp : p < s.ports.length) : (s.slotFlit p f).port p = { s.port p with
    txQueue := (s.port p).txQueue ++ [(s.port p).header f], nakOut := false, slot := (s.port p).slot + 1 } :=
  State.setPort_port s hp

theorem State.syncSlot_port (hp : p < s.ports.length) : (s.syncSlot p).port p = { s.port p with
    txQueue := (s.port p).txQueue ++ [(s.port p).header { body := .sync (s.syncWord p) }], nakOut := false
    slot := (s.port p).slot + 1, lastSync := 4096 * (s.now / 4096), syncCount := ((s.port p).syncCount + 1) % 2 ^ 32 } := by
  unfold State.syncSlot
  rw [State.slotFlit_port (by simpa using hp), State.setPort_port s hp]
  rfl

end

/-! ### Which flit a slot carries (12 R351, R354, R365, R366, R371, R376) -/

/-- A slot in which a `SYNC` goes ahead of all else: in native mode and while isolated (12 R366, R371). -/
abbrev State.syncFirst (s : State) (p : Nat) : Bool :=
  ((s.port p).native || (s.port p).state == .isolated) && s.syncDue p

/-- A slot that has begun, outside a correction, with no `SYNC` ahead, that may carry a replay or new flits (12 R346, R354,
R366, R369, R371). -/
structure State.SlotOpen (s : State) (p : Nat) : Prop where
  due : s.slotDue p = true
  loud : s.corrQuiet = false
  sync : s.syncFirst p = false
  data : (s.port p).idleOnly = false
  replay : (s.port p).replayFrom = none

section
variable {s : State} {p : Nat}

theorem State.syncFirst_of (hn : (s.port p).native = true ∨ (s.port p).state = .isolated) (hs : s.syncDue p = true) :
    s.syncFirst p = true := by
  rcases hn with h | h <;> simp [State.syncFirst, h, hs]

theorem State.not_syncFirst
    (h : ((s.port p).native = false ∧ (s.port p).state ≠ .isolated) ∨ s.syncDue p = false) : s.syncFirst p = false := by
  rcases h with ⟨hn, hi⟩ | hs
  · simp [State.syncFirst, hn, hi]
  · simp [State.syncFirst, hs]

theorem exec_flitSlot : exec (.flitSlot p) s = .next (s.flitSlot p) := rfl

theorem State.flitSlot_waits (h : s.slotDue p = false) : s.flitSlot p = s := if_pos (by simp [h])

section
variable (hd : s.slotDue p = true)
include hd

theorem State.flitSlot_quiet (hq : s.corrQuiet = true) : s.flitSlot p = s.slotFlit p {} := by
  simp only [State.flitSlot, hd, hq, Bool.not_true, Bool.false_eq_true, if_true, if_false]

theorem State.flitSlot_sync (hq : s.corrQuiet = false) (hs : s.syncFirst p = true) : s.flitSlot p = s.syncSlot p := by
  simp only [State.flitSlot, hd, hq, hs, Bool.not_true, Bool.false_eq_true, if_true, if_false]

theorem State.flitSlot_idle (hq : s.corrQuiet = false) (hs : s.syncFirst p = false)
    (hi : (s.port p).idleOnly = true ∨ (s.port p).replayFrom.isSome = true) : s.flitSlot p = s.slotFlit p {} := by
  rw [← Bool.or_eq_true] at hi
  simp only [State.flitSlot, hd, hq, hs, hi, Bool.not_true, Bool.false_eq_true, if_true, if_false]

end

section
variable (o : s.SlotOpen p)
include o

/-- A replay goes first; one that lacks its credit leaves the slot to an `IDLE` (12 R354, R359). -/
theorem State.SlotOpen.flitSlot_replay {f : Flit} {rest : List Flit} (hl : (s.port p).replayLeft = f :: rest) :
    s.flitSlot p = if (Flit.isData f && decide ((s.port p).credit.getD f.vc 0 = 0)) = true then s.slotFlit p {}
      else ((if Flit.isData f = true then (s.setPort p { s.port p with replayLeft := rest }).spend p f.vc
        else s.setPort p { s.port p with replayLeft := rest }).count (kRetries p) 1).slotFlit p f := by
  simp only [State.flitSlot, o.due, o.loud, o.sync, o.data, o.replay, hl, Option.isSome_none, Bool.or_false, Bool.not_true,
    Bool.false_eq_true, if_false]

theorem State.SlotOpen.flitSlot_grant {r : MemReq} (hl : (s.port p).replayLeft = [])
    (hc : (s.arb (flArb p)).cur = some r) : s.flitSlot p = if (s.port p).maySend (r.addr % 16) = true then
      (if r.req < 4096 then s.injectFlit p r else s.transitFlit p r) else s.slotFlit p {} := by
  simp only [State.flitSlot, o.due, o.loud, o.sync, o.data, o.replay, hl, hc, Option.isSome_none, Bool.or_false, Bool.not_true,
    Bool.false_eq_true, if_false]

theorem State.SlotOpen.flitSlot_test {pat rate : Nat} (hl : (s.port p).replayLeft = [])
    (hc : (s.arb (flArb p)).cur = none) (ht : (s.port p).test = some (pat, rate)) : s.flitSlot p =
      if (!s.imageRuns && testSlot rate (s.port p).slot && decide ((s.port p).retry.length < retryMaxFlits)) = true then
        (s.setPort p { s.port p with testSent := (s.port p).testSent + 1 }).sequenced p
          { body := .test (testPayload pat (s.port p).testSent), vc := 6 }
      else if s.syncDue p = true then s.syncSlot p else s.slotFlit p {} := by
  simp only [State.flitSlot, o.due, o.loud, o.sync, o.data, o.replay, hl, hc, ht, Option.isSome_none, Bool.or_false,
    Bool.not_true, Bool.false_eq_true, if_false]

theorem State.SlotOpen.flitSlot_rest (hl : (s.port p).replayLeft = []) (hc : (s.arb (flArb p)).cur = none)
    (ht : (s.port p).test = none) : s.flitSlot p = if s.syncDue p = true then s.syncSlot p else s.slotFlit p {} := by
  simp only [State.flitSlot, o.due, o.loud, o.sync, o.data, o.replay, hl, hc, ht, Option.isSome_none, Bool.or_false,
    Bool.not_true, Bool.false_eq_true, if_false]

end

theorem exec_syncFlitSend : exec (.syncFlitSend p) s =
    .next (if (s.slotDue p && s.syncDue p && !s.corrQuiet) = true then s.syncSlot p else s) := rfl

end

/-! ### Repeats and replays (12 R353, R354, R359) -/

section
variable {s : State} {p q : Nat}

/-- Whether the second `nak` of an episode is due (12 R353). -/
def State.nakDue (s : State) (p : Nat) : Bool :=
  (s.port p).up && (s.port p).rxEpisode && !(s.port p).nakTwice && decide (nakWait + (s.port p).nakAt ≤ s.now)

theorem exec_nakRepeat : exec (.nakRepeat p) s =
    .next (if s.nakDue p = true then s.setPort p { s.port p with nakOut := true, nakTwice := true } else s) := rfl

theorem exec_replay_none (h : (s.port p).replayFrom = none) : exec (.replay p) s = .next s := by
  simp only [exec, execReplay, h]

theorem exec_replay (h : (s.port p).replayFrom = some q) : exec (.replay p) s =
    .next (if ((s.port p).up && decide (rewindTime + (s.port p).replayAt ≤ s.now)) = true then
      s.setPort p { (s.port p).recover ((s.port p).retry.filter fun f => seqCovers f.fseq q) with
        replayFrom := none, replayLeft := (s.port p).retry.filter fun f => seqCovers f.fseq q }
    else s) := by
  simp only [exec, execReplay, h]

end

/-- Credits with that of one `DATA` flit given back (12 R359). -/
def creditBack (c : List Nat) (f : Flit) : List Nat :=
  if Flit.isData f = true then setAt c f.vc (c.getD f.vc 0 + 1) else c

theorem Port.recover_credit (x : Port) (l : List Flit) : (x.recover l).credit = l.foldl creditBack x.credit := rfl

theorem creditBack_length (c : List Nat) (f : Flit) : (creditBack c f).length = c.length := by
  unfold creditBack
  split <;> simp

theorem creditBack_getD {c : List Nat} {vc : Nat} (f : Flit) (h : vc < c.length) : (creditBack c f).getD vc 0 =
    c.getD vc 0 + if (Flit.isData f && decide (f.vc = vc)) = true then 1 else 0 := by
  unfold creditBack
  cases hd : Flit.isData f
  · rfl
  · by_cases hv : f.vc = vc
    · subst hv
      rw [if_pos rfl, getD_setAt_same h, decide_eq_true rfl]
      rfl
    · rw [if_pos rfl, getD_setAt_ne (Ne.symm hv), decide_eq_false hv]
      rfl

theorem foldl_creditBack_getD {c : List Nat} {vc : Nat} (l : List Flit) (h : vc < c.length) :
    (l.foldl creditBack c).getD vc 0 = c.getD vc 0 + l.countP fun f => Flit.isData f && decide (f.vc = vc) := by
  induction l generalizing c with
  | nil => rfl
  | cons f l ih =>
    rw [List.foldl_cons, ih (by rwa [creditBack_length]), creditBack_getD f h, List.countP_cons]
    omega

/-- Settles O31: a flit's effect on its port, the slot's choice gate by gate, and the three events of a replay. -/
theorem flitsSent : Obligations.FlitsSent := by
  unfold Obligations.FlitsSent
  refine ⟨fun s p f hp => ⟨State.slotFlit_port hp, rfl, rfl, rfl, rfl⟩, fun s p hp => ⟨_, rfl, State.syncSlot_port hp⟩,
    fun s p h => ?waits, fun s p hd hq => ?quiet, ?slot, fun s p => ⟨fun hd hs hq => ?send, fun h => ?held⟩, ?nak, ?replay,
    fun s p h => exec_replay_none h, fun x vc h l => foldl_creditBack_getD l h⟩
  case waits => rw [exec_flitSlot, State.flitSlot_waits h]
  case quiet => rw [exec_flitSlot, State.flitSlot_quiet hd hq]
  case slot =>
    rintro s p x hd hq rfl
    simp only [exec_flitSlot]
    refine ⟨fun hn hs => ?sync, fun hn => ⟨fun hi => ?idle, fun hi hr => ?carries⟩⟩
    case sync => rw [State.flitSlot_sync hd hq (State.syncFirst_of hn hs)]
    case idle => rw [State.flitSlot_idle hd hq (State.not_syncFirst hn) hi]
    have o : s.SlotOpen p := ⟨hd, hq, State.not_syncFirst hn, hi, hr⟩
    refine ⟨fun f rest hl => ⟨fun hb hc => ?dry, fun hb hc => ?data, fun hb => ?other⟩,
      fun r hl hc => ⟨fun hm => ?noRoom, fun hm hr => ?inject, fun hm hr => ?transit⟩,
      fun pat rate b hl hc ht hb => ⟨fun h => ?test, fun h => ?noTest⟩, fun hl hc ht => ?rest⟩
    case dry => rw [o.flitSlot_replay hl, if_pos (by rw [hb, hc]; rfl)]
    case data => rw [o.flitSlot_replay hl, if_neg (by rw [decide_eq_false hc.ne']; simp), if_pos hb]
    case other => rw [o.flitSlot_replay hl, hb, Bool.false_and, if_neg Bool.false_ne_true, if_neg Bool.false_ne_true]
    case noRoom => rw [o.flitSlot_grant hl hc, hm, if_neg Bool.false_ne_true]
    case inject => rw [o.flitSlot_grant hl hc, if_pos hm, if_pos hr]
    case transit => rw [o.flitSlot_grant hl hc, if_pos hm, if_neg (Nat.not_lt.mpr hr)]
    case test => rw [o.flitSlot_test hl hc ht, if_pos (hb ▸ h)]
    case noTest => rw [o.flitSlot_test hl hc ht, ← hb, h, if_neg Bool.false_ne_true]
    case rest => rw [o.flitSlot_rest hl hc ht]
  case send => rw [exec_syncFlitSend, if_pos (by simp [hd, hs, hq])]
  case held => rw [exec_syncFlitSend, if_neg (by rcases h with h | h | h <;> simp [h])]
  case nak =>
    rintro s p x rfl
    refine ⟨fun hu he ht hw => ?due, fun h => ?stays⟩
    case due => rw [exec_nakRepeat, if_pos (by simp [State.nakDue, hu, he, ht, hw])]
    case stays =>
      rw [exec_nakRepeat, if_neg]
      rcases h with h | h | h | h <;> simp [State.nakDue, h]
  case replay =>
    rintro s p x q l rfl hq rfl
    refine ⟨fun hu hw => ?due, fun h => ?stays⟩
    case due => rw [exec_replay hq, if_pos (by simp [hu, hw])]
    case stays =>
      rw [exec_replay hq, if_neg]
      rcases h with h | h <;> simp [h]

end Sys2Proof.Machine
end

section
/-! SUPPORT. What a Flosin port receives: codewords and the crossing, bad flits and episodes, headers, and flits in order
(12 R346, R347, R350 to R356, R367, R370 to R374; 16 R454). -/

namespace Sys2Proof.Machine

/-! ### Codewords (12 R347, R374) -/

section
variable {s : State} {p k : Nat} {b : Bool}

/-- A codeword counted: as uncorrectable, or with its corrected symbols (12 R347). -/
def State.codewordCounted (s : State) (p k : Nat) (b : Bool) : State :=
  if b = true then s.count (kFecUncorr p) 1 else if 0 < k then (s.count (kFecCorrSym p) k).corrected else s

/-- The uncorrectable codewords of a port's present window with one more codeword (12 R374). -/
def Port.cwSeen (x : Port) (b : Bool) : Nat := x.cwWindow + if b = true then 1 else 0

/-- A port after one more codeword period: its flits marked, the window moved on (12 R347, R374). -/
def Port.cwNoted (x : Port) (b : Bool) : Port :=
  { x with
    codewordBad := if b then 40 else 0
    cwPeriods := if x.cwPeriods + 1 = 2 ^ 20 then 0 else x.cwPeriods + 1
    cwWindow := if x.cwPeriods + 1 = 2 ^ 20 then 0 else x.cwSeen b }

/-- The flits of a codeword period enter the crossing, or the port retrains (12 R346, R371, R374). -/
def State.codewordEnters (w : State) (p n : Nat) (native : Bool) : State :=
  if w.kvNat kFecUeThresh < n then w.retrain p 4 else if native = true then w.enterCrossing p else w.enterElastic p

theorem exec_codewordReceived_down (hu : (s.port p).up = false) : exec (.codewordReceived p k b) s = .next s := by
  simp only [exec, execCodewordReceived, State.codeword, hu, Bool.not_false, if_true]

theorem exec_codewordReceived_up (hu : (s.port p).up = true) : exec (.codewordReceived p k b) s = .next
    (((s.codewordCounted p k b).setPort p (((s.codewordCounted p k b).port p).cwNoted b)).codewordEnters p
      (((s.codewordCounted p k b).port p).cwSeen b) ((s.codewordCounted p k b).port p).native) := by
  simp only [exec, execCodewordReceived, State.codeword, hu, b2n, decide_eq_true_eq, Bool.not_true, Bool.false_eq_true,
    if_false]
  rfl

end

/-! ### The crossing (12 R367, R370 to R372; 16 R454) -/

section
variable {s : State} {p d : Nat} {k : Flit} {rest : List (Nat × Flit)}

theorem exec_flitRelease_empty (h : (s.port p).crossing = []) : exec (.flitRelease p) s = .next s := by
  simp only [exec, execFlitRelease, h]

theorem exec_flitRelease (h : (s.port p).crossing = (d, k) :: rest) : exec (.flitRelease p) s = .next
    (if d = s.now then s.setPort p { s.port p with crossing := rest }
    else if (s.port p).native = false then
      (if (s.hopPorts.contains p && decide (elasticCharge + d < s.now)) = true then
        (s.setPort p { s.port p with crossing := rest }).timing 8
      else s.setPort p { s.port p with crossing := rest })
    else if d < s.now then s.alignLost p
    else s) := by
  simp only [exec, execFlitRelease, h]

end

/-! ### Bad flits (12 R350, R353, R355) -/

section
variable {s : State} {p : Nat} {f : Flit}

/-- A bad flit counted, and a lost `SYNC` (12 R355; 13 R395). -/
def State.badCounted (s : State) (p : Nat) (f : Flit) : State :=
  match f.body with
  | .sync _ => (s.count (kCrcErr p) 1).count (kSyncLost p) 1
  | _ => s.count (kCrcErr p) 1

@[simp] theorem State.badCounted_ports : (s.badCounted p f).ports = s.ports := by
  unfold State.badCounted
  split <;> simp

/-- The `nak` of a new episode counted, as a timing event and a link event of a step too (12 R355; 16 R461; 20 R531). -/
def State.nakCounted (s : State) (p : Nat) : State :=
  let x := ((s.count (kNaks p) 1).timing 3).corrected
  if x.job.inStep then { x with job := { x.job with evLink := x.job.evLink + 1 } } else x

@[simp] theorem State.nakCounted_ports : (s.nakCounted p).ports = s.ports := by
  unfold State.nakCounted
  dsimp only
  split <;> simp [State.corrected]

/-- A bad flit in an episode changes nothing but counts. -/
theorem State.badRx_again (he : (s.port p).rxEpisode = true) : s.badRx p f = s.badCounted p f := if_pos he

theorem State.badRx_first (he : (s.port p).rxEpisode = false) : s.badRx p f =
    ((s.badCounted p f).nakCounted p).setPort p { ((s.badCounted p f).nakCounted p).port p with
      rxEpisode := true, nakOut := true, nakAt := s.now, nakTwice := false } := if_neg (ne_true_of_eq_false he)

theorem State.badRx_first_port (hp : p < s.ports.length) (he : (s.port p).rxEpisode = false) : (s.badRx p f).port p =
    { s.port p with rxEpisode := true, nakOut := true, nakAt := s.now, nakTwice := false } := by
  rw [State.badRx_first he, State.setPort_port _ (by simpa using hp), State.port_congr (s := s) (by simp) p]

theorem State.badRx_again_port (he : (s.port p).rxEpisode = true) : (s.badRx p f).port p = s.port p := by
  rw [State.badRx_again he, State.port_congr State.badCounted_ports]

end

/-! ### Flits in order (12 R353, R356) -/

/-- The number of the next flit in order (12 R352, R353). -/
def Port.nextSeq (x : Port) : Nat := if x.rxAckV then seqNext x.rxAck else 0

/-- A port that has used the next flit in order, which closes an episode (12 R353, R356). -/
def Port.took (x : Port) (q : Nat) : Port := { x with rxAck := q, rxAckV := true, rxEpisode := false }

section
variable {s : State} {p : Nat} {f : Flit} {b : List Byte}

theorem State.sequencedRx_discards (h : f.fseq ≠ (s.port p).nextSeq) : s.sequencedRx p f = s := if_neg h

theorem State.sequencedRx_test (h : f.fseq = (s.port p).nextSeq) (hb : f.body = .test b) :
    s.sequencedRx p f = s.setPort p ((s.port p).took f.fseq) := by
  rw [State.sequencedRx]
  exact (if_pos h).trans (by rw [hb]; rfl)

theorem State.sequencedRx_data (h : f.fseq = (s.port p).nextSeq) (hb : f.body = .data b) :
    s.sequencedRx p f = (s.setPort p ((s.port p).took f.fseq)).dataRx p f b := by
  rw [State.sequencedRx]
  exact (if_pos h).trans (by rw [hb]; rfl)

end

/-! ### A flit received (12 R350 to R352, R373) -/

section
variable {s : State} {p : Nat} {f : Flit}

/-- A port with one less flit of an uncorrectable codeword to come (12 R347). -/
def State.codewordUsed (s : State) (p : Nat) : State :=
  s.setPort p { s.port p with codewordBad := (s.port p).codewordBad - 1 }

theorem exec_flitReceived_down (hu : (s.port p).up = false) : exec (.flitReceived p f) s = .next s := by
  simp only [exec, execFlitReceived, State.flitRx, hu, Bool.not_false, if_true]

section
variable (hu : (s.port p).up = true)
include hu

theorem exec_flitReceived_bad (hb : (s.port p).badFlit f = true) :
    exec (.flitReceived p f) s = .next ((s.codewordUsed p).badRx p f) := by
  simp only [exec, execFlitReceived, State.flitRx, hu, hb, Bool.not_true, Bool.false_eq_true, if_true, if_false]
  rfl

variable (hb : (s.port p).badFlit f = false)
include hb

theorem exec_flitReceived_data {d : List Byte} (hd : f.body = .data d) : exec (.flitReceived p f) s =
    .next (if (((s.codewordUsed p).headerRx p f).port p).state = .run then
      ((s.codewordUsed p).headerRx p f).sequencedRx p f else (s.codewordUsed p).headerRx p f) := by
  simp only [exec, execFlitReceived, State.flitRx, hu, hb, hd, Bool.not_true, Bool.false_eq_true, if_false, beq_iff_eq]
  rfl

theorem exec_flitReceived_test {d : List Byte} (hd : f.body = .test d) : exec (.flitReceived p f) s =
    .next (if (((s.codewordUsed p).headerRx p f).port p).up = true then
      ((s.codewordUsed p).headerRx p f).sequencedRx p f else (s.codewordUsed p).headerRx p f) := by
  simp only [exec, execFlitReceived, State.flitRx, hu, hb, hd, Bool.not_true, Bool.false_eq_true, if_false]
  rfl

theorem exec_flitReceived_other (hd : ∀ d, f.body ≠ .data d) (ht : ∀ d, f.body ≠ .test d) :
    exec (.flitReceived p f) s = .next ((s.codewordUsed p).headerRx p f) := by
  simp only [exec, execFlitReceived, State.flitRx, hu, hb, Bool.not_true, Bool.false_eq_true, if_false]
  rfl

end

end

/-! ### Acknowledgements (12 R351, R352) -/

theorem Port.ack_retry (x : Port) {f : Flit} (h : f.ackV = true) :
    (x.ack f).retry = x.retry.filter fun g => !seqCovers f.ackSeq g.fseq := by
  rw [Port.ack, if_pos h]

theorem Port.ack_none (x : Port) {f : Flit} (h : f.ackV = false) : x.ack f = x := if_neg (ne_true_of_eq_false h)

/-- Settles O32: codewords and the crossing, then a flit bad or good, and a good one in order or not. -/
theorem flitsReceived : Obligations.FlitsReceived := by
  unfold Obligations.FlitsReceived
  refine ⟨fun s p k b => exec_codewordReceived_down, ?codeword, fun s p => exec_flitRelease_empty, ?release,
    fun s p f => exec_flitReceived_down, ?flit, fun s p f hp he => ⟨_, rfl, State.badRx_first_port hp he⟩,
    fun s p f _ => State.badRx_again_port, ?sequenced, fun x f => ⟨x.ack_retry, x.ack_none⟩⟩
  case codeword =>
    rintro s p k b u w n x hu rfl rfl rfl rfl
    exact exec_codewordReceived_up hu
  case release =>
    rintro s p d k rest u hc rfl
    rw [exec_flitRelease hc]
    refine ⟨fun hd => ?now, fun hn hd => ?late, fun hn hd => ?early, fun hn hd => ?elastic⟩
    case now => rw [if_pos hd]
    case late => rw [if_neg hd.ne, if_neg (by simp [hn]), if_pos hd]; rfl
    case early => rw [if_neg hd.ne', if_neg (by simp [hn]), if_neg hd.not_gt]
    case elastic => rw [if_neg hd, if_pos hn]; simp only [Bool.and_eq_true, decide_eq_true_eq]
  case flit =>
    rintro s p f u hu rfl
    exact ⟨exec_flitReceived_bad hu, fun hb => ⟨_, rfl, fun d => exec_flitReceived_data hu hb,
      fun d => exec_flitReceived_test hu hb, exec_flitReceived_other hu hb⟩⟩
  case sequenced =>
    rintro s p f x rfl
    exact ⟨State.sequencedRx_discards, fun b => State.sequencedRx_test, fun b => State.sequencedRx_data⟩

end Sys2Proof.Machine
end

section
/-! SUPPORT. The bring-up of a Flosin port: training, block lock, the identity record, and the alignment ceremony stage by stage
(12 R341, R343, R367, R371, R373; 13 R383, R384, R386, R397). -/

namespace Sys2Proof.Machine

/-! ### Records sent, and the entry to `RUN` (12 R346, R373; 13 R386, R397) -/

section
variable {s : State} {p q : Nat} {f : Flit}

theorem State.sendFlit_port (hp : p < s.ports.length) :
    (s.sendFlit p f).port p = { s.port p with txQueue := (s.port p).txQueue ++ [f] } := State.setPort_port s hp

@[simp] theorem State.sendFlit_kv : (s.sendFlit p f).kv = s.kv := rfl

theorem State.enterRun_port (hp : p < s.ports.length) : (s.enterRun p).port p = { (s.port p).fresh with
    state := if ((s.port p).isolate || !s.torus.hasCoord) = true then .isolated else .run
    enteredAt := s.now, leftRunAt := none } := State.setPort_port s hp

theorem State.enterRun_state (hp : p < s.ports.length) : ((s.enterRun p).port p).state =
    if (s.port p).isolate = true ∨ s.torus.hasCoord = false then .isolated else .run := by
  rw [State.enterRun_port hp]
  simp only [Bool.or_eq_true, Bool.not_eq_true']

@[simp] theorem State.enterRun_length : (s.enterRun p).ports.length = s.ports.length := State.setPort_length ..

@[simp] theorem State.enterRun_kv : (s.enterRun p).kv = s.kv := rfl

@[simp] theorem State.parentRuns_ports : (s.parentRuns p).ports = s.ports := by unfold State.parentRuns; split <;> rfl

@[simp] theorem State.parentRuns_kv : (s.parentRuns p).kv = s.kv := by unfold State.parentRuns; split <;> rfl

theorem State.parentRuns_port : (s.parentRuns p).port q = s.port q := State.port_congr State.parentRuns_ports q

end

/-! ### Training and block lock (12 R341, R343, R373) -/

section
variable {s : State} {p : Nat} {r : Bool} {v : BitVec 16}

theorem exec_pmdTrainDone (hs : (s.port p).state = .pmdTrain ∨ (s.port p).state = .retrain)
    (hm : s.mayTrain p = true) : exec (.pmdTrainDone p) s = .next (s.setPort p { s.port p with
      state := .blockLock, native := !bitOf (s.kvNat (kFlMode p)) 1, enteredAt := s.now, txEq := s.portEq p }) :=
  congrArg Host.Outcome.next (if_pos (by simpa [hm] using hs))

theorem exec_pmdTrainDone_stays
    (h : ((s.port p).state ≠ .pmdTrain ∧ (s.port p).state ≠ .retrain) ∨ s.mayTrain p = false) :
    exec (.pmdTrainDone p) s = .next s := by
  refine congrArg Host.Outcome.next (if_neg ?_)
  rcases h with ⟨ht, hr⟩ | hm
  · simp [ht, hr]
  · simp [hm]

/-- The lanes' order and polarity as `lane_map` reports them (12 R343). -/
def laneWord (r : Bool) (v : BitVec 16) : BitVec 64 := BitVec.ofNat 64 (v.toNat + b2n r * 65536)

theorem laneWord_toNat : (laneWord r v).toNat = v.toNat + if r = true then 65536 else 0 := by
  have hlt : v.toNat + b2n r * 65536 < 2 ^ 64 := by
    unfold b2n
    split <;> omega
  rw [laneWord, BitVec.toNat_ofNat, Nat.mod_eq_of_lt hlt]
  cases r <;> rfl

/-- A port past block lock: the lanes reported, in `IDENT` (12 R343, R373). -/
def State.locked (s : State) (p : Nat) (r : Bool) (v : BitVec 16) : State :=
  (s.kvSet (kLaneMap p) (laneWord r v)).setPort p { s.port p with state := .ident, enteredAt := s.now, attempts := 0 }

theorem exec_blockLockDone (hs : (s.port p).state = .blockLock) : exec (.blockLockDone p r v) s =
    .next ((s.locked p r v).sendFlit p { body := .train (.identity (s.ownIdentity p)) }) :=
  congrArg Host.Outcome.next (if_pos (by simp [hs]))

theorem exec_blockLockDone_stays (hs : (s.port p).state ≠ .blockLock) : exec (.blockLockDone p r v) s = .next s :=
  congrArg Host.Outcome.next (if_neg (by simp [hs]))

theorem State.locked_port (hp : p < s.ports.length) : (s.locked p r v).port p =
    { s.port p with state := .ident, enteredAt := s.now, attempts := 0 } := State.setPort_port _ hp

theorem State.locked_lanes {f : Flit} : ((s.locked p r v).sendFlit p f).kvNat (kLaneMap p) =
    v.toNat + if r = true then 65536 else 0 := by
  rw [← laneWord_toNat]
  exact congrArg BitVec.toNat s.kvSet_kvGet

end

/-! ### The identity record (12 R371, R373; 13 R384) -/

section
variable {s : State} {p : Nat} {i : Identity}

/-- The result of the cabling check and the partner's record kept (13 R384). -/
def State.identified (s : State) (p : Nat) (i : Identity) : State :=
  (s.kvSet (kCabState p) (BitVec.ofNat 64 (cabWord (s.cabling p i) i))).setPort p { s.port p with partner := some i }

theorem State.identified_port (hp : p < s.ports.length) :
    (s.identified p i).port p = { s.port p with partner := some i } := State.setPort_port _ hp

@[simp] theorem State.identified_length : (s.identified p i).ports.length = s.ports.length := State.setPort_length ..

theorem exec_identityRecord_stays (hs : (s.port p).state ≠ .ident) : exec (.identityRecord p i) s = .next s :=
  congrArg Host.Outcome.next (if_neg (by simp [hs]))

theorem exec_identityRecord (hs : (s.port p).state = .ident) : exec (.identityRecord p i) s = .next
    (if (s.cabling p i).1 = 1 then
      if ((s.identified p i).port p).native = true then
        (s.identified p i).setPort p { (s.identified p i).port p with
          state := .align, enteredAt := s.now, stage := 1, probes := 0, dMax := none, attempts := 1 }
      else ((s.identified p i).enterRun p).parentRuns p
    else (s.identified p i).event (.cabling p (s.cabling p i).1 i)) :=
  congrArg Host.Outcome.next (if_pos (by simp [hs]))

end

/-! ### The alignment ceremony (12 R367) -/

section
variable {s : State} {p c lat : Nat} {m own : Int} {b : Bool}

/-- The largest measure of a ceremony with one more (12 R367). -/
def Port.widest (x : Port) (d : Int) : Int := match x.dMax with | some m => max m d | none => d

section
variable (hs : (s.port p).state = .align)
include hs

theorem exec_alignProbe_measures (h1 : (s.port p).stage = 1) : exec (.alignProbe p c) s = .next
    (if (s.port p).probes + 1 = 256 then
      (((s.train p (.probe s.now)).setPort p { (s.train p (.probe s.now)).port p with
        dMax := some ((s.port p).widest (s.now - c)), probes := 256, stage := 2 }).train p
          (.maxima ((s.port p).widest (s.now - c))))
    else (s.train p (.probe s.now)).setPort p { (s.train p (.probe s.now)).port p with
      dMax := some ((s.port p).widest (s.now - c)), probes := (s.port p).probes + 1 }) := by
  simp only [exec, execAlignProbe, hs, h1, beq_self_eq_true, Bool.true_or, Bool.and_self, if_true]
  rfl

theorem exec_alignProbe_checks (h4 : (s.port p).stage = 4) : exec (.alignProbe p c) s = .next
    (if 4 + s.now ≤ c + (s.port p).alLat then
      (s.train p (.probe s.now)).setPort p { (s.train p (.probe s.now)).port p with probes := (s.port p).probes + 1 }
    else s.alignFailed p) := by
  simp only [exec, execAlignProbe, hs, h4, beq_self_eq_true, Bool.or_true, Bool.and_self, if_true]
  rfl

theorem exec_alignMaxima (h2 : (s.port p).stage = 2) (hd : (s.port p).dMax = some own) :
    exec (.alignMaxima p m) s = .next ((s.setPort p { s.port p with
      alLat := linkLatOf own m (s.kvNat kAlMargin), stage := 3 }).train p
        (.confirm (linkLatOf own m (s.kvNat kAlMargin)))) := by
  simp only [exec, execAlignMaxima, hs, h2, hd, beq_self_eq_true, Bool.and_self, if_true]

theorem exec_alignConfirm (h3 : (s.port p).stage = 3) : exec (.alignConfirm p lat) s = .next
    (if lat = (s.port p).alLat then s.setPort p { s.port p with stage := 4, probes := 0 } else s.alignFailed p) := by
  simp only [exec, execAlignConfirm, hs, h3, beq_self_eq_true, Bool.and_self, if_true]

end

/-- A port that enters `RUN` with the `link_lat` of its ceremony; its `SYNC` is taken as sent (12 R346, R367). -/
def State.aligned (s : State) (p : Nat) : State :=
  let t := (s.kvSet (kLinkLat p) (BitVec.ofNat 64 (s.port p).alLat)).enterRun p
  t.setPort p { t.port p with refTick := s.now, lastSync := 4096 * (s.now / 4096) }

theorem State.aligned_port (hp : p < s.ports.length) : (s.aligned p).port p =
    { ((s.kvSet (kLinkLat p) (BitVec.ofNat 64 (s.port p).alLat)).enterRun p).port p with
      refTick := s.now, lastSync := 4096 * (s.now / 4096) } := State.setPort_port _ (by simpa using hp)

theorem State.aligned_state (hp : p < s.ports.length) : ((s.aligned p).port p).state =
    if (s.port p).isolate = true ∨ s.torus.hasCoord = false then .isolated else .run := by
  rw [State.aligned_port hp]
  exact State.enterRun_state (s := s.kvSet (kLinkLat p) (BitVec.ofNat 64 (s.port p).alLat)) hp

theorem State.aligned_latency : (s.aligned p).kvGet (kLinkLat p) = BitVec.ofNat 64 (s.port p).alLat := s.kvSet_kvGet

theorem exec_alignCheckDone (hs : (s.port p).state = .align) (h4 : (s.port p).stage = 4) :
    exec (.alignCheckDone p b) s = .next (if b = true then
      (if (s.port p).probes = 256 then (s.aligned p).parentRuns p else s) else s.alignFailed p) := by
  simp only [exec, execAlignCheckDone, hs, h4, beq_self_eq_true, Bool.and_self, if_true]
  rfl

/-! ### A failed ceremony (12 R367) -/

theorem State.alignFailed_repeats (ha : (s.port p).attempts ≤ 3) : s.alignFailed p = s.setPort p { s.port p with
    stage := 1, probes := 0, dMax := none, attempts := (s.port p).attempts + 1, enteredAt := s.now } := if_pos ha

theorem State.alignFailed_retrains (ha : 3 < (s.port p).attempts) : s.alignFailed p =
    (s.kvSet (kFlReason p) 7).setPort p { (s.port p).discard with
      state := .retrain, enteredAt := s.now, retrainTicks := s.now :: (s.port p).retrainTicks } :=
  if_neg (Nat.not_le.mpr ha)

theorem State.alignFailed_state (hp : p < s.ports.length) (ha : 3 < (s.port p).attempts) :
    ((s.alignFailed p).port p).state = .retrain := by
  rw [State.alignFailed_retrains ha]
  exact congrArg Port.state (State.setPort_port _ hp)

theorem State.alignFailed_reason (ha : 3 < (s.port p).attempts) : (s.alignFailed p).kvNat (kFlReason p) = 7 := by
  rw [State.alignFailed_retrains ha]
  exact congrArg BitVec.toNat s.kvSet_kvGet

/-! ### Outside the stages (12 R367, R373) -/

/-- A port in a stage of the ceremony (12 R367). -/
abbrev Port.inStage (x : Port) (n : Nat) : Prop := x.state = .align ∧ x.stage = n

theorem Port.not_inStage {x : Port} {n : Nat} (h : x.state ≠ .align ∨ x.stage ∉ [1, 2, 3, 4]) (hn : n ∈ [1, 2, 3, 4]) :
    ¬ x.inStage n := fun ⟨hs, he⟩ => h.elim (· hs) (· (he ▸ hn))

theorem exec_alignProbe_stays (h1 : ¬ (s.port p).inStage 1) (h4 : ¬ (s.port p).inStage 4) :
    exec (.alignProbe p c) s = .next s := by
  refine congrArg Host.Outcome.next (if_neg fun h => ?_)
  simp only [Bool.and_eq_true, Bool.or_eq_true, beq_iff_eq] at h
  exact h.2.elim (fun e => h1 ⟨h.1, e⟩) fun e => h4 ⟨h.1, e⟩

theorem exec_alignMaxima_stays (h2 : ¬ (s.port p).inStage 2) : exec (.alignMaxima p m) s = .next s := by
  refine congrArg Host.Outcome.next ?_
  split
  · rfl
  · exact if_neg fun h => h2 (by simpa using h)

theorem exec_alignConfirm_stays (h3 : ¬ (s.port p).inStage 3) : exec (.alignConfirm p lat) s = .next s :=
  congrArg Host.Outcome.next (if_neg fun h => h3 (by simpa using h))

theorem exec_alignCheckDone_stays (h4 : ¬ (s.port p).inStage 4) : exec (.alignCheckDone p b) s = .next s :=
  congrArg Host.Outcome.next (if_neg fun h => h4 (by simpa using h))

end

/-- Settles O33: the states of a bring-up in their order, then the ceremony stage by stage, and outside them no change. -/
theorem bringUp : Obligations.BringUp := by
  unfold Obligations.BringUp
  refine ⟨fun s p => exec_pmdTrainDone, fun s p => exec_pmdTrainDone_stays, ?lock, fun s p r v => exec_blockLockDone_stays,
    ?known, ?unknown, fun s p i => exec_identityRecord_stays, ?measure, ?check, ?maxima,
    fun s p lat hs h3 => ⟨fun e => ?agree, fun e => ?differ⟩, ?runs,
    fun s p hs h4 => ⟨exec_alignCheckDone hs h4, fun hn => ?short⟩, ?failed, ?outside⟩
  case lock =>
    intro s p r v hp _ hs
    refine ⟨_, { body := .train (.identity (s.ownIdentity p)) }, exec_blockLockDone hs, rfl, ?_, State.locked_lanes⟩
    rw [State.sendFlit_port (by simpa [State.locked] using hp), State.locked_port hp]
  case known =>
    intro s p i hp hs hc
    rw [exec_identityRecord hs, if_pos hc, State.identified_port hp]
    cases hn : (s.port p).native
    · refine ⟨_, rfl, ?_⟩
      rw [if_neg Bool.false_ne_true, State.parentRuns_port]
      exact ⟨by rw [State.enterRun_port (by simpa using hp), State.identified_port hp]; rfl, nofun,
        fun _ => by rw [State.enterRun_state (by simpa using hp), State.identified_port hp]; rfl⟩
    · refine ⟨_, rfl, ?_⟩
      rw [if_pos rfl, State.setPort_port _ (by simpa using hp)]
      exact ⟨rfl, fun _ => ⟨rfl, rfl, rfl, rfl⟩, nofun⟩
  case unknown =>
    intro s p i hp hs hc
    rw [exec_identityRecord hs, if_neg hc]
    exact ⟨_, rfl, State.identified_port hp, rfl, rfl⟩
  case measure =>
    rintro s p c x d u - rfl hs h1 rfl rfl
    rw [exec_alignProbe_measures hs h1]
    exact ⟨fun hn => by rw [if_neg hn]; rfl, fun hn => by rw [if_pos hn]; rfl⟩
  case check =>
    rintro s p c x u rfl hs h4 rfl
    rw [exec_alignProbe_checks hs h4]
    exact ⟨fun h => by rw [if_pos h], fun h => by rw [if_neg (Nat.not_le.mpr h)]⟩
  case maxima => exact fun s p own m hs h2 hd => ⟨_, _, rfl, rfl, exec_alignMaxima hs h2 hd⟩
  case agree => rw [exec_alignConfirm hs h3, if_pos e]
  case differ => rw [exec_alignConfirm hs h3, if_neg e]
  case runs =>
    intro s p hp _ hs h4 hn
    refine ⟨_, by rw [exec_alignCheckDone hs h4, if_pos rfl, if_pos hn], ?_⟩
    rw [State.parentRuns_port, State.kvGet, State.parentRuns_kv]
    exact ⟨State.aligned_state hp, by rw [State.aligned_port hp], State.aligned_latency⟩
  case short => rw [exec_alignCheckDone hs h4, if_pos rfl, if_neg hn]
  case failed =>
    rintro s p x rfl
    exact ⟨State.alignFailed_repeats, fun ha hp _ => ⟨_, rfl, State.alignFailed_state hp ha, State.alignFailed_reason ha⟩⟩
  case outside =>
    intro s p c m l b h
    exact ⟨exec_alignProbe_stays (Port.not_inStage h (by decide)) (Port.not_inStage h (by decide)),
      exec_alignMaxima_stays (Port.not_inStage h (by decide)), exec_alignConfirm_stays (Port.not_inStage h (by decide)),
      exec_alignCheckDone_stays (Port.not_inStage h (by decide))⟩

end Sys2Proof.Machine
end

section
/-! SUPPORT. What every command keeps: the queue of waiting commands, the numbers of the package's parts, and the
canonical form of its memories. -/

set_option Elab.async false

namespace Sys2Proof.Machine

/-! ### Memories in canonical form -/

/-- Every tile store of a table is in canonical form. -/
def tilesOk (t : Tab Mem) : Bool := t.all (fun p => p.2.wf)

section
variable {t : Tab Mem} {m : Mem} {u : Nat}

theorem Mem.wf_writeElem {f : Fmt} {b i c : Nat} (h : m.wf = true) : (writeElem m f b i c).wf = true := Mem.wf_writeN h

theorem tileElemWr_wf {f : Fmt} {b i c : Nat} (h : m.wf = true) : (tileElemWr m u f b i c).wf = true :=
  Mem.wf_writeElem h

theorem freshTile_wf {g : Nat} : (freshTile u g).wf = true := by
  simp [freshTile, Mem.wf, Tab.wf, Mem.rangesOk]

theorem tilesOk_get (h : tilesOk t = true) : (Tab.get (freshTile u 1) u t).wf = true := by
  induction t with
  | nil => exact freshTile_wf
  | cons p t ih =>
    obtain ⟨hp, ht⟩ := Bool.and_eq_true_iff.mp h
    rw [Tab.get]
    split
    · exact hp
    · exact ih ht

theorem tilesOk_erase (h : tilesOk t = true) : tilesOk (Tab.erase u t) = true := by
  induction t with
  | nil => rfl
  | cons p t ih =>
    obtain ⟨hp, ht⟩ := Bool.and_eq_true_iff.mp h
    rw [Tab.erase]
    split
    · exact ih ht
    · exact Bool.and_eq_true_iff.mpr ⟨hp, ih ht⟩

theorem tilesOk_insert (h : tilesOk t = true) (hm : m.wf = true) : tilesOk (Tab.insert u m t) = true := by
  induction t with
  | nil => exact Bool.and_eq_true_iff.mpr ⟨hm, rfl⟩
  | cons p t ih =>
    obtain ⟨hp, ht⟩ := Bool.and_eq_true_iff.mp h
    rw [Tab.insert]
    split
    · exact Bool.and_eq_true_iff.mpr ⟨hm, ht⟩
    · split
      · exact Bool.and_eq_true_iff.mpr ⟨hm, h⟩
      · exact Bool.and_eq_true_iff.mpr ⟨hp, ih ht⟩

theorem tilesOk_set (h : tilesOk t = true) (hm : m.wf = true) : tilesOk (Tab.set (freshTile u 1) u m t) = true := by
  rw [Tab.set_eq]
  split
  · exact tilesOk_erase h
  · exact tilesOk_insert h hm

/-- Tile stores whose contents are undefined anew (17 R483). -/
theorem tilesOk_freshTiles {lo n g : Nat} (h : tilesOk t = true) : tilesOk (freshTiles lo n g t) = true := by
  unfold freshTiles
  induction rangeFrom lo n generalizing t with
  | nil => exact h
  | cons u l ih => exact ih (tilesOk_set h freshTile_wf)

/-- A fold of writes keeps the canonical form of the memory it carries. -/
theorem Mem.wf_foldl {α : Type} {f : Mem → α → Mem} {l : List α} (h : m.wf = true)
    (hf : ∀ n a, n.wf = true → (f n a).wf = true) : (l.foldl f m).wf = true := by
  induction l generalizing m with
  | nil => exact h
  | cons a l ih => exact ih (hf m a h)

theorem Mem.wf_foldlFst {α β : Type} {f : Mem × β → α → Mem × β} {p : Mem × β} {l : List α} (h : p.1.wf = true)
    (hf : ∀ q a, q.1.wf = true → (f q a).1.wf = true) : (l.foldl f p).1.wf = true := by
  induction l generalizing p with
  | nil => exact h
  | cons a l ih => exact ih (hf p a h)

/-- A drained tile leaves its unit's tile store canonical (04 R95, R107). -/
theorem drainTile_wf {s : State} {d : ProdDesc} {row : DotRow} {i j : Nat} {accs : List ((Nat × Nat) × Nat)}
    (h : (s.tileMem u).wf = true) : (drainTile s u d row i j accs).1.wf = true := by
  have pad : ∀ {v : OpView} {m : Mem}, m.wf = true → (drainPad u d v i j m).wf = true := by
    intro v m hm
    have h1 := Mem.wf_foldl (l := padPositions v d i j) hm
      fun n (p : Nat × Nat) hn => tileElemWr_wf (u := u) (f := v.fmt) (b := v.base) (i := v.pos p.1 p.2) (c := 0) hn
    unfold drainPad
    split
    · exact Mem.wf_foldl h1 fun _ _ hn => Mem.wf_write hn
    · exact h1
  refine pad ?_
  split
  · exact Mem.wf_foldlFst h fun q k hq => Mem.wf_write (Mem.wf_foldl hq fun _ _ hn => tileElemWr_wf hn)
  · exact Mem.wf_foldlFst h fun q x hq => tileElemWr_wf hq

end

/-! ### States kept -/

/-- What the way from one state to another keeps: the queue, and the well-formed states. -/
structure Kept (s t : State) : Prop where
  pending : t.pending = s.pending
  ok : s.ok = true → t.ok = true

theorem State.ok_iff {s : State} : s.ok = true ↔
    (s.hostIf.rings.length = 16 ∧ s.pwr.fns.length = 15 ∧ s.pins.inp.length = 6 ∧ s.engines.length = 4 ∧
      s.ports.length = 8) ∧ s.mem.dram.wf = true ∧ tilesOk s.mem.tile = true ∧ s.mem.host.wf = true := by
  simp [State.ok, State.partsOk, State.memOk, tilesOk, and_assoc]

section
variable {s t u : State}

theorem Kept.refl (s : State) : Kept s s := ⟨rfl, id⟩

theorem Kept.trans (h : Kept s t) (h' : Kept t u) : Kept s u := ⟨h'.pending.trans h.pending, h'.ok ∘ h.ok⟩

/-- An update of any fields that keeps the numbers of parts and the canonical form of the memories. -/
theorem Kept.upd (h : Kept s t) {fresh kv acc pendW hostIf clk pwr pins tiles mem engines job exch ports torus flt sec}
    (rings : t.hostIf.rings.length = 16 → hostIf.rings.length = 16 := by exact fun h => h)
    (fns : t.pwr.fns.length = 15 → pwr.fns.length = 15 := by exact fun h => h)
    (inp : t.pins.inp.length = 6 → pins.inp.length = 6 := by exact fun h => h)
    (engs : t.engines.length = 4 → engines.length = 4 := by exact fun h => h)
    (prts : t.ports.length = 8 → ports.length = 8 := by exact fun h => h)
    (dram : t.mem.dram.wf = true → mem.dram.wf = true := by exact fun h => h)
    (tile : tilesOk t.mem.tile = true → tilesOk mem.tile = true := by exact fun h => h)
    (host : t.mem.host.wf = true → mem.host.wf = true := by exact fun h => h) :
    Kept s ⟨t.pending, fresh, kv, acc, pendW, hostIf, clk, pwr, pins, tiles, mem, engines, job, exch, ports, torus, flt,
      sec⟩ := by
  refine ⟨h.pending, fun hs => ?_⟩
  obtain ⟨⟨hr, hf, hi, he, hp⟩, hd, ht, hh⟩ := State.ok_iff.mp (h.ok hs)
  exact State.ok_iff.mpr ⟨⟨rings hr, fns hf, inp hi, engs he, prts hp⟩, dram hd, tile ht, host hh⟩

theorem Kept.ite {c : Prop} [Decidable c] (h : Kept s t) (h' : Kept s u) : Kept s (if c then t else u) := by
  split
  · exact h
  · exact h'

theorem Kept.foldl {α : Type} {f : State → α → State} {l : List α} (h : Kept s t)
    (hf : ∀ u a, Kept s u → Kept s (f u a)) : Kept s (l.foldl f t) := by
  induction l generalizing t with
  | nil => exact h
  | cons a l ih => exact ih (hf t a h)

/-- A loop that carries a second value beside the state. -/
theorem Kept.foldlFst {α β : Type} {f : State × β → α → State × β} {p : State × β} {l : List α} (h : Kept s p.1)
    (hf : ∀ q a, Kept s q.1 → Kept s (f q a).1) : Kept s (l.foldl f p).1 := by
  induction l generalizing p with
  | nil => exact h
  | cons a l ih => exact ih (hf p a h)

/-- The state of a pair that a computation answers. -/
theorem Kept.fst {β : Type} {p : State × β} {b : β} (h : Kept s p.1) (e : p = (t, b)) : Kept s t := by
  subst e
  exact h

end

/-! ### Keys (14 R427) -/

section
variable {s₀ s : State}

theorem Kept.kvSet (hs : Kept s₀ s) {k : Nat} {v : BitVec 64} : Kept s₀ (s.kvSet k v) :=
  hs.upd

theorem Kept.countNow (hs : Kept s₀ s) {k n : Nat} : Kept s₀ (s.countNow k n) :=
  hs.kvSet

theorem Kept.count (hs : Kept s₀ s) {k n : Nat} : Kept s₀ (s.count k n) :=
  hs.upd.ite hs.countNow

end

/-! ### Parts, memories, events and fault records (Machine/Ops) -/

section
variable {s₀ s : State}

theorem Kept.setTile (hs : Kept s₀ s) {u : Nat} {t : Tile} : Kept s₀ (s.setTile u t) :=
  hs.upd

theorem Kept.setSlate (hs : Kept s₀ s) {u : Nat} {l : Slate} : Kept s₀ (s.setSlate u l) :=
  hs.setTile

theorem Kept.setPort (hs : Kept s₀ s) {p : Nat} {x : Port} : Kept s₀ (s.setPort p x) :=
  hs.upd (prts := by simp)

theorem Kept.setRing (hs : Kept s₀ s) {r : Nat} {x : Machine.Ring} : Kept s₀ (s.setRing r x) :=
  hs.upd (rings := by simp)

theorem Kept.setEngine (hs : Kept s₀ s) {f : Nat} {x : Engine} : Kept s₀ (s.setEngine f x) :=
  hs.upd (engs := by simp)

theorem Kept.setFn (hs : Kept s₀ s) {f : Nat} {x : Fn} : Kept s₀ (s.setFn f x) :=
  hs.upd (fns := by simp)

theorem Kept.setPin (hs : Kept s₀ s) {n : Nat} {x : Pin} : Kept s₀ (s.setPin n x) :=
  hs.upd (inp := by simp)

theorem Kept.setCtx (hs : Kept s₀ s) {c : Nat} {x : CtxSt} : Kept s₀ (s.setCtx c x) :=
  hs.upd

theorem Kept.setChan (hs : Kept s₀ s) {c : Nat} {x : Chan} : Kept s₀ (s.setChan c x) :=
  hs.upd

theorem Kept.setArb (hs : Kept s₀ s) {p : Nat} {x : ArbPort} : Kept s₀ (s.setArb p x) :=
  hs.upd

theorem Kept.draw (hs : Kept s₀ s) : Kept s₀ (s.draw).2 :=
  hs.upd

theorem Kept.raise (hs : Kept s₀ s) {u : Nat} {d : Decl} {e : Ev} : Kept s₀ (s.raise u d e) :=
  hs.setTile

/-- A tile store replaced by one that is canonical. -/
theorem Kept.setTileMem (hs : Kept s₀ s) {u : Nat} {m : Mem} (hm : (s.tileMem u).wf = true → m.wf = true) :
    Kept s₀ (s.setTileMem u m) :=
  hs.upd (tile := fun h => tilesOk_set h (hm (tilesOk_get h)))

theorem Kept.tileWr (hs : Kept s₀ s) {u a : Nat} {bs : List Byte} : Kept s₀ (s.tileWr u a bs) :=
  hs.setTileMem Mem.wf_writeN

theorem Kept.setTileElem (hs : Kept s₀ s) {u : Nat} {f : Fmt} {b i c : Nat} : Kept s₀ (s.setTileElem u f b i c) :=
  hs.setTileMem tileElemWr_wf

theorem Kept.dramWr (hs : Kept s₀ s) {a : Nat} {bs : List Byte} : Kept s₀ (s.dramWr a bs) :=
  hs.upd (dram := Mem.wf_writeN)

theorem Kept.setDramElem (hs : Kept s₀ s) {f : Fmt} {b i c : Nat} : Kept s₀ (s.setDramElem f b i c) :=
  hs.upd (dram := Mem.wf_writeElem)

theorem Kept.hostWr (hs : Kept s₀ s) {a : Nat} {bs : List Byte} : Kept s₀ (s.hostWr a bs) :=
  hs.upd (host := Mem.wf_writeN)

theorem Kept.dramForget (hs : Kept s₀ s) {lo hi : Nat} : Kept s₀ (s.dramForget lo hi) :=
  hs.upd (dram := Mem.wf_forget)

theorem Kept.tileForget (hs : Kept s₀ s) {u lo hi : Nat} : Kept s₀ (s.tileForget u lo hi) :=
  (hs.setTileMem Mem.wf_forget).upd

theorem Kept.wrAt (hs : Kept s₀ s) {a : Bool × Nat} {bs : List Byte} : Kept s₀ (s.wrAt a bs) :=
  hs.hostWr.ite hs.dramWr

theorem Kept.msix (hs : Kept s₀ s) {v : Nat} : Kept s₀ (s.msix v) :=
  hs.upd

theorem Kept.alert (hs : Kept s₀ s) {b : Bool} : Kept s₀ (s.alert b) :=
  hs.upd

theorem Kept.event (hs : Kept s₀ s) {e : Event} : Kept s₀ (s.event e) :=
  hs.alert.upd

theorem Kept.record (hs : Kept s₀ s) {r : FaultRec} : Kept s₀ (s.record r) :=
  hs.countNow.event.upd.msix.ite hs.countNow.event.upd

theorem Kept.recordAsh (hs : Kept s₀ s) {r : FaultRec} : Kept s₀ (s.recordAsh r) :=
  hs.countNow.event.upd

theorem Kept.contained (hs : Kept s₀ s) {r : FaultRec} : Kept s₀ (s.contained r) :=
  hs.record.upd.ite hs.record

theorem Kept.corrected (hs : Kept s₀ s) : Kept s₀ s.corrected :=
  hs.countNow

theorem Kept.timing (hs : Kept s₀ s) {bit : Nat} : Kept s₀ (s.timing bit) :=
  hs.upd.ite hs

end

/-! ### Landing areas (10 R280) -/

section
variable {s₀ s : State}

theorem Kept.setSlot (hs : Kept s₀ s) {u k : Nat} {x : StreamSlot} : Kept s₀ (s.setSlot u k x) :=
  hs.setTile

end

/-! ### Output tiles (04 R91; 07 R194) -/

section
variable {s₀ s : State}

theorem Kept.countTile (hs : Kept s₀ s) {u : Nat} {d : ProdDesc} {row : DotRow} : Kept s₀ (s.countTile u d row) :=
  hs.count.count.count

theorem Kept.finishTile (hs : Kept s₀ s) {u entry ti tj : Nat} {d : ProdDesc} {row : DotRow} :
    Kept s₀ (finishTile s u entry ti tj d row) := by
  unfold Machine.finishTile
  split; next accs ev _ =>
  split; next m ev' e =>
  have hm : (s.tileMem u).wf = true → m.wf = true := fun h => by
    have w := drainTile_wf (d := d) (row := row) (i := ti) (j := tj) (accs := accs) h
    rwa [e] at w
  extract_lets t t1 s1 s2 _
  have h2 : Kept s₀ s2 := (hs.setTile.setTileMem hm).countTile
  clear_value s2
  exact h2.upd.ite h2

theorem Kept.stopProduct (hs : Kept s₀ s) {u entry arr : Nat} : Kept s₀ (stopProduct s u entry arr) :=
  hs.setTile.contained

theorem Kept.doProductTile (hs : Kept s₀ s) {unit entry ti tj : Nat} {ue : Bool} :
    Kept s₀ (doProductTile s unit entry ti tj ue) := by
  unfold Machine.doProductTile
  dsimp only
  split; exacts [hs, ((hs.stopProduct.ite hs.finishTile).ite hs)]

theorem Kept.doSwatch (hs : Kept s₀ s) {unit entry ti tj : Nat} : Kept s₀ (doSwatch s unit entry ti tj) := by
  unfold Machine.doSwatch
  dsimp only
  split; exacts [hs.upd, hs]

end

/-! ### Channels and Pearl (10 R275 to R304) -/

section
variable {s₀ s : State}

theorem Kept.memUe (hs : Kept s₀ s) {a : Nat} : Kept s₀ (s.memUe a) := by
  unfold State.memUe
  dsimp only
  split; exacts [hs.upd.count, hs.upd]

theorem Kept.memCe (hs : Kept s₀ s) {c : Nat} : Kept s₀ (s.memCe c) :=
  hs.setChan.count.corrected

theorem Kept.clearPoison (hs : Kept s₀ s) {spans : List (Nat × Nat)} : Kept s₀ (s.clearPoison spans) :=
  hs.upd

theorem Kept.park (hs : Kept s₀ s) {r : MemReq} : Kept s₀ (s.park r) :=
  hs.setArb

theorem Kept.post (hs : Kept s₀ s) {r : MemReq} : Kept s₀ (s.post r) :=
  hs.park.ite hs

theorem Kept.setPearl (hs : Kept s₀ s) {p : PearlSet} : Kept s₀ (s.setPearl p) :=
  hs.upd

theorem Kept.toChannel (hs : Kept s₀ s) {r : MemReq} {line cls : Nat} {store : Bool} :
    Kept s₀ (s.toChannel r line cls store) := by
  unfold State.toChannel
  split; exacts [hs, hs.post]

theorem Kept.pearlAccess (hs : Kept s₀ s) {r : MemReq} : Kept s₀ (s.pearlAccess r) := by
  unfold State.pearlAccess
  dsimp only
  split; exacts [hs, (hs.toChannel.ite (by split; exacts [hs.setPearl.count,
      (hs.count.toChannel.ite (by split; exacts [((hs.count.setPearl.ite hs.count.setPearl.toChannel).toChannel.ite
      (hs.count.setPearl.ite hs.count.setPearl.toChannel)), (hs.count.setPearl.ite hs.count.setPearl.toChannel)]))]))]

theorem Kept.askLines (hs : Kept s₀ s) {req cls : Nat} {ls : List Nat} : Kept s₀ (s.askLines req cls ls) :=
  hs.foldl fun _ _ hs => hs.post

theorem Kept.askRange (hs : Kept s₀ s) {req cls a n : Nat} : Kept s₀ (s.askRange req cls a n) :=
  hs.foldl fun _ _ hs => hs.post

theorem Kept.askAll (hs : Kept s₀ s) {req cls : Nat} {rs : List (Nat × Nat)} : Kept s₀ (s.askAll req cls rs) :=
  hs.foldl fun _ _ hs => hs.askRange

end

/-! ### Rings, replies, the journal (14 R406 to R426) -/

section
variable {s₀ s : State}

theorem Kept.statusLine (hs : Kept s₀ s) {r : Nat} : Kept s₀ (s.statusLine r) :=
  hs.hostWr

theorem Kept.modJournal (hs : Kept s₀ s) {seq : Nat} {f : JEntry → JEntry} : Kept s₀ (s.modJournal seq f) :=
  hs.upd

theorem Kept.postReply (hs : Kept s₀ s) {r : Nat} {x : ReplyRec} : Kept s₀ (s.postReply r x) :=
  (hs.hostWr.setRing.statusLine.msix.ite hs.hostWr.setRing.statusLine).modJournal.ite
    (hs.hostWr.setRing.statusLine.msix.ite hs.hostWr.setRing.statusLine)

theorem Kept.queueReply (hs : Kept s₀ s) {r : Nat} {x : ReplyRec} : Kept s₀ (s.queueReply r x) :=
  hs.postReply.ite hs.setRing

theorem Kept.postHeld (hs : Kept s₀ s) {r : Nat} : Kept s₀ (s.postHeld r) := by
  unfold State.postHeld
  dsimp only
  split; exacts [hs, (hs.setRing.postReply.ite hs)]

theorem Kept.raiseW (hs : Kept s₀ s) : Kept s₀ s.raiseW := by
  unfold State.raiseW
  dsimp only
  split; exacts [hs, hs.upd]

theorem Kept.liftW (hs : Kept s₀ s) {v : Nat} : Kept s₀ (s.liftW v) := by
  unfold State.liftW
  exact hs.upd.raiseW

theorem Kept.countReply (hs : Kept s₀ s) {status : Nat} : Kept s₀ (s.countReply status) :=
  hs.countNow.ite (hs.countNow.ite hs)

theorem Kept.writeResult (hs : Kept s₀ s) {h : Hdr} {bs : List Byte} : Kept s₀ (s.writeResult h bs) :=
  hs.ite (by split; exacts [hs.wrAt, hs])

theorem Kept.retire (hs : Kept s₀ s) {h : Hdr} {a : Answer} : Kept s₀ (s.retire h a) :=
  (hs.writeResult.countReply.upd.ite hs.writeResult.countReply.upd.modJournal.raiseW).queueReply

theorem Kept.answer (hs : Kept s₀ s) {h : Hdr} {a : Answer} : Kept s₀ (s.answer h a) :=
  hs.countReply.queueReply

theorem Kept.interim (hs : Kept s₀ s) {h : Hdr} : Kept s₀ (s.interim h) :=
  hs.queueReply

theorem Kept.checkJournal (hs : Kept s₀ s) : Kept s₀ s.checkJournal :=
  hs.upd.ite hs.upd

theorem Kept.stopRing (hs : Kept s₀ s) {r code : Nat} : Kept s₀ (s.stopRing r code) :=
  hs.setRing.statusLine

theorem Kept.latchRing (hs : Kept s₀ s) {r : Nat} : Kept s₀ (s.latchRing r) :=
  hs.setRing.hostWr.hostWr

theorem Kept.writeCtl (hs : Kept s₀ s) {r : Nat} {v : BitVec 32} : Kept s₀ (s.writeCtl r v) :=
  hs.setRing.ite ((hs.setRing.latchRing.ite hs.setRing).ite hs.setRing)

theorem Kept.latchWaiting (hs : Kept s₀ s) : Kept s₀ s.latchWaiting :=
  hs.foldl fun _ _ hs => (hs.latchRing.ite hs)

theorem Kept.rereadLine (hs : Kept s₀ s) {r prod cplCons : Nat} : Kept s₀ (s.rereadLine r prod cplCons) :=
  hs.setRing.stopRing.ite hs.setRing

theorem Kept.takePacket (hs : Kept s₀ s) {r : Nat} : Kept s₀ (s.takePacket r) :=
  hs.setRing.statusLine.upd

theorem Kept.pollLine (hs : Kept s₀ s) {l : Nat × Nat × Nat} : Kept s₀ (s.pollLine l) :=
  (hs.countNow.ite hs).rereadLine.ite hs

end

/-! ### Leaving and entering `RUN` (12 R373) -/

section
variable {s₀ s : State}

theorem Kept.abortTransit (hs : Kept s₀ s) {p : Nat} : Kept s₀ (s.abortTransit p) :=
  (hs.foldl fun _ _ hs => hs.setArb).upd

theorem Kept.leaveRun (hs : Kept s₀ s) {p reason : Nat} {st : PortState} : Kept s₀ (s.leaveRun p reason st) :=
  ((hs.kvSet.kvSet.count.ite hs.kvSet.kvSet).timing.ite (hs.kvSet.kvSet.count.ite hs.kvSet.kvSet)).abortTransit.setPort

theorem Kept.retrain (hs : Kept s₀ s) {p reason : Nat} : Kept s₀ (s.retrain p reason) :=
  hs.leaveRun.ite hs

theorem Kept.enterRun (hs : Kept s₀ s) {p : Nat} : Kept s₀ (s.enterRun p) :=
  hs.setPort

theorem Kept.portOff (hs : Kept s₀ s) {p reason : Nat} : Kept s₀ (s.portOff p reason) :=
  hs.leaveRun.ite hs.kvSet.setPort

theorem Kept.sendFlit (hs : Kept s₀ s) {p : Nat} {f : Flit} : Kept s₀ (s.sendFlit p f) :=
  hs.setPort

theorem Kept.sendRetire (hs : Kept s₀ s) : Kept s₀ s.sendRetire :=
  hs.foldl fun _ _ hs => (hs.sendFlit.portOff.ite hs)

end

/-! ### Traffic generators (10 R305 to R307) -/

section
variable {s₀ s : State}

theorem Kept.tgRunNow (hs : Kept s₀ s) {c : Nat} : Kept s₀ (s.tgRunNow c) :=
  hs.setChan

theorem Kept.tgGo (hs : Kept s₀ s) {c : Nat} {go : Bool} : Kept s₀ (s.tgGo c go) :=
  (hs.tgRunNow.ite hs).ite (hs.setChan.ite hs)

theorem Kept.testDone (hs : Kept s₀ s) {c : Cmd} : Kept s₀ (s.testDone c) := by
  unfold State.testDone
  dsimp only
  split; exacts [(hs.retire.ite hs), hs]

theorem Kept.testsDone (hs : Kept s₀ s) : Kept s₀ s.testsDone :=
  hs.foldl fun _ _ hs => hs.testDone

theorem Kept.tgCheck (hs : Kept s₀ s) {c la : Nat} {g : TgCfg} : Kept s₀ (s.tgCheck c la g) :=
  hs.count.ite (hs.count.count.kvSet.kvSet.ite hs.count.count)

theorem Kept.tgStep (hs : Kept s₀ s) {c : Nat} {ce poisoned : Bool} : Kept s₀ (s.tgStep c ce poisoned) :=
  (((hs.post.memCe.ite hs.post).memUe.ite (hs.post.memCe.ite hs.post)).tgCheck.ite (hs.post.memCe.ite
    hs.post).dramWr).setChan

theorem Kept.writeGo (hs : Kept s₀ s) {c : Nat} {go : Bool} : Kept s₀ (s.writeGo c go) :=
  hs.kvSet

end

/-! ### Key writes and the fold (02 R68; 14 R427) -/

section
variable {s₀ s : State}

theorem Kept.keyEffect (hs : Kept s₀ s) {k : Nat} {old : BitVec 64} : Kept s₀ (s.keyEffect k old) :=
  (hs.ite hs.dramForget).ite (hs.kvSet.kvSet.ite hs)

theorem Kept.writeKey (hs : Kept s₀ s) {k : Nat} {v : BitVec 64} : Kept s₀ (s.writeKey k v) := by
  unfold State.writeKey
  dsimp only
  split; exacts [hs, ((hs.upd.ite hs.kvSet.keyEffect).tgGo.ite (hs.upd.ite hs.kvSet.keyEffect))]

theorem Kept.foldWrite (hs : Kept s₀ s) {p : Nat × BitVec 64} : Kept s₀ (s.foldWrite p) := by
  unfold State.foldWrite
  split; exacts [hs.kvSet.keyEffect, hs]

theorem Kept.fold (hs : Kept s₀ s) : Kept s₀ s.fold :=
  ((hs.countNow.countNow.countNow.kvSet.foldl fun _ _ hs => hs.countNow).foldl fun _ _ hs => hs.foldWrite).upd

theorem Kept.writeBar (hs : Kept s₀ s) {off : Nat} {v : BitVec 64} : Kept s₀ (s.writeBar off v) := by
  unfold State.writeBar
  dsimp only
  split; exacts [hs, (hs.setRing.ite (hs.setRing.ite (hs.setRing.ite (hs.setRing.ite (hs.writeCtl.ite hs)))))]

end

/-! ### Stops and retirement (20 R533 to R542) -/

section
variable {s₀ s : State}

theorem Kept.stopEntries (hs : Kept s₀ s) : Kept s₀ s.stopEntries :=
  hs.upd (engs := by simp)

theorem Kept.stopAll (hs : Kept s₀ s) : Kept s₀ s.stopAll :=
  hs.stopEntries.upd (engs := by simp)

theorem Kept.endRun (hs : Kept s₀ s) {status detail : Nat} : Kept s₀ (s.endRun status detail) := by
  unfold State.endRun
  split; exacts [hs.retire, hs]

theorem Kept.jobFaulted (hs : Kept s₀ s) {reason : Nat} {r : FaultRec} : Kept s₀ (s.jobFaulted reason r) :=
  hs.record.upd

theorem Kept.jobFaultNow (hs : Kept s₀ s) {reason : Nat} {r : FaultRec} : Kept s₀ (s.jobFaultNow reason r) :=
  hs.jobFaulted.stopEntries.endRun.ite hs

theorem Kept.memberLost (hs : Kept s₀ s) {x y z : Nat} : Kept s₀ (s.memberLost x y z) :=
  hs.jobFaultNow

theorem Kept.failCmds (hs : Kept s₀ s) : Kept s₀ s.failCmds :=
  hs.foldl fun _ _ hs => hs.retire

theorem Kept.markRetired (hs : Kept s₀ s) : Kept s₀ s.markRetired :=
  hs.event.upd

theorem Kept.retirePackage (hs : Kept s₀ s) {r : FaultRec} : Kept s₀ (s.retirePackage r) :=
  hs.ite hs.stopAll.record.sendRetire.failCmds.markRetired

theorem Kept.retireByAsh (hs : Kept s₀ s) {r : FaultRec} {ports : Bool} : Kept s₀ (s.retireByAsh r ports) :=
  hs.ite (hs.stopAll.recordAsh.sendRetire.ite (hs.stopAll.recordAsh.foldl fun _ _ hs => hs.portOff)).markRetired.upd

end

/-! ### Solves (chapter 08) -/

section
variable {s₀ s : State}

theorem Kept.startSolve (hs : Kept s₀ s) {src : UmberSrc} {d : SolveDesc} {fields : List Nat} :
    Kept s₀ (s.startSolve src d fields) :=
  (hs.foldl fun _ _ hs => hs.setEngine).setEngine

theorem Kept.askPass (hs : Kept s₀ s) {f : Nat} {t : SolveSt} : Kept s₀ (s.askPass f t) :=
  hs.askAll

theorem Kept.writeFx (hs : Kept s₀ s) {fmt base : Nat} {point : Int} {vals : List (Nat × Dy)} :
    Kept s₀ (s.writeFx fmt base point vals).1 :=
  hs.foldlFst fun _ _ h => h.setDramElem

theorem Kept.foldIfIdle (hs : Kept s₀ s) : Kept s₀ s.foldIfIdle :=
  hs.ite hs.fold

theorem Kept.umberAnswer (hs : Kept s₀ s) {src : UmberSrc} {status result : Nat} :
    Kept s₀ (s.umberAnswer src status result) := by
  unfold State.umberAnswer
  split; exacts [hs.foldIfIdle.retire, hs]

theorem Kept.countSolve (hs : Kept s₀ s) {f : Nat} {t : SolveSt} : Kept s₀ (s.countSolve f t) :=
  hs.count.count.count.count.count

theorem Kept.finishSolve (hs : Kept s₀ s) {f : Nat} {ended : SolveSt} : Kept s₀ (s.finishSolve f ended) := by
  unfold State.finishSolve
  extract_lets d e0 t
  split; next s1 e1 h1 =>
  have k1 : Kept s₀ s1 := hs.writeFx.fst h1
  split; next s2 e2 h2 =>
  have k2 : Kept s₀ s2 := by
    split at h2
    · exact k1.writeFx.fst h2
    · exact k1.fst (p := (s1, _)) h2
  extract_lets s3 s4 s5
  have k4 : Kept s₀ s4 := k2.raise.dramWr.askRange.askRange
  clear_value s4
  exact k4.setEngine.countSolve.umberAnswer

theorem Kept.solveLost (hs : Kept s₀ s) {d : SolveDesc} : Kept s₀ (s.solveLost d) :=
  hs.dramForget.dramForget.ite hs.dramForget

theorem Kept.faultSolve (hs : Kept s₀ s) {f : Nat} {t : SolveSt} {a : Nat} : Kept s₀ (s.faultSolve f t a) :=
  hs.setEngine.countSolve.dramWr.umberAnswer.jobFaultNow.ite
      (by split; exacts [hs.setEngine.countSolve.dramWr.record.umberAnswer,
      hs.setEngine.countSolve.dramWr.solveLost.contained])

theorem Kept.commitRun (hs : Kept s₀ s) {f : Nat} {t : SolveSt} {r : Run} : Kept s₀ (s.commitRun f t r) := by
  unfold State.commitRun
  dsimp only
  split; exacts [hs.setEngine,
      ((hs.raise.askPass.ite hs.raise.askPass.upd).finishSolve.ite
      (hs.raise.askPass.ite hs.raise.askPass.upd).setEngine)]

theorem Kept.runPass (hs : Kept s₀ s) {f : Nat} {t : SolveSt} : Kept s₀ (s.runPass f t) := by
  unfold State.runPass
  dsimp only
  split; exacts [hs.faultSolve, hs.commitRun]

end

/-! ### Dynamics (chapter 09) -/

section
variable {s₀ s : State}

theorem Kept.runOneTree (hs : Kept s₀ s) {f k : Nat} {t : DynSt} : Kept s₀ (s.runOneTree f t k).1 := by
  unfold State.runOneTree
  extract_lets d sing prog
  split; next =>
  extract_lets
  split; next s1 e1 h1 =>
  have k1 : Kept s₀ s1 := (hs.foldlFst (p := (s, _)) fun _ _ h => h.setDramElem).fst h1
  exact k1.raise.dramWr.count.count.count.count

theorem Kept.startDyn (hs :
    Kept s₀ s) {src : UmberSrc} {d : DynDesc} {m : Model} {points : List Int} {fields : List Nat}
    : Kept s₀ (s.startDyn src d m points fields) :=
  hs.foldl fun _ _ hs => hs.setEngine

theorem Kept.freeDyn (hs : Kept s₀ s) {src : UmberSrc} {fields : List Nat} : Kept s₀ (s.freeDyn src fields) :=
  hs.foldl fun _ _ hs => hs.setEngine

theorem Kept.dynLost (hs : Kept s₀ s) {t : DynSt} {rs : List TreeRes} : Kept s₀ (s.dynLost t rs) := by
  unfold State.dynLost
  dsimp only
  split; exacts [hs, (hs.foldl fun _ _ hs => hs.dramForget.dramForget).dramForget]

theorem Kept.finishDyn (hs : Kept s₀ s) {t : DynSt} : Kept s₀ (s.finishDyn t) :=
  hs.ite (hs.freeDyn.count.dynLost.umberAnswer.ite hs.freeDyn.count.dramWr.umberAnswer)

theorem Kept.faultDyn (hs : Kept s₀ s) {f a : Nat} {t : DynSt} : Kept s₀ (s.faultDyn f t a) := by
  unfold State.faultDyn
  extract_lets r s1 s2
  have h1 : Kept s₀ s1 := hs.foldl fun _ _ h => by split; exacts [h.setEngine, h]
  have h2 : Kept s₀ s2 := by
    unfold s2
    split; exacts [h1.record, h1.contained]
  exact h2.finishDyn

theorem Kept.runTrees (hs : Kept s₀ s) {f n : Nat} {t : DynSt} : Kept s₀ (s.runTrees f t n).1 :=
  hs.foldlFst fun _ _ h => h.runOneTree

theorem Kept.runGroup (hs : Kept s₀ s) {f : Nat} {t : DynSt} {ue : Bool} : Kept s₀ (s.runGroup f t ue) := by
  unfold State.runGroup
  dsimp only
  split; exacts [hs.faultDyn, hs.faultDyn, hs.askAll.askAll.runTrees.setEngine.finishDyn]

end

/-! ### Switch-in and Cobalt time (chapter 13) -/

section
variable {s₀ s : State}

theorem Kept.joinPorts (hs : Kept s₀ s) : Kept s₀ s.joinPorts :=
  hs.upd (prts := by simp)

theorem Kept.applySwitch (hs : Kept s₀ s) {m : Nat × Nat × Nat × Nat} : Kept s₀ (s.applySwitch m) :=
  ((hs.upd.joinPorts.ite hs.upd).event.ite (hs.upd.joinPorts.ite hs.upd)).foldl fun _ _ hs => hs.event

theorem Kept.applyHeld (hs : Kept s₀ s) : Kept s₀ s.applyHeld :=
  (hs.foldl fun _ _ hs => hs.applySwitch).upd

theorem Kept.elect (hs : Kept s₀ s) : Kept s₀ s.elect :=
  hs.upd

theorem Kept.liverySkew (hs : Kept s₀ s) : Kept s₀ s.liverySkew :=
  hs.event.count.upd

theorem Kept.moveTime (hs : Kept s₀ s) {c : Int} : Kept s₀ (s.moveTime c) :=
  hs.upd (prts := by simp)

theorem Kept.correct (hs : Kept s₀ s) : Kept s₀ s.correct :=
  ((hs.count.ite hs).event.count.ite (hs.count.ite hs)).moveTime.kvSet.upd

theorem Kept.correctNow (hs : Kept s₀ s) : Kept s₀ s.correctNow :=
  hs.upd.kvSet.ite (hs.upd.ite hs.correct)

end

/-! ### The Flosin ports (chapter 12) -/

section
variable {s₀ s : State}

theorem Kept.slotFlit (hs : Kept s₀ s) {p : Nat} {f : Flit} : Kept s₀ (s.slotFlit p f) :=
  hs.setPort

theorem Kept.syncSlot (hs : Kept s₀ s) {p : Nat} : Kept s₀ (s.syncSlot p) :=
  hs.setPort.slotFlit

theorem Kept.sequenced (hs : Kept s₀ s) {p : Nat} {f : Flit} : Kept s₀ (s.sequenced p f) :=
  hs.setPort.slotFlit

theorem Kept.spend (hs : Kept s₀ s) {p vc : Nat} : Kept s₀ (s.spend p vc) :=
  hs.setPort

theorem Kept.beat (hs : Kept s₀ s) {p : Nat} {r : MemReq} {ended : Bool} : Kept s₀ (s.beat p r ended) :=
  hs.setArb

theorem Kept.injectFlit (hs : Kept s₀ s) {p : Nat} {r : MemReq} : Kept s₀ (s.injectFlit p r) :=
  hs.setPort.spend.sequenced.beat

theorem Kept.transitFlit (hs : Kept s₀ s) {p : Nat} {r : MemReq} : Kept s₀ (s.transitFlit p r) :=
  hs.spend.sequenced.beat.ite (by split; exacts [hs.slotFlit, (hs.setPort.upd.ite hs.setPort).spend.sequenced.beat])

theorem Kept.flitSlot (hs : Kept s₀ s) {p : Nat} : Kept s₀ (s.flitSlot p) :=
  hs.ite (hs.slotFlit.ite (hs.syncSlot.ite (hs.slotFlit.ite (by split; exacts [(hs.slotFlit.ite
      (hs.setPort.spend.ite hs.setPort).count.slotFlit),
      (by split; exacts [((hs.injectFlit.ite hs.transitFlit).ite hs.slotFlit),
      (by split; exacts [(hs.setPort.sequenced.ite (hs.syncSlot.ite hs.slotFlit)),
      (hs.syncSlot.ite hs.slotFlit)])])]))))

theorem Kept.alignLost (hs : Kept s₀ s) {p : Nat} : Kept s₀ (s.alignLost p) :=
  hs.event.retrain

theorem Kept.enterCrossing (hs : Kept s₀ s) {p : Nat} : Kept s₀ (s.enterCrossing p) :=
  hs.alignLost.ite hs.setPort

theorem Kept.enterElastic (hs : Kept s₀ s) {p : Nat} : Kept s₀ (s.enterElastic p) :=
  hs.setPort

theorem Kept.codeword (hs : Kept s₀ s) {p corrected : Nat} {bad : Bool} : Kept s₀ (s.codeword p corrected bad) :=
  hs.ite ((hs.count.ite (hs.count.corrected.ite hs)).setPort.retrain.ite ((hs.count.ite (hs.count.corrected.ite
    hs)).setPort.enterCrossing.ite (hs.count.ite (hs.count.corrected.ite hs)).setPort.enterElastic))

theorem Kept.badRx (hs : Kept s₀ s) {p : Nat} {f : Flit} : Kept s₀ (s.badRx p f) := by
  have hb : ∀ {u : State}, Kept s₀ u → Kept s₀ (match f.body with | .sync _ => u.count (kSyncLost p) 1 | _ => u) :=
    fun h => by split; exacts [h.count, h]
  have h := hb (hs.count (k := kCrcErr p) (n := 1))
  exact h.ite (h.count.timing.corrected.upd.ite h.count.timing.corrected).setPort

theorem Kept.nakRx (hs : Kept s₀ s) {p : Nat} {f : Flit} : Kept s₀ (s.nakRx p f) :=
  hs.setPort.retrain.ite hs.setPort

theorem Kept.headerRx (hs : Kept s₀ s) {p : Nat} {f : Flit} : Kept s₀ (s.headerRx p f) :=
  hs.setPort.nakRx.ite hs.setPort

theorem Kept.ownData (hs : Kept s₀ s) {p : Nat} {f : Flit} {bytes : List Byte} : Kept s₀ (s.ownData p f bytes) :=
  hs.setPort

theorem Kept.transitData (hs : Kept s₀ s) {p out comp : Nat} {f : Flit} {h : MsgHdr} :
    Kept s₀ (s.transitData p out comp f h) :=
  hs.setPort.setArb.upd.ite hs.setPort

theorem Kept.drift (hs : Kept s₀ s) {p : Nat} : Kept s₀ (s.drift p) :=
  hs.timing.ite hs

theorem Kept.dataRx (hs : Kept s₀ s) {p : Nat} {f : Flit} {bytes : List Byte} : Kept s₀ (s.dataRx p f bytes) :=
  (hs.drift.ownData.ite (by split; exacts [hs.drift.transitData,
      hs.drift.ownData])).ite (hs.drift.ownData.ite (by split; exacts [hs.drift.transitData, hs.drift.ownData]))

theorem Kept.sequencedRx (hs : Kept s₀ s) {p : Nat} {f : Flit} : Kept s₀ (s.sequencedRx p f) := by
  unfold State.sequencedRx
  refine Kept.ite ?_ hs
  split; exacts [hs.setPort.dataRx, hs.setPort]

theorem Kept.flitRx (hs : Kept s₀ s) {p : Nat} {f : Flit} : Kept s₀ (s.flitRx p f) :=
  hs.ite (hs.setPort.badRx.ite (by split; exacts [(hs.setPort.headerRx.sequencedRx.ite hs.setPort.headerRx),
      (hs.setPort.headerRx.sequencedRx.ite hs.setPort.headerRx), hs.setPort.headerRx]))

theorem Kept.startPort (hs : Kept s₀ s) {p : Nat} : Kept s₀ (s.startPort p) :=
  hs.setPort.ite hs

theorem Kept.parentRuns (hs : Kept s₀ s) {p : Nat} : Kept s₀ (s.parentRuns p) :=
  hs.upd.ite hs

theorem Kept.train (hs : Kept s₀ s) {p : Nat} {r : TrainRec} : Kept s₀ (s.train p r) :=
  hs.sendFlit

theorem Kept.alignFailed (hs : Kept s₀ s) {p : Nat} : Kept s₀ (s.alignFailed p) :=
  hs.setPort.ite hs.kvSet.setPort

theorem Kept.failPort (hs : Kept s₀ s) {p : Nat} : Kept s₀ (s.failPort p) := by
  unfold State.failPort
  extract_lets _ _ _ s0 _ s1
  have h0 : Kept s₀ s0 := hs.upd
  have h1 : Kept s₀ s1 := h0.leaveRun.ite h0.setPort
  clear_value s1
  refine Kept.ite ?_ h1
  split; exacts [h1.memberLost, h1]

end

/-! ### Start-up and resets (chapter 17) -/

section
variable {s₀ s : State}

theorem Kept.pinsBegin (hs : Kept s₀ s) : Kept s₀ s.pinsBegin :=
  (hs.upd (inp := fun h => by simp [h])).upd

theorem Kept.hbmLost (hs : Kept s₀ s) : Kept s₀ s.hbmLost :=
  hs.dramForget.upd

theorem Kept.unitsLost (hs : Kept s₀ s) {lo n : Nat} : Kept s₀ (s.unitsLost lo n) :=
  hs.upd (tile := tilesOk_freshTiles)

theorem Kept.fastOff (hs : Kept s₀ s) : Kept s₀ s.fastOff := by
  unfold State.fastOff
  extract_lets s1 s2
  have h2 : Kept s₀ s2 := (hs.foldl fun _ _ h => h.portOff).unitsLost
  clear_value s2
  exact h2.upd (fns := fun _ => List.length_replicate) (engs := fun _ => List.length_replicate)

theorem Kept.warmReset (hs : Kept s₀ s) : Kept s₀ s.warmReset := by
  unfold State.warmReset
  extract_lets s1 _ _ _ _ s2
  have h1 : Kept s₀ s1 := hs.fold.applyHeld.fastOff.hbmLost
  clear_value s1
  have h2 : Kept s₀ s2 := h1.upd (rings := (List.length_map _).trans)
  clear_value s2
  exact h2.alert.pinsBegin.ite h2

theorem Kept.powerOn (hs : Kept s₀ s) : Kept s₀ s.powerOn := by
  refine hs.trans ⟨rfl, fun h => ?_⟩
  obtain ⟨⟨_, _, inp, _, _⟩, _, _, host⟩ := State.ok_iff.mp h
  have dram : s.powerOn.mem.dram.wf = true := Mem.wf_iff.mpr ⟨rfl, rfl, nofun⟩
  have tile : tilesOk s.powerOn.mem.tile = true := by
    simp only [State.powerOn]
    exact tilesOk_freshTiles (t := []) rfl
  refine State.ok_iff.mpr ⟨⟨?_, ?_, (List.length_map _).trans inp, ?_, ?_⟩, dram, tile, host⟩
  all_goals simp [State.powerOn, State.reset, resetRings]

theorem Kept.powerOff (hs : Kept s₀ s) : Kept s₀ s.powerOff :=
  hs.powerOn.upd

theorem Kept.fastRailLost (hs : Kept s₀ s) {rail : Rail} : Kept s₀ (s.fastRailLost rail) := by
  unfold State.fastRailLost
  extract_lets _ s1 s2 s3 s4
  have h1 : Kept s₀ s1 := hs.upd
  have h3 : Kept s₀ s3 := h1.event.retireByAsh.fastOff.hbmLost
  clear_value s3
  have h4 : Kept s₀ s4 := h3.ite h3.dramForget
  clear_value s4
  exact h4.upd (rings := fun h => by split <;> exact h)

theorem Kept.stopBoot (hs : Kept s₀ s) {r : BootReport} {e : Event} : Kept s₀ (s.stopBoot r e) :=
  (hs.event.foldl fun _ _ hs => hs.portOff).upd

theorem Kept.toRow (hs : Kept s₀ s) {r : BootRow} : Kept s₀ (s.toRow r) :=
  hs.upd

theorem Kept.takePlace (hs : Kept s₀ s) {t : TopTable} : Kept s₀ (s.takePlace t) :=
  hs.upd

theorem Kept.takeSnapshot (hs : Kept s₀ s) : Kept s₀ s.takeSnapshot :=
  hs.upd

theorem Kept.startFw (hs : Kept s₀ s) {f : Flash} {fw cfg : Nat} : Kept s₀ (s.startFw f fw cfg) :=
  ((hs.upd.event.ite hs.upd).ite (hs.upd.event.ite hs.upd).event).takeSnapshot.upd.ite ((hs.upd.event.ite
    hs.upd).ite (hs.upd.event.ite hs.upd).event)

theorem Kept.fnsOn (hs : Kept s₀ s) {lo n : Nat} : Kept s₀ (s.fnsOn lo n) :=
  hs.foldl fun _ _ hs => hs.setFn

theorem Kept.mapSpares (hs : Kept s₀ s) : Kept s₀ s.mapSpares :=
  hs.upd

theorem Kept.replayJournal (hs : Kept s₀ s) : Kept s₀ s.replayJournal :=
  hs.foldl fun _ _ hs => (hs.queueReply.ite (hs.retire.ite hs))

theorem Kept.becomeReady (hs : Kept s₀ s) {lp : Nat} : Kept s₀ (s.becomeReady lp) := by
  unfold State.becomeReady
  exact Kept.replayJournal (Kept.latchWaiting (Kept.upd (hs.draw.kvSet.kvSet.fnsOn)))

end

/-! ### Pins, functions, operating points (17 R473 to R486; 18 R492 to R499) -/

section
variable {s₀ s : State}

theorem Kept.mergePin (hs : Kept s₀ s) {n : Nat} {l : Bool} : Kept s₀ (s.mergePin n l) :=
  hs.setPin.kvSet

theorem Kept.pinChange (hs : Kept s₀ s) {n : Nat} {l : Bool} : Kept s₀ (s.pinChange n l) :=
  hs.setPin.ite (hs.setPin.countNow.ite hs.mergePin)

theorem Kept.throttlePin (hs : Kept s₀ s) : Kept s₀ s.throttlePin :=
  hs.upd

theorem Kept.faultN (hs : Kept s₀ s) : Kept s₀ s.faultN :=
  hs.record.ite ((hs.contained.ite hs.record.upd).ite (hs.record.upd.ite hs.retirePackage))

theorem Kept.pinAct (hs : Kept s₀ s) {n : Nat} {l : Bool} : Kept s₀ (s.pinAct n l) :=
  hs.throttlePin.ite ((hs.faultN.ite hs).ite (hs.warmReset.ite hs))

theorem Kept.recheckPin (hs : Kept s₀ s) {active : List Nat} {n : Nat} : Kept s₀ (s.recheckPin active n) :=
  hs.ite hs.setPin.kvSet

theorem Kept.fnReply (hs : Kept s₀ s) {f : Nat} {l : List Hdr} : Kept s₀ (s.fnReply f l) :=
  hs.foldl fun _ _ h => h.retire

theorem Kept.fnWithdraw (hs : Kept s₀ s) {f : Nat} {l : List Hdr} : Kept s₀ (s.fnWithdraw f l) :=
  hs.foldl fun _ _ h => h.retire

theorem Kept.setPll (hs : Kept s₀ s) {f : Nat} {on : Bool} : Kept s₀ (s.setPll f on) :=
  hs.upd.ite hs

theorem Kept.fnOff (hs : Kept s₀ s) {f : Nat} : Kept s₀ (s.fnOff f) :=
  hs.unitsLost.setEngine.setPll.ite (hs.portOff.ite hs)

theorem Kept.fnUp (hs : Kept s₀ s) {f : Nat} : Kept s₀ (s.fnUp f) :=
  hs.setPll.ite (hs.startPort.ite ((hs.foldl fun _ _ hs => hs.setChan).ite hs))

theorem Kept.tileErrors (hs : Kept s₀ s) {i : BoundaryInfo} : Kept s₀ (s.tileErrors i) :=
  hs.foldl fun _ _ hs => (hs.ite hs.count.countNow)

theorem Kept.takeReadings (hs : Kept s₀ s) {i : BoundaryInfo} : Kept s₀ (s.takeReadings i) :=
  hs.upd.upd

theorem Kept.sensorTriggers (hs : Kept s₀ s) : Kept s₀ s.sensorTriggers :=
  hs.upd

theorem Kept.powerTrigger (hs : Kept s₀ s) {mw : Nat} : Kept s₀ (s.powerTrigger mw) :=
  hs.upd

theorem Kept.reportTriggers (hs : Kept s₀ s) {old new : Nat} : Kept s₀ (s.reportTriggers old new) :=
  hs.foldl fun _ _ hs => (hs.event.ite hs)

theorem Kept.takePoint (hs : Kept s₀ s) {p : Nat} : Kept s₀ (s.takePoint p) :=
  hs.kvSet.upd

theorem Kept.settlePoint (hs : Kept s₀ s) : Kept s₀ s.settlePoint := by
  unfold State.settlePoint
  split; exacts [(hs.takePoint.ite hs), hs]

theorem Kept.pointBoundary (hs : Kept s₀ s) {t len : Nat} : Kept s₀ (s.pointBoundary t len) :=
  hs.reportTriggers.kvSet.upd.settlePoint

end

/-! ### The Indigo ring (chapter 11) -/

section
variable {s₀ s : State}

theorem Kept.runAdmission (hs : Kept s₀ s) {c : Nat} : Kept s₀ (s.runAdmission c) :=
  hs.askRange.askRange.dramWr.count.count.setCtx

theorem Kept.collWritten (hs : Kept s₀ s) {w : List (Nat × Nat)} : Kept s₀ (s.collWritten w) :=
  hs.askRange.clearPoison

theorem Kept.writeColl (hs : Kept s₀ s) {c : Nat} {d : Decl} {es : List Nat} : Kept s₀ (s.writeColl c d es) := by
  unfold State.writeColl
  dsimp only
  refine Kept.ite (Kept.raise (Kept.collWritten ?_)) (Kept.raise (Kept.collWritten ?_))
  · exact hs.foldlFst (p := (_, _)) fun _ _ h => (h.foldl fun _ _ h => h.setDramElem).dramWr
  · exact (hs.foldlFst (p := (_, _)) fun _ _ h => h.setDramElem).foldl fun _ _ h => h.setDramElem

theorem Kept.ctxFault (hs : Kept s₀ s) {c cause elem node : Nat} : Kept s₀ (s.ctxFault c cause elem node) :=
  hs.contained

theorem Kept.ctxPoison (hs : Kept s₀ s) {c elem node : Nat} : Kept s₀ (s.ctxPoison c elem node) :=
  hs.ctxFault

theorem Kept.addPair (hs : Kept s₀ s) {c : Nat} {d : Decl} {node i v : Nat} : Kept s₀ (s.addPair c d node i v) :=
  hs.askRange.setDramElem.raise.ite hs.ctxFault

theorem Kept.landPiece (hs : Kept s₀ s) {c m : Nat} {p : Piece} {off : Nat} {data : List Byte} :
    Kept s₀ (s.landPiece c m p off data) := by
  unfold State.landPiece
  dsimp only
  split; exacts [(hs.foldl fun _ _ hs => hs.askRange.dramWr), (hs.foldl fun _ _ hs => hs.askRange.dramWr),
      (hs.foldl fun _ _ hs => hs.askRange.dramWr), hs.setCtx, ((hs.foldl fun _ _ hs => hs.addPair).ite hs.setCtx),
      hs.setCtx]

theorem Kept.landGroup (hs : Kept s₀ s) {c m off : Nat} {g : List Piece} {data : List Byte} :
    Kept s₀ (s.landGroup c m g off data) :=
  hs.foldlFst (p := (_, _)) fun _ _ h => h.landPiece

theorem Kept.drainColl (hs : Kept s₀ s) {c : Nat} : Kept s₀ (s.drainColl c) :=
  hs.setCtx.raise

theorem Kept.feedSolve (hs : Kept s₀ s) {f : Nat} : Kept s₀ (s.feedSolve f) := by
  unfold State.feedSolve
  dsimp only
  split; exacts [hs, ((hs.setEngine.foldl fun _ _ hs => hs.setCtx).ite hs)]

theorem Kept.tryEnd (hs : Kept s₀ s) {c : Nat} : Kept s₀ (s.tryEnd c) :=
  (hs.setCtx.foldl fun _ _ hs => hs.feedSolve).ite hs

theorem Kept.poisonRange (hs : Kept s₀ s) {a n : Nat} : Kept s₀ (s.poisonRange a n) :=
  hs.upd

theorem Kept.gatherPoison (hs : Kept s₀ s) {c : Nat} : Kept s₀ (s.gatherPoison c) :=
  hs.ite ((hs.foldl fun _ _ hs => hs.poisonRange).ite hs.ctxPoison)

theorem Kept.afterLanding (hs : Kept s₀ s) {c : Nat} : Kept s₀ (s.afterLanding c) :=
  (((hs.drainColl.ite hs).setCtx.writeColl.gatherPoison.ite (hs.drainColl.ite hs).setCtx).ite (hs.drainColl.ite
    hs)).tryEnd

theorem Kept.poisonPiece (hs : Kept s₀ s) {c m : Nat} {p : Piece} {off n : Nat} :
    Kept s₀ (s.poisonPiece c m p off n) := by
  unfold State.poisonPiece
  dsimp only
  split; exacts [(hs.foldl fun _ _ hs => hs.poisonRange), (hs.foldl fun _ _ hs => hs.poisonRange),
      (hs.foldl fun _ _ hs => hs.poisonRange), (hs.setCtx.ite hs.ctxPoison), hs.ctxPoison]

theorem Kept.landPoison (hs : Kept s₀ s) {c m : Nat} {g : List Piece} {off : Nat} {spans : List (Nat × Nat)} :
    Kept s₀ (s.landPoison c m g off spans) :=
  hs.foldl fun _ _ hs => hs.poisonPiece

theorem Kept.landMsg (hs : Kept s₀ s) {c m seg : Nat} {msg : Msg} : Kept s₀ (s.landMsg c m seg msg) := by
  unfold State.landMsg
  dsimp only
  split; exacts [hs, hs.landGroup.landPoison.setCtx.afterLanding]

theorem Kept.inject (hs : Kept s₀ s) {m : Msg} {ctx cls : Nat} : Kept s₀ (s.inject m ctx cls) := by
  unfold State.inject
  dsimp only
  split; exacts [hs, hs.setArb]

theorem Kept.sendAck (hs : Kept s₀ s) {h : MsgHdr} : Kept s₀ (s.sendAck h) :=
  hs.inject

theorem Kept.ackRx (hs : Kept s₀ s) {c k seq seg : Nat} : Kept s₀ (s.ackRx c k seq seg) := by
  unfold State.ackRx
  dsimp only
  split; exacts [hs, (hs.setCtx.tryEnd.ite hs)]

theorem Kept.askSeg (hs : Kept s₀ s) {c k seg : Nat} : Kept s₀ (s.askSeg c k seg) := by
  unfold State.askSeg
  dsimp only
  split; exacts [hs.askAll, hs]

theorem Kept.sendNext (hs : Kept s₀ s) {c k : Nat} : Kept s₀ (s.sendNext c k) := by
  unfold State.sendNext
  dsimp only
  split
  · exact hs
  · refine Kept.ite ?_ hs
    split
    · exact hs
    · exact (hs.askSeg.count.setCtx.landMsg.tryEnd.ite hs).ite hs.askSeg.count.setCtx.inject

theorem Kept.checkPairs (hs : Kept s₀ s) {c : Nat} : Kept s₀ (s.checkPairs c) :=
  hs.foldl fun _ _ hs => (hs.foldl fun _ _ hs => (hs.ite hs.ctxFault))

theorem Kept.sourcePoison (hs : Kept s₀ s) {c n : Nat} : Kept s₀ (s.sourcePoison c n) :=
  hs.ite (hs.setCtx.ite hs.ctxPoison)

theorem Kept.beginKind (hs : Kept s₀ s) {c : Nat} : Kept s₀ (s.beginKind c) := by
  unfold State.beginKind
  dsimp only
  split; exacts [hs.runAdmission, (hs.askRange.foldl fun _ _ hs => (hs.askRange.dramWr.ite hs)).setCtx,
      hs.askRange.setCtx.sourcePoison.raise, hs.askRange.setCtx.sourcePoison.raise,
      hs.askRange.setCtx.sourcePoison.raise, hs.askRange.dramWr.checkPairs, hs.askRange.dramWr.checkPairs, hs]

theorem Kept.startRound (hs : Kept s₀ s) {c : Nat} : Kept s₀ (s.startRound c) := by
  unfold State.startRound
  extract_lets _ _ s1 s2
  have h2 : Kept s₀ s2 := hs.setCtx.beginKind
  clear_value s2
  exact h2.setCtx.afterLanding

theorem Kept.resend (hs : Kept s₀ s) {c k : Nat} {u : Unacked} : Kept s₀ (s.resend c k u) :=
  hs.setCtx.count.timing.inject

theorem Kept.ackTimeout (hs : Kept s₀ s) {c k seg : Nat} : Kept s₀ (s.ackTimeout c k seg) := by
  unfold State.ackTimeout
  dsimp only
  split; exacts [hs, (hs.ite (hs.jobFaultNow.ite hs.resend))]

theorem Kept.replayCtx (hs : Kept s₀ s) {x y z c : Nat} : Kept s₀ (s.replayCtx x y z c) :=
  hs.foldl fun _ _ hs => ((hs.foldl fun _ _ hs => hs.resend).ite hs)

end

/-! ### The element chain (chapter 05) -/

section
variable {s₀ s : State}

theorem Kept.writeBlock (hs : Kept s₀ s) {u : Nat} {d : TDesc} {f : Fmt} {blk : Int} {b : BlkSt} :
    Kept s₀ (writeBlock s u d f blk b).1 :=
  (hs.foldl fun _ _ hs => hs.setTileElem).tileWr

theorem Kept.padGroup (hs : Kept s₀ s) {u p i : Nat} : Kept s₀ (padGroup s u p i) :=
  hs.foldl fun _ _ hs => hs.setTileElem

theorem Kept.setBlk (hs : Kept s₀ s) {u k : Nat} {b : BlkSt} : Kept s₀ (s.setBlk u k b) :=
  hs.setTile

theorem Kept.writeOut {r : ChainRec} {u iota j : Nat} {x : ChainEnv} {raw : Option (DVal × Nat)} {p : State × Ev}
    (hs : Kept s₀ p.1) : Kept s₀ (writeOut r u iota x raw p j).1 := by
  unfold Machine.writeOut
  extract_lets d f idx e wire st
  split
  · exact hs.setTileElem.padGroup.ite hs.setTileElem
  · dsimp only
    split
    · exact hs.setBlk.writeBlock
    · exact hs.setBlk

theorem Kept.writeOuts (hs : Kept s₀ s) {u iota : Nat} {r : ChainRec} {x : ChainEnv} {raw : Option (DVal × Nat)} :
    Kept s₀ (writeOuts s u r iota x raw).1 :=
  hs.foldlFst fun _ _ h => h.writeOut

theorem Kept.setRow (hs : Kept s₀ s) {u row : Nat} {x : RowSt} : Kept s₀ (s.setRow u row x) :=
  hs.setTile

theorem Kept.stopChain (hs : Kept s₀ s) {u : Nat} {r : ChainRec} : Kept s₀ (stopChain s u r) :=
  hs.setTile.contained

theorem Kept.countElem (hs : Kept s₀ s) {u entry : Nat} {r : ChainRec} {pass iota : Nat} :
    Kept s₀ (s.countElem u entry r pass iota) :=
  hs.count.count

theorem Kept.passOne (hs : Kept s₀ s) {u entry : Nat} {r : ChainRec} {iota : Nat} :
    Kept s₀ (passOne s u entry r iota) :=
  hs.setRow.raise.countElem

theorem Kept.passTwo (hs : Kept s₀ s) {u entry iota : Nat} {r : ChainRec} : Kept s₀ (passTwo s u entry r iota) :=
  hs.writeOuts.setTile.raise.countElem

theorem Kept.doChainElem (hs : Kept s₀ s) {unit entry pass iota : Nat} {ue : Bool} :
    Kept s₀ (doChainElem s unit entry pass iota ue) := by
  unfold Machine.doChainElem
  dsimp only
  split; exacts [hs, ((hs.stopChain.ite (hs.passTwo.ite ((hs.ite hs.passOne).ite (hs.passTwo.ite hs)))).ite hs)]

theorem Kept.rowReady (hs : Kept s₀ s) {u row : Nat} {z : List Nat} {yn : Nat} : Kept s₀ (s.rowReady u row z yn) :=
  hs.setRow

theorem Kept.doRowProgram (hs : Kept s₀ s) {unit entry row : Nat} : Kept s₀ (doRowProgram s unit entry row) := by
  unfold Machine.doRowProgram
  dsimp only
  split; exacts [hs, (hs.rowReady.raise.count.ite hs)]

theorem Kept.doSplitRow (hs : Kept s₀ s) {unit entry row : Nat} : Kept s₀ (doSplitRow s unit entry row) := by
  unfold Machine.doSplitRow
  dsimp only
  split; exacts [hs, ((hs.foldl fun _ _ hs => hs.rowReady.count.count).raise.ite hs)]

end

/-! ### Tokens as bytes (15 R553) -/

section
variable {s₀ s : State}

theorem Kept.tokWrite (hs : Kept s₀ s) {t : Nat} {slot : Bool} {bs : List Byte} : Kept s₀ (s.tokWrite t slot bs) := by
  unfold State.tokWrite
  dsimp only
  refine hs.dramWr.ite ((hs.foldl fun _ _ h => h.tileWr).ite (hs.foldl fun _ _ h => ?_))
  split; exacts [h.setTileElem.tileWr.ite h.setTileElem, h.setDramElem.dramWr.ite h.setDramElem]

end

/-! ### The step verdict (07 R172 to R180) -/

section
variable {s₀ s : State}

theorem Kept.sendVerdict (hs : Kept s₀ s) {m : VerdictMsg} {to' : Nat × Nat × Nat} : Kept s₀ (s.sendVerdict m to') := by
  unfold State.sendVerdict
  dsimp only
  refine Kept.inject (Kept.count ?_)
  split; exacts [hs.setCtx, hs]

theorem Kept.applyVerdict (hs : Kept s₀ s) {m : VerdictMsg} : Kept s₀ (s.applyVerdict m) :=
  (hs.upd.event.countNow.ite hs.upd).foldl fun _ _ hs => hs.sendVerdict

theorem Kept.forwardVerdict (hs : Kept s₀ s) : Kept s₀ s.forwardVerdict := by
  unfold State.forwardVerdict
  dsimp only
  split
  · exact hs
  · refine Kept.ite ?_ hs
    split
    · exact Kept.sendVerdict hs.upd
    · exact Kept.applyVerdict hs.upd

theorem Kept.joinVerdict (hs : Kept s₀ s) {m : VerdictMsg} : Kept s₀ (s.joinVerdict m) :=
  hs.upd

theorem Kept.landVerdict (hs : Kept s₀ s) {src : Nat} {v : VerdictMsg} : Kept s₀ (s.landVerdict src v) :=
  hs.setCtx.applyVerdict.ite hs.setCtx.joinVerdict.upd.forwardVerdict

theorem Kept.takeMsg (hs :
    Kept s₀ s) {h : MsgHdr} {cur : Nat} {expected : Bool} {landed : State} (hl : Kept s₀ landed) :
    Kept s₀ (s.takeMsg h cur expected landed) := by
  unfold State.takeMsg
  split; exacts [hs.count, hs.count.sendAck, hl.sendAck]

theorem Kept.verdictRx (hs : Kept s₀ s) {h : MsgHdr} {v : VerdictMsg} : Kept s₀ (s.verdictRx h v) :=
  hs.takeMsg hs.landVerdict

theorem Kept.dataMsg (hs : Kept s₀ s) {m : Msg} : Kept s₀ (s.dataMsg m) :=
  hs.verdictRx.ite (hs.takeMsg hs.landMsg)

theorem Kept.ackMsg (hs : Kept s₀ s) {m : Msg} : Kept s₀ (s.ackMsg m) :=
  hs.count.ite (by split; exacts [hs.ackRx, hs])

theorem Kept.msgRx (hs : Kept s₀ s) {m : Msg} : Kept s₀ (s.msgRx m) :=
  hs.count.ite (hs.ackMsg.ite (hs.ite hs.dataMsg))

end

/-! ### Work of commands (14 R418 to R429) -/

section
variable {s₀ s : State}

theorem Kept.copyLines {n : Nat} {src dst : Bool × Nat} {k : Nat} (hs : Kept s₀ s) :
    Kept s₀ (State.copyLines n src dst k s).1 := by
  induction n generalizing src dst k s with
  | zero => exact hs
  | succ n ih =>
    unfold State.copyLines
    split
    · exact hs
    · exact ih hs.wrAt

theorem Kept.doCopy (hs : Kept s₀ s) {h : Hdr} {src dst : Bool × Nat} {len : Nat} :
    Kept s₀ (s.doCopy h src dst len) := by
  unfold State.doCopy
  dsimp only
  split; exacts [hs.copyLines.record.retire, hs.copyLines.retire]

theorem Kept.doFill (hs : Kept s₀ s) {h : Hdr} {dst : Bool × Nat} {len pattern : Nat} :
    Kept s₀ (s.doFill h dst len pattern) :=
  hs.wrAt.retire

theorem Kept.serveCxl (hs : Kept s₀ s) {r : CxlReq} : Kept s₀ (s.serveCxl r) := by
  unfold State.serveCxl
  dsimp only
  split; exacts [hs.post.dramWr, hs.post.upd]

theorem Kept.serveHeld (hs : Kept s₀ s) : Kept s₀ s.serveHeld := by
  unfold State.serveHeld
  refine Kept.upd (hs.foldlFst (p := (_, _)) fun _ _ h => ?_)
  split; exacts [h.serveCxl, h]

theorem Kept.takeEngines (hs : Kept s₀ s) {c : Cmd} : Kept s₀ (s.takeEngines c) :=
  hs.ite (by split; exacts [(by split; exacts [hs.retire, (by split; exacts [hs.startSolve, hs])]),
      (by split; exacts [hs.retire, (by split; exacts [hs.startDyn, hs])]), hs])

theorem Kept.capture (hs : Kept s₀ s) {c : Cmd} : Kept s₀ (s.capture c) := by
  unfold State.capture
  dsimp only
  split; exacts [(hs.retire.ite (by split; exacts [hs.dramWr.record.retire, hs.dramWr.retire])), hs.retire, hs]

theorem Kept.captureAll (hs : Kept s₀ s) : Kept s₀ s.captureAll :=
  hs.foldl fun _ _ hs => (hs.capture.ite hs)

theorem Kept.bulk (hs : Kept s₀ s) {c : Cmd} : Kept s₀ (s.bulk c) := by
  unfold State.bulk
  split; exacts [(by split; exacts [hs.doCopy, hs]), (by split; exacts [hs.doFill, hs]), hs]

theorem Kept.hostWork (hs : Kept s₀ s) : Kept s₀ s.hostWork :=
  (hs.serveHeld.foldl fun _ _ hs => (hs.bulk.ite hs)).foldl fun _ _ hs => (hs.takeEngines.ite hs)

theorem Kept.unbind (hs : Kept s₀ s) : Kept s₀ s.unbind :=
  hs.stopEntries.upd (prts := by simp)

theorem Kept.activateNow (hs : Kept s₀ s) : Kept s₀ s.activateNow := by
  unfold State.activateNow
  dsimp only
  split; exacts [hs.upd.warmReset.upd, hs]

theorem Kept.release (hs : Kept s₀ s) : Kept s₀ s.release :=
  hs.unbind.upd.dramForget

theorem Kept.unload (hs : Kept s₀ s) {h : Hdr} : Kept s₀ (s.unload h) :=
  hs.release.retire.applyHeld.takeSnapshot.activateNow.ite hs.release.retire.applyHeld.takeSnapshot

end

/-! ### The Slate lanes (chapter 06) -/

section
variable {s₀ s : State}

theorem Kept.scalarOp (hs : Kept s₀ s) {u : Nat} {f : Slate → Slate} : Kept s₀ (s.scalarOp u f) :=
  hs.setSlate.ite hs

theorem Kept.vectorOp (hs : Kept s₀ s) {u : Nat} {f : VType → Slate → Slate × Ev} : Kept s₀ (s.vectorOp u f) := by
  unfold State.vectorOp
  refine Kept.ite ?_ hs
  split; exacts [hs, hs.setSlate.raise]

theorem Kept.doSend (hs : Kept s₀ s) {unit : Nat} : Kept s₀ (doSend s unit) :=
  hs.setSlate.count.count.ite hs

end

/-! ### Steps and entries (chapter 16) -/

section
variable {s₀ s : State}

theorem Kept.beginStep (hs : Kept s₀ s) : Kept s₀ s.beginStep :=
  hs.upd

theorem Kept.enterKernel (hs : Kept s₀ s) {e u : Nat} : Kept s₀ (s.enterKernel e u) :=
  hs.setSlate

theorem Kept.engage (hs : Kept s₀ s) {e : Nat} : Kept s₀ (s.engage e) := by
  unfold State.engage
  dsimp only
  split; exacts [(hs.foldl fun _ _ hs => hs.setTile), (hs.foldl fun _ _ hs => hs.enterKernel),
      (by split; exacts [hs.startSolve, hs]), (by split; exacts [hs.startDyn, hs]), hs]

theorem Kept.startEntry (hs : Kept s₀ s) {e : Nat} : Kept s₀ (s.startEntry e) :=
  hs.engage.upd

theorem Kept.forgetElems (hs : Kept s₀ s) {t : Nat} {els : List Nat} : Kept s₀ (s.forgetElems t els) := by
  unfold State.forgetElems
  refine hs.foldl fun x el h => ?_
  dsimp only
  cases (s.elemLoc t (s.slotOf t true) el).tile with
  | some u => exact h.tileForget.tileForget.ite h.tileForget
  | none => exact h.dramForget.dramForget.ite h.dramForget

theorem Kept.forgetUnstored (hs : Kept s₀ s) {e t : Nat} : Kept s₀ (s.forgetUnstored e t) :=
  (hs.foldl fun _ _ hs => (hs.foldl fun _ _ hs => hs.tileForget)).ite
    (hs.foldl fun _ _ hs => (hs.foldl fun _ _ hs => hs.dramForget))

theorem Kept.settle (hs : Kept s₀ s) {e : Nat} : Kept s₀ (s.settle e) :=
  hs.ite (hs.foldl fun _ _ hs => (by split; exacts [hs.forgetUnstored, hs.forgetElems]))

theorem Kept.cancelStream (hs : Kept s₀ s) {u k : Nat} : Kept s₀ (s.cancelStream u k) := by
  unfold State.cancelStream
  dsimp only
  split; exacts [hs, (hs.ite (hs.ite (hs.foldl fun _ _ hs => (hs.tileForget.ite hs))).upd.setTile.setSlot.count)]

theorem Kept.endStreams (hs : Kept s₀ s) {e : Nat} : Kept s₀ (s.endStreams e) :=
  hs.foldl fun _ _ hs => ((hs.setSlot.ite hs.cancelStream).ite hs)

theorem Kept.freeEngine (hs : Kept s₀ s) {e : Nat} : Kept s₀ (s.freeEngine e) :=
  hs.upd (engs := by simp)

theorem Kept.endEntry (hs : Kept s₀ s) {e start : Nat} : Kept s₀ (s.endEntry e start) :=
  hs.settle.endStreams.freeEngine.upd

end

/-! ### The step boundary (07 R178 to R191) -/

section
variable {s₀ s : State}

theorem Kept.putVerdict (hs : Kept s₀ s) {v : VerdictTok} : Kept s₀ (s.putVerdict v) :=
  hs.dramWr

theorem Kept.haltJob (hs : Kept s₀ s) {reason sub : Nat} : Kept s₀ (s.haltJob reason sub) :=
  hs.jobFaulted

theorem Kept.flip (hs : Kept s₀ s) : Kept s₀ s.flip :=
  hs.upd

theorem Kept.countFault (hs : Kept s₀ s) {withheld : Bool} : Kept s₀ (s.countFault withheld) :=
  (hs.countNow.countNow.ite hs.countNow).haltJob.ite (hs.countNow.countNow.ite hs.countNow)

theorem Kept.applyOutcome (hs : Kept s₀ s) {v : VerdictMsg} : Kept s₀ (s.applyOutcome v) := by
  unfold State.applyOutcome
  extract_lets o1 _ o2 _ _ s1 s2 _ _ _ _ s3 s4 s5 s6 s7
  have h1 : Kept s₀ s1 := hs.upd
  clear_value o1 o2 s1
  have h2 : Kept s₀ s2 := by
    unfold s2
    split; exacts [h1.kvSet.haltJob, h1.kvSet.haltJob, h1.countFault, h1.kvSet]
  clear_value s2
  have h3 : Kept s₀ s3 := h2.flip.upd.ite h2
  clear_value s3
  have h4 : Kept s₀ s4 := h3.countNow.ite h3
  clear_value s4
  have h7 : Kept s₀ s7 := h4.putVerdict.kvSet.kvSet.kvSet.foldl fun _ _ h => h.kvSet
  clear_value s7
  exact h7.upd

theorem Kept.applyPlain (hs : Kept s₀ s) : Kept s₀ s.applyPlain :=
  ((hs.countFault.ite hs.kvSet).haltJob.ite (hs.countFault.ite hs.kvSet)).upd

theorem Kept.applyFaultN (hs : Kept s₀ s) : Kept s₀ s.applyFaultN :=
  hs.upd.ite hs.upd

theorem Kept.timeRecord (hs : Kept s₀ s) {planLen : Nat} : Kept s₀ (s.timeRecord planLen) :=
  hs.kvSet.kvSet.kvSet.kvSet.kvSet.kvSet.kvSet.kvSet.kvSet.countNow.countNow

theorem Kept.upkeep (hs : Kept s₀ s) {c : Nat} : Kept s₀ (s.upkeep c) :=
  hs.setChan

theorem Kept.retrainChan (hs : Kept s₀ s) {c : Nat} : Kept s₀ (s.retrainChan c) :=
  hs.setChan.count

theorem Kept.scrubErr (hs : Kept s₀ s) {e : Nat × Bool} : Kept s₀ (s.scrubErr e) := by
  unfold State.scrubErr
  refine Kept.ite ?_ hs.memUe
  split; exacts [hs.memCe, hs]

theorem Kept.sableWork (hs : Kept s₀ s) {i : BoundaryInfo} : Kept s₀ (s.sableWork i) :=
  (((hs.foldl fun _ _ hs => hs.upkeep).foldl fun _ _ hs => hs.retrainChan).foldl fun _ _ hs => hs.scrubErr).hostWork

theorem Kept.stepCounted (hs : Kept s₀ s) : Kept s₀ s.stepCounted :=
  hs.upd

theorem Kept.runEnds (hs : Kept s₀ s) : Kept s₀ s.runEnds := by
  unfold State.runEnds
  dsimp only
  split; exacts [hs, (by split; exacts [hs.endRun,
      (hs.endRun.upd.ite (hs.endRun.ite (by split; exacts [(hs.endRun.ite hs), hs])))])]

theorem Kept.unloadWaiting (hs : Kept s₀ s) : Kept s₀ s.unloadWaiting := by
  unfold State.unloadWaiting
  split; exacts [hs.unload, hs]

theorem Kept.decideStep (hs : Kept s₀ s) : Kept s₀ s.decideStep := by
  unfold State.decideStep
  refine Kept.applyFaultN ?_
  split; exacts [hs.applyOutcome, hs.applyPlain]

theorem Kept.endVerdictRound (hs : Kept s₀ s) : Kept s₀ s.endVerdictRound :=
  hs.setCtx

theorem Kept.closeStep (hs : Kept s₀ s) {planLen : Nat} : Kept s₀ (s.closeStep planLen) :=
  hs.timeRecord.kvSet.fold.endVerdictRound.upd

theorem Kept.pointAfterStep (hs : Kept s₀ s) {i : BoundaryInfo} {planLen : Nat} :
    Kept s₀ (s.pointAfterStep i planLen) :=
  hs.takeReadings.sensorTriggers.powerTrigger.kvSet.pointBoundary

theorem Kept.boundaryNow (hs : Kept s₀ s) {i : BoundaryInfo} : Kept s₀ (s.boundaryNow i) := by
  unfold State.boundaryNow
  extract_lets _ s1 s2 s3
  have h3 : Kept s₀ s3 :=
    hs.decideStep.closeStep.captureAll.sableWork.pointAfterStep.stepCounted.runEnds.unloadWaiting
  clear_value s3
  exact h3.ite h3.fold

end

/-! ### Memory requests and streams (chapter 10) -/

section
variable {s₀ s : State}

theorem Kept.access (hs : Kept s₀ s) {p : Nat} {r : MemReq} : Kept s₀ (s.access p r) := by
  unfold State.access
  extract_lets s1 s2 s3
  have h1 : Kept s₀ s1 := hs.pearlAccess.ite hs
  have h2 : Kept s₀ s2 := by
    unfold s2
    split; exacts [h1.dramWr, h1]
  have h3 : Kept s₀ s3 := h2.memUe.ite h2
  split; exacts [h3.memCe.ite h3, h3]

theorem Kept.grant (hs : Kept s₀ s) {p : Nat} {r : MemReq} : Kept s₀ (s.grant p r) :=
  hs.setArb.access.ite hs.setArb

theorem Kept.decideArb (hs : Kept s₀ s) {p : Nat} : Kept s₀ (s.decideArb p) :=
  hs.setArb.ite (by split; exacts [hs.setArb, hs.setArb.setArb.grant])

theorem Kept.cxlMem (hs : Kept s₀ s) {r : CxlReq} : Kept s₀ (s.cxlMem r) :=
  hs.upd.ite (hs.upd.serveHeld.timing.ite hs.upd.serveHeld)

theorem Kept.activate (hs : Kept s₀ s) {u k : Nat} : Kept s₀ (s.activate u k) :=
  hs.ite (by split; exacts [(hs.ite hs.setSlot), hs])

theorem Kept.askLine (hs : Kept s₀ s) {u k : Nat} : Kept s₀ (s.askLine u k) := by
  unfold State.askLine
  dsimp only
  split; exacts [hs, (hs.setSlot.park.ite hs)]

theorem Kept.landLine (hs : Kept s₀ s) {u k j : Nat} {x : StreamSlot} {d : StreamDesc} :
    Kept s₀ (s.landLine u k j x d) :=
  (hs.foldl fun _ _ hs => hs.setTileElem).setTile.setSlot

theorem Kept.storeLine (hs : Kept s₀ s) {u k : Nat} {x : StreamSlot} {d : StreamDesc} : Kept s₀ (s.storeLine u k x d) :=
  ((hs.foldl fun _ _ hs => hs.setDramElem).clearPoison.ite (hs.foldl fun _ _ hs => hs.setDramElem)).setSlot

theorem Kept.refreshEvent (hs : Kept s₀ s) {c : Nat} : Kept s₀ (s.refreshEvent c) :=
  hs.timing.upd.ite hs

theorem Kept.forceRefresh (hs : Kept s₀ s) {c : Nat} : Kept s₀ (s.forceRefresh c) :=
  hs.setChan.count.timing

theorem Kept.refresh (hs : Kept s₀ s) {c : Nat} : Kept s₀ (s.refresh c) :=
  (hs.setChan.ite hs.forceRefresh).ite hs.refreshEvent.setChan

theorem Kept.fence (hs : Kept s₀ s) {c : Nat} : Kept s₀ (s.fence c) :=
  hs.setChan.ite hs.setChan.count.count.timing

theorem Kept.fenceLength (hs : Kept s₀ s) {c n : Nat} : Kept s₀ (s.fenceLength c n) :=
  hs.count

theorem Kept.serveWaiting (hs : Kept s₀ s) : Kept s₀ s.serveWaiting :=
  hs.ite hs.serveHeld

theorem Kept.unfence (hs : Kept s₀ s) {c : Nat} : Kept s₀ (s.unfence c) :=
  hs.setChan.fenceLength.serveWaiting

end

/-! ### `BIND` and `RESTORE` (15 R444; 14 R423) -/

section
variable {s₀ s : State}

theorem Kept.propose (hs : Kept s₀ s) {i : Image} {b : Bound} : Kept s₀ (s.propose i b) :=
  hs.upd

theorem Kept.copyConst (hs : Kept s₀ s) {i : Image} {d : TokDecl} : Kept s₀ (s.copyConst i d) :=
  hs.tokWrite.ite (hs.foldl fun _ _ hs => hs.dramWr)

theorem Kept.writeRecords (hs : Kept s₀ s) {i : Image} : Kept s₀ (s.writeRecords i) := by
  unfold State.writeRecords
  refine hs.foldl fun _ _ h => ?_
  dsimp only
  split; exacts [h.foldl fun _ _ h => h.tileWr, h]

theorem Kept.openCtxs (hs : Kept s₀ s) {epoch : Nat} : Kept s₀ (s.openCtxs epoch) :=
  (hs.upd.setCtx.ite hs.upd).foldl fun _ _ hs => hs.setCtx

theorem Kept.pinLines (hs : Kept s₀ s) {i : Image} {ps : List Placed} : Kept s₀ (s.pinLines i ps) :=
  hs.upd.foldl fun _ _ hs => (by split; exacts [hs.setPearl, hs])

theorem Kept.clearKeys (hs : Kept s₀ s) {p : Nat → Bool} : Kept s₀ (s.clearKeys p) :=
  hs.upd

theorem Kept.edgePorts (hs : Kept s₀ s) : Kept s₀ s.edgePorts :=
  hs.upd (prts := by simp)

theorem Kept.isolatePorts (hs : Kept s₀ s) : Kept s₀ s.isolatePorts :=
  (hs.upd (prts := by simp)).edgePorts

theorem Kept.startScale (hs : Kept s₀ s) : Kept s₀ s.startScale :=
  hs.upd

theorem Kept.resetWheels (hs : Kept s₀ s) : Kept s₀ s.resetWheels :=
  hs.upd

theorem Kept.writeVerdict (hs : Kept s₀ s) {step : Nat} : Kept s₀ (s.writeVerdict step) :=
  hs.putVerdict.ite hs

theorem Kept.bindWith (hs : Kept s₀ s) {img : Image} {b : Bound} {epoch : Nat} : Kept s₀ (s.bindWith img b epoch) :=
  have h := (hs.upd.clearKeys.startScale.foldl fun _ _ hs => hs.copyConst).writeRecords.openCtxs.writeVerdict
  h.pinLines.isolatePorts.resetWheels

theorem Kept.resetCtxs (hs : Kept s₀ s) {epoch : Nat} : Kept s₀ (s.resetCtxs epoch) :=
  hs.upd

theorem Kept.replan (hs : Kept s₀ s) {i : Image} : Kept s₀ (s.replan i) := by
  unfold State.replan
  dsimp only
  split; exacts [hs, hs.upd]

theorem Kept.restoreMaps (hs : Kept s₀ s) {i : Image} {epoch : Nat} : Kept s₀ (s.restoreMaps i epoch) :=
  hs.ite hs.applyHeld.isolatePorts.replan.openCtxs

theorem Kept.restoreFrom (hs : Kept s₀ s) {i : Image} {bs : List Byte} {epoch : Nat} :
    Kept s₀ (s.restoreFrom i bs epoch) :=
  ((hs.restoreMaps.upd.clearKeys.upd.ite
    hs.restoreMaps.upd.clearKeys.startScale).foldl fun _ _ hs => hs.tokWrite).writeVerdict.resetCtxs.liftW.takeSnapshot

end

/-! ### Management (chapter 19) -/

section
variable {s₀ s : State}

theorem Kept.reply (hs : Kept s₀ s) {r : MgmtResp} : Kept s₀ (s.reply r) :=
  hs.upd

theorem Kept.served (hs : Kept s₀ s) {f : State → MgmtResp × State} (hf : Kept s₀ (f s).2) : Kept s₀ (s.served f) :=
  hf.reply.ite hs

theorem Kept.authFail (hs : Kept s₀ s) : Kept s₀ s.authFail :=
  hs.countNow

theorem Kept.setConn (hs : Kept s₀ s) {t : Transport} {c : SpdmConn} : Kept s₀ (s.setConn t c) :=
  hs.upd

theorem Kept.setSession (hs : Kept s₀ s) {x : SpdmSession} : Kept s₀ (s.setSession x) :=
  hs.upd

theorem Kept.negotiated (hs : Kept s₀ s) {t : Transport} {r : MgmtResp × State} (hr : Kept s₀ r.2) :
    Kept s₀ (s.negotiated t r).2 := by
  unfold State.negotiated
  split; exacts [hr, hs]

theorem Kept.spdmVersion (hs : Kept s₀ s) {t : Transport} : Kept s₀ (s.spdmVersion t).2 :=
  hs.setConn

theorem Kept.spdmCaps (hs : Kept s₀ s) {t : Transport} : Kept s₀ (s.spdmCaps t).2 := by
  unfold State.spdmCaps
  dsimp only
  split; exacts [hs.setConn, hs]

theorem Kept.spdmAlgs (hs : Kept s₀ s) {t : Transport} {all : Bool} : Kept s₀ (s.spdmAlgs t all).2 := by
  unfold State.spdmAlgs
  dsimp only
  split; exacts [hs.setConn, hs]

theorem Kept.spdmDigests (hs : Kept s₀ s) {t : Transport} : Kept s₀ (s.spdmDigests t).2 :=
  hs.negotiated hs

theorem Kept.spdmCert (hs : Kept s₀ s) {t : Transport} {slot off len : Nat} :
    Kept s₀ (s.spdmCert t slot off len).2 := by
  refine hs.negotiated ?_
  split
  · exact hs
  · split; exacts [hs, hs]

theorem Kept.spdmChallenge (hs : Kept s₀ s) {t : Transport} {slot : Nat} {nonce : List Byte} :
    Kept s₀ (s.spdmChallenge t slot nonce).2 := by
  refine hs.negotiated ?_
  split; exacts [hs, hs]

theorem Kept.spdmMeasure (hs : Kept s₀ s) {t : Transport} {i : Nat} {sign : Bool} {nonce : List Byte} :
    Kept s₀ (s.spdmMeasure t i sign nonce).2 := by
  refine hs.negotiated ?_
  split; exacts [hs, hs]

theorem Kept.spdmKeyExchange (hs : Kept s₀ s) {t : Transport} : Kept s₀ (s.spdmKeyExchange t).2 := by
  refine hs.negotiated ?_
  split; exacts [hs, hs.upd]

theorem Kept.spdmFinish (hs : Kept s₀ s) {t : Transport} {id : Nat} {ok : Bool} : Kept s₀ (s.spdmFinish t id ok).2 := by
  unfold State.spdmFinish
  split; exacts [hs, (by split; exacts [hs, (by split; exacts [hs.setSession, hs.authFail])])]

theorem Kept.inSession (hs : Kept s₀ s) {t : Transport} {id : Nat} {f : SpdmSession → MgmtResp × State}
    (hf : ∀ x, Kept s₀ (f x).2) : Kept s₀ (s.inSession t id f).2 := by
  unfold State.inSession
  split
  · exact hs
  · split; exacts [hf _, hs]

theorem Kept.spdmEnd (hs : Kept s₀ s) {t : Transport} {id : Nat} : Kept s₀ (s.spdmEnd t id).2 :=
  hs.inSession fun _ => hs.upd

theorem Kept.spdm (hs : Kept s₀ s) {t : Transport} {r : SpdmReq} : Kept s₀ (s.spdm t r).2 := by
  cases r with
  | getVersion => exact hs.setConn
  | getCapabilities => exact hs.spdmCaps
  | negotiateAlgorithms => exact hs.spdmAlgs
  | getDigests => exact hs.spdmDigests
  | getCertificate => exact hs.spdmCert
  | challenge => exact hs.spdmChallenge
  | getMeasurements => exact hs.spdmMeasure
  | keyExchange => exact hs.spdmKeyExchange
  | finish => exact hs.spdmFinish
  | heartbeat => exact hs.inSession fun _ => hs
  | keyUpdate => exact hs.inSession fun _ => hs.setSession
  | endSession => exact hs.spdmEnd
  | other => exact hs

theorem Kept.provision (hs : Kept s₀ s) {m : OwnerMsg} : Kept s₀ (s.provision m).2 := by
  unfold State.provision
  dsimp only
  split; exacts [(by split; exacts [hs.upd, hs.authFail]), hs.authFail]

theorem Kept.token (hs : Kept s₀ s) {t : DebugTok} : Kept s₀ (s.token t).2 :=
  (hs.kvSet.ite hs.authFail).upd

theorem Kept.sensor (hs : Kept s₀ s) {id : Nat} : Kept s₀ (s.sensor id).2 := by
  unfold State.sensor
  split; exact hs
  split; exact hs
  split; exact hs.draw
  split; exact hs
  split; exacts [hs, hs]

theorem Kept.poll (hs : Kept s₀ s) : Kept s₀ (s.poll).2 := by
  unfold State.poll
  dsimp only
  split; exacts [hs, hs.upd.alert]

theorem Kept.requestUpdate (hs : Kept s₀ s) : Kept s₀ (s.requestUpdate).2 := by
  unfold State.requestUpdate
  dsimp only
  split; exacts [hs, hs.upd]

theorem Kept.component (hs : Kept s₀ s) {c : Nat} {x : FlashSlot} : Kept s₀ (s.component c x).2 := by
  unfold State.component
  dsimp only
  split; exacts [hs, (by split; exacts [hs.upd, (by split; exacts [hs.upd, hs])])]

theorem Kept.activateFw (hs : Kept s₀ s) : Kept s₀ s.activateFw := by
  unfold State.activateFw
  dsimp only
  split; exacts [hs.reply, (hs.upd.reply.ite hs.upd.reply.activateNow)]

end

/-! ### Host commands (14 R409 to R430) -/

section
variable {s₀ s : State}

theorem Kept.relock (hs : Kept s₀ s) : Kept s₀ s.relock :=
  hs.upd

theorem Kept.cmdLoad (hs : Kept s₀ s) {h : Hdr} {addr len strict : Nat} {parts : ImageParts} :
    Kept s₀ (s.cmdLoad h addr len strict parts) := by
  unfold State.cmdLoad
  dsimp only
  split; exacts [hs.retire.relock,
      (hs.retire.relock.ite (hs.retire.relock.ite (by split; exacts [(hs.ite hs.dramForget).retire.relock,
      hs.dramWr.upd.retire.relock])))]

theorem Kept.cmdBind (hs : Kept s₀ s) {h : Hdr} {o z : Nat × Nat × Nat} {epoch : Nat} :
    Kept s₀ (s.cmdBind h o z epoch) := by
  unfold State.cmdBind
  dsimp only
  split; exacts [hs.retire, (hs.retire.ite (by split; exacts [hs.retire,
      (hs.unbind.ite hs).bindWith.takeSnapshot.retire]))]

theorem Kept.cmdUnload (hs : Kept s₀ s) {h : Hdr} : Kept s₀ (s.cmdUnload h) :=
  hs.retire.ite (hs.ite hs.unload)

theorem Kept.haltNow (hs : Kept s₀ s) : Kept s₀ s.haltNow :=
  hs.endRun.upd.ite hs

theorem Kept.cmdRun (hs : Kept s₀ s) {h : Hdr} : Kept s₀ (s.cmdRun h) :=
  hs.retire.ite (hs.retire.ite hs.haltNow)

theorem Kept.cmdHalt (hs : Kept s₀ s) {h : Hdr} {step : Nat} : Kept s₀ (s.cmdHalt h step) :=
  hs.retire.ite hs.upd.retire.haltNow

theorem Kept.cmdStatus (hs : Kept s₀ s) {h : Hdr} : Kept s₀ (s.cmdStatus h) :=
  hs.retire.ite hs.retire

theorem Kept.cmdCheckpoint (hs : Kept s₀ s) {c : Cmd} {dest : Nat} : Kept s₀ (s.cmdCheckpoint c dest) :=
  hs.retire.ite (by split; exacts [(hs.retire.ite (hs.ite hs.capture)), hs.retire])

theorem Kept.cmdRestore (hs : Kept s₀ s) {h : Hdr} {record epoch : Nat} : Kept s₀ (s.cmdRestore h record epoch) := by
  unfold State.cmdRestore
  dsimp only
  split; exacts [(hs.retire.ite (hs.retire.ite (hs.retire.ite (by split; exacts [hs.retire,
      hs.restoreFrom.retire])))), hs.retire]

theorem Kept.cmdGet (hs : Kept s₀ s) {h : Hdr} {keys : List Nat} : Kept s₀ (s.cmdGet h keys) := by
  unfold State.cmdGet
  dsimp only
  split; exacts [hs.retire, hs.upd.retire]

/-- A list of pairs that are all written (14 R427). -/
theorem Kept.setPairs {ps : List (Nat × Nat)} {i : Nat} {prev vs : List Nat} {u : State}
    (e : setPairs ps i s prev = .ok (u, vs)) (hs : Kept s₀ s) : Kept s₀ u := by
  induction ps generalizing i s prev with
  | nil => cases e; exact hs
  | cons p ps ih =>
    unfold Machine.setPairs at e
    dsimp only at e
    split at e
    · cases e
    · split at e
      · cases e
      · exact ih e hs.writeKey

theorem Kept.cmdSet (hs : Kept s₀ s) {h : Hdr} {pairs : List (Nat × Nat)} {locked : Bool} :
    Kept s₀ (s.cmdSet h pairs locked) := by
  unfold State.cmdSet
  split
  next => exact hs.retire
  next e => exact (Kept.setPairs e hs.upd).upd.retire

theorem Kept.cmdAttest (hs : Kept s₀ s) {h : Hdr} {addr len : Nat} {req : SpdmReq} :
    Kept s₀ (s.cmdAttest h addr len req) := by
  unfold State.cmdAttest
  dsimp only
  refine hs.retire.ite (hs.retire.ite ?_)
  split; exacts [hs.retire, hs.spdm.retire]

theorem Kept.cmdBulk (hs : Kept s₀ s) {c : Cmd} : Kept s₀ (s.cmdBulk c) :=
  hs.retire.ite (hs.ite hs.bulk)

theorem Kept.cmdTest (hs : Kept s₀ s) {h : Hdr} {kind first count ctl base len seed passes : Nat} :
    Kept s₀ (s.cmdTest h kind first count ctl base len seed passes) := by
  unfold State.cmdTest
  dsimp only
  split
  next => exact hs.retire
  next e => exact (Kept.setPairs e hs).testsDone

theorem Kept.portAct (hs : Kept s₀ s) {p action pattern rate : Nat} : Kept s₀ (s.portAct p action pattern rate) := by
  unfold State.portAct
  dsimp only
  split; exacts [(hs.setPort.ite hs.setPort.startPort), hs.portOff.setPort, hs.retrain, hs.portOff.setPort,
      (hs.setPort.startPort.ite hs), hs.setPort, hs.setPort, hs.setPort]

theorem Kept.cmdPort (hs : Kept s₀ s) {h : Hdr} {p action pattern rate : Nat} :
    Kept s₀ (s.cmdPort h p action pattern rate) :=
  hs.retire.ite hs.portAct.retire

theorem Kept.fnEnable (hs : Kept s₀ s) {f : Nat} {h : Hdr} : Kept s₀ (s.fnEnable f h) := by
  unfold State.fnEnable
  dsimp only
  split; exacts [hs.setFn, hs.setFn.fnWithdraw, hs.retire, (hs.setFn.ite hs.retire)]

theorem Kept.fnDisable (hs : Kept s₀ s) {f : Nat} {h : Hdr} : Kept s₀ (s.fnDisable f h) := by
  unfold State.fnDisable
  dsimp only
  split; exacts [hs.retire, hs.setFn, hs.setFn, hs.setFn.fnWithdraw]

theorem Kept.cmdPower (hs : Kept s₀ s) {h : Hdr} {f action point : Nat} : Kept s₀ (s.cmdPower h f action point) := by
  unfold State.cmdPower
  dsimp only
  split; exacts [hs.retire,
      (hs.retire.ite ((hs.writeKey.ite hs).retire.ite ((hs.retire.ite hs.upd.retire).ite (by split; exacts [hs.retire,
      hs.fnDisable, hs.fnEnable]))))]

theorem Kept.cmdWarm (hs : Kept s₀ s) {h : Hdr} : Kept s₀ (s.cmdWarm h) :=
  hs.retire.warmReset.ite hs.modJournal.raiseW.warmReset

theorem Kept.cmdAbandon (hs : Kept s₀ s) {h : Hdr} : Kept s₀ (s.cmdAbandon h) :=
  hs.retire.ite hs.endRun.unbind.retire.foldIfIdle

theorem Kept.begin (hs : Kept s₀ s) {c : Cmd} {locked : Bool} : Kept s₀ (s.begin c locked) := by
  unfold State.begin
  dsimp only
  split; exacts [hs.retire, hs.retire, hs.cmdAttest, hs.cmdLoad, hs.cmdBind, hs.cmdUnload, hs.cmdRun, hs.cmdHalt,
      hs.cmdStatus, hs.cmdCheckpoint, hs.cmdRestore, (hs.ite hs.takeEngines), (hs.ite hs.takeEngines), hs.cmdGet,
      hs.cmdSet, hs.cmdBulk, hs.cmdBulk, hs.cmdTest, hs.cmdPort, hs.cmdPower, (hs.cmdWarm.ite hs.cmdAbandon)]

theorem Kept.startCmd (hs : Kept s₀ s) {c : Cmd} {locked : Bool} : Kept s₀ (s.startCmd c locked) :=
  hs.retire.relock.ite (by split; exacts [hs.retire.relock, (hs.retire.relock.ite hs.begin)])

theorem Kept.resume (hs : Kept s₀ s) {c : Cmd} : Kept s₀ (s.resume c) :=
  hs.ite (by split; exacts [hs.unload, hs.capture, hs.bulk, hs.bulk, hs.takeEngines, hs.takeEngines, hs])

theorem Kept.startAt (hs : Kept s₀ s) {i : Nat} : Kept s₀ (s.startAt i) := by
  unfold State.startAt
  dsimp only
  split; exacts [hs, (hs.resume.ite (hs.upd.startCmd.ite hs))]

theorem Kept.writeProf (hs : Kept s₀ s) {k : Nat} {v : BitVec 64} : Kept s₀ (s.writeProf k v) := by
  unfold State.writeProf
  split; exacts [(hs.writeKey.ite hs), hs]

theorem Kept.applyProf (hs : Kept s₀ s) {p : Nat} : Kept s₀ (s.applyProf p) :=
  hs.ite ((hs.foldl fun _ _ hs => hs.writeProf).ite (by split; exacts [(hs.foldl fun _ _ hs => hs.writeProf), hs]))

theorem Kept.modLast (hs : Kept s₀ s) {f : Cmd → Cmd} : Kept s₀ (s.modLast f) :=
  hs.upd

theorem Kept.atAcceptance (hs : Kept s₀ s) {h : Hdr} {op : HostOp} : Kept s₀ (s.atAcceptance h op) := by
  unfold State.atAcceptance
  dsimp only
  split; exacts [hs.applyProf.upd, (hs.ite (by split; exacts [hs.retire, hs.modLast])),
      (hs.ite (by split; exacts [hs.retire, hs.modLast])), hs]

theorem Kept.journal (hs : Kept s₀ s) {h : Hdr} {op : HostOp} : Kept s₀ (s.journal h op) :=
  hs.ite hs.setRing.countNow.upd

theorem Kept.accept (hs : Kept s₀ s) {h : Hdr} {op : HostOp} : Kept s₀ (s.accept h op) :=
  ((hs.journal.upd.interim.ite hs.journal.upd).atAcceptance.startAt.ite (hs.journal.upd.interim.ite
    hs.journal.upd).atAcceptance).checkJournal

theorem Kept.receive (hs : Kept s₀ s) {h : Hdr} {op : HostOp} : Kept s₀ (s.receive h op) := by
  unfold State.receive
  split; exacts [hs.answer, (hs.accept.ite (by split; exacts [hs.answer, (hs.answer.ite hs.accept)]))]

theorem Kept.submit (hs : Kept s₀ s) {h : Hdr} {op : HostOp} : Kept s₀ (s.submit h op) :=
  (hs.stopRing.ite hs.takePacket.receive).ite hs

end

/-! ### Slate memory instructions (06 R161 to R168) -/

section
variable {s₀ s : State}

theorem Kept.spaceWr (hs : Kept s₀ s) {u : Nat} {space : Bool} {a n v : Nat} : Kept s₀ (s.spaceWr u space a n v) :=
  (hs.dramWr.ite hs.tileWr).setSlate

theorem Kept.slateFault (hs : Kept s₀ s) {u : Nat} {st : MemStop} : Kept s₀ (s.slateFault u st) :=
  hs.setSlate.contained

theorem Kept.endMem (hs : Kept s₀ s) {u : Nat} {space : Bool} {st : Option MemStop} :
    Kept s₀ (s.endMem u space st) := by
  cases st with
  | none => exact hs.setSlate
  | some st => exact (hs.memUe.ite hs).slateFault

theorem Kept.countLines (hs : Kept s₀ s) {u : Nat} {space : Bool} {d : List (Nat × List Nat)} :
    Kept s₀ (s.countLines u space d) :=
  hs.count.ite hs

theorem Kept.stallBy (hs : Kept s₀ s) {u : Nat} {o : MOps} : Kept s₀ (s.stallBy u o) :=
  hs.setSlate.count.ite hs

theorem Kept.askMem (hs : Kept s₀ s) {u : Nat} {o : MOps} {write : Bool} {n : Nat} {acc : List (Nat × List Nat)} :
    Kept s₀ (s.askMem u o write n acc) :=
  (hs.askLines.clearPoison.ite hs.askLines).ite hs

theorem Kept.memOp (hs : Kept s₀ s) {u : Nat} {f : VType → Slate → State} (hf : ∀ t l, Kept s₀ (f t l)) :
    Kept s₀ (s.memOp u f) := by
  unfold State.memOp
  refine Kept.ite ?_ hs
  split; exacts [hs, hf _ _]

theorem Kept.storeAll (hs :
    Kept s₀ s) {u : Nat} {space : Bool} {t : VType} {d : Nat} {l : Slate} {acc : List (Nat × List Nat)}
    : Kept s₀ (s.storeAll u space t d l acc) :=
  hs.foldl fun _ _ hs => (hs.foldl fun _ _ hs => hs.spaceWr)

theorem Kept.moveOp (hs : Kept s₀ s) {u : Nat} {o : MOps} {load write counted : Bool}
    {addrs : VType → Slate → List (Nat × List Nat)} {f : VType → Slate → List (Nat × List Nat) → State}
    (hf : ∀ t l acc, Kept s₀ (f t l acc)) : Kept s₀ (s.moveOp u o load write counted addrs f) := by
  refine hs.memOp fun t l => ?_
  have h := (hf t l (s.scanFor u o load write (Fmt.bits t.fmt / 8) l.entry (addrs t l)).1).askMem (u := u) (o := o)
    (write := write) (n := Fmt.bits t.fmt / 8)
    (acc := (s.scanFor u o load write (Fmt.bits t.fmt / 8) l.entry (addrs t l)).1)
  exact (h.countLines.ite h).stallBy.endMem.ite hs

theorem Kept.loadOp (hs : Kept s₀ s) {u : Nat} {o : MOps} {counted : Bool}
    {addrs : VType → Slate → List (Nat × List Nat)} : Kept s₀ (s.loadOp u o counted addrs) :=
  hs.moveOp fun _ _ _ => hs.setSlate

theorem Kept.storeOp (hs : Kept s₀ s) {u : Nat} {o : MOps} {counted : Bool}
    {addrs : VType → Slate → List (Nat × List Nat)} : Kept s₀ (s.storeOp u o counted addrs) :=
  hs.moveOp fun _ _ _ => hs.storeAll

theorem Kept.addAll (hs : Kept s₀ s) {u : Nat} {o : MOps} {t : VType} {l : Slate} {acc : List (Nat × List Nat)} :
    Kept s₀ (s.addAll u o t l acc) :=
  hs.foldl fun _ _ hs => hs.spaceWr.raise

theorem Kept.scatterAddOp (hs : Kept s₀ s) {u : Nat} {o : MOps} {order : List Nat} :
    Kept s₀ (s.scatterAddOp u o order) :=
  hs.moveOp fun _ _ _ => hs.addAll

end

/-! ### The clock (13 R393) -/

section
variable {s₀ s : State}

theorem Kept.clockTick (hs : Kept s₀ s) : Kept s₀ (clockTick s) :=
  hs.upd.settlePoint.ite hs

end

/-! ### The commands -/

/-- A command's outcome, where it is a state, keeps the queue and the well-formed states. -/
def Keeps (s : State) (o : Host.Outcome State Fault Refusal) : Prop := ∀ t, o = .next t → Kept s t

section
variable {s t : State}

theorem Keeps.next (h : Kept s t) : Keeps s (.next t) := fun _ e => Host.Outcome.next.inj e ▸ h

theorem Keeps.fault {r : Fault} : Keeps s (.fault r) := fun _ e => by cases e

theorem execRegisterWrite_keeps {target : RegTarget} : Keeps s (execRegisterWrite target s) := by
  have hs := Kept.refl s
  unfold execRegisterWrite
  refine .next ?_
  split; exacts [hs.writeBar, (hs.ite hs.writeKey)]

theorem execEntryEnd_keeps {entry waits : Nat} : Keeps s (execEntryEnd entry waits s) := by
  have hs := Kept.refl s
  unfold execEntryEnd
  refine .next ?_
  split; exacts [(hs.endEntry.ite hs), hs]

theorem execOpChangeDone_keeps  : Keeps s (execOpChangeDone  s) := by
  have hs := Kept.refl s
  unfold execOpChangeDone
  refine .next ?_
  split; exacts [(hs.takePoint.ite hs), hs]

theorem execVlxs_keeps {unit : Nat} {o : MOps} {mres : Nat} : Keeps s (execVlxs unit o mres s) := by
  have hs := Kept.refl s
  unfold execVlxs
  refine .next (hs.memOp fun t l => ?_)
  extract_lets n
  split; next acc st _ =>
  extract_lets l1 after
  have ha : ∀ x, Kept s (after x) := fun _ => hs.setSlate.askMem.countLines.stallBy
  clear_value after
  refine Kept.ite ?_ hs
  split
  · exact (ha _).endMem
  · exact ((ha _).count.ite (ha _)).endMem

theorem execVlhost_keeps {unit : Nat} {o : MOps} : Keeps s (execVlhost unit o s) := by
  have hs := Kept.refl s
  exact .next (hs.memOp fun _ _ => hs.setSlate.endMem)

theorem execUmberSIteration_keeps {field : Nat} : Keeps s (execUmberSIteration field s) := by
  have hs := Kept.refl s
  unfold execUmberSIteration
  refine .next ?_
  split; exacts [(hs.runPass.ite hs), hs]

theorem execUmberSPrepass_keeps {field : Nat} : Keeps s (execUmberSPrepass field s) := by
  have hs := Kept.refl s
  unfold execUmberSPrepass
  refine .next ?_
  split; exacts [(hs.runPass.ite hs), hs]

theorem execUmberJGroup_keeps {field : Nat} {ue : Bool} : Keeps s (execUmberJGroup field ue s) := by
  have hs := Kept.refl s
  unfold execUmberJGroup
  refine .next ?_
  split; exacts [(hs.runGroup.ite hs), hs]

theorem execMemoryRequest_keeps {req : MemReq} : Keeps s (execMemoryRequest req s) := by
  have hs := Kept.refl s
  unfold execMemoryRequest
  split
  · exact .fault
  · exact .next (hs.park.ite hs)

theorem execStreamLineLanded_keeps {unit slot line : Nat} {ue : Bool}
    : Keeps s (execStreamLineLanded unit slot line ue s) := by
  have hs := Kept.refl s
  unfold execStreamLineLanded
  refine .next ?_
  dsimp only
  split; exacts [hs, ((hs.memUe.ite hs).landLine.ite hs)]

theorem execWriteStreamAccepted_keeps {unit slot : Nat} : Keeps s (execWriteStreamAccepted unit slot s) := by
  have hs := Kept.refl s
  unfold execWriteStreamAccepted
  refine .next ?_
  dsimp only
  split; exacts [hs, (hs.storeLine.ite hs)]

theorem execStreamCancel_keeps {unit slot : Nat} : Keeps s (execStreamCancel unit slot s) := by
  have hs := Kept.refl s
  unfold execStreamCancel
  refine .next ?_
  dsimp only
  split; exacts [hs, (hs.cancelStream.ite hs)]

theorem execFlitRelease_keeps {port : Nat} : Keeps s (execFlitRelease port s) := by
  have hs := Kept.refl s
  unfold execFlitRelease
  refine .next ?_
  split; exacts [hs, (hs.setPort.ite ((hs.setPort.timing.ite hs.setPort).ite (hs.alignLost.ite hs)))]

theorem execReplay_keeps {port : Nat} : Keeps s (execReplay port s) := by
  have hs := Kept.refl s
  unfold execReplay
  refine .next ?_
  split; exacts [hs, (hs.setPort.ite hs)]

theorem execAlignMaxima_keeps {port : Nat} {partner : Int} : Keeps s (execAlignMaxima port partner s) := by
  have hs := Kept.refl s
  unfold execAlignMaxima
  refine .next ?_
  split; exacts [hs, (hs.setPort.train.ite hs)]

theorem execPortStateTimeout_keeps {port : Nat} : Keeps s (execPortStateTimeout port s) := by
  have hs := Kept.refl s
  unfold execPortStateTimeout
  refine .next ?_
  split; exacts [(hs.event.ite hs), hs]

theorem execSwitchIn_keeps {y z slot mapGen : Nat} : Keeps s (execSwitchIn y z slot mapGen s) := by
  have hs := Kept.refl s
  unfold execSwitchIn
  refine .next (Kept.ite ?_ hs.event)
  extract_lets _ _ s0 s1
  have h0 : Kept s s0 := hs.upd
  have h1 : Kept s s1 := by
    unfold s1
    split; exacts [h0.memberLost, h0.memberLost.ite h0]
  clear_value s1
  exact h1.applySwitch.ite h1.upd

theorem execBootRomVerify_keeps {flash : Flash} : Keeps s (execBootRomVerify flash s) := by
  have hs := Kept.refl s
  unfold execBootRomVerify
  refine .next (Kept.ite ?_ hs)
  extract_lets f
  split
  next fw cfg _ _ =>
    extract_lets s1
    have h1 : Kept s s1 := hs.startFw
    clear_value s1
    split
    · exact (h1.takePlace.toRow.ite h1.stopBoot).ite h1.upd.toRow
    · exact h1.stopBoot.ite h1.upd.toRow
  next => exact Kept.stopBoot hs.upd

theorem execIvorySelfTestDone_keeps {badTile : Option Nat} : Keeps s (execIvorySelfTestDone badTile s) := by
  have hs := Kept.refl s
  unfold execIvorySelfTestDone
  refine .next (Kept.ite ?_ hs)
  split; exacts [hs.stopBoot, hs.mapSpares.toRow.fnsOn.foldl fun _ _ h => h.startPort]

theorem execMemoryTrainingDone_keeps {densities : List Nat} {failed : Option Nat}
    : Keeps s (execMemoryTrainingDone densities failed s) := by
  have hs := Kept.refl s
  unfold execMemoryTrainingDone
  refine .next (Kept.ite ?_ hs)
  split; exacts [hs.stopBoot, hs.stopBoot, hs.becomeReady]

theorem execBootLimitExceeded_keeps  : Keeps s (execBootLimitExceeded  s) := by
  have hs := Kept.refl s
  unfold execBootLimitExceeded
  refine .next (hs.ite ?_)
  split; exacts [hs.stopBoot, hs]

theorem execSleepEntry_keeps  : Keeps s (execSleepEntry  s) := by
  have hs := Kept.refl s
  unfold execSleepEntry
  refine .next ?_
  split
  · refine Kept.ite ?_ hs
    extract_lets s1 _ _ s2
    have h1 : Kept s s1 := hs.fold.fastOff
    clear_value s1
    have h2 : Kept s s2 := h1.upd (rings := (List.length_map _).trans)
    clear_value s2
    exact h2.alert.pinsBegin
  · exact hs

theorem execEventWindowEnd_keeps {pin : Nat} {level : Bool} : Keeps s (execEventWindowEnd pin level s) := by
  have hs := Kept.refl s
  unfold execEventWindowEnd
  refine .next ?_
  split; exacts [(hs.ite ((hs.ite hs.mergePin).setPin.ite (hs.ite hs.mergePin).setPin.countNow.pinAct)), hs]

theorem execStuck_keeps {pin : Nat} : Keeps s (execStuck pin s) := by
  have hs := Kept.refl s
  unfold execStuck
  refine .next ?_
  split; exacts [(hs.setPin.kvSet.throttlePin.event.ite hs), hs]

/-- Every command keeps the queue and the well-formed states. -/
theorem exec_keeps (c : Instr) : Keeps s (exec c s) := by
  have hs := Kept.refl s
  cases c with
  | echo => exact .next (hs.submit)
  | identify => exact .next (hs.submit)
  | attest => exact .next (hs.submit)
  | loadImage => exact .next (hs.submit)
  | bind => exact .next (hs.submit)
  | unload => exact .next (hs.submit)
  | runSteps => exact .next (hs.submit)
  | haltAtStep => exact .next (hs.submit)
  | stepStatus => exact .next (hs.submit)
  | checkpoint => exact .next (hs.submit)
  | restore => exact .next (hs.submit)
  | solve => exact .next (hs.submit)
  | dynamics => exact .next (hs.submit)
  | getParam => exact .next (hs.submit)
  | setParam => exact .next (hs.submit)
  | memCopy => exact .next (hs.submit)
  | memFill => exact .next (hs.submit)
  | testTraffic => exact .next (hs.submit)
  | portCtlEnable => exact .next (hs.submit)
  | portCtlDisable => exact .next (hs.submit)
  | portCtlRetrain => exact .next (hs.submit)
  | portCtlLoopbackStart => exact .next (hs.submit)
  | portCtlLoopbackStop => exact .next (hs.submit)
  | portCtlTestStart => exact .next (hs.submit)
  | portCtlTestStop => exact .next (hs.submit)
  | portCtlReturnFromFailed => exact .next (hs.submit)
  | powerCtlQuery => exact .next (hs.submit)
  | powerCtlDisable => exact .next (hs.submit)
  | powerCtlEnable => exact .next (hs.submit)
  | powerCtlSetPoint => exact .next (hs.submit)
  | powerCtlSleep => exact .next (hs.submit)
  | resetFunctionWarm => exact .next (hs.submit)
  | abandonJob => exact .next (hs.submit)
  | queuedCommandStart => exact .next (hs.startAt.ite hs)
  | ringEnable => exact .next (hs.writeCtl.ite hs)
  | ringDisable => exact .next (hs.ite hs.writeCtl)
  | registerWrite => exact execRegisterWrite_keeps
  | ringLineSnoop => exact .next (hs.hostWr.countNow.rereadLine.ite hs)
  | ringPoll => exact .next ((hs.upd.foldl fun _ _ hs => hs.pollLine).ite hs)
  | journalResume => exact .next (hs.checkJournal.ite hs)
  | replyPost => exact .next (hs.stopRing.ite hs.postHeld)
  | cxlMemAccess => exact .next (hs.cxlMem.ite hs)
  | stepStart => exact .next (hs.beginStep.ite hs)
  | entryStart => exact .next (hs.startEntry.ite hs)
  | entryEnd => exact execEntryEnd_keeps
  | stepBoundary => exact .next (hs.tileErrors.boundaryNow.ite hs)
  | opChangeDone => exact execOpChangeDone_keeps
  | idleBoundary => exact .next (hs.tileErrors.takeReadings.sensorTriggers.pointBoundary.ite hs)
  | verdictContribution => exact .next (hs.upd.joinVerdict.forwardVerdict.ite hs)
  | verdictMessage => exact .next (hs.verdictRx)
  | productOutputTile => exact .next (hs.doProductTile)
  | swatchRecompute => exact .next (hs.doSwatch)
  | chainElementPass => exact .next (hs.doChainElem)
  | rowProgram => exact .next (hs.doRowProgram)
  | splitRowCombine => exact .next (hs.doSplitRow)
  | setvl => exact .next (hs.scalarOp)
  | sli => exact .next (hs.scalarOp)
  | slui => exact .next (hs.scalarOp)
  | salu => exact .next (hs.scalarOp)
  | sbnz => exact .next (hs.setSlate.ite hs)
  | send => exact .next (hs.doSend)
  | scsr => exact .next (hs.scalarOp)
  | srdtime => exact .next (hs.scalarOp)
  | vi => exact .next (hs.vectorOp)
  | vf => exact .next (hs.vectorOp)
  | vfma => exact .next (hs.vectorOp)
  | vcmp => exact .next (hs.vectorOp)
  | vsel => exact .next (hs.vectorOp)
  | vmlog => exact .next (hs.vectorOp)
  | vwmul => exact .next (hs.vectorOp)
  | vdot => exact .next (hs.vectorOp)
  | vcvt => exact .next (hs.vectorOp)
  | vred => exact .next (hs.vectorOp)
  | vmaxi => exact .next (hs.vectorOp)
  | vperm => exact .next (hs.vectorOp)
  | vmcnt => exact .next (hs.vectorOp)
  | vl => exact .next (hs.loadOp)
  | vs => exact .next (hs.storeOp)
  | vls => exact .next (hs.loadOp)
  | vss => exact .next (hs.storeOp)
  | vlseg => exact .next (hs.loadOp)
  | vsseg => exact .next (hs.storeOp)
  | vlx => exact .next (hs.loadOp)
  | vlxs => exact execVlxs_keeps
  | vsx => exact .next (hs.storeOp)
  | vsxadd => exact .next (hs.scatterAddOp)
  | vsxadda => exact .next (hs.scatterAddOp)
  | vlhost => exact execVlhost_keeps
  | slateBudgetEnd => exact .next (hs.slateFault.ite hs)
  | umberSIteration => exact execUmberSIteration_keeps
  | umberSPrepass => exact execUmberSPrepass_keeps
  | umberJGroup => exact execUmberJGroup_keeps
  | memoryRequest => exact execMemoryRequest_keeps
  | arbiterDecision => exact .next (hs.decideArb.ite hs)
  | streamLineRequest => exact .next (hs.activate.askLine.ite hs)
  | streamLineLanded => exact execStreamLineLanded_keeps
  | writeStreamAccepted => exact execWriteStreamAccepted_keeps
  | streamCancel => exact execStreamCancel_keeps
  | refresh => exact .next ((hs.setChan.ite hs).refresh.ite (hs.setChan.ite hs))
  | forcedRefresh => exact .next (hs.forceRefresh.ite hs)
  | unscheduledRetraining => exact .next (hs.fence.ite hs)
  | unfence => exact .next (hs.unfence.ite hs)
  | channelFailed => exact .next (hs.setChan.retirePackage.ite hs)
  | tgStart => exact .next (hs.writeGo.tgGo.ite hs)
  | tgStop => exact .next (hs.writeGo.tgGo)
  | tgLine => exact .next ((hs.setChan.ite hs.tgStep).testsDone.ite hs)
  | roundStart => exact .next (hs.startRound.ite hs)
  | messageSend => exact .next (hs.sendNext)
  | messageReceived => exact .next (hs.msgRx)
  | acknowledgement => exact .next (hs.ackRx)
  | ackTimeout => exact .next (hs.ackTimeout)
  | peerReplay => exact .next (hs.foldl fun _ _ hs => hs.replayCtx)
  | accumulateAddPass => exact .next ((hs.foldl fun _ _ hs => hs.addPair).setCtx.tryEnd.ite hs)
  | flitSlot => exact .next (hs.flitSlot)
  | syncFlitSend => exact .next (hs.syncSlot.ite hs)
  | codewordReceived => exact .next (hs.codeword)
  | flitRelease => exact execFlitRelease_keeps
  | flitReceived => exact .next (hs.flitRx)
  | nakRepeat => exact .next (hs.setPort.ite hs)
  | replay => exact execReplay_keeps
  | pmdTrainDone => exact .next (hs.setPort.ite hs)
  | blockLockDone => exact .next (hs.kvSet.setPort.sendFlit.ite hs)
  | identityRecord =>
    exact .next (((hs.kvSet.setPort.setPort.ite hs.kvSet.setPort.enterRun.parentRuns).ite
      hs.kvSet.setPort.event).ite hs)
  | alignProbe =>
    exact .next (((hs.train.setPort.train.ite hs.train.setPort).ite (hs.train.setPort.ite hs.alignFailed)).ite hs)
  | alignMaxima => exact execAlignMaxima_keeps
  | alignConfirm => exact .next ((hs.setPort.ite hs.alignFailed).ite hs)
  | alignCheckDone => exact .next (((hs.kvSet.enterRun.setPort.parentRuns.ite hs).ite hs.alignFailed).ite hs)
  | portStateTimeout => exact execPortStateTimeout_keeps
  | lossOfSignal => exact .next (hs.retrain.ite hs)
  | portFailed => exact .next (hs.failPort.ite hs)
  | retireRecordReceived => exact .next (hs.failPort.ite hs)
  | switchIn => exact execSwitchIn_keeps
  | syncWordReceived =>
    exact .next (((hs.setPort.upd.kvSet.ite hs.setPort).liverySkew.ite (hs.setPort.upd.kvSet.ite hs.setPort)).ite hs)
  | cobaltCorrection => exact .next (hs.elect.correctNow.ite hs)
  | cobaltHoldover => exact .next (hs.upd.ite hs)
  | syncPpsEdge => exact .next ((hs.pinChange.upd.ite hs.pinChange).ite hs)
  | railGood => exact .next (hs.ite hs.upd)
  | railLost => exact .next (hs.ite (hs.upd.powerOff.ite (hs.upd.fastRailLost.ite hs.upd)))
  | powerOnReset => exact .next (hs.powerOn.ite hs)
  | warmReset => exact .next (hs.warmReset.ite hs)
  | ashPllLock => exact .next (hs.toRow.upd.ite hs)
  | ashResetRelease => exact .next ((hs.toRow.upd.pinsBegin.ite hs.toRow.upd.pinsBegin.stopBoot).ite hs)
  | bootRomVerify => exact execBootRomVerify_keeps
  | fastRailsReady => exact .next (hs.toRow.upd.ite hs)
  | corePllLock => exact .next (hs.toRow.upd.ite hs)
  | ivorySelfTestDone => exact execIvorySelfTestDone_keeps
  | memoryTrainingDone => exact execMemoryTrainingDone_keeps
  | bootLimitExceeded => exact execBootLimitExceeded_keeps
  | sleepEntry => exact execSleepEntry_keeps
  | wakeInput => exact .next ((hs.pinChange.warmReset.ite hs.pinChange).ite hs)
  | functionPowerUpDone => exact .next ((hs.setFn.fnReply.fnUp.ite hs.setFn.fnReply.fnUp.setFn).ite hs)
  | functionShutdownDone => exact .next ((hs.setFn.fnOff.fnReply.ite hs.setFn.fnOff.fnReply.setFn).ite hs)
  | thermalTrip => exact .next (hs.countNow.upd.retireByAsh.fastOff.hbmLost.upd.ite hs)
  | tripClear => exact .next (hs.upd.ite hs)
  | throttleN => exact .next (hs.pinChange.throttlePin.ite hs)
  | faultN => exact .next ((hs.pinChange.faultN.ite hs.pinChange).ite hs)
  | eventWindowEnd => exact execEventWindowEnd_keeps
  | stuck => exact execStuck_keeps
  | stuckRecheck => exact .next ((hs.foldl fun _ _ hs => hs.recheckPin).throttlePin)
  | ivoryLockstepMismatch => exact .next (hs.retireByAsh.ite hs)
  | entdaa => exact .next (hs.upd.ite hs)
  | getVersion => exact .next (hs.served hs.spdm)
  | getCapabilities => exact .next (hs.served hs.spdm)
  | negotiateAlgorithms => exact .next (hs.served hs.spdm)
  | getDigests => exact .next (hs.served hs.spdm)
  | getCertificate => exact .next (hs.served hs.spdm)
  | challenge => exact .next (hs.served hs.spdm)
  | getMeasurements => exact .next (hs.served hs.spdm)
  | keyExchange => exact .next (hs.served hs.spdm)
  | finish => exact .next (hs.served hs.spdm)
  | heartbeat => exact .next (hs.served hs.spdm)
  | keyUpdate => exact .next (hs.served hs.spdm)
  | endSession => exact .next (hs.served hs.spdm)
  | unsupportedRequest => exact .next (hs.served hs.spdm)
  | ownerProvisioning => exact .next (hs.served hs.provision)
  | debugToken => exact .next (hs.served hs.token)
  | pldmDiscovery => exact .next (hs.served hs)
  | pldmSensorReading => exact .next (hs.served hs.sensor)
  | pollForPlatformEventMessage => exact .next (hs.served hs.poll)
  | requestUpdate => exact .next (hs.served hs.requestUpdate)
  | componentTransfer => exact .next (hs.served hs.component)
  | activateFirmware => exact .next (hs.activateFw.ite hs)
  | lossOfLock => exact .next (hs.retrain)
  | strapClockEdge => exact .next ((hs.setPin.kvSet.upd.ite hs.countNow.countNow.upd).ite hs)
  | configurationRequest => exact .next (hs.ite hs.upd)
  | cxlLinkTrained => exact .next (hs.kvSet.upd.ite hs)
  | endpointId => exact .next (hs.upd.ite hs)

theorem clockTick_kept : Kept s (clockTick s) := (Kept.refl s).clockTick

end

/-- Settles O3: each command's meaning is built of operations that keep the queue. -/
theorem commandsKeepTheQueue : Obligations.CommandsKeepTheQueue := by
  unfold Obligations.CommandsKeepTheQueue
  exact fun c s t e => (exec_keeps c t e).pending

/-- Settles O5: each command's meaning, and a tick, is built of operations that keep the numbers of parts and the
canonical form of the memories. -/
theorem stepsKeepWellFormedStates : Obligations.StepsKeepWellFormedStates := by
  unfold Obligations.StepsKeepWellFormedStates
  intro s t hs e
  unfold step at e
  split at e
  · exact Host.Outcome.next.inj e ▸ clockTick_kept.ok hs
  next c rest _ =>
    have hr : ({ s with pending := rest } : State).ok = true := hs
    exact (exec_keeps c t e).ok hr

end Sys2Proof.Machine
end

section
/-! SUPPORT. The step, the tick of the clock and the reset state (00 R2; 13 R393; 14 R406; 17 R476, R482). -/

namespace Sys2Proof.Machine

/-- Settles O1: the queue's first command is the one that the step's definition runs. -/
theorem stepRunsFrontCommand : Obligations.StepRunsFrontCommand := by
  unfold Obligations.StepRunsFrontCommand
  intro s c rest h
  rw [step, h]

/-! ### The tick (13 R393; 17 R476) -/

section
variable {s : State} {p d : Nat}

theorem State.settlePoint_none (h : s.pwr.opChange = none) : s.settlePoint = s := by
  rw [State.settlePoint, h]

theorem State.settlePoint_due (h : s.pwr.opChange = some (p, d)) (hd : d ≤ s.now)
    (hg : guardDiffers p (s.kvNat kOpNow) = false) : s.settlePoint = s.takePoint p := by
  simp [State.settlePoint, h, hd, hg]

theorem State.settlePoint_waits (h : s.pwr.opChange = some (p, d))
    (hw : s.now < d ∨ guardDiffers p (s.kvNat kOpNow) = true) : s.settlePoint = s := by
  rcases hw with hw | hw
  · simp [State.settlePoint, h, Nat.not_le.mpr hw]
  · simp [State.settlePoint, h, hw]

end

theorem clockTick_runs {s : State} (h : s.clk.ashOut = true) : clockTick s =
    { s with clk := { s.clk with cobalt := s.clk.cobalt + (if s.clk.corePll then 1 else 18) } }.settlePoint := by
  rw [clockTick, if_pos h]

theorem clockTick_inReset {s : State} (h : s.clk.ashOut = false) : clockTick s = s := by
  rw [clockTick, h, if_neg Bool.false_ne_true]

theorem step_empty {s : State} (h : s.pending = []) : step s = .next (clockTick s) := by
  rw [step, h]

/-- Settles O2: a tick moves Cobalt time and then settles the operating point. -/
theorem emptyQueueTicks : Obligations.EmptyQueueTicks := by
  unfold Obligations.EmptyQueueTicks
  constructor
  · intro s hq ha
    refine ⟨_, rfl, ?_⟩
    rw [step_empty hq, clockTick_runs ha]
    exact ⟨fun h => congrArg _ (State.settlePoint_none h), fun p d h hw => congrArg _ (State.settlePoint_waits h hw),
      fun p d h hd hg => congrArg _ (State.settlePoint_due h hd hg)⟩
  · intro s hq ha
    rw [step_empty hq, clockTick_inReset ha]

/-! ### The reset state -/

theorem State.reset_ok : State.reset.ok = true := by
  have hdram : Mem.wf State.reset.mem.dram = true := Mem.wf_iff.mpr ⟨rfl, rfl, nofun⟩
  refine State.ok_iff.mpr ⟨⟨?_, ?_, rfl, ?_, ?_⟩, hdram, rfl, rfl⟩
  all_goals simp [State.reset, resetRings]

theorem State.reset_ring {r : Nat} (h : r < 16) : State.reset.ring r = { vec := r } := by
  simp [State.ring, State.reset, resetRings, h]

theorem State.reset_port (p : Nat) : State.reset.port p = {} := by
  rw [State.port, State.reset, List.getD_eq_getElem?_getD, List.getElem?_replicate]
  split <;> rfl

theorem State.reset_fn (f : Nat) : State.reset.fn f = {} := by
  rw [State.fn, State.reset, List.getD_eq_getElem?_getD, List.getElem?_replicate]
  split <;> rfl

/-- Settles O4: every part of the reset state is at its structure's defaults, the rings with their own vectors. -/
theorem resetState : Obligations.ResetState := by
  unfold Obligations.ResetState
  refine ⟨State.reset_ok, fun r hr => ?_, rfl, rfl, rfl, rfl, rfl, fun p _ => ?_, fun f _ => ?_, fun k => rfl⟩
  · rw [State.reset_ring hr]
    exact ⟨rfl, rfl, rfl, rfl, rfl, rfl, rfl, rfl, rfl, rfl⟩
  · rw [State.reset_port]
  · rw [State.reset_fn]

end Sys2Proof.Machine
end

section
/-! SUPPORT. A command's start, the query and parameter commands, and the copies of class 3 (14 R414 to R422, R427,
R429; 19 R520; 20 R536). -/

namespace Sys2Proof.Machine

/-! ### An accepted command starts or goes on (14 R417, R419 to R422, R429) -/

section
variable {s : State} {i : Nat} {c : Cmd} {l : Bool}

theorem exec_start (hp : s.clk.phase = .run) : exec (.queuedCommandStart i) s = .next (s.startAt i) :=
  congrArg Host.Outcome.next (if_pos hp)

theorem exec_start_stopped (hp : s.clk.phase ≠ .run) : exec (.queuedCommandStart i) s = .next s :=
  congrArg Host.Outcome.next (if_neg hp)

theorem State.startAt_absent (hc : s.hostIf.cmds[i]? = none) : s.startAt i = s := by
  simp only [State.startAt, hc]

theorem State.startAt_started (hc : s.hostIf.cmds[i]? = some c) (hs : c.started = true) : s.startAt i = s.resume c := by
  simp only [State.startAt, hc, hs, if_true]

theorem State.startAt_stays (hc : s.hostIf.cmds[i]? = some c) (hs : c.started = false)
    (hm : mayStart s.hostIf.cmds i c = false) : s.startAt i = s := by
  simp only [State.startAt, hc, hs, hm, Bool.false_eq_true, if_false]

theorem State.startAt_starts (hc : s.hostIf.cmds[i]? = some c) (hs : c.started = false)
    (hm : mayStart s.hostIf.cmds i c = true) : s.startAt i = State.startCmd
      { s with hostIf := { s.hostIf with cmds := setAt s.hostIf.cmds i { c with started := true } } }
      { c with started := true } (s.job.img.isSome || (s.hostIf.cmds.take i).any (fun d => HostOp.isLoad d.op)) := by
  simp only [State.startAt, hc, hs, hm, Bool.false_eq_true, if_false, if_true]

theorem State.resume_running (hr : s.imageRuns = true) : s.resume c = s := if_pos hr

/-- With no step running a command goes on as its operation says. -/
theorem State.resume_idle (hr : s.imageRuns = false) : s.resume c = match c.op with
    | .unload => s.unload c.hdr
    | .checkpoint _ _ => s.capture c
    | .memCopy _ _ _ | .memFill _ _ _ => s.bulk c
    | .solve _ | .dynamics _ => s.takeEngines c
    | _ => s := if_neg (Bool.eq_false_iff.mp hr)

theorem State.startCmd_badField (hf : HostOp.badField c.op = true) :
    s.startCmd c l = (s.retire c.hdr (refuse stRefusedShape 0x0003)).relock := if_pos hf

section
variable (hf : HostOp.badField c.op = false)
include hf

theorem State.startCmd_noRoom {a : Answer}
    (hr : s.resultRefusal c.hdr (HostOp.resultLen c.op + HostOp.recordLen c.op c.hdr) = some a) :
    s.startCmd c l = (s.retire c.hdr a).relock := by
  simp only [State.startCmd, hf, hr, Bool.false_eq_true, if_false]

variable (hr : s.resultRefusal c.hdr (HostOp.resultLen c.op + HostOp.recordLen c.op c.hdr) = none)
include hr

theorem State.startCmd_unnamed (hu : HostOp.usesProf c.op = true) (hn : s.profNamed c.hdr.prof = false) :
    s.startCmd c l = (s.retire c.hdr (refuse stRefusedFit 0x0203)).relock := by
  simp only [State.startCmd, hf, hr, hu, hn, Bool.not_false, Bool.and_self, Bool.false_eq_true, if_false, if_true]

theorem State.startCmd_begins (hn : HostOp.usesProf c.op = false ∨ s.profNamed c.hdr.prof = true) :
    s.startCmd c l = s.begin c l := by
  have hprof : (HostOp.usesProf c.op && !s.profNamed c.hdr.prof) = false := by
    rcases hn with hn | hn <;> simp [hn]
  simp only [State.startCmd, hf, hr, hprof, Bool.false_eq_true, if_false]

end

end

/-- Settles O16: by the place in the list, then by what the command waits for, then by the checks in their order. -/
theorem commandsStart : Obligations.CommandsStart := by
  unfold Obligations.CommandsStart
  refine ⟨fun s i h => ?absent, fun s i c hp hc => ⟨fun hs hm => ?stays, fun hs hm => ?starts, fun hs hr => ?runs,
    fun hs hr => ?goesOn⟩, fun s c l => State.startCmd_badField, fun s c l a hf => State.startCmd_noRoom hf,
    fun s c l hf hr => ⟨State.startCmd_unnamed hf hr, State.startCmd_begins hf hr⟩⟩
  case absent =>
    by_cases hp : s.clk.phase = .run
    · rw [exec_start hp, State.startAt_absent (h.resolve_left (not_not_intro hp))]
    · exact exec_start_stopped hp
  case stays => rw [exec_start hp, State.startAt_stays hc hs hm]
  case starts => rw [exec_start hp, State.startAt_starts hc hs hm]
  case runs => rw [exec_start hp, State.startAt_started hc hs, State.resume_running hr]
  case goesOn =>
    rw [exec_start hp, State.startAt_started hc hs, State.resume_idle hr]
    refine ⟨fun ho => ?_, fun d n ho => ?_, fun a b n ho => ?_, fun a ho => ?_⟩
    · rw [ho]
    · rw [ho]
    · rcases ho with ho | ho <;> rw [ho]
    · rcases ho with ho | ho <;> rw [ho]

/-! ### What acceptance leaves (14 R414, R424) -/

section
variable {s : State} {h : Hdr} {op : HostOp}

theorem State.listed_sec : (s.listed h op).sec = s.sec := by simp [State.listed]
theorem State.listed_fresh : (s.listed h op).fresh = s.fresh := by simp [State.listed]
theorem State.listed_pwr : (s.listed h op).pwr = s.pwr := by simp [State.listed]

theorem State.begun_sec (ha : s.accepted h op = s.listed h op) : (s.begun h op).sec = s.sec := by
  rw [State.begun, ha]
  exact State.listed_sec

theorem State.begun_fresh (ha : s.accepted h op = s.listed h op) : (s.begun h op).fresh = s.fresh := by
  rw [State.begun, ha]
  exact State.listed_fresh

theorem State.begun_pwr (ha : s.accepted h op = s.listed h op) : (s.begun h op).pwr = s.pwr := by
  rw [State.begun, ha]
  exact State.listed_pwr

end

/-! ### Queries and attestation (14 R418, R420, R421; 19 R520) -/

section
variable {u : State} {h : Hdr}

theorem State.cmdStatus_bound (hb : u.job.bound.isSome = true) : u.cmdStatus h = u.retire h u.stepAnswer :=
  if_neg (by simp [Option.isNone_eq_false_iff.mpr hb])

theorem State.cmdStatus_unbound (hb : u.job.bound = none) : u.cmdStatus h = u.retire h (refuse stRefusedFit 0x0201) :=
  if_pos (by simp [hb])

variable {a n : Nat} {req : SpdmReq} {x : Bool × Nat}

theorem State.cmdAttest_forbidden (hp : u.sec.policy.allowAttest = false) :
    u.cmdAttest h a n req = u.retire h (refuse stRefusedFit 0x0501) := by
  simp only [State.cmdAttest, hp, Bool.not_false, if_true]

section
variable (hp : u.sec.policy.allowAttest = true) (ha : addrParam a = some x)
include hp ha

theorem State.cmdAttest_unmapped (hs : u.spanOk x n = false) :
    u.cmdAttest h a n req = u.retire h (refuse stRefusedShape 0x0005) := by
  simp only [State.cmdAttest, hp, ha, hs, Bool.not_true, Bool.not_false, Bool.false_eq_true, if_false, if_true]

variable {r : MgmtResp} {v : State} (hs : u.spanOk x n = true) (hr : u.spdm .attest req = (r, v))
include hs hr

theorem State.cmdAttest_noRoom {e : Answer} (he : u.resultRefusal h (Config.spdmBytes r).length = some e) :
    u.cmdAttest h a n req = u.retire h e := by
  simp only [State.cmdAttest, hp, ha, hs, hr, he, Bool.not_true, Bool.false_eq_true, if_false]

theorem State.cmdAttest_answers (he : u.resultRefusal h (Config.spdmBytes r).length = none) : u.cmdAttest h a n req =
    v.retire h { result := (Config.spdmBytes r).length, bytes := Config.spdmBytes r } := by
  simp only [State.cmdAttest, hp, ha, hs, hr, he, Bool.not_true, Bool.false_eq_true, if_false]

end

end

/-! ### Parameters (14 R427) -/

section
variable {α : Type} {p : α → Bool}

theorem indexOf_none {l : List α} (hl : ∀ a ∈ l, p a = false) : indexOf p l = none := by
  induction l with
  | nil => rfl
  | cons a t ih =>
    rw [indexOf, if_neg (by simp [hl a]), ih fun b hb => hl b (List.mem_cons_of_mem a hb)]
    rfl

/-- The first place of a list whose element is looked for. -/
theorem indexOf_first {l : List α} {d : α} {i : Nat} (hi : i < l.length) (hp : p (l.getD i d) = true)
    (hb : ∀ j, j < i → p (l.getD j d) = false) : indexOf p l = some i := by
  induction l generalizing i with
  | nil => exact absurd hi (Nat.not_lt_zero i)
  | cons a t ih =>
    cases i with
    | zero => exact if_pos hp
    | succ i =>
      have ht : indexOf p t = some i := ih (Nat.lt_of_succ_lt_succ hi) hp fun j hj => hb (j + 1) (Nat.succ_lt_succ hj)
      rw [indexOf, if_neg (by simpa using hb 0 (Nat.succ_pos i)), ht]
      rfl

end

section
variable {u : State} {h : Hdr} {ks : List Nat}

theorem State.cmdGet_named (hk : ∀ k ∈ ks, (keyRow k).isSome = true) : u.cmdGet h ks =
    State.retire { u with fresh := u.fresh + ks.length } h
      { result := (ks.zipIdx.map (fun k => (u.readKey (u.fresh + k.2) k.1).toNat)).headD 0
        bytes := (ks.zipIdx.map (fun k => (u.readKey (u.fresh + k.2) k.1).toNat)).flatMap (toLe 8) } := by
  rw [State.cmdGet, indexOf_none fun k hm => Option.isNone_eq_false_iff.mpr (hk k hm)]

theorem State.cmdGet_unnamed {i : Nat} (hi : i < ks.length) (hn : (keyRow (ks.getD i 0)).isNone = true)
    (hb : ∀ j, j < i → (keyRow (ks.getD j 0)).isSome = true) :
    u.cmdGet h ks = u.retire h (refuse stRefusedShape 0x0103 i) := by
  rw [State.cmdGet, indexOf_first (p := fun k => (keyRow k).isNone) hi hn fun j hj =>
    Option.isNone_eq_false_iff.mpr (hb j hj)]

variable {ps : List (Nat × Nat)} {l : Bool}

theorem State.cmdSet_written {v : State} {prev : List Nat}
    (hw : setPairs ps 0 { u with job := { u.job with locked := l } } [] = .ok (v, prev)) : u.cmdSet h ps l =
      State.retire { v with job := { v.job with locked := u.job.locked } } h
        { result := prev.headD 0, bytes := prev.flatMap (toLe 8) } := by
  rw [State.cmdSet, hw]

theorem State.cmdSet_refused {e : Answer}
    (hw : setPairs ps 0 { u with job := { u.job with locked := l } } [] = .error e) :
    u.cmdSet h ps l = u.retire h e := by
  rw [State.cmdSet, hw]

end

section
variable {s : State} {k v i : Nat} {t : List (Nat × Nat)} {prev : List Nat}

theorem setPairs_writes (hw : s.writeRefusal k (BitVec.ofNat 64 v) = none)
    (hs : s.startRefused k (BitVec.ofNat 64 v) = false) : setPairs ((k, v) :: t) i s prev =
      setPairs t (i + 1) (s.writeKey k (BitVec.ofNat 64 v)) (prev ++ [(s.readKey s.fresh k).toNat]) := by
  simp only [setPairs, hw, hs, Bool.false_eq_true, if_false]

theorem setPairs_refused {st r : Nat} (hw : s.writeRefusal k (BitVec.ofNat 64 v) = some (st, r)) :
    setPairs ((k, v) :: t) i s prev = .error (refuse st r i) := by
  simp only [setPairs, hw]

variable {w : BitVec 64} {row : KeyRow}

theorem State.writeRefusal_noKey (hk : (keyRow k).isNone = true) : s.writeRefusal k w = some (0x14, 0x0103) := by
  simp only [State.writeRefusal, Option.isNone_iff_eq_none.mp hk]

theorem State.writeRefusal_readOnly (hk : keyRow k = some row) (ha : row.acc = .ro) :
    s.writeRefusal k w = some (0x14, 0x0101) := by
  simp only [State.writeRefusal, hk, ha, if_true]

theorem State.writeRefusal_locked (hk : keyRow k = some row) (ha : row.acc = .rwl) (hl : s.job.locked = true) :
    s.writeRefusal k w = some (0x14, 0x0102) := by
  simp only [State.writeRefusal, hk, ha, hl, and_self, if_true, reduceCtorEq, if_false]

end

/-- Settles O6: each command served at once is its own effect on the state in which it begins, and a list of pairs is
applied from its head. -/
theorem queriesAndParameters : Obligations.QueriesAndParameters := by
  unfold Obligations.QueriesAndParameters
  refine ⟨fun s h d v => congrArg Host.Outcome.next v.submit, fun s h v => ?identify, ?status, ?get, ?attest, ?set,
    fun s k v i l prev hw hs => setPairs_writes hw hs, fun s k v i l prev st r hw => setPairs_refused hw,
    fun s k v hk => State.writeRefusal_noKey hk, fun s k v r hk ha => State.writeRefusal_readOnly hk ha,
    fun s k v r hk ha hl => State.writeRefusal_locked hk ha hl⟩
  case identify =>
    have hsec : (s.begun h .identify).sec = s.sec := State.begun_sec rfl
    rw [← hsec]
    exact congrArg Host.Outcome.next v.submit
  case status =>
    rintro s h u v rfl
    have hexec : exec (.stepStatus h) s = .next ((s.begun h .stepStatus).cmdStatus h).checkJournal :=
      congrArg Host.Outcome.next v.submit
    have hjob : (s.begun h .stepStatus).job = s.job := State.begun_job rfl
    rw [hexec, ← hjob]
    exact ⟨fun hb => by rw [State.cmdStatus_bound hb]; rfl, fun hb => by rw [State.cmdStatus_unbound hb]; rfl⟩
  case get =>
    rintro s h n ks u v rfl
    have hexec : exec (.getParam h n ks) s = .next ((s.begun h (.getParam n ks)).cmdGet h ks).checkJournal :=
      congrArg Host.Outcome.next v.submit
    have hfresh : (s.begun h (.getParam n ks)).fresh = s.fresh := State.begun_fresh rfl
    rw [hexec, ← hfresh]
    refine ⟨fun hk => ⟨_, rfl, ?_⟩, fun i hi hn hb => ?_⟩
    · rw [State.cmdGet_named hk]; rfl
    · rw [State.cmdGet_unnamed hi hn hb]; rfl
  case attest =>
    rintro s h a n req u v rfl
    have hexec : exec (.attest h a n req) s = .next ((s.begun h (.attest a n req)).cmdAttest h a n req).checkJournal :=
      congrArg Host.Outcome.next v.submit
    have hsec : (s.begun h (.attest a n req)).sec = s.sec := State.begun_sec rfl
    rw [hexec, ← hsec]
    refine ⟨fun hp => ?_, fun x hp ha hs => ?_, fun x r w hp ha hs hr => ⟨fun e he => ?_, fun he => ?_⟩⟩
    · rw [State.cmdAttest_forbidden hp]; rfl
    · rw [State.cmdAttest_unmapped hp ha hs]; rfl
    · rw [State.cmdAttest_noRoom hp ha hs hr he]; rfl
    · rw [State.cmdAttest_answers hp ha hs hr he]; rfl
  case set =>
    rintro s h n ps u v rfl
    have hexec : exec (.setParam h n ps) s =
        .next ((s.begun h (.setParam n ps)).cmdSet h ps (s.lockedFor h (.setParam n ps))).checkJournal :=
      congrArg Host.Outcome.next v.submit
    have hjob : (s.begun h (.setParam n ps)).job = s.job := State.begun_job rfl
    rw [hexec, ← hjob]
    exact ⟨fun v prev hw => by rw [State.cmdSet_written hw]; rfl, fun e hw => by rw [State.cmdSet_refused hw]; rfl⟩

/-! ### Copies and fills (14 R417 to R419; 20 R536) -/

section
variable {u : State} {h : Hdr} {c : Cmd} {src dst n pat : Nat} {a b : Bool × Nat}

theorem State.cmdBulk_fill (ho : c.op = .memFill dst n pat) (hb : addrParam dst = some b) : u.cmdBulk c =
    if u.writeOk b n = false then u.retire c.hdr (refuse stRefusedShape 0x0005)
    else if u.imageRuns = true then u
    else u.doFill c.hdr b n pat := by
  simp only [State.cmdBulk, State.bulk, ho, hb, Bool.not_eq_true']

theorem State.cmdBulk_copy (ho : c.op = .memCopy src dst n) (ha : addrParam src = some a)
    (hb : addrParam dst = some b) : u.cmdBulk c =
      if (u.spanOk a n && u.writeOk b n) = false then u.retire c.hdr (refuse stRefusedShape 0x0005)
      else if u.imageRuns = true then u
      else u.doCopy c.hdr a b n := by
  simp only [State.cmdBulk, State.bulk, ho, ha, hb, Bool.not_eq_true']

variable {v : State} {k : Nat}

theorem State.doCopy_whole (hc : u.copyLines (n / 64) a b 0 = (v, k, none)) :
    u.doCopy h a b n = v.retire h { result := n } := by
  rw [State.doCopy, hc]

theorem State.doCopy_poisoned {x : Nat} (hc : u.copyLines (n / 64) a b 0 = (v, k, some x)) : u.doCopy h a b n =
    (v.record { sub := 0x0A, cause := Config.faultCause 14 % 256, cls := 1, addr := BitVec.ofNat 64 x
                seq := BitVec.ofNat 64 h.seq }).retire h { status := stFaultContained, result := 64 * k } := by
  rw [State.doCopy, hc]

theorem State.copyLines_line {s : State} {m : Nat} (hp : a.1 = true ∨ s.poisoned a.2 64 = false) :
    s.copyLines (m + 1) a b k = (s.wrAt b (s.devRd a 64)).copyLines m (a.1, a.2 + 64) (b.1, b.2 + 64) (k + 1) := by
  rw [State.copyLines, if_neg]
  rcases hp with hp | hp <;> simp [hp]

theorem State.copyLines_poisoned {s : State} {m : Nat} (ha : a.1 = false) (hp : s.poisoned a.2 64 = true) :
    s.copyLines (m + 1) a b k = (s, k, some a.2) := by
  rw [State.copyLines, if_pos (by simp [ha, hp])]

end

/-- Settles O12: the checks of class 3 in their order, and a copy line by line. -/
theorem fillAndCopy : Obligations.FillAndCopy := by
  unfold Obligations.FillAndCopy
  have fill {s h dst n pat} (v : Served s h (.memFill dst n pat)) : exec (.memFill h dst n pat) s = .next
      ((s.begun h (.memFill dst n pat)).cmdBulk { hdr := h, op := .memFill dst n pat, started := true }).checkJournal :=
    congrArg Host.Outcome.next v.submit
  have copy {s h src dst n} (v : Served s h (.memCopy src dst n)) : exec (.memCopy h src dst n) s = .next
      ((s.begun h (.memCopy src dst n)).cmdBulk { hdr := h, op := .memCopy src dst n, started := true }).checkJournal :=
    congrArg Host.Outcome.next v.submit
  refine ⟨fun s h dst n pat b v hb hw => ?fills, fun s h src dst n a b u k v ha hb hs hw => ?copies,
    fun s h dst n pat b v hb hw => ?fillRefused, fun s h src dst n a b v ha hb hr => ?copyRefused,
    fun s a b k => rfl, fun s m a b k => State.copyLines_line, fun s m a b k => State.copyLines_poisoned⟩
  case fills =>
    have hruns : (s.begun h (.memFill dst n pat)).imageRuns = s.imageRuns := State.begun_imageRuns rfl rfl
    rw [fill v, State.cmdBulk_fill rfl hb, if_neg (by simp [hw]), hruns]
    exact ⟨fun hr => by rw [if_neg (by simp [hr])]; rfl, fun hr => by rw [if_pos hr]⟩
  case copies =>
    have hruns : (s.begun h (.memCopy src dst n)).imageRuns = s.imageRuns := State.begun_imageRuns rfl rfl
    rw [copy v, State.cmdBulk_copy rfl ha hb, if_neg (by simp [hs, hw]), hruns]
    refine ⟨fun hr => by rw [if_pos hr], fun hr hc => ?_, fun x hr hc => ?_⟩
    · rw [if_neg (by simp [hr]), State.doCopy_whole hc]; rfl
    · rw [if_neg (by simp [hr]), State.doCopy_poisoned hc]; rfl
  case fillRefused =>
    rw [fill v, State.cmdBulk_fill rfl hb, if_pos hw]; rfl
  case copyRefused =>
    rw [copy v, State.cmdBulk_copy rfl ha hb, if_pos (Bool.and_eq_false_iff.mpr hr)]; rfl

end Sys2Proof.Machine
end

section
/-! SUPPORT. `POWER_CTL`, `LOAD_IMAGE` and the commands that control the job (11 R315; 14 R421, R428; 15 R434 to R448;
17 R481 to R485; 20 R539). -/

namespace Sys2Proof.Machine

/-! ### `POWER_CTL` (17 R481 to R485) -/

section
variable {u : State} {h : Hdr} {f act point : Nat}

theorem State.cmdPower_inUse {r : Nat} (hr : u.fnInUse f act = some r) :
    u.cmdPower h f act point = u.retire h { status := stRefusedFit, detail := r, result := u.fnResult f } := by
  simp only [State.cmdPower, hr, refuse, Nat.zero_mod, Nat.zero_mul, Nat.zero_add]

theorem State.cmdPower_invalid (hr : u.fnInUse f act = none) (hv : fnValid f act point = false) :
    u.cmdPower h f act point =
      u.retire h { refuse stRefusedShape 0x0403 with result := if f ≤ 14 then u.fnResult f else 0 } := by
  simp only [State.cmdPower, hr, hv, Bool.not_false, if_true]

/-- What goes together is a function of the package, and only the operating point takes action 3. -/
theorem fnValid_iff : fnValid f act point = true ↔ f ≤ 14 ∧ act ≤ 3 ∧
    (f = 0 → act = 0 ∨ act = 3 ∧ point ≤ 3) ∧ (f ≠ 0 → act ≠ 3 ∧ (f = 14 → act ≠ 1)) := by
  by_cases hf : f = 0 <;> simp [fnValid, hf, and_assoc, imp_iff_not_or]

section
variable (hr : u.fnInUse f act = none) (hv : fnValid f act point = true)
include hr hv

theorem State.cmdPower_point (hf : f = 0) : u.cmdPower h f act point =
    State.retire (if act = 3 then u.writeKey kOpReq (BitVec.ofNat 64 point) else u) h
      { result := (if act = 3 then u.writeKey kOpReq (BitVec.ofNat 64 point) else u).kvNat kOpNow } := by
  subst hf
  simp only [State.cmdPower, hr, hv, State.fnResult, Bool.not_true, Bool.false_eq_true, if_false, if_true]

theorem State.cmdPower_sleep (hf : f = 14) : u.cmdPower h f act point = if act = 0 then u.retire h {}
    else State.retire { u with pwr := { u.pwr with sleepAt := some (sleepDelay + u.now) } } h {} := by
  subst hf
  simp only [State.cmdPower, hr, hv, Bool.not_true, Bool.false_eq_true, if_false, if_true, Nat.reduceEqDiff]

theorem State.cmdPower_fn (hf : f ≠ 0) (hf' : f ≠ 14) : u.cmdPower h f act point =
    if act = 0 then
      u.retire h { status := if (u.fn f).waitEn.isEmpty then stOk else stQueuedEnable, result := (u.fn f).result }
    else if act = 1 then u.fnDisable f h
    else u.fnEnable f h := by
  simp only [State.cmdPower, hr, hv, hf, hf', State.fnResult, Bool.not_true, Bool.false_eq_true, if_false]
  rcases act with _ | _ | n <;> rfl

end

end

section
variable {u : State} {h : Hdr} {f : Nat}

theorem State.fnDisable_on (hx : (u.fn f).state = .on) :
    u.fnDisable f h = u.setFn f { u.fn f with state := .stopping, waiters := [h], since := u.now } := by
  simp only [State.fnDisable, hx]

theorem State.fnDisable_off (hx : (u.fn f).state = .off) :
    u.fnDisable f h = u.retire h { result := (u.fn f).result } := by
  simp only [State.fnDisable, hx]

theorem State.fnDisable_starting (hx : (u.fn f).state = .starting) :
    u.fnDisable f h = u.setFn f { u.fn f with waitDis := (u.fn f).waitDis ++ [h] } := by
  simp only [State.fnDisable, hx]

theorem State.fnDisable_stopping (hx : (u.fn f).state = .stopping) : u.fnDisable f h =
    (u.setFn f { u.fn f with waiters := (u.fn f).waiters ++ [h], waitEn := [] }).fnWithdraw f (u.fn f).waitEn := by
  simp only [State.fnDisable, hx]

theorem State.fnEnable_on (hx : (u.fn f).state = .on) : u.fnEnable f h = u.retire h { result := (u.fn f).result } := by
  simp only [State.fnEnable, hx]

theorem State.fnEnable_off (hx : (u.fn f).state = .off) :
    u.fnEnable f h = u.setFn f { u.fn f with state := .starting, waiters := [h], since := u.now } := by
  simp only [State.fnEnable, hx]

theorem State.fnEnable_starting (hx : (u.fn f).state = .starting) : u.fnEnable f h =
    (u.setFn f { u.fn f with waiters := (u.fn f).waiters ++ [h], waitDis := [] }).fnWithdraw f (u.fn f).waitDis := by
  simp only [State.fnEnable, hx]

/-- One enable waits for a function that is stopping; the next ones are answered. -/
theorem State.fnEnable_stopping (hx : (u.fn f).state = .stopping) : u.fnEnable f h =
    if (u.fn f).waitEn = [] then u.setFn f { u.fn f with waitEn := [h] }
    else u.retire h { status := stQueuedEnable, result := (u.fn f).result } := by
  simp only [State.fnEnable, hx, List.isEmpty_iff]

end

section
variable {s : State} {h : Hdr} {f act point : Nat} {c : Instr}

theorem Served.exec_powerCtl (v : Served s h (.powerCtl f act point))
    (hc : (act, c) ∈ [(0, Instr.powerCtlQuery h f point), (1, .powerCtlDisable h f point),
      (2, .powerCtlEnable h f point), (3, .powerCtlSetPoint h f point)]) :
    exec c s = .next ((s.begun h (.powerCtl f act point)).cmdPower h f act point).checkJournal := by
  simp only [List.mem_cons, Prod.mk.injEq, List.not_mem_nil, or_false] at hc
  obtain ⟨rfl, rfl⟩ | ⟨rfl, rfl⟩ | ⟨rfl, rfl⟩ | ⟨rfl, rfl⟩ := hc <;> exact congrArg Host.Outcome.next v.submit

end

/-- The time of a command's effect is that of its packet. -/
theorem State.begun_now {s : State} {h : Hdr} {op : HostOp} (ha : s.accepted h op = s.listed h op) :
    (s.begun h op).now = s.now := by
  have hclk : (s.listed h op).clk = s.clk := by simp [State.listed]
  rw [State.begun, ha]
  exact congrArg (fun c : Clk => c.cobalt.toNat) hclk

/-- Settles O14: the refusals first, then the operating point, sleep and the functions with a state of their own. -/
theorem powerControl : Obligations.PowerControl := by
  unfold Obligations.PowerControl
  refine ⟨?control, ?requests, ?sleep⟩
  case control =>
    rintro s h f act point c u v rfl hc
    have hpwr : (s.begun h (.powerCtl f act point)).pwr = s.pwr := State.begun_pwr rfl
    have hfn : (s.begun h (.powerCtl f act point)).fn f = s.fn f := congrArg (fun p : Pwr => p.fns.getD f {}) hpwr
    rw [v.exec_powerCtl hc, ← hfn]
    generalize s.begun h (.powerCtl f act point) = u
    refine ⟨fun r hr => ?inUse, fun hr hv => ?invalid, fun hr hv => ?valid⟩
    case inUse => rw [State.cmdPower_inUse hr]; rfl
    case invalid => rw [State.cmdPower_invalid hr hv]; rfl
    case valid =>
      obtain ⟨hle, -, hzero, hother⟩ := fnValid_iff.mp hv
      refine ⟨?query, ?pointNow, ?sleepNow, ?disable, ?enable, ?point⟩
      case query =>
        rintro rfl h1 h13
        rw [State.cmdPower_fn hr hv (by omega) (by omega)]; rfl
      case pointNow =>
        rintro rfl hf
        rw [State.cmdPower_point hr hv hf]; rfl
      case sleepNow =>
        rintro rfl hf
        rw [State.cmdPower_sleep hr hv hf]; rfl
      case disable =>
        rintro rfl
        rw [State.cmdPower_fn hr hv (fun hf => by simpa using hzero hf) (fun hf => (hother (by omega)).2 hf rfl)]; rfl
      case enable =>
        rintro rfl h13
        rw [State.cmdPower_fn hr hv (fun hf => by simpa using hzero hf) (by omega)]; rfl
      case point =>
        rintro rfl
        have hf : f = 0 := by_contra fun hf => (hother hf).1 rfl
        rw [State.cmdPower_point hr hv hf]
        exact ⟨_, rfl, rfl⟩
  case requests =>
    rintro u f h _ rfl
    exact ⟨fun hx => ⟨State.fnDisable_on hx, State.fnEnable_on hx⟩,
      fun hx => ⟨State.fnEnable_off hx, State.fnDisable_off hx⟩,
      fun hx => ⟨State.fnDisable_starting hx, State.fnEnable_starting hx⟩, fun hx => ⟨State.fnDisable_stopping hx,
        fun hw => (State.fnEnable_stopping hx).trans (if_pos hw),
        fun hw => (State.fnEnable_stopping hx).trans (if_neg hw)⟩⟩
  case sleep =>
    rintro s h point u v rfl
    have hexec : exec (.powerCtlSleep h point) s =
        .next ((s.begun h (.powerCtl 14 2 point)).cmdPower h 14 2 point).checkJournal :=
      congrArg Host.Outcome.next v.submit
    have hjob : (s.begun h (.powerCtl 14 2 point)).job = s.job := State.begun_job rfl
    have hpwr : (s.begun h (.powerCtl 14 2 point)).pwr = s.pwr := State.begun_pwr rfl
    have hnow : (s.begun h (.powerCtl 14 2 point)).now = s.now := State.begun_now rfl
    rw [hexec, ← hjob, ← hpwr, ← hnow]
    generalize s.begun h (.powerCtl 14 2 point) = u
    refine ⟨fun hi => ⟨_, rfl, ?_⟩, fun hi => ?_⟩
    · rw [State.cmdPower_sleep (by simp [State.fnInUse, hi]) (by simp [fnValid]) rfl, if_neg (by decide)]
      exact ⟨rfl, by simp, by simp⟩
    · have huse : u.fnInUse 14 2 = some 0x0202 := by simp [State.fnInUse, Option.isNone_eq_false_iff.mpr hi]
      rw [State.cmdPower_inUse huse]; rfl

end Sys2Proof.Machine
end

section
/-! SUPPORT. The commands that control the job: `HALT_AT_STEP`, `RUN_STEPS`, `UNLOAD`, kind 1 of `RESET_FUNCTION`, and
`LOAD_IMAGE` (11 R315; 14 R421, R428; 15 R434 to R448; 20 R539). -/

namespace Sys2Proof.Machine

/-! ### The running `RUN_STEPS` (14 R419, R421) -/

section
variable {s : State} {h : Hdr} {op : HostOp} {n : Nat} {c : Cmd}

theorem State.runCmd_eq : s.runCmd = s.hostIf.cmds.find? fun c => c.started && HostOp.isRun c.op := rfl

theorem State.begun_cmds : (s.begun h op).hostIf.cmds = s.hostIf.cmds ++ [{ s.kept h op with started := true }] := rfl

@[simp] theorem State.checkJournal_cmds : s.checkJournal.hostIf.cmds = s.hostIf.cmds := by
  unfold State.checkJournal; split <;> rfl

@[simp] theorem State.checkJournal_imageRuns : s.checkJournal.imageRuns = s.imageRuns := by
  rw [State.imageRuns_eq, State.imageRuns_eq, State.checkJournal_job, State.checkJournal_cmds]

/-- No job command has started before a `RUN_STEPS` that may start. -/
theorem mayStart_run {cmds : List Cmd} {i : Nat} (hr : HostOp.isRun c.op = true) (hm : mayStart cmds i c = true) :
    ∀ d ∈ cmds, (d.started && HostOp.isJob d.op) = false := by
  have hjob : HostOp.isJob c.op = true ∧ HostOp.actsOnRun c.op = false := by
    revert hr
    cases c.op <;> simp [HostOp.isRun, HostOp.isJob, HostOp.actsOnRun]
  simp only [mayStart, hjob, Bool.not_true, Bool.false_or, Bool.false_and, Bool.or_false, Bool.and_eq_true] at hm
  obtain ⟨⟨-, hidle, -⟩, -⟩ := hm
  simpa [List.isEmpty_iff] using hidle

theorem HostOp.isJob_of_isRun {op : HostOp} (h : HostOp.isRun op = true) : HostOp.isJob op = true := by
  revert h
  cases op <;> simp [HostOp.isRun, HostOp.isJob]

/-- A `RUN_STEPS` that begins is the running one. -/
theorem Served.runCmd (v : Served s h (.runSteps n)) :
    (s.begun h (.runSteps n)).runCmd = some { s.kept h (.runSteps n) with started := true } := by
  have hidle : ∀ d ∈ s.hostIf.cmds, (d.started && HostOp.isRun d.op) ≠ true := by
    intro d hd hrun
    obtain ⟨hs, hr⟩ := Bool.and_eq_true_iff.mp hrun
    have hjob := mayStart_run rfl v.may d (List.mem_append_left _ hd)
    rw [hs, HostOp.isJob_of_isRun hr] at hjob
    cases hjob
  rw [State.runCmd_eq, State.begun_cmds, List.find?_append, List.find?_eq_none.mpr hidle]
  rfl

theorem Served.imageRuns_run : (s.begun h (.runSteps n)).imageRuns = true := by
  rw [State.imageRuns_eq, State.begun_cmds]
  simp [State.kept_op, HostOp.isRun]

/-! ### The armed halt (14 R421) -/

theorem State.haltDue_armed (ha : s.job.haltAt = some n) : s.haltDue = decide (n ≤ s.job.step.toNat) := by
  rw [State.haltDue, ha]

theorem State.haltDue_none (ha : s.job.haltAt = none) : s.haltDue = false := by rw [State.haltDue, ha]

theorem State.haltNow_waits (hw : s.haltDue = false ∨ s.job.inStep = true ∨ s.runCmd = none) : s.haltNow = s := by
  rw [State.haltNow, if_neg]
  rcases hw with hw | hw | hw <;> simp [hw]

theorem State.haltNow_ends (hd : s.haltDue = true) (hi : s.job.inStep = false) (hc : s.runCmd = some c) : s.haltNow =
    { s.retire c.hdr { result := s.job.lastRun.toNat } with job := { s.job with haltAt := none } } := by
  rw [State.haltNow, if_pos (by simp [hd, hi, hc])]
  simp only [State.endRun, hc, State.retire_job]

end

section
variable {u : State} {h : Hdr} {n : Nat}

theorem State.cmdHalt_unbound (hb : u.job.bound = none) : u.cmdHalt h n = u.retire h (refuse stRefusedFit 0x0201) :=
  if_pos (by simp [hb])

theorem State.cmdHalt_bound (hb : u.job.bound.isSome = true) : u.cmdHalt h n =
    (State.retire { u with job := { u.job with haltAt := some n } } h { result := n }).haltNow :=
  if_neg (by simp [Option.isNone_eq_false_iff.mpr hb])

theorem State.cmdRun_unbound (hb : u.job.bound = none) : u.cmdRun h = u.retire h (refuse stRefusedFit 0x0201) :=
  if_pos (by simp [hb])

theorem State.cmdRun_faulted (hb : u.job.bound.isSome = true) (hf : u.job.jobFault.isSome = true) :
    u.cmdRun h = u.retire h (refuse stRefusedFit 0x0202) := by
  rw [State.cmdRun, if_neg (by simp [Option.isNone_eq_false_iff.mpr hb]), if_pos hf]

theorem State.cmdRun_runs (hb : u.job.bound.isSome = true) (hf : u.job.jobFault = none) : u.cmdRun h = u.haltNow := by
  rw [State.cmdRun, if_neg (by simp [Option.isNone_eq_false_iff.mpr hb]), if_neg (by simp [hf])]

end

/-! ### The image released (11 R315; 14 R421; 19 R527) -/

section
variable {s : State} {h : Hdr}

@[simp] theorem State.keyEffect_exch (k : Nat) (old : BitVec 64) : (s.keyEffect k old).exch = s.exch := by
  unfold State.keyEffect
  split
  case isTrue => split <;> simp
  case isFalse => split <;> simp

@[simp] theorem State.foldWrite_exch (p : Nat × BitVec 64) : (s.foldWrite p).exch = s.exch := by
  unfold State.foldWrite; split <;> simp

@[simp] theorem State.fold_exch : s.fold.exch = s.exch := by
  simp [State.fold, State.foldl_keeps (π := State.exch) fun x p => State.foldWrite_exch (s := x) p,
    State.foldl_keeps (π := State.exch) fun (x : State) (p : Nat × Nat) => x.countNow_exch p.1 p.2]

@[simp] theorem State.foldIfIdle_exch : s.foldIfIdle.exch = s.exch := by
  unfold State.foldIfIdle; split <;> simp

@[simp] theorem State.applySwitch_exch (m : Nat × Nat × Nat × Nat) : (s.applySwitch m).exch = s.exch := by
  simp [State.applySwitch, State.joinPorts, apply_ite State.exch,
    State.foldl_keeps (π := State.exch) fun (x : State) (p : Nat × Nat) => x.event_exch (.rowPair p.1 p.2)]

@[simp] theorem State.applyHeld_exch : s.applyHeld.exch = s.exch :=
  State.foldl_keeps (π := State.exch) (fun x m => State.applySwitch_exch (s := x) m) s.torus.heldSwitch s

@[simp] theorem State.applySwitch_sec (m : Nat × Nat × Nat × Nat) : (s.applySwitch m).sec = s.sec := by
  simp [State.applySwitch, State.joinPorts, apply_ite State.sec,
    State.foldl_keeps (π := State.sec) fun (x : State) (p : Nat × Nat) => x.event_sec (.rowPair p.1 p.2)]

@[simp] theorem State.applyHeld_sec : s.applyHeld.sec = s.sec :=
  State.foldl_keeps (π := State.sec) (fun x m => State.applySwitch_sec (s := x) m) s.torus.heldSwitch s

@[simp] theorem State.warmReset_exch : s.warmReset.exch = {} := by
  unfold State.warmReset; dsimp only; split <;> rfl

/-- No image is loaded, nothing is bound, no step is in progress, and no context is open. -/
structure Unloaded (t : State) : Prop where
  img : t.job.img = none
  bound : t.job.bound = none
  inStep : t.job.inStep = false
  ctxs : t.exch.ctxs = []

theorem Unloaded.of_eq {t : State} (hs : Unloaded s) (hj : t.job = s.job) (he : t.exch = s.exch) : Unloaded t where
  img := hj ▸ hs.img
  bound := hj ▸ hs.bound
  inStep := hj ▸ hs.inStep
  ctxs := he ▸ hs.ctxs

theorem State.release_unloaded : Unloaded s.release := ⟨rfl, rfl, rfl, rfl⟩

theorem State.warmReset_unloaded : Unloaded s.warmReset where
  img := by simp [noJob]
  bound := by simp [noJob]
  inStep := by simp [noJob]
  ctxs := by simp

theorem Unloaded.activateNow (hs : Unloaded s) : Unloaded s.activateNow := by
  unfold State.activateNow
  split
  case h_1 => exact State.warmReset_unloaded.of_eq rfl rfl
  case h_2 => exact hs

/-- The image released, the `UNLOAD` answered, and what waited for it done, short of an activation (13 R388; 14
R421). -/
def State.unloadAnswered (s : State) (h : Hdr) : State :=
  ((s.release.retire h { result := s.job.lastRun.toNat }).applyHeld).takeSnapshot

theorem State.unload_eq : s.unload h =
    if s.sec.activate = true then (s.unloadAnswered h).activateNow else s.unloadAnswered h := by
  have hact : (s.unloadAnswered h).sec.activate = s.sec.activate := by
    simp [State.unloadAnswered, State.takeSnapshot, State.release, State.unbind, State.stopEntries]
  rw [← hact]
  rfl

theorem State.unloadAnswered_unloaded : Unloaded (s.unloadAnswered h) :=
  (State.release_unloaded (s := s)).of_eq (by simp [State.unloadAnswered, State.takeSnapshot])
    (by simp [State.unloadAnswered, State.takeSnapshot])

theorem State.unload_unloaded : Unloaded (s.unload h) := by
  rw [State.unload_eq]
  split
  · exact State.unloadAnswered_unloaded.activateNow
  · exact State.unloadAnswered_unloaded

theorem State.cmdUnload_none (hi : s.job.img = none) : s.cmdUnload h = s.retire h (refuse stRefusedFit 0x0201) :=
  if_pos (by simp [hi])

theorem State.cmdUnload_loaded (hi : s.job.img.isSome = true) :
    s.cmdUnload h = if s.imageRuns = true then s else s.unload h :=
  if_neg (by simp [Option.isNone_eq_false_iff.mpr hi])

/-! ### Kind 1 of `RESET_FUNCTION` (14 R428) -/

theorem State.cmdAbandon_unbound (hb : s.job.bound = none) : s.cmdAbandon h = s.retire h (refuse stRefusedFit 0x0201) :=
  if_pos (by simp [hb])

theorem State.cmdAbandon_bound (hb : s.job.bound.isSome = true) :
    s.cmdAbandon h = (((s.endRun stOk 0).unbind).retire h {}).foldIfIdle :=
  if_neg (by simp [Option.isNone_eq_false_iff.mpr hb])

theorem State.endRun_none (hc : s.runCmd = none) : s.endRun stOk 0 = s := by rw [State.endRun, hc]

theorem State.endRun_some {c : Cmd} (hc : s.runCmd = some c) :
    s.endRun stOk 0 = s.retire c.hdr { result := s.job.lastRun.toNat } := by rw [State.endRun, hc]

/-- The job abandoned: the image stays, and the rest is as after a release. -/
theorem State.abandoned_job : ((s.unbind.retire h {}).foldIfIdle.checkJournal).job =
    { noJob with img := s.job.img, locked := s.job.locked, stepEnd := s.job.stepEnd } := by
  simp [State.unbind]

theorem State.abandoned_exch : ((s.unbind.retire h {}).foldIfIdle.checkJournal).exch.ctxs = [] := by
  simp [State.unbind]

end

/-- Settles O9: each command on the state in which it begins, whose job is the one before; a `RUN_STEPS` that may start
is the running one, for no other job command has started. -/
theorem jobControl : Obligations.JobControl := by
  unfold Obligations.JobControl
  have halt {s h n} (v : Served s h (.haltAtStep n)) :
      exec (.haltAtStep h n) s = .next ((s.begun h (.haltAtStep n)).cmdHalt h n).checkJournal :=
    congrArg Host.Outcome.next v.submit
  have run {s h n} (v : Served s h (.runSteps n)) :
      exec (.runSteps h n) s = .next ((s.begun h (.runSteps n)).cmdRun h).checkJournal :=
    congrArg Host.Outcome.next v.submit
  have unload {s h} (v : Served s h .unload) :
      exec (.unload h) s = .next ((s.begun h .unload).cmdUnload h).checkJournal :=
    congrArg Host.Outcome.next v.submit
  have abandon {s h} (v : Served s h (.resetFunction 1)) :
      exec (.abandonJob h) s = .next ((s.begun h (.resetFunction 1)).cmdAbandon h).checkJournal :=
    congrArg Host.Outcome.next v.submit
  refine ⟨fun s h n v hb => ?halt, fun s h n v hb hf hw => ?run, fun s h n k v hb hf hi hk hd => ?runEnds,
    fun s h n v hb hf => ?runFaulted, fun s h n hb => ⟨fun v => ?haltUnbound, fun v => ?runUnbound⟩,
    fun s h v hi hr => ?unload, fun s h v hi hr => ?unloadWaits, fun s h v hi => ?unloadNone,
    fun s h v hb hc => ?abandon, fun s h c v hb hc => ?abandonRun, fun s h v hb => ?abandonUnbound⟩
  case halt =>
    have hjob : (s.begun h (.haltAtStep n)).job = s.job := State.begun_job rfl
    refine ⟨_, rfl, fun hw => ?_, fun c hi hd hc => ?_⟩
    · rw [halt v, State.cmdHalt_bound (hjob ▸ hb), hjob, State.haltNow_waits]
      rw [State.haltDue_armed (n := n) (by simp), State.retire_job]
      rcases hw with hi | hlt | hc
      · exact .inr (.inl hi)
      · exact .inl (by simpa using hlt)
      · exact .inr (.inr hc)
    · rw [halt v, State.cmdHalt_bound (hjob ▸ hb), hjob, State.haltNow_ends (c := c) _ (by simp [hi]) hc]
      · simp
      · rw [State.haltDue_armed (n := n) (by simp)]
        simpa using hd
  case run =>
    have hjob : (s.begun h (.runSteps n)).job = s.job := State.begun_job rfl
    refine ⟨?_, by rw [State.checkJournal_imageRuns, Served.imageRuns_run]⟩
    rw [run v, State.cmdRun_runs (hjob ▸ hb) (hjob ▸ hf), State.haltNow_waits]
    rcases hw with hi | hk | ⟨k, hk, hlt⟩
    · exact .inr (.inl (hjob ▸ hi))
    · exact .inl (State.haltDue_none (hjob ▸ hk))
    · exact .inl ((State.haltDue_armed (hjob ▸ hk)).trans (by simpa [hjob] using hlt))
  case runEnds =>
    have hjob : (s.begun h (.runSteps n)).job = s.job := State.begun_job rfl
    have hdue : (s.begun h (.runSteps n)).haltDue = true :=
      (State.haltDue_armed (hjob ▸ hk)).trans (by simpa [hjob] using hd)
    rw [run v, State.cmdRun_runs (hjob ▸ hb) (hjob ▸ hf), State.haltNow_ends hdue (hjob ▸ hi) v.runCmd, hjob,
      State.kept_hdr]
  case runFaulted =>
    have hjob : (s.begun h (.runSteps n)).job = s.job := State.begun_job rfl
    rw [run v, State.cmdRun_faulted (hjob ▸ hb) (hjob ▸ hf)]; rfl
  case haltUnbound =>
    have hjob : (s.begun h (.haltAtStep n)).job = s.job := State.begun_job rfl
    rw [halt v, State.cmdHalt_unbound (hjob ▸ hb)]; rfl
  case runUnbound =>
    have hjob : (s.begun h (.runSteps n)).job = s.job := State.begun_job rfl
    rw [run v, State.cmdRun_unbound (hjob ▸ hb)]; rfl
  case unload =>
    have hjob : (s.begun h .unload).job = s.job := State.begun_job rfl
    have hsec : (s.begun h .unload).sec = s.sec := State.begun_sec rfl
    have hruns : (s.begun h .unload).imageRuns = false := (State.begun_imageRuns rfl rfl).trans hr
    have hout : Unloaded ((s.begun h .unload).unload h).checkJournal :=
      State.unload_unloaded.of_eq (State.checkJournal_job ..) (State.checkJournal_exch ..)
    refine ⟨?_, _, rfl, hout.img, hout.bound, hout.inStep, hout.ctxs, fun ha => ?_⟩
    · rw [unload v, State.cmdUnload_loaded (hjob ▸ hi), if_neg (by simp [hruns])]
    · rw [State.unload_eq, hsec, if_neg (by simp [ha]), State.unloadAnswered, hjob]
  case unloadWaits =>
    have hjob : (s.begun h .unload).job = s.job := State.begun_job rfl
    have hruns : (s.begun h .unload).imageRuns = true := (State.begun_imageRuns rfl rfl).trans hr
    rw [unload v, State.cmdUnload_loaded (hjob ▸ hi), if_pos hruns]
  case unloadNone =>
    have hjob : (s.begun h .unload).job = s.job := State.begun_job rfl
    rw [unload v, State.cmdUnload_none (hjob ▸ hi)]; rfl
  case abandon =>
    have hjob : (s.begun h (.resetFunction 1)).job = s.job := State.begun_job rfl
    refine ⟨_, abandon v, ?_⟩
    rw [State.cmdAbandon_bound (hjob ▸ hb), State.endRun_none hc, State.abandoned_job, State.abandoned_exch, hjob]
    exact ⟨rfl, rfl, rfl, rfl, rfl⟩
  case abandonRun =>
    have hjob : (s.begun h (.resetFunction 1)).job = s.job := State.begun_job rfl
    refine ⟨_, abandon v, ?_⟩
    rw [State.cmdAbandon_bound (hjob ▸ hb), State.endRun_some hc, State.abandoned_job, State.abandoned_exch,
      State.retire_job, hjob]
    exact ⟨rfl, rfl, rfl, rfl, rfl⟩
  case abandonUnbound =>
    have hjob : (s.begun h (.resetFunction 1)).job = s.job := State.begun_job rfl
    rw [abandon v, State.cmdAbandon_unbound (hjob ▸ hb)]; rfl

/-! ### `LOAD_IMAGE` (14 R421, R429; 15 R434, R440 to R442, R448) -/

section
variable {s : State}

@[simp] theorem State.tgGo_job (c : Nat) (go : Bool) : (s.tgGo c go).job = s.job := by
  unfold State.tgGo; split <;> split <;> rfl

@[simp] theorem State.tgGo_sec (c : Nat) (go : Bool) : (s.tgGo c go).sec = s.sec := by
  unfold State.tgGo; split <;> split <;> rfl

@[simp] theorem State.keyEffect_sec (k : Nat) (old : BitVec 64) : (s.keyEffect k old).sec = s.sec := by
  unfold State.keyEffect
  split
  case isTrue => split <;> simp
  case isFalse => split <;> simp

@[simp] theorem State.writeKey_job (k : Nat) (v : BitVec 64) : (s.writeKey k v).job = s.job := by
  unfold State.writeKey
  split
  case h_1 => rfl
  case h_2 => simp [apply_ite State.job]

@[simp] theorem State.writeKey_sec (k : Nat) (v : BitVec 64) : (s.writeKey k v).sec = s.sec := by
  unfold State.writeKey
  split
  case h_1 => rfl
  case h_2 => simp [apply_ite State.sec]

@[simp] theorem State.writeProf_job (k : Nat) (v : BitVec 64) : (s.writeProf k v).job = s.job := by
  unfold State.writeProf
  split
  case h_1 => split <;> simp
  case h_2 => rfl

@[simp] theorem State.writeProf_sec (k : Nat) (v : BitVec 64) : (s.writeProf k v).sec = s.sec := by
  unfold State.writeProf
  split
  case h_1 => split <;> simp
  case h_2 => rfl

/-- A profile's values are keys: what no key write touches stays. -/
theorem State.applyProf_keeps {β : Type} {π : State → β} (hw : ∀ (x : State) k v, π (x.writeProf k v) = π x) (p : Nat) :
    π (s.applyProf p) = π s := by
  unfold State.applyProf
  split
  case isTrue => rfl
  case isFalse =>
    split
    case isTrue => exact State.foldl_keeps (fun x k => hw x k _) _ s
    case isFalse =>
      split
      case h_1 => exact State.foldl_keeps (fun x e => hw x _ _) _ s
      case h_2 => rfl

@[simp] theorem State.applyProf_job (p : Nat) : (s.applyProf p).job = s.job :=
  State.applyProf_keeps (fun _ _ _ => State.writeProf_job ..) p

@[simp] theorem State.applyProf_sec (p : Nat) : (s.applyProf p).sec = s.sec :=
  State.applyProf_keeps (fun _ _ _ => State.writeProf_sec ..) p

variable {h : Hdr} {a n strict : Nat} {parts : ImageParts}

/-- Acceptance of a `LOAD_IMAGE` locks the `RWL` keys. -/
theorem State.begun_load_job : (s.begun h (.loadImage a n strict parts)).job = { s.job with locked := true } := by
  have hjob : (s.accepted h (.loadImage a n strict parts)).job =
      { ((s.listed h (.loadImage a n strict parts)).applyProf h.prof).job with locked := true } := rfl
  rw [State.applyProf_job, State.listed_job] at hjob
  exact hjob

theorem State.begun_load_sec : (s.begun h (.loadImage a n strict parts)).sec = s.sec := by
  have hsec : (s.accepted h (.loadImage a n strict parts)).sec =
      ((s.listed h (.loadImage a n strict parts)).applyProf h.prof).sec := rfl
  rw [State.applyProf_sec, State.listed_sec] at hsec
  exact hsec

@[simp] theorem State.relock_img : s.relock.job.img = s.job.img := rfl

theorem State.relock_loaded {i : Image} (hi : s.job.img = some i) : s.relock.job = { s.job with locked := true } := by
  simp [State.relock, hi]

variable {u : State} {x : Bool × Nat} (hx : addrParam a = some x)
include hx

theorem State.cmdLoad_loaded (hi : u.job.img.isSome = true) :
    u.cmdLoad h a n strict parts = (u.retire h (refuse stRefusedFit 0x0202)).relock := by
  simp only [State.cmdLoad, hx, hi, if_true]

section
variable (hi : u.job.img = none)
include hi

theorem State.cmdLoad_unmapped (hs : u.spanOk x n = false) :
    u.cmdLoad h a n strict parts = (u.retire h (refuse stRefusedShape 0x0005)).relock := by
  simp only [State.cmdLoad, hx, hi, hs, Option.isSome_none, Bool.false_eq_true, Bool.not_false, if_false, if_true]

variable (hs : u.spanOk x n = true)
include hs

theorem State.cmdLoad_passes {i : Image} (hl : u.loadImage (u.rdAt x (min n 4294967296)) n
      (decide (strict = 1) || u.sec.policy.strict) parts = .ok i) :
    u.cmdLoad h a n strict parts =
      (State.retire { u.dramWr u.imageBase (u.rdAt x (min n 4294967296)) with
        job := { noJob with img := some i, stepEnd := u.job.stepEnd } } h {}).relock := by
  have hgib : 4 * gib = 4294967296 := rfl
  simp only [State.cmdLoad, hx, hi, hs, hgib, hl, Option.isSome_none, Bool.false_eq_true, Bool.not_true, if_false,
    State.dramWr_job]

theorem State.cmdLoad_fails {f : LoadFail} (hl : u.loadImage (u.rdAt x (min n 4294967296)) n
      (decide (strict = 1) || u.sec.policy.strict) parts = .error f) :
    u.cmdLoad h a n strict parts =
      (State.retire (if f.stage ≤ 1 then u else u.dramForget u.imageBase u.journalBase) h
        (f.answer h (imageDigest (u.rdAt x (min n 4294967296))))).relock := by
  have hgib : 4 * gib = 4294967296 := rfl
  simp only [State.cmdLoad, hx, hi, hs, hgib, hl, Option.isSome_none, Bool.false_eq_true, Bool.not_true, if_false]

end

end

/-- Settles O7: the refusals before the image is read, then the two results of its checks. -/
theorem loadImageLoads : Obligations.LoadImageLoads := by
  unfold Obligations.LoadImageLoads
  rintro s h a n strict parts x u v rfl hx
  have hexec : exec (.loadImage h a n strict parts) s =
      .next ((s.begun h (.loadImage a n strict parts)).cmdLoad h a n strict parts).checkJournal :=
    congrArg Host.Outcome.next v.submit
  have hjob : (s.begun h (.loadImage a n strict parts)).job = { s.job with locked := true } := State.begun_load_job
  have hsec : (s.begun h (.loadImage a n strict parts)).sec = s.sec := State.begun_load_sec
  have himg : (s.begun h (.loadImage a n strict parts)).job.img = s.job.img := by rw [hjob]
  have hend : (s.begun h (.loadImage a n strict parts)).job.stepEnd = s.job.stepEnd := by rw [hjob]
  rw [hexec, ← himg, ← hend, ← hsec]
  generalize s.begun h (.loadImage a n strict parts) = u
  refine ⟨fun hi => ⟨_, rfl, ?loaded⟩, fun hi hs => ?unmapped, ?checked⟩
  case loaded =>
    rw [State.cmdLoad_loaded hx hi]
    exact ⟨by simp, rfl⟩
  case unmapped => rw [State.cmdLoad_unmapped hx hi hs]; rfl
  case checked =>
    rintro _ _ hi hs rfl rfl
    refine ⟨fun i hl => ⟨_, _, rfl, rfl, ?passes⟩, fun f hl => ⟨_, _, rfl, rfl, ?fails⟩⟩
    case passes =>
      rw [State.cmdLoad_passes hx hi hs hl, State.checkJournal_job, State.relock_loaded (i := i) (by simp),
        State.retire_job]
      exact ⟨rfl, rfl, rfl, rfl, rfl, rfl, rfl⟩
    case fails =>
      rw [State.cmdLoad_fails hx hi hs hl, State.checkJournal_job, State.relock_img, State.retire_job]
      refine ⟨rfl, ?_⟩
      split
      · exact hi
      · exact hi

end Sys2Proof.Machine
end

section
/-! SUPPORT. Ring lines, replies and the journal's room (14 R408, R410, R412, R413, R415, R424, R430). -/

namespace Sys2Proof.Machine

/-! ### The status line and a stopped ring (14 R408, R412) -/

section
variable {s : State} {r : Nat}

theorem State.statusLine_eq : s.statusLine r = s.hostWr (hostAddr (s.ring r).lSl)
    (toLe 4 (s.ring r).cons ++ toLe 4 (s.ring r).cplProd ++ toLe 4 (s.ring r).errcode) := rfl

@[simp] theorem State.statusLine_ring (q : Nat) : (s.statusLine r).ring q = s.ring q := by simp [State.statusLine_eq]

theorem State.statusLine_hostRd : (s.statusLine r).hostRd (hostAddr (s.ring r).lSl) 12 =
    toLe 4 (s.ring r).cons ++ toLe 4 (s.ring r).cplProd ++ toLe 4 (s.ring r).errcode := by
  simpa [State.statusLine_eq, length_toLe] using State.hostRd_hostWr s (hostAddr (s.ring r).lSl)
    (toLe 4 (s.ring r).cons ++ toLe 4 (s.ring r).cplProd ++ toLe 4 (s.ring r).errcode)

theorem State.statusLine_hostRd_apart {b n : Nat}
    (h : b + n ≤ hostAddr (s.ring r).lSl ∨ hostAddr (s.ring r).lSl + 12 ≤ b) :
    (s.statusLine r).hostRd b n = s.hostRd b n := by
  rw [State.statusLine_eq]
  exact State.hostRd_hostWr_apart (by simpa [length_toLe] using h)

/-- A ring with an error: its code, the time, and no work any more. -/
def Ring.stopped (g : Ring) (now code : Nat) : Ring :=
  { g with rErr := true, errAt := some now, errcode := code, rRun := false }

theorem State.stopRing_eq (code : Nat) :
    s.stopRing r code = (s.setRing r ((s.ring r).stopped s.now code)).statusLine r := rfl

theorem State.stopRing_ring {code : Nat} (h : r < s.hostIf.rings.length) :
    (s.stopRing r code).ring r = (s.ring r).stopped s.now code := by
  rw [State.stopRing_eq, State.statusLine_ring, State.setRing_ring s h]

theorem State.stopRing_hostRd {code : Nat} (h : r < s.hostIf.rings.length) :
    (s.stopRing r code).hostRd (hostAddr (s.ring r).lSl) 12 =
      toLe 4 (s.ring r).cons ++ toLe 4 (s.ring r).cplProd ++ toLe 4 code := by
  have hline := State.statusLine_hostRd (s := s.setRing r ((s.ring r).stopped s.now code)) (r := r)
  rw [State.setRing_ring s h] at hline
  exact hline

/-! ### A ring line read again (14 R408, R410, R430) -/

/-- A ring with the counts of its line. -/
def Ring.counted (g : Ring) (p c : Nat) : Ring := { g with prodSeen := p % 2 ^ 32, cplCons := c % 2 ^ 32 }

variable {p c : Nat}

theorem State.rereadLine_eq : s.rereadLine r p c =
    if ringSlots (s.ring r).lCrLog2 < cntDiff (p % 2 ^ 32) (s.ring r).cons then
      (s.setRing r ((s.ring r).counted p c)).stopRing r 1
    else s.setRing r ((s.ring r).counted p c) := rfl

theorem State.rereadLine_overrun (h : r < s.hostIf.rings.length)
    (ho : ringSlots (s.ring r).lCrLog2 < cntDiff (p % 2 ^ 32) (s.ring r).cons) :
    (s.rereadLine r p c).ring r = ((s.ring r).counted p c).stopped s.now 1 ∧
      (s.rereadLine r p c).hostRd (hostAddr (s.ring r).lSl) 12 =
        toLe 4 (s.ring r).cons ++ toLe 4 (s.ring r).cplProd ++ toLe 4 1 := by
  have hset : (s.setRing r ((s.ring r).counted p c)).ring r = (s.ring r).counted p c := State.setRing_ring s h
  have hlen : r < (s.setRing r ((s.ring r).counted p c)).hostIf.rings.length :=
    h.trans_eq (State.setRing_length ..).symm
  have hring := State.stopRing_ring (code := 1) hlen
  have hline := State.stopRing_hostRd (code := 1) hlen
  rw [hset] at hring hline
  rw [State.rereadLine_eq, if_pos ho]
  exact ⟨hring, hline⟩

theorem State.pollLine_stopped (hr : (s.ring r).rRun = false) : s.pollLine (r, p, c) = s :=
  if_neg (Bool.eq_false_iff.mp hr)

theorem State.pollLine_running (hr : (s.ring r).rRun = true) : s.pollLine (r, p, c) =
    (if p % 2 ^ 32 ≠ (s.ring r).prodSeen then s.countNow kPollWake 1 else s).rereadLine r p c :=
  if_pos hr

/-! ### Replies (14 R408, R412, R413, R415) -/

theorem ReplyRec.encode_length (x : ReplyRec) (phase : Bool) : (x.encode phase).length = 32 := by
  simp [ReplyRec.encode, length_toLe]

/-- The place of the next reply in a ring's completion ring. -/
def Ring.replySlot (g : Ring) : Nat := hostAddr g.lCq + 32 * (g.cplProd % ringSlots g.lCqLog2)

/-- A ring whose next reply is posted. -/
def Ring.posted (g : Ring) : Ring := { g with cplProd := (g.cplProd + 1) % 2 ^ 32 }

/-- The state with a reply's bytes in their slot, `cpl_prod` moved on and the status line written. -/
def State.replyWritten (s : State) (r : Nat) (x : ReplyRec) : State :=
  ((s.hostWr (s.ring r).replySlot
    (x.encode (decide ((s.ring r).cplProd / ringSlots (s.ring r).lCqLog2 % 2 = 0)))).setRing r
    (s.ring r).posted).statusLine r

/-- The interrupt and the journal's entry touch neither the rings nor memory. -/
theorem State.postReply_written (x : ReplyRec) : (s.postReply r x).hostIf.rings = (s.replyWritten r x).hostIf.rings ∧
    (s.postReply r x).mem = (s.replyWritten r x).mem := by
  unfold State.postReply
  dsimp only
  split <;> split <;> exact ⟨rfl, rfl⟩

theorem State.postReply_ring {x : ReplyRec} (h : r < s.hostIf.rings.length) :
    (s.postReply r x).ring r = (s.ring r).posted := by
  have hring : (s.postReply r x).ring r = (s.replyWritten r x).ring r :=
    congrArg (fun l : List Ring => l.getD r {}) (State.postReply_written x).1
  rw [hring, State.replyWritten, State.statusLine_ring, State.setRing_ring (s.hostWr ..) h]

theorem State.postReply_hostRd {x : ReplyRec} (h : r < s.hostIf.rings.length)
    (ha : (s.ring r).replySlot + 32 ≤ hostAddr (s.ring r).lSl ∨ hostAddr (s.ring r).lSl + 12 ≤ (s.ring r).replySlot) :
    (s.postReply r x).hostRd (s.ring r).replySlot 32 =
      x.encode (decide ((s.ring r).cplProd / ringSlots (s.ring r).lCqLog2 % 2 = 0)) := by
  have hmem : (s.postReply r x).hostRd (s.ring r).replySlot 32 = (s.replyWritten r x).hostRd (s.ring r).replySlot 32 :=
    congrArg (fun m : MemSys => m.host.readN (s.ring r).replySlot 32) (State.postReply_written x).2
  have hread := State.hostRd_hostWr s (s.ring r).replySlot
    (x.encode (decide ((s.ring r).cplProd / ringSlots (s.ring r).lCqLog2 % 2 = 0)))
  rw [ReplyRec.encode_length] at hread
  rw [hmem, State.replyWritten, State.statusLine_hostRd_apart (by rwa [State.setRing_ring (s.hostWr ..) h])]
  exact hread

theorem State.postHeld_posts {x : ReplyRec} {rest : List ReplyRec} (hh : (s.ring r).held = x :: rest)
    (hr : (s.ring r).room = true) : s.postHeld r = (s.setRing r { s.ring r with held := rest }).postReply r x := by
  simp only [State.postHeld, hh, hr, if_true]

theorem State.postHeld_waits (h : (s.ring r).held = [] ∨ (s.ring r).room = false) : s.postHeld r = s := by
  unfold State.postHeld
  dsimp only
  split
  case h_1 => rfl
  case h_2 x rest hh => exact if_neg (by simpa [hh] using h)

theorem exec_replyPost_written : exec (.replyPost ⟨r, false⟩) s = .next (s.postHeld r) := rfl

theorem exec_replyPost_fails {x : ReplyRec} {rest : List ReplyRec} (hh : (s.ring r).held = x :: rest)
    (hr : (s.ring r).room = true) (hrun : (s.ring r).rRun = true) :
    exec (.replyPost ⟨r, true⟩) s = .next (s.stopRing r 3) :=
  congrArg Host.Outcome.next (if_pos (by simp [hh, hr, hrun]))

theorem exec_replyPost_waits {b : Bool} (h : (s.ring r).held = [] ∨ (s.ring r).room = false) :
    exec (.replyPost ⟨r, b⟩) s = .next s := by
  have hwrite : (b && (s.ring r).rRun && !(s.ring r).held.isEmpty && (s.ring r).room) = false := by
    rcases h with h | h <;> simp [h]
  have hexec : exec (.replyPost ⟨r, b⟩) s = .next
      (if b && (s.ring r).rRun && !(s.ring r).held.isEmpty && (s.ring r).room then s.stopRing r 3
        else s.postHeld r) := rfl
  rw [hexec, hwrite, if_neg Bool.false_ne_true, State.postHeld_waits h]

/-! ### The journal's room (14 R424) -/

theorem State.checkJournal_room (h : s.hostIf.journal.length < journalMax) :
    s.checkJournal = { s with hostIf := { s.hostIf with jfull := false } } := if_pos h

theorem State.checkJournal_full (h : journalMax ≤ s.hostIf.journal.length) : s.checkJournal =
    { s with hostIf := { s.hostIf with
        journal := freeEntries s.hostIf.wm s.hostIf.journal
        jfull := decide (journalMax ≤ (freeEntries s.hostIf.wm s.hostIf.journal).length) } } :=
  if_neg (Nat.not_lt.mpr h)

theorem exec_journalResume_full (h : s.hostIf.jfull = true) : exec .journalResume s = .next s.checkJournal :=
  congrArg Host.Outcome.next (if_pos h)

theorem exec_journalResume_room (h : s.hostIf.jfull = false) : exec .journalResume s = .next s :=
  congrArg Host.Outcome.next (if_neg (Bool.eq_false_iff.mp h))

end

/-- Settles O18: the line, then the poll of several lines, the reply, and the journal. -/
theorem ringTraffic : Obligations.RingTraffic := by
  unfold Obligations.RingTraffic
  refine ⟨?snoop, fun s r p c hr => ⟨congrArg Host.Outcome.next (if_neg (by simp [hr])), State.pollLine_stopped hr⟩,
    fun s r p c _ ho => State.rereadLine_eq.trans (if_neg (Nat.not_lt.mpr ho)),
    fun s r p c h ho => ⟨_, rfl, State.rereadLine_overrun h ho⟩,
    fun s ls => ⟨fun ht => congrArg Host.Outcome.next (if_neg (Nat.not_le.mpr ht)),
      fun ht => congrArg Host.Outcome.next (if_pos ht)⟩,
    fun s r p c hr => ⟨fun hp => ?newWork, fun hp => ?noWork⟩, ?posts,
    fun s r x rest hh hr hrun => exec_replyPost_fails hh hr hrun, fun s r b h => exec_replyPost_waits h,
    fun s r k h => ⟨_, rfl, State.stopRing_ring h⟩, ?frees, fun s hf hj => ?room,
    fun s hf => exec_journalResume_room hf⟩
  case snoop =>
    rintro s r p c u _ hr rfl
    exact congrArg Host.Outcome.next (if_pos hr)
  case newWork => rw [State.pollLine_running hr, if_pos hp]
  case noWork => rw [State.pollLine_running hr, if_neg (not_not_intro hp)]
  case posts =>
    rintro s r x rest _ h hh hr rfl
    have hset : (s.setRing r { s.ring r with held := rest }).ring r = { s.ring r with held := rest } :=
      State.setRing_ring s h
    have hlen : r < (s.setRing r { s.ring r with held := rest }).hostIf.rings.length :=
      h.trans_eq (State.setRing_length ..).symm
    have hring := State.postReply_ring (x := x) hlen
    have hread := State.postReply_hostRd (x := x) hlen
    rw [hset] at hring hread
    rw [exec_replyPost_written, State.postHeld_posts hh hr]
    exact ⟨_, rfl, rfl, hring, hread⟩
  case frees =>
    rintro s _ rfl hf hj
    rw [exec_journalResume_full hf, State.checkJournal_full hj]
  case room => rw [exec_journalResume_full hf, State.checkJournal_room hj]

end Sys2Proof.Machine
end

section
/-! SUPPORT. The rails, the thermal trip and the lockstep mismatch: what the ports going off leaves, the package
retired by Ash, and the fast domains off (17 R466, R469, R478, R480; 20 R541). -/

namespace Sys2Proof.Machine

/-! ### The ports go off (12 R373) -/

/-- The parts outside the ports are as they were, and so is each key that is not of a port. -/
structure PackageKept (s t : State) : Prop where
  clk : t.clk = s.clk
  hostIf : t.hostIf = s.hostIf
  pwr : t.pwr = s.pwr
  pins : t.pins = s.pins
  flt : t.flt = s.flt
  sec : t.sec = s.sec
  kv : ∀ k, k % 65536 < 0x100 → t.kvGet k = s.kvGet k

section
variable {s t u : State}

theorem PackageKept.refl : PackageKept s s := ⟨rfl, rfl, rfl, rfl, rfl, rfl, fun _ _ => rfl⟩

theorem PackageKept.trans (h : PackageKept s t) (h' : PackageKept t u) : PackageKept s u :=
  ⟨h'.clk.trans h.clk, h'.hostIf.trans h.hostIf, h'.pwr.trans h.pwr, h'.pins.trans h.pins, h'.flt.trans h.flt,
    h'.sec.trans h.sec, fun k hk => (h'.kv k hk).trans (h.kv k hk)⟩

theorem PackageKept.foldl {α : Type} {f : State → α → State} (h : ∀ x a, PackageKept x (f x a)) (l : List α)
    (s : State) : PackageKept s (l.foldl f s) :=
  List.foldlRecOn (motive := PackageKept s) l f .refl fun x hx a _ => hx.trans (h x a)

theorem State.kvSet_package {k : Nat} {v : BitVec 64} (h : 0x100 ≤ k % 65536) : PackageKept s (s.kvSet k v) :=
  ⟨rfl, rfl, rfl, rfl, rfl, rfl, fun _ hj => s.kvSet_kvGet_ne fun e => absurd (e ▸ hj) (Nat.not_lt.mpr h)⟩

theorem State.count_package {k n : Nat} (h : 0x100 ≤ k % 65536) : PackageKept s (s.count k n) := by
  unfold State.count
  split
  · exact ⟨rfl, rfl, rfl, rfl, rfl, rfl, fun _ _ => rfl⟩
  · exact State.kvSet_package h

theorem State.setPort_package {p : Nat} {x : Port} : PackageKept s (s.setPort p x) :=
  ⟨rfl, rfl, rfl, rfl, rfl, rfl, fun _ _ => rfl⟩

theorem State.setArb_package {p : Nat} {a : ArbPort} : PackageKept s (s.setArb p a) :=
  ⟨rfl, rfl, rfl, rfl, rfl, rfl, fun _ _ => rfl⟩

theorem State.timing_package {b : Nat} : PackageKept s (s.timing b) := by
  unfold State.timing
  split
  · exact ⟨rfl, rfl, rfl, rfl, rfl, rfl, fun _ _ => rfl⟩
  · exact .refl

theorem State.abortTransit_package {p : Nat} : PackageKept s (s.abortTransit p) := by
  unfold State.abortTransit
  exact PackageKept.trans (.foldl (fun _ _ => State.setArb_package) _ s)
    ⟨rfl, rfl, rfl, rfl, rfl, rfl, fun _ _ => rfl⟩

theorem kLinkLat_page (p : Nat) : 0x100 ≤ kLinkLat p % 65536 := by unfold kLinkLat; omega
theorem kFlReason_page (p : Nat) : 0x100 ≤ kFlReason p % 65536 := by unfold kFlReason; omega
theorem kRetrains_page (p : Nat) : 0x100 ≤ kRetrains p % 65536 := by unfold kRetrains; omega

theorem State.leaveRun_package {p reason : Nat} {st : PortState} : PackageKept s (s.leaveRun p reason st) := by
  unfold State.leaveRun
  dsimp only
  refine PackageKept.trans (PackageKept.trans ?_ State.abortTransit_package) State.setPort_package
  have hkeys : PackageKept s ((s.kvSet (kFlReason p) (BitVec.ofNat 64 reason)).kvSet (kLinkLat p) 0) :=
    (State.kvSet_package (kFlReason_page p)).trans (State.kvSet_package (kLinkLat_page p))
  have hcount := hkeys.trans (State.count_package (n := 1) (kRetrains_page p))
  split_ifs
  · exact hcount.trans State.timing_package
  · exact hkeys.trans State.timing_package
  · exact hcount
  · exact hkeys

theorem State.portOff_package {p reason : Nat} : PackageKept s (s.portOff p reason) := by
  unfold State.portOff
  split
  · exact State.leaveRun_package
  · exact (State.kvSet_package (kLinkLat_page p)).trans State.setPort_package

theorem State.portsOff_package : PackageKept s s.portsOff := .foldl (fun _ _ => State.portOff_package) _ s

/-! ### The fast domains off, with HBM4 lost (17 R467) -/

@[simp] theorem State.hbmLost_flt : s.hbmLost.flt = s.flt := rfl
@[simp] theorem State.hbmLost_pwr : s.hbmLost.pwr = s.pwr := rfl
@[simp] theorem State.hbmLost_kv : s.hbmLost.kv = s.kv := rfl

/-- The fast domains off leave the faults, the rest of the power part, and each key that is not of a port. -/
theorem State.domainsLost_keeps : (s.unitsLost 0 224).domainsOff.flt = s.flt ∧
    (s.unitsLost 0 224).domainsOff.kv = s.kv ∧ (s.unitsLost 0 224).domainsOff.pwr =
      { s.pwr with fns := List.replicate 15 {}, regs := false, clamps := true, opChange := none, holdUntil := 0 } :=
  ⟨rfl, rfl, rfl⟩

theorem State.fastOff_flt : s.fastOff.flt = s.flt := by
  rw [State.fastOff_eq, State.domainsLost_keeps.1, State.portsOff_package.flt]

theorem State.fastOff_pwr : s.fastOff.pwr =
    { s.pwr with fns := List.replicate 15 {}, regs := false, clamps := true, opChange := none, holdUntil := 0 } := by
  rw [State.fastOff_eq, State.domainsLost_keeps.2.2, State.portsOff_package.pwr]

theorem State.fastOff_kvNat {k : Nat} (hk : k % 65536 < 0x100) : s.fastOff.kvNat k = s.kvNat k := by
  rw [State.fastOff_eq, State.kvNat_congr State.domainsLost_keeps.2.1, State.kvNat, State.portsOff_package.kv k hk,
    State.kvNat]

/-! ### The package retired by Ash (20 R541) -/

/-- What Ash leaves of a package that it retires. -/
structure AshRetired (t : State) : Prop where
  retired : t.flt.retired = true
  ivoryStopped : t.flt.ivoryStopped = true
  cxlHeld : t.hostIf.cxlHeld = true
  cxlUp : t.hostIf.cxlUp = false
  ready : t.hostIf.ready = false
  cmds : t.hostIf.cmds = []
  alert : t.pins.alert = true

variable {r : FaultRec} {ports : Bool}

theorem State.retireByAsh_again (h : s.flt.retired = true) : s.retireByAsh r ports = s := if_pos h

theorem State.retireByAsh_retires (h : s.flt.retired = false) : AshRetired (s.retireByAsh r ports) := by
  rw [State.retireByAsh, if_neg (Bool.eq_false_iff.mp h)]
  exact ⟨rfl, rfl, rfl, rfl, rfl, rfl, rfl⟩

theorem State.retireByAsh_retired : (s.retireByAsh r ports).flt.retired = true := by
  by_cases h : s.flt.retired = true
  · rw [State.retireByAsh_again h, h]
  · exact (State.retireByAsh_retires (Bool.eq_false_iff.mpr h)).retired

/-- The state in which Ash retires a package whose ports it only stops. -/
def State.ashStopped (s : State) (r : FaultRec) : State :=
  (List.range 8).foldl (fun x p => x.portOff p 0) (s.stopAll.recordAsh { r with cls := 3 })

theorem State.ashStopped_package : PackageKept (s.stopAll.recordAsh { r with cls := 3 }) (s.ashStopped r) :=
  .foldl (fun _ _ => State.portOff_package) _ _

/-- The package marked as retired, with Ivory stopped and the CXL controller held in reset. -/
def State.ashHeld (s : State) : State :=
  { s.markRetired with
    flt := { s.markRetired.flt with ivoryStopped := true }
    hostIf := { s.markRetired.hostIf with ready := false, cxlHeld := true, cxlUp := false, cmds := [] } }

theorem State.retireByAsh_stops (h : s.flt.retired = false) : s.retireByAsh r false = (s.ashStopped r).ashHeld := by
  rw [State.retireByAsh, if_neg (Bool.eq_false_iff.mp h)]
  dsimp only
  rw [if_neg Bool.false_ne_true]
  unfold State.ashHeld State.ashStopped
  rfl

@[simp] theorem State.ashHeld_pwr : s.ashHeld.pwr = s.pwr := rfl
@[simp] theorem State.ashHeld_kv : s.ashHeld.kv = s.kv := rfl

/-- A package retired with its ports stopped: its power is as it was, and so is each key of no port but `flt_device`. -/
theorem State.retireByAsh_pwr : (s.retireByAsh r false).pwr = s.pwr := by
  by_cases h : s.flt.retired = true
  · rw [State.retireByAsh_again h]
  · have hstop : (s.stopAll.recordAsh { r with cls := 3 }).pwr = s.pwr := rfl
    rw [State.retireByAsh_stops (Bool.eq_false_iff.mpr h), State.ashHeld_pwr, State.ashStopped_package.pwr, hstop]

theorem State.retireByAsh_kvNat {k : Nat} (hk : k % 65536 < 0x100) (hne : k ≠ kFltDevice) :
    (s.retireByAsh r false).kvNat k = s.kvNat k := by
  by_cases h : s.flt.retired = true
  · rw [State.retireByAsh_again h]
  · have hstop : (s.stopAll.recordAsh { r with cls := 3 }).kvNat k = (s.stopAll.countNow kFltDevice 1).kvNat k := rfl
    have hkept : (s.ashStopped r).kvNat k = (s.stopAll.recordAsh { r with cls := 3 }).kvNat k :=
      congrArg BitVec.toNat (State.ashStopped_package.kv k hk)
    rw [State.retireByAsh_stops (Bool.eq_false_iff.mpr h), State.kvNat_congr State.ashHeld_kv, hkept, hstop,
      State.countNow_kvNat_ne _ hne]
    rfl

end

/-! ### The rails (17 R466, R469, R480) -/

section
variable {s : State} {r : Rail}

theorem exec_railGood (hr : s.pwr.rails.contains r = true) : exec (.railGood r) s = .next s :=
  congrArg Host.Outcome.next (if_pos hr)

theorem exec_railGood_new (hr : s.pwr.rails.contains r = false) :
    exec (.railGood r) s = .next { s with pwr := { s.pwr with rails := s.pwr.rails ++ [r] } } :=
  congrArg Host.Outcome.next (if_neg (Bool.eq_false_iff.mp hr))

theorem exec_railLost_none (hr : s.pwr.rails.contains r = false) : exec (.railLost r) s = .next s :=
  congrArg Host.Outcome.next (if_pos (by rw [hr]; rfl))

/-- The state without a rail. -/
def State.railGone (s : State) (r : Rail) : State :=
  { s with pwr := { s.pwr with rails := s.pwr.rails.filter (fun q => q != r) } }

theorem exec_railLost_gone (hr : s.pwr.rails.contains r = true) : exec (.railLost r) s = .next
    (if r = .vaon ∨ r = .vioAon then (s.railGone r).powerOff
      else if s.pwr.regs = true then (s.railGone r).fastRailLost r else s.railGone r) :=
  congrArg Host.Outcome.next (if_neg (by rw [hr]; decide))

/-- The state in which a fast rail's loss takes the fast domains off. -/
def State.railRetired (s : State) (r : Rail) : State :=
  (State.event { s with pwr := { s.pwr with clamps := true, regs := false } } (.railLost r)).retireByAsh
    { sub := 0x0B, cause := Config.faultCause 10 % 256 } false

theorem State.railRetired_retired : (s.railRetired r).flt.retired = true := State.retireByAsh_retired

theorem State.railRetired_pwr : (s.railRetired r).pwr = { s.pwr with clamps := true, regs := false } :=
  State.retireByAsh_pwr.trans rfl

/-- The fast domains off, and Ash's start-up stopped, from the state in which a rail's loss retired the package. -/
def State.railsOff (s u : State) : State :=
  let v := if s.pwr.lpSelfRefresh then u.fastOff.hbmLost
    else u.fastOff.hbmLost.dramForget 0x010000000000 0x1000000000000
  { v with clk := { v.clk with phase := .ash, row := .stopped, report := some .railLost }
           hostIf := if s.pwr.lpSelfRefresh then v.hostIf else { v.hostIf with journal := [] } }

theorem State.fastRailLost_eq : s.fastRailLost r = s.railsOff (s.railRetired r) := by
  unfold State.fastRailLost State.railsOff State.railRetired
  rfl

theorem State.railsOff_keeps (u : State) : (s.railsOff u).flt = u.fastOff.hbmLost.flt ∧
    (s.railsOff u).pwr = u.fastOff.hbmLost.pwr ∧ (s.railsOff u).job = u.fastOff.hbmLost.job := by
  unfold State.railsOff
  generalize u.fastOff.hbmLost = v
  dsimp only
  split <;> exact ⟨rfl, rfl, rfl⟩

@[simp] theorem State.hbmLost_job : s.hbmLost.job = s.job := rfl

theorem State.fastRailLost_off : (s.fastRailLost r).flt.retired = true ∧ (s.fastRailLost r).job.img = none ∧
    (s.fastRailLost r).pwr.clamps = true ∧ (s.fastRailLost r).pwr.regs = false ∧
    (s.fastRailLost r).pwr.rails = s.pwr.rails := by
  obtain ⟨hflt, hpwr, hjob⟩ := s.railsOff_keeps (s.railRetired r)
  rw [State.fastRailLost_eq, hflt, hpwr, hjob, State.hbmLost_flt, State.hbmLost_pwr, State.hbmLost_job,
    State.fastOff_flt, State.fastOff_pwr, State.fastOff_off.job.1, State.railRetired_pwr]
  exact ⟨State.railRetired_retired, rfl, rfl, rfl, rfl⟩

theorem State.fastRailLost_clk : (s.fastRailLost r).clk.phase = .ash ∧ (s.fastRailLost r).clk.row = .stopped ∧
    (s.fastRailLost r).clk.report = some .railLost := by
  rw [State.fastRailLost_eq]
  unfold State.railsOff
  exact ⟨rfl, rfl, rfl⟩

/-- Memory after a power-on is undefined. -/
theorem State.powerOn_read {a : Nat} (ha : a < 2 ^ 48) :
    s.powerOn.mem.dram.read a = Config.freeByte (s.mem.memGen + 1) a := by
  have hmem : s.powerOn.mem.dram =
      { cells := [], undef := [{ lo := 0, hi := 0x1000000000000, gen := s.mem.memGen + 1 }] } := rfl
  have hin : a < 0x1000000000000 := ha
  rw [hmem, Mem.read_eq, Mem.undefAt_singleton]
  simp [hin]

theorem exec_powerOnReset (h : s.aonGood = true) : exec .powerOnReset s = .next s.powerOn :=
  congrArg Host.Outcome.next (if_pos h)

end

/-- Settles O19: by the rail's kind and the regulators; a power-on begins at the reset state. -/
theorem railsAndPowerOn : Obligations.RailsAndPowerOn := by
  unfold Obligations.RailsAndPowerOn
  refine ⟨fun s r => ⟨exec_railGood, fun hr => ⟨exec_railLost_none hr, exec_railGood_new hr⟩⟩, fun s r hr ha => ?always,
    fun s r hr h1 h2 hg => ?off, fun s r hr h1 h2 hg => ?fast, fun s h1 h2 => ?powerOn, fun s h => ?missing⟩
  case always =>
    refine ⟨_, exec_railLost_gone hr, ?_⟩
    rw [if_pos ha]
    exact ⟨rfl, rfl, rfl, rfl, rfl⟩
  case off =>
    rw [exec_railLost_gone hr, if_neg (not_or.mpr ⟨h1, h2⟩), if_neg (by simp [hg])]
    rfl
  case fast =>
    refine ⟨_, exec_railLost_gone hr, ?_⟩
    rw [if_neg (not_or.mpr ⟨h1, h2⟩), if_pos hg]
    obtain ⟨hret, himg, hclamps, hregs, hrails⟩ := State.fastRailLost_off (s := s.railGone r) (r := r)
    obtain ⟨hphase, hrow, hreport⟩ := State.fastRailLost_clk (s := s.railGone r) (r := r)
    exact ⟨hclamps, hregs, hphase, hrow, hreport, himg, hret, hrails⟩
  case powerOn =>
    have hgood : s.aonGood = true := by simp only [State.aonGood, h1, h2, Bool.and_self]
    exact ⟨_, exec_powerOnReset hgood, rfl, rfl, rfl, rfl, rfl, rfl, rfl, rfl, rfl, rfl, rfl, rfl,
      fun a => State.powerOn_read⟩
  case missing =>
    have hgood : s.aonGood = false := by
      rcases h with h | h <;> simp only [State.aonGood, h, Bool.false_and, Bool.and_false]
    exact congrArg Host.Outcome.next (if_neg (Bool.eq_false_iff.mp hgood))

/-! ### The thermal trip and the lockstep mismatch (17 R478; 20 R541) -/

section
variable {rs : List Int} {b : Int}

theorem le_foldl_max {l : List Int} {m : Int} : b ≤ l.foldl max m ↔ b ≤ m ∨ ∃ r ∈ l, b ≤ r := by
  induction l generalizing m with
  | nil => simp
  | cons r l ih => simp [ih, or_assoc]

/-- The hottest of the readings is at a limit where one of them is. -/
theorem le_hottest_iff (h : rs ≠ []) : b ≤ hottest rs ↔ ∃ r ∈ rs, b ≤ r := by
  rw [hottest, le_foldl_max]
  refine ⟨fun hm => hm.elim (fun hb => ⟨_, ?_, hb⟩) id, .inr⟩
  cases rs with
  | nil => exact absurd rfl h
  | cons r l => exact List.mem_cons_self

variable {s : State}

/-- The state in which the package is retired by a trip. -/
def State.tripRetired (s : State) (rs : List Int) : State :=
  State.retireByAsh { s.countNow kTrips 1 with
    pwr := { (s.countNow kTrips 1).pwr with sensors := rs, tripped := true, clamps := true, regs := false } }
    { sub := 0x0B, cause := Config.faultCause 11 % 256 } false

/-- The fast domains off, and Ash's start-up stopped. -/
def State.ashOff (s : State) : State :=
  { s.fastOff.hbmLost with clk := { s.fastOff.hbmLost.clk with phase := .ash, row := .stopped } }

theorem State.ashOff_keeps : s.ashOff.flt = s.fastOff.flt ∧ s.ashOff.pwr = s.fastOff.pwr ∧
    s.ashOff.job = s.fastOff.job ∧ s.ashOff.kv = s.fastOff.kv := by
  unfold State.ashOff
  generalize s.fastOff = v
  exact ⟨rfl, rfl, rfl, rfl⟩

theorem exec_thermalTrip : exec (.thermalTrip rs) s = .next
    (if 110 * 16 ≤ hottest rs ∧ rs ≠ [] ∧ s.pwr.regs = true ∧ s.pwr.tripped = false then
      (s.tripRetired rs).ashOff else s) := by
  rw [exec, execThermalTrip]
  dsimp only [State.tripRetired, State.ashOff]

theorem exec_tripClear : exec (.tripClear rs) s = .next
    (if s.pwr.tripped = true ∧ hottest rs < 90 * 16 ∧ rs ≠ [] then
      { s with pwr := { s.pwr with sensors := rs, tripped := false } } else s) := rfl

theorem State.tripRetired_pwr : (s.tripRetired rs).pwr =
    { s.pwr with sensors := rs, tripped := true, clamps := true, regs := false } :=
  State.retireByAsh_pwr.trans rfl

theorem State.tripRetired_trips : (s.tripRetired rs).kvNat kTrips = satAdd (s.kvNat kTrips) 1 :=
  (State.retireByAsh_kvNat (by decide) (by decide)).trans (s.countNow_kvNat (n := 1))

theorem exec_lockstep (h : s.clk.row = .memTrain ∨ s.clk.phase = .run) : exec .ivoryLockstepMismatch s =
    .next (s.retireByAsh { sub := 0x0A, cause := Config.faultCause 12 % 256 } true) :=
  congrArg Host.Outcome.next (if_pos h)

theorem exec_lockstep_early (h : ¬ (s.clk.row = .memTrain ∨ s.clk.phase = .run)) :
    exec .ivoryLockstepMismatch s = .next s :=
  congrArg Host.Outcome.next (if_neg h)

end

/-- Settles O24: a trip and a mismatch retire the package by Ash, once. -/
theorem ashRetires : Obligations.AshRetires := by
  unfold Obligations.AshRetires
  refine ⟨fun s rs hh hg ht => ?trips, fun s rs h => ?noTrip, fun s rs hne hc ht => ?clears, fun s rs h => ?stays,
    fun s hr hf => ?mismatch, fun s h => ?noMismatch⟩
  case trips =>
    have hne : rs ≠ [] := by rintro rfl; simp at hh
    refine ⟨_, exec_thermalTrip, ?_⟩
    rw [if_pos ⟨(le_hottest_iff hne).mpr hh, hne, hg, ht⟩]
    obtain ⟨hflt, hpwr, hjob, hkv⟩ := State.ashOff_keeps (s := s.tripRetired rs)
    rw [hflt, hpwr, hjob, State.kvNat_congr hkv, State.fastOff_flt, State.fastOff_pwr, State.fastOff_off.job.1,
      State.fastOff_kvNat (by decide), State.tripRetired_pwr, State.tripRetired_trips]
    exact ⟨rfl, rfl, rfl, rfl, State.retireByAsh_retired, rfl, rfl, rfl, rfl⟩
  case noTrip =>
    rw [exec_thermalTrip, if_neg]
    rintro ⟨hh, hne, hg, ht⟩
    rcases h with h | h | h
    · obtain ⟨r, hr, hb⟩ := (le_hottest_iff hne).mp hh
      exact absurd (h r hr) (not_lt.mpr hb)
    · simp [hg] at h
    · simp [ht] at h
  case clears =>
    have hcool : hottest rs < 90 * 16 := lt_of_not_ge fun hh => by
      obtain ⟨r, hr, hb⟩ := (le_hottest_iff hne).mp hh
      exact absurd (hc r hr) (not_lt.mpr hb)
    rw [exec_tripClear, if_pos ⟨ht, hcool, hne⟩]
  case stays =>
    rw [exec_tripClear, if_neg]
    rintro ⟨ht, hc, hne⟩
    rcases h with h | h | h
    · exact hne h
    · exact absurd hc (not_lt.mpr ((le_hottest_iff hne).mpr h))
    · simp [ht] at h
  case mismatch =>
    have hash : AshRetired (s.retireByAsh { sub := 0x0A, cause := Config.faultCause 12 % 256 } true) :=
      State.retireByAsh_retires hf
    exact ⟨_, exec_lockstep hr, hash.retired, hash.ivoryStopped, hash.cxlHeld, hash.cxlUp, hash.ready, hash.cmds,
      hash.alert⟩
  case noMismatch =>
    by_cases hr : s.clk.row = .memTrain ∨ s.clk.phase = .run
    · rw [exec_lockstep hr, State.retireByAsh_again (h.resolve_left fun hn => hr.elim hn.1 hn.2)]
    · exact exec_lockstep_early hr

end Sys2Proof.Machine
end

section
/-! SUPPORT. The cold start up to the boot ROM: the strap word, Ash's release, the slots and the package's place (13
R380 to R382; 17 R482; 18 R494, R496; 19 R512, R513). -/

namespace Sys2Proof.Machine

section
variable {s : State}

/-! ### A start-up that stops (17 R482) -/

/-- The state in which the start-up stops: the event reported and the ports off. -/
def State.bootPortsOff (s : State) (e : Event) : State := (List.range 8).foldl (fun x p => x.portOff p 0) (s.event e)

theorem State.bootPortsOff_package {e : Event} : PackageKept (s.event e) (s.bootPortsOff e) :=
  .foldl (fun _ _ => State.portOff_package) _ _

theorem State.stopBoot_eq {r : BootReport} {e : Event} : s.stopBoot r e =
    { s.bootPortsOff e with clk := { (s.bootPortsOff e).clk with row := .stopped, report := some r } } := by
  unfold State.stopBoot State.bootPortsOff
  rfl

theorem State.stopBoot_clk {r : BootReport} {e : Event} :
    (s.stopBoot r e).clk = { s.clk with row := .stopped, report := some r } := by
  rw [State.stopBoot_eq, State.bootPortsOff_package.clk]
  rfl

theorem State.stopBoot_strapWord {r : BootReport} {e : Event} :
    (s.stopBoot r e).pins.strapWord = s.pins.strapWord := by
  have hword : (s.bootPortsOff e).pins.strapWord = s.pins.strapWord := by
    rw [State.bootPortsOff_package.pins]
    rfl
  rw [State.stopBoot_eq]
  generalize s.bootPortsOff e = v at *
  exact hword

/-! ### The strap word (17 R482; 18 R494, R496) -/

theorem exec_ashPllLock (hp : s.clk.phase = .ash) (hr : s.clk.row = .ref) :
    exec .ashPllLock s = .next { s with clk := { s.clk with row := .strap, ashPll := true } } :=
  congrArg Host.Outcome.next (if_pos ⟨hp, hr⟩)

theorem exec_ashPllLock_other (h : s.clk.phase ≠ .ash ∨ s.clk.row ≠ .ref) : exec .ashPllLock s = .next s :=
  congrArg Host.Outcome.next (if_neg fun hc => h.elim (· hc.1) (· hc.2))

/-- The strap word with one bit shifted in. -/
def strapShift (w : BitVec 64) (b : Bool) : BitVec 64 := (w >>> 1) ||| (if b then BitVec.ofNat 64 (2 ^ 63) else 0)

theorem strapShift_top (w : BitVec 64) (b : Bool) : (strapShift w b).getLsbD 63 = b := by
  cases b <;> simp [strapShift]

theorem strapShift_low {w : BitVec 64} {b : Bool} {i : Nat} (hi : i < 63) :
    (strapShift w b).getLsbD i = w.getLsbD (i + 1) := by
  have hbit : (if b then BitVec.ofNat 64 (2 ^ 63) else 0).getLsbD i = false := by
    cases b with
    | false => exact BitVec.getLsbD_zero
    | true => rw [if_pos rfl, BitVec.getLsbD_ofNat, Nat.testBit_two_pow_of_ne (by omega), Bool.and_false]
  rw [strapShift, BitVec.getLsbD_or, hbit, Bool.or_false, BitVec.getLsbD_ushiftRight, Nat.add_comm]

/-- The state after a strap clock edge that is not merged. -/
def State.strapEdge (s : State) (b : Bool) : State :=
  { (s.countNow kStrapBits 1).countNow kPinEvents 1 with
    pins := { ((s.countNow kStrapBits 1).countNow kPinEvents 1).pins with strapWord := strapShift s.pins.strapWord b } }

/-- The state after a merged strap clock edge. -/
def State.strapChatter (s : State) : State :=
  let s1 := (s.setPin 0 { s.pin 0 with chatAt := some s.now }).kvSet kPinStatus (s.kvGet kPinStatus ||| 1)
  { s1 with pins := { s1.pins with strapMerged := true } }

theorem exec_strapClockEdge {b m : Bool} (hr : s.clk.row = .strap) (hl : s.clk.ashPll = true) :
    exec (.strapClockEdge b m) s = .next (if m = true then s.strapChatter else s.strapEdge b) :=
  congrArg Host.Outcome.next (if_pos ⟨hr, hl⟩)

theorem State.strapEdge_counts {b : Bool} : (s.strapEdge b).kvNat kStrapBits = satAdd (s.kvNat kStrapBits) 1 ∧
    (s.strapEdge b).kvNat kPinEvents = satAdd (s.kvNat kPinEvents) 1 := by
  have hkv : (s.strapEdge b).kv = ((s.countNow kStrapBits 1).countNow kPinEvents 1).kv := rfl
  rw [State.kvNat_congr hkv, State.kvNat_congr hkv, State.countNow_kvNat_ne _ (by decide), State.countNow_kvNat,
    State.countNow_kvNat, State.countNow_kvNat_ne _ (by decide)]
  exact ⟨rfl, rfl⟩

theorem State.strapChatter_status : (s.strapChatter.kvGet kPinStatus).getLsbD 0 = true := by
  have hget : s.strapChatter.kvGet kPinStatus = s.kvGet kPinStatus ||| 1 :=
    State.kvSet_kvGet (s.setPin 0 { s.pin 0 with chatAt := some s.now })
  rw [hget, BitVec.getLsbD_or]
  exact Bool.or_true _

theorem State.strapChatter_bits : s.strapChatter.kvNat kStrapBits = s.kvNat kStrapBits :=
  State.kvSet_kvNat_ne (s.setPin 0 { s.pin 0 with chatAt := some s.now }) (by decide)

theorem exec_strapRow_other {b m : Bool} (h : s.clk.row ≠ .strap ∨ s.clk.ashPll = false) :
    exec (.strapClockEdge b m) s = .next s ∧ exec .ashResetRelease s = .next s := by
  have hc : ¬ (s.clk.row = .strap ∧ s.clk.ashPll = true) := fun hc => h.elim (· hc.1) fun hl => by simp [hc.2] at hl
  exact ⟨congrArg Host.Outcome.next (if_neg hc), congrArg Host.Outcome.next (if_neg hc)⟩

/-- The state as Ash leaves reset, before the strap word is checked. -/
def State.ashReleased (s : State) : State :=
  State.pinsBegin { s with clk := { s.clk with row := .verify, ashOut := true, cobalt := 0, verifyAt := 0 } }

theorem exec_ashResetRelease (hr : s.clk.row = .strap) (hl : s.clk.ashPll = true) : exec .ashResetRelease s =
    .next (if s.strapOk = true then s.ashReleased else s.ashReleased.stopBoot .strapBad .strapBad) :=
  congrArg Host.Outcome.next (if_pos ⟨hr, hl⟩)

/-! ### The slots that the boot ROM starts (19 R512, R513) -/

section
variable {ok : Nat → Bool} {p : Nat}

theorem pickSlot_preferred : pickSlot ok p = some (p % 2) ↔ ok (p % 2) = true := by
  by_cases h : ok (p % 2) = true
  · simp [pickSlot, h]
  · simp only [pickSlot, h, Bool.false_eq_true, if_false, iff_false]
    split
    · simp only [Option.some.injEq]; omega
    · simp

theorem pickSlot_other (h : ok (p % 2) = false) (h' : ok (1 - p % 2) = true) : pickSlot ok p = some (1 - p % 2) := by
  simp [pickSlot, h, h']

theorem pickSlot_none (h : ok (p % 2) = false) (h' : ok (1 - p % 2) = false) : pickSlot ok p = none := by
  simp [pickSlot, h, h']

/-- A slot's check that both slots fail picks none. -/
theorem pickSlot_bad (h : ok 0 = false) (h' : ok 1 = false) : pickSlot ok p = none := by
  rcases Nat.mod_two_eq_zero_or_one p with hp | hp
  · exact pickSlot_none (by rw [hp]; exact h) (by rw [hp]; exact h')
  · exact pickSlot_none (by rw [hp]; exact h') (by rw [hp]; exact h)

end

section
variable {f : Flash} {fw cfg : Nat}

/-- The firmware started, before it reports a fallback or a wrong certificate. -/
def State.fwStarted (s : State) (f : Flash) (fw cfg : Nat) : State :=
  { s with
    sec := { s.sec with
      flash := f, fwSlot := fw, cfgSlot := cfg
      fallback := decide (fw ≠ f.prefFw % 2) || decide (cfg ≠ f.prefCfg % 2), booted := true
      policy := (flashCfg f cfg).cfg, fwDigest := (flashFw f fw).digest, cfgDigest := (flashCfg f cfg).digest
      perPkgDigest := (flashCfg f cfg).cfg.perPkgDigest
      aliasKey := s.aliasOf (flashFw f fw).digest (flashCfg f cfg).digest
      dbgBoot := s.kvNat kDbgState, idLocked := true, certMismatch := !f.certKeyOk }
    torus := { s.torus with shared := (flashCfg f cfg).cfg.sharedDigest } }

/-- The two reports of a start. -/
def State.startReports (s : State) (f : Flash) (fw cfg : Nat) : State :=
  let s2 := if decide (fw ≠ f.prefFw % 2) || decide (cfg ≠ f.prefCfg % 2) then s.event .slotFallback else s
  if f.certKeyOk then s2 else s2.event .certMismatch

theorem State.startFw_eq : s.startFw f fw cfg =
    if (s.clk.cold || s.sec.pendPref.isSome) = true then
      { ((s.fwStarted f fw cfg).startReports f fw cfg).takeSnapshot with
        sec := { ((s.fwStarted f fw cfg).startReports f fw cfg).takeSnapshot.sec with pendPref := none } }
    else (s.fwStarted f fw cfg).startReports f fw cfg := by
  unfold State.startFw State.startReports State.fwStarted
  rfl

theorem State.startReports_keeps : (s.startReports f fw cfg).sec = s.sec ∧
    (s.startReports f fw cfg).pins.strapWord = s.pins.strapWord := by
  unfold State.startReports
  dsimp only
  split <;> split <;> exact ⟨rfl, rfl⟩

/-- What the boot ROM's start of the firmware leaves. -/
theorem State.startFw_started : (s.startFw f fw cfg).sec.booted = true ∧ (s.startFw f fw cfg).sec.fwSlot = fw ∧
    (s.startFw f fw cfg).sec.cfgSlot = cfg ∧ (s.startFw f fw cfg).sec.flash = f ∧
    (s.startFw f fw cfg).sec.policy = (flashCfg f cfg).cfg ∧
    (s.startFw f fw cfg).sec.fallback = (decide (fw ≠ f.prefFw % 2) || decide (cfg ≠ f.prefCfg % 2)) := by
  have hsec := (State.startReports_keeps (s := s.fwStarted f fw cfg) (f := f) (fw := fw) (cfg := cfg)).1
  rw [State.startFw_eq]
  generalize (s.fwStarted f fw cfg).startReports f fw cfg = v at *
  split
  · simp only [State.takeSnapshot, hsec]
    exact ⟨rfl, rfl, rfl, rfl, rfl, rfl⟩
  · rw [hsec]
    exact ⟨rfl, rfl, rfl, rfl, rfl, rfl⟩

theorem State.startFw_strapWord : (s.startFw f fw cfg).pins.strapWord = s.pins.strapWord := by
  have hword := (State.startReports_keeps (s := s.fwStarted f fw cfg) (f := f) (fw := fw) (cfg := cfg)).2
  rw [State.startFw_eq]
  split <;> exact hword

/-! ### The place of the package (13 R380 to R382) -/

/-- The flash that the boot ROM reads. -/
def State.bootFlash (s : State) (fl : Flash) : Flash := if s.sec.flash = {} then fl else s.sec.flash

/-- The table that a strap word names in a configuration. -/
theorem State.startFw_namedTable : (s.startFw f fw cfg).namedTable (s.startFw f fw cfg).sec.policy =
    (flashCfg f cfg).cfg.tables[bits s.pins.strapWord.toNat 48 8]? := by
  rw [State.namedTable, State.startFw_strapWord, State.startFw_started.2.2.2.2.1]

/-- The row of the place: by the table that the strap word names. -/
def State.bootPlaced (s u : State) (t : Option TopTable) : State :=
  match t with
  | some t =>
    if s.clk.cold then
      (if strapFits s.pins.strapWord.toNat t then (u.takePlace t).toRow .rails else u.stopBoot .strapBad .strapBad)
    else ({ u with torus := { u.torus with table := t } }).toRow .rails
  | none =>
    if s.clk.cold then u.stopBoot .strapBad .strapBad
    else ({ u with torus := { u.torus with table := {} } }).toRow .rails

section
variable {u : State} {t : TopTable}

theorem State.bootPlaced_fits (hc : s.clk.cold = true) (hf : strapFits s.pins.strapWord.toNat t = true) :
    s.bootPlaced u (some t) = (u.takePlace t).toRow .rails := by
  simp only [State.bootPlaced, hc, hf, if_true]

theorem State.bootPlaced_misfit (hc : s.clk.cold = true) (hf : strapFits s.pins.strapWord.toNat t = false) :
    s.bootPlaced u (some t) = u.stopBoot .strapBad .strapBad := by
  simp only [State.bootPlaced, hc, hf, Bool.false_eq_true, if_true, if_false]

theorem State.bootPlaced_unnamed (hc : s.clk.cold = true) : s.bootPlaced u none = u.stopBoot .strapBad .strapBad := by
  simp only [State.bootPlaced, hc, if_true]

/-- In a warm start the package keeps its place. -/
theorem State.bootPlaced_warm {o : Option TopTable} (hc : s.clk.cold = false) :
    s.bootPlaced u o = State.toRow { u with torus := { u.torus with table := o.getD {} } } .rails := by
  cases o <;> simp only [State.bootPlaced, hc, Bool.false_eq_true, if_false, Option.getD_some, Option.getD_none]

end

theorem exec_bootRomVerify {fl : Flash} (hr : s.clk.row = .verify) (ho : s.clk.ashOut = true) :
    exec (.bootRomVerify fl) s = .next
      (match pickSlot (fun n => s.sec.fuses.accepts 1 (flashFw (s.bootFlash fl) n)) (s.bootFlash fl).prefFw,
          pickSlot (fun n => s.sec.fuses.accepts 2 (flashCfg (s.bootFlash fl) n)) (s.bootFlash fl).prefCfg with
        | some fw, some cfg => s.bootPlaced (s.startFw (s.bootFlash fl) fw cfg)
            ((s.startFw (s.bootFlash fl) fw cfg).namedTable (s.startFw (s.bootFlash fl) fw cfg).sec.policy)
        | _, _ => State.stopBoot { s with sec := { s.sec with flash := s.bootFlash fl } } .imageBad .imageBad) :=
  congrArg Host.Outcome.next (if_pos ⟨hr, ho⟩)

theorem exec_bootRomVerify_other {fl : Flash} (h : s.clk.row ≠ .verify ∨ s.clk.ashOut = false) :
    exec (.bootRomVerify fl) s = .next s :=
  congrArg Host.Outcome.next (if_neg fun hc => h.elim (· hc.1) fun hl => by simp [hc.2] at hl)

end

end

/-- Settles O20: the rows in their order; the boot ROM's row by the slots that it picks, then by the table. -/
theorem strapAndBootRom : Obligations.StrapAndBootRom := by
  unfold Obligations.StrapAndBootRom
  refine ⟨fun s => ⟨exec_ashPllLock, exec_ashPllLock_other⟩, fun s b hr hl => ?edge, fun s b hr hl => ?merged,
    fun s b m => exec_strapRow_other, fun s hr hl => ?release, ?starts, ?bad, fun s fl => exec_bootRomVerify_other,
    fun ok p => pickSlot_preferred, fun ok p => pickSlot_other, fun ok p => pickSlot_none⟩
  case edge =>
    exact ⟨_, exec_strapClockEdge hr hl, strapShift_top .., fun i => strapShift_low, State.strapEdge_counts.1,
      State.strapEdge_counts.2, rfl, rfl⟩
  case merged =>
    exact ⟨_, exec_strapClockEdge hr hl, rfl, rfl, State.strapChatter_status, State.strapChatter_bits, rfl⟩
  case release =>
    refine ⟨_, exec_ashResetRelease hr hl, ?_⟩
    by_cases hok : s.strapOk = true
    · rw [if_pos hok]
      exact ⟨rfl, rfl, rfl, rfl, fun _ => ⟨rfl, rfl⟩, fun hn => absurd hok (Bool.eq_false_iff.mp hn)⟩
    · rw [if_neg hok, State.stopBoot_clk, State.stopBoot_strapWord]
      exact ⟨rfl, rfl, rfl, rfl, fun hy => absurd hy hok, fun _ => ⟨rfl, rfl⟩⟩
  case starts =>
    rintro s fl _ fw cfg _ hr ho rfl hfw hcfg rfl
    have hexec := exec_bootRomVerify (fl := fl) hr ho
    rw [State.bootFlash, hfw, hcfg] at hexec
    dsimp only at hexec
    generalize (if s.sec.flash = {} then fl else s.sec.flash) = f at *
    rw [State.startFw_namedTable] at hexec
    have hword := State.startFw_strapWord (s := s) (f := f) (fw := fw) (cfg := cfg)
    refine ⟨State.startFw_started, fun t hc ht hfit => ?fits, fun t hc ht hfit => ?misfit, fun hc ht => ?unnamed,
      fun hc => ?warm⟩
    case fits =>
      rw [ht, State.bootPlaced_fits hc hfit] at hexec
      exact ⟨_, hexec, rfl, rfl, rfl, by rw [← hword]; rfl⟩
    case misfit => rw [hexec, ht, State.bootPlaced_misfit hc hfit]
    case unnamed => rw [hexec, ht, State.bootPlaced_unnamed hc]
    case warm => exact ⟨_, rfl, by rw [hexec, State.bootPlaced_warm hc]⟩
  case bad =>
    rintro s fl _ hr ho rfl hbad
    have hexec := exec_bootRomVerify (fl := fl) hr ho
    refine ⟨_, hexec, ?_⟩
    rcases hbad with ⟨ha, hb⟩ | ⟨ha, hb⟩
    · rw [pickSlot_bad (ok := fun n => s.sec.fuses.accepts 1 (flashFw (s.bootFlash fl) n)) ha hb]
      exact ⟨rfl, rfl⟩
    · rw [pickSlot_bad (ok := fun n => s.sec.fuses.accepts 2 (flashCfg (s.bootFlash fl) n)) ha hb]
      split
      case h_1 heq => simp at heq
      case h_2 => exact ⟨rfl, rfl⟩

end Sys2Proof.Machine
end

section
/-! SUPPORT. The operating point of a package whose power trigger holds a number that no key can (17 R477, R486). -/

namespace Sys2Proof.Machine

section
variable {s : State}

@[simp] theorem State.tileErrors_trigPwr (i : BoundaryInfo) : (s.tileErrors i).pwr.trigPwr = s.pwr.trigPwr := by
  refine State.foldl_keeps (π := fun x : State => x.pwr.trigPwr) (fun x f => ?_) _ s
  dsimp only
  split <;> simp

theorem State.trigPwr_le_pointNow : s.pwr.trigPwr.getD 0 ≤ s.pointNow :=
  (le_max_right ..).trans ((le_max_right ..).trans (le_max_right ..))

end

/-- The reset state in the run phase, with a power trigger that asks for the point 2^64. -/
def overPowered : State :=
  { State.reset with
    clk := { State.reset.clk with phase := .run }
    pwr := { State.reset.pwr with trigPwr := some (2 ^ 64) } }

theorem overPowered_idle : overPowered.imageRuns = false ∧ overPowered.now % 2 ^ 20 = 0 ∧
    overPowered.pwr.opChange = none ∧ overPowered.kvNat kOpNow ≠ 1 := by decide

/-- Refutes O23: a state may hold any number as the point of its power trigger. With 2^64 there, the guard band of the
point in force and that of the evaluated point are the same, and `op_now` cannot read back the evaluated point. -/
theorem not_functionsAndPoint : ¬ Obligations.FunctionsAndPoint := by
  unfold Obligations.FunctionsAndPoint
  rintro ⟨-, -, -, -, -, -, idle, -⟩
  obtain ⟨hruns, hnow, hchange, hop⟩ := overPowered_idle
  obtain ⟨u, t, rfl, -, -, hsame, -⟩ := idle overPowered {} hruns rfl hnow hchange
  have htrig : (((overPowered.tileErrors {}).takeReadings {}).sensorTriggers).pwr.trigPwr = some (2 ^ 64) :=
    State.tileErrors_trigPwr {}
  have hpoint := State.trigPwr_le_pointNow (s := ((overPowered.tileErrors {}).takeReadings {}).sensorTriggers)
  rw [htrig, Option.getD_some] at hpoint
  generalize (((overPowered.tileErrors {}).takeReadings {}).sensorTriggers).pointNow = p at hpoint hsame
  have hguard : guardDiffers p (overPowered.kvNat kOpNow) = false := by
    rw [guardDiffers, decide_eq_false (by omega), decide_eq_false hop]
    rfl
  have hread : t.kvNat kOpNow < 2 ^ 64 := (t.kvGet kOpNow).isLt
  have hsaid := (hsame hguard).1
  omega

end Sys2Proof.Machine
end

section
/-! SUPPORT. The filtered inputs of Shade: an event and a merged change, `THROTTLE_N`, `FAULT_N`, the end of a window,
stuck inputs, and `SYNC_PPS` (17 R477; 18 R496 to R499; 20 R538). -/

namespace Sys2Proof.Machine

section
variable {s : State} {n : Nat} {l low : Bool}

/-! ### A change of a pin's filtered level (18 R496, R497) -/

theorem State.six_pins (h : s.ok = true) : s.pins.inp.length = 6 := by
  obtain ⟨⟨-, -, hinp, -, -⟩, -⟩ := State.ok_iff.mp h
  exact hinp

theorem State.pinFree_unmasked (h : s.pinFree n = true) : (s.pin n).masked = false := by
  simpa using (Bool.and_eq_true_iff.mp h).1

theorem State.pinChange_masked (h : (s.pin n).masked = true) :
    s.pinChange n l = s.setPin n { s.pin n with level := l } := if_pos h

theorem State.pinChange_free (h : s.pinFree n = true) : s.pinChange n l =
    (s.setPin n (((s.pin n).take n s.now (!l)).take n s.now l)).countNow kPinEvents
      (if (s.pin n).level = l then 2 else 1) := by
  rw [State.pinChange, State.pinFree_unmasked h, if_neg Bool.false_ne_true, if_pos h]

theorem State.pinChange_merged (hm : (s.pin n).masked = false) (h : s.pinFree n = false) :
    s.pinChange n l = s.mergePin n l := by
  rw [State.pinChange, hm, if_neg Bool.false_ne_true, h, if_neg Bool.false_ne_true]

theorem State.pinChange_pin (hn : n < s.pins.inp.length) (h : s.pinFree n = true) :
    (s.pinChange n l).pin n = ((s.pin n).take n s.now (!l)).take n s.now l := by
  rw [State.pinChange_free h]
  exact State.setPin_pin s hn

theorem State.pinChange_pin_ne {m : Nat} (h : s.pinFree n = true) (hm : m ≠ n) :
    (s.pinChange n l).pin m = s.pin m := by
  rw [State.pinChange_free h]
  exact State.setPin_pin_ne s hm

/-- A change that is an event has seen the pin inactive or leaves it so. -/
theorem Pin.take_armed (p : Pin) (now : Nat) : ((p.take 3 now true).take 3 now false).armed = true := by
  simp [Pin.take, pinActive]

/-! ### `THROTTLE_N` (17 R477; 18 R498) -/

theorem exec_throttleN (hp : s.pinPhase = 2) (h : (s.pin 5).level = low ∨ (s.pin 5).masked = true) :
    exec (.throttleN low) s = .next (s.pinChange 5 (!low)).throttlePin := by
  refine congrArg Host.Outcome.next (if_pos ⟨hp, h.imp_left fun hl => ?_⟩)
  rw [hl]
  cases low <;> decide

theorem exec_throttleN_same
    (h : s.pinPhase ≠ 2 ∨ ((s.pin 5).masked = false ∧ (s.pin 5).level = !low)) : exec (.throttleN low) s = .next s := by
  refine congrArg Host.Outcome.next (if_neg ?_)
  rintro ⟨hp, hc⟩
  rcases h with h | ⟨hm, hl⟩
  · exact h hp
  · exact hc.elim (· hl) fun hc => by simp [hm] at hc

theorem State.throttlePin_throttle : s.throttlePin.pwr.throttle = (!(s.pin 5).evLevel && !(s.pin 5).masked) := rfl

/-- An event of `THROTTLE_N` to a level: the pin, and the trigger with it. -/
theorem State.throttleEvent (hok : s.ok = true) (hf : s.pinFree 5 = true) (hl : (s.pin 5).level = low) :
    ((s.pinChange 5 (!low)).throttlePin.pin 5).level = !low ∧ (s.pinChange 5 (!low)).throttlePin.pwr.throttle = low ∧
      ((s.pinChange 5 (!low)).throttlePin.pin 5).windowEnd = some (eventWindow + s.now) ∧
      (s.pinChange 5 (!low)).throttlePin.kvNat kPinEvents = satAdd (s.kvNat kPinEvents) 1 := by
  have hpin : (s.pinChange 5 (!low)).pin 5 = ((s.pin 5).take 5 s.now (!!low)).take 5 s.now (!low) :=
    State.pinChange_pin (by rw [State.six_pins hok]; decide) hf
  have hthr : (s.pinChange 5 (!low)).throttlePin.pin 5 = (s.pinChange 5 (!low)).pin 5 := rfl
  have hkv : (s.pinChange 5 (!low)).throttlePin.kvNat kPinEvents = (s.pinChange 5 (!low)).kvNat kPinEvents := rfl
  have hone : (if (s.pin 5).level = !low then 2 else 1) = 1 := if_neg (by rw [hl]; cases low <;> decide)
  rw [hthr, hkv, State.throttlePin_throttle, hpin]
  refine ⟨rfl, ?_, rfl, ?_⟩
  · simp [Pin.take, State.pinFree_unmasked hf]
  · rw [State.pinChange_free hf, hone, State.countNow_kvNat]
    rfl

/-! ### `FAULT_N` (18 R498; 20 R538) -/

theorem exec_faultN (hp : s.pinPhase = 2) : exec .faultN s = .next
    (if s.pinFree 3 && ((s.pinChange 3 false).pin 3).armed && !s.flt.retired then (s.pinChange 3 false).faultN
      else s.pinChange 3 false) :=
  congrArg Host.Outcome.next (if_pos hp)

theorem State.faultN_idle (hr : s.imageRuns = false) : s.faultN = s.record (faultNRec (s.kvNat kFltnAct + 1)) :=
  if_pos (by rw [hr]; rfl)

section
variable (hr : s.imageRuns = true)
include hr

theorem State.faultN_runs : s.faultN =
    if s.kvNat kFltnAct = 0 then
      (if s.job.inStep = true then s.contained (faultNRec 1)
       else { s.record (faultNRec 1) with job := { (s.record (faultNRec 1)).job with faultNext := true } })
    else if s.kvNat kFltnAct = 1 then
      { s.record (faultNRec 2) with job := { (s.record (faultNRec 2)).job with fltnHalt := true } }
    else s.retirePackage (faultNRec 3) :=
  if_neg (by rw [hr]; decide)

theorem State.faultN_inStep (ha : s.kvNat kFltnAct = 0) (hi : s.job.inStep = true) :
    s.faultN = s.contained (faultNRec 1) := by
  rw [State.faultN_runs hr, if_pos ha, if_pos hi]

theorem State.faultN_between (ha : s.kvNat kFltnAct = 0) (hi : s.job.inStep = false) : s.faultN =
    { s.record (faultNRec 1) with job := { (s.record (faultNRec 1)).job with faultNext := true } } := by
  rw [State.faultN_runs hr, if_pos ha, hi, if_neg Bool.false_ne_true]

theorem State.faultN_halts (ha : s.kvNat kFltnAct = 1) : s.faultN =
    { s.record (faultNRec 2) with job := { (s.record (faultNRec 2)).job with fltnHalt := true } } := by
  rw [State.faultN_runs hr, if_neg (by omega), if_pos ha]

theorem State.faultN_retires (ha : 2 ≤ s.kvNat kFltnAct) : s.faultN = s.retirePackage (faultNRec 3) := by
  rw [State.faultN_runs hr, if_neg (by omega), if_neg (by omega)]

end

/-! ### The end of a window (18 R496) -/

/-- The state with a change that a window's end shows. -/
def State.windowMerged (s : State) (n : Nat) (l : Bool) : State := if (s.pin n).level = l then s else s.mergePin n l

theorem exec_windowEnd {w : Nat} (hw : (s.pin n).windowEnd = some w) (hd : w ≤ s.now) (hp : s.pinPhase ≠ 1)
    (hm : (s.pin n).masked = false) : exec (.eventWindowEnd n l) s = .next
      (if l = (s.pin n).evLevel then (s.windowMerged n l).setPin n { (s.windowMerged n l).pin n with windowEnd := none }
       else (((s.windowMerged n l).setPin n (((s.windowMerged n l).pin n).take n s.now l)).countNow kPinEvents 1).pinAct
        n l) := by
  have hno : ¬ (s.now < w ∨ s.pinPhase = 1 ∨ (s.pin n).masked = true) := by
    rintro (h | h | h)
    · omega
    · exact hp h
    · simp [hm] at h
  simp only [exec, execEventWindowEnd, hw, if_neg hno]
  rfl

theorem exec_windowEnd_none (h : (s.pin n).windowEnd = none ∨ (∃ w, (s.pin n).windowEnd = some w ∧ s.now < w) ∨
    s.pinPhase = 1 ∨ (s.pin n).masked = true) : exec (.eventWindowEnd n l) s = .next s := by
  simp only [exec, execEventWindowEnd]
  cases hw : (s.pin n).windowEnd with
  | none => rfl
  | some w =>
    refine congrArg Host.Outcome.next (if_pos ?_)
    rcases h with h | ⟨v, hv, hlt⟩ | h
    · simp [hw] at h
    · rw [hw, Option.some.injEq] at hv
      exact .inl (hv ▸ hlt)
    · exact .inr h

/-! ### Stuck inputs (18 R497) -/

/-- The state after a stuck input is masked and reported. -/
def State.stuckMasked (s : State) (n : Nat) : State :=
  let s1 := s.setPin n { s.pin n with masked := true, activeSince := none }
  let s2 := s1.kvSet kPinStatus (s1.kvGet kPinStatus ||| BitVec.ofNat 64 (2 ^ (8 + n)))
  (s2.throttlePin).event (.stuck n)

/-- An input is stuck: active for too long, of a pin that may be masked, outside the reset phase. -/
def State.stuckDue (s : State) (n a : Nat) : Prop :=
  s.pinPhase ≠ 1 ∧ 3 ≤ n ∧ n ≤ 5 ∧ (s.pin n).masked = false ∧ stuckTime + a < s.now

theorem exec_stuck {a : Nat} (ha : (s.pin n).activeSince = some a) (h : s.stuckDue n a) :
    exec (.stuck n) s = .next (s.stuckMasked n) := by
  unfold State.stuckDue at h
  simp only [exec, execStuck, ha, if_pos h]
  rfl

theorem exec_stuck_none (h : ∀ a, (s.pin n).activeSince = some a → ¬ s.stuckDue n a) : exec (.stuck n) s = .next s := by
  simp only [exec, execStuck]
  cases ha : (s.pin n).activeSince with
  | none => rfl
  | some a => exact congrArg Host.Outcome.next (if_neg (h a ha))

theorem State.stuckMasked_pin (hn : n < s.pins.inp.length) :
    (s.stuckMasked n).pin n = { s.pin n with masked := true, activeSince := none } := State.setPin_pin s hn

theorem State.stuckMasked_pin_ne {m : Nat} (hm : m ≠ n) : (s.stuckMasked n).pin m = s.pin m :=
  State.setPin_pin_ne s hm

theorem State.stuckMasked_status (hn : n ≤ 5) : ((s.stuckMasked n).kvGet kPinStatus).getLsbD (8 + n) = true := by
  have hget : (s.stuckMasked n).kvGet kPinStatus = s.kvGet kPinStatus ||| BitVec.ofNat 64 (2 ^ (8 + n)) :=
    State.kvSet_kvGet (s.setPin n { s.pin n with masked := true, activeSince := none })
  have hbit : (BitVec.ofNat 64 (2 ^ (8 + n))).getLsbD (8 + n) = true := by
    rw [BitVec.getLsbD_ofNat, Nat.testBit_two_pow_self, Bool.and_true]
    exact decide_eq_true (by omega)
  rw [hget, BitVec.getLsbD_or, hbit, Bool.or_true]

/-! ### Masked inputs sampled again (18 R497) -/

variable {act : List Nat} {t : State} {m : Nat}

/-- What the sampling of a pin leaves, of a pin that stood so before it. -/
structure Sampled (p : Pin) (act : List Nat) (n : Nat) (t : State) : Prop where
  masked : (t.pin n).masked = (p.masked && act.contains n)
  status : p.masked = true → act.contains n = false → (t.kvGet kPinStatus).getLsbD (8 + n) = false
  same : p.masked = false ∨ act.contains n = true → t.pin n = p

theorem State.recheckPin_stays (h : (s.pin n).masked = false ∨ act.contains n = true) : s.recheckPin act n = s := by
  refine if_pos ?_
  rcases h with h | h <;> simp only [h, Bool.not_false, Bool.true_or, Bool.or_true]

/-- A masked pin that is sampled inactive, unmasked. -/
def Pin.unmasked (p : Pin) (n : Nat) : Pin :=
  { p with masked := false, level := n != 4, evLevel := n != 4, armed := true, windowEnd := none }

theorem State.recheckPin_unmasks (hm : (s.pin n).masked = true) (ha : act.contains n = false) : s.recheckPin act n =
    (s.setPin n ((s.pin n).unmasked n)).kvSet kPinStatus
      (s.kvGet kPinStatus &&& ~~~(BitVec.ofNat 64 (2 ^ (8 + n)))) :=
  if_neg (by simp only [hm, ha]; decide)

theorem State.recheckPin_pin_ne (hm : m ≠ n) : (s.recheckPin act n).pin m = s.pin m := by
  by_cases h : (s.pin n).masked = false ∨ act.contains n = true
  · rw [State.recheckPin_stays h]
  · obtain ⟨hk, ha⟩ := not_or.mp h
    rw [State.recheckPin_unmasks (Bool.not_eq_false _ ▸ hk) (Bool.eq_false_iff.mpr ha)]
    exact State.setPin_pin_ne s hm

theorem State.recheckPin_length : (s.recheckPin act n).pins.inp.length = s.pins.inp.length := by
  unfold State.recheckPin
  dsimp only
  split
  · rfl
  · exact State.setPin_length s n _

/-- A bit of `pin_status` that is 0 stays 0. -/
theorem State.recheckPin_status {i : Nat} (h : (s.kvGet kPinStatus).getLsbD i = false) :
    ((s.recheckPin act n).kvGet kPinStatus).getLsbD i = false := by
  by_cases hs : (s.pin n).masked = false ∨ act.contains n = true
  · rw [State.recheckPin_stays hs, h]
  · obtain ⟨hk, ha⟩ := not_or.mp hs
    rw [State.recheckPin_unmasks (Bool.not_eq_false _ ▸ hk) (Bool.eq_false_iff.mpr ha), State.kvSet_kvGet,
      BitVec.getLsbD_and, h, Bool.false_and]

theorem State.recheckPin_sampled (hn : n < s.pins.inp.length) (hi : n ≤ 5) :
    Sampled (s.pin n) act n (s.recheckPin act n) := by
  by_cases h : (s.pin n).masked = false ∨ act.contains n = true
  · rw [State.recheckPin_stays h]
    refine ⟨?_, fun hm ha => ?_, fun _ => rfl⟩
    · rcases h with h | h
      · rw [h, Bool.false_and]
      · rw [h, Bool.and_true]
    · exact absurd h (by rw [hm, ha]; decide)
  · obtain ⟨hk, ha⟩ := not_or.mp h
    have ha : act.contains n = false := Bool.eq_false_iff.mpr ha
    have hpin : ((s.setPin n ((s.pin n).unmasked n)).kvSet kPinStatus
        (s.kvGet kPinStatus &&& ~~~(BitVec.ofNat 64 (2 ^ (8 + n))))).pin n = (s.pin n).unmasked n :=
      State.setPin_pin s hn
    rw [State.recheckPin_unmasks (Bool.not_eq_false _ ▸ hk) ha]
    refine ⟨?_, fun _ _ => ?_, fun hs => absurd hs h⟩
    · rw [hpin, ha, Bool.and_false]
      rfl
    · have hbit : (BitVec.ofNat 64 (2 ^ (8 + n))).getLsbD (8 + n) = true := by
        rw [BitVec.getLsbD_ofNat, Nat.testBit_two_pow_self, Bool.and_true]
        exact decide_eq_true (by omega)
      rw [State.kvSet_kvGet, BitVec.getLsbD_and, BitVec.getLsbD_not, hbit]
      simp

theorem Sampled.recheck {p : Pin} (h : Sampled p act n t) (hm : n ≠ m) : Sampled p act n (t.recheckPin act m) where
  masked := by rw [State.recheckPin_pin_ne hm, h.masked]
  status hp ha := State.recheckPin_status (h.status hp ha)
  same hs := by rw [State.recheckPin_pin_ne hm, h.same hs]

/-- Each of the three pins is sampled once. -/
theorem State.recheckAll_sampled (hok : s.ok = true) (h3 : 3 ≤ n) (h5 : n ≤ 5) :
    Sampled (s.pin n) act n (((s.recheckPin act 3).recheckPin act 4).recheckPin act 5) := by
  have hlen := State.six_pins hok
  obtain rfl | rfl | rfl : n = 3 ∨ n = 4 ∨ n = 5 := by omega
  · exact ((State.recheckPin_sampled (by omega) (by decide)).recheck (by decide)).recheck (by decide)
  · have hpin : (s.recheckPin act 3).pin 4 = s.pin 4 := State.recheckPin_pin_ne (by decide)
    rw [← hpin]
    exact (State.recheckPin_sampled (by rw [State.recheckPin_length]; omega) (by decide)).recheck (by decide)
  · have hpin : ((s.recheckPin act 3).recheckPin act 4).pin 5 = s.pin 5 := by
      rw [State.recheckPin_pin_ne (by decide), State.recheckPin_pin_ne (by decide)]
    rw [← hpin]
    exact State.recheckPin_sampled (by rw [State.recheckPin_length, State.recheckPin_length]; omega) (by decide)

theorem exec_stuckRecheck : exec (.stuckRecheck act) s =
    .next (((s.recheckPin act 3).recheckPin act 4).recheckPin act 5).throttlePin := rfl

/-! ### `SYNC_PPS` (18 R499) -/

theorem exec_syncPps (hp : s.pinPhase = 2) (hm : (s.pin 4).masked = false) : exec (.syncPpsEdge true) s = .next
    (if s.pinFree 4 = true then
      { s.pinChange 4 true with
        pins := { (s.pinChange 4 true).pins with ppsTick := s.clk.cobalt, ppsValid := true } }
     else s.pinChange 4 true) :=
  congrArg Host.Outcome.next (if_pos ⟨hp, rfl, hm⟩)

theorem exec_syncPps_none {v : Bool} (h : v = false ∨ (s.pin 4).masked = true ∨ s.pinPhase ≠ 2) :
    exec (.syncPpsEdge v) s = .next s := by
  refine congrArg Host.Outcome.next (if_neg ?_)
  rintro ⟨hp, hv, hm⟩
  rcases h with h | h | h
  · simp [hv] at h
  · simp [hm] at h
  · exact h hp

end

/-- Settles O25: an input at a time, each by whether the change is an event, merged, or of a masked pin. -/
theorem shadeInputs : Obligations.ShadeInputs := by
  unfold Obligations.ShadeInputs
  refine ⟨fun s low hok hp hf hl => ?throttle, fun s low hp hf hm hl => ?throttleMerged,
    fun s low hp hm => ?throttleMasked,
    fun s low => exec_throttleN_same, fun s hok hp hf hr => ?fault, fun s hp h => ?faultMerged,
    fun s hp => congrArg Host.Outcome.next (if_neg hp), fun s hr => ⟨State.faultN_inStep hr,
      fun ha hi => ⟨_, rfl, State.faultN_between hr ha hi⟩, fun ha => ⟨_, rfl, State.faultN_halts hr ha⟩,
      State.faultN_retires hr⟩, fun s => State.faultN_idle, ?windowEnd, fun s n l => exec_windowEnd_none,
    fun s n a hok ha hp h3 h5 hm ht => ?stuck, fun s n h => ?notStuck, fun s act n hok h3 h5 => ?sampled,
    fun s hp hm hf => ?pps, fun s hp hm hf => ?ppsMerged, fun s v => exec_syncPps_none⟩
  case throttle =>
    obtain ⟨hlevel, hthr, hwin, hcount⟩ := State.throttleEvent hok hf hl
    exact ⟨_, exec_throttleN hp (.inl hl), hlevel, hthr, hwin, hcount, fun n hn => State.pinChange_pin_ne hf hn⟩
  case throttleMerged => rw [exec_throttleN hp (.inl hl), State.pinChange_merged hm hf]
  case throttleMasked => rw [exec_throttleN hp (.inr hm), State.pinChange_masked hm]
  case fault =>
    have harmed : ((s.pinChange 3 false).pin 3).armed = true := by
      rw [State.pinChange_pin (by rw [State.six_pins hok]; decide) hf]
      exact Pin.take_armed ..
    rw [exec_faultN hp, hf, harmed, hr, if_pos (by decide)]
  case faultMerged =>
    rw [exec_faultN hp, if_neg]
    rcases h with h | h <;> simp [h]
  case windowEnd =>
    rintro s n w l u - hw hd hp hm rfl
    have hexec := exec_windowEnd (l := l) hw hd hp hm
    exact ⟨fun hl => hexec.trans (congrArg _ (if_pos hl)), fun hl => hexec.trans (congrArg _ (if_neg hl))⟩
  case stuck =>
    have hn : n < s.pins.inp.length := by rw [State.six_pins hok]; omega
    refine ⟨_, exec_stuck ha ⟨hp, h3, h5, hm, ht⟩, ?_, ?_, State.stuckMasked_status h5,
      fun m => State.stuckMasked_pin_ne, rfl⟩
    · rw [State.stuckMasked_pin hn]
    · rw [State.stuckMasked_pin hn]
  case notStuck =>
    refine exec_stuck_none fun a ha hdue => ?_
    obtain ⟨hp, h3, h5, hm, ht⟩ := hdue
    rcases h with h | ⟨b, hb, hle⟩ | h | h | h | h
    · simp [ha] at h
    · rw [ha, Option.some.injEq] at hb
      omega
    · simp [hm] at h
    · omega
    · omega
    · exact hp h
  case sampled =>
    have hs := State.recheckAll_sampled (act := act) hok h3 h5
    exact ⟨_, exec_stuckRecheck, hs.masked, hs.status, hs.same⟩
  case pps => exact ⟨_, _, (exec_syncPps hp hm).trans (congrArg _ (if_pos hf)), rfl, rfl⟩
  case ppsMerged => rw [exec_syncPps hp hm, hf, if_neg Bool.false_ne_true]

end Sys2Proof.Machine
end

section
/-! SUPPORT. Management: the answers of the firmware, SPDM over MCTP, owner keys, debug tokens, PLDM and the update (19
R509, R517 to R530). -/

namespace Sys2Proof.Machine

section
variable {s : State} {f : State → MgmtResp × State} {r : MgmtResp} {t : State}

/-! ### A message answered (19 R513, R523) -/

theorem State.served_answer (hb : s.sec.booted = true) (hf : f s = (r, t)) : s.served f = t.reply r := by
  rw [State.served, if_pos hb, hf]

theorem State.served_none (hb : s.sec.booted = false) : s.served f = s := if_neg (Bool.eq_false_iff.mp hb)

theorem State.served_outcome (hb : s.sec.booted = true) (hf : f s = (r, t)) :
    (.next (s.served f) : Host.Outcome State Fault Refusal) = .next (t.reply r) :=
  congrArg Host.Outcome.next (State.served_answer hb hf)

theorem State.unserved_outcome (hb : s.sec.booted = false) :
    (.next (s.served f) : Host.Outcome State Fault Refusal) = .next s :=
  congrArg Host.Outcome.next (State.served_none hb)

theorem State.authFail_counts : s.authFail.kvNat kAuthFail = satAdd (s.kvNat kAuthFail) 1 := s.countNow_kvNat (n := 1)

/-! ### The bus (19 R523) -/

theorem exec_entdaa {a : Nat} (h : s.clk.ashOut = true) :
    exec (.entdaa a) s = .next { s with sec := { s.sec with i3cAddr := some (a % 128) } } :=
  congrArg Host.Outcome.next (if_pos h)

theorem exec_entdaa_reset {a : Nat} (h : s.clk.ashOut = false) : exec (.entdaa a) s = .next s :=
  congrArg Host.Outcome.next (if_neg (Bool.eq_false_iff.mp h))

theorem exec_endpointId {n : Nat} (h : s.sec.i3cAddr.isSome = true) :
    exec (.endpointId n) s = .next { s with sec := { s.sec with eid := some (n % 256) } } :=
  congrArg Host.Outcome.next (if_pos h)

theorem exec_endpointId_none {n : Nat} (h : s.sec.i3cAddr = none) : exec (.endpointId n) s = .next s :=
  congrArg Host.Outcome.next (if_neg (by rw [h]; decide))

/-! ### SPDM (19 R517 to R522) -/

section
variable {tr : Transport}

theorem State.spdmCaps_ready (h : (s.conn tr).version = true) :
    s.spdmCaps tr = (.capabilities, s.setConn tr { s.conn tr with caps := true }) := if_pos h

theorem State.spdmCaps_early (h : (s.conn tr).version = false) : s.spdmCaps tr = (.errUnexpected, s) :=
  if_neg (Bool.eq_false_iff.mp h)

theorem State.spdmAlgs_ready {all : Bool} (h : (s.conn tr).caps = true) :
    s.spdmAlgs tr all = (.algorithms all, s.setConn tr { s.conn tr with algs := all }) := if_pos h

theorem State.spdmAlgs_early {all : Bool} (h : (s.conn tr).caps = false) : s.spdmAlgs tr all = (.errUnexpected, s) :=
  if_neg (Bool.eq_false_iff.mp h)

theorem State.negotiated_ready {x : MgmtResp × State} (h : (s.conn tr).algs = true) : s.negotiated tr x = x := if_pos h

theorem State.negotiated_early {x : MgmtResp × State} (h : (s.conn tr).algs = false) :
    s.negotiated tr x = (.errUnexpected, s) := if_neg (Bool.eq_false_iff.mp h)

section
variable (h : (s.conn tr).algs = true)
include h

theorem State.spdmCert_ready {k o n : Nat} : s.spdmCert tr k o n =
    if s.sec.certMismatch = true then (.errCert, s)
    else if k ≠ 0 then (.errInvalid, s)
    else (.certificate ((s.chain0.drop o).take n), s) := State.negotiated_ready h

theorem State.spdmChallenge_ready {k : Nat} {n : List Byte} : s.spdmChallenge tr k n =
    if k ≠ 0 then (.errInvalid, s)
    else (.challengeAuth (Config.ed25519Sign s.sec.aliasKey (n ++ sha512 s.chain0)), s) := State.negotiated_ready h

theorem State.spdmMeasure_values {i : Nat} {sg : Bool} {n : List Byte} {v : List (List Byte)}
    (hv : s.measured i = some v) : s.spdmMeasure tr i sg n = (.measurements v
      (if sg = true then some (Config.ed25519Sign s.sec.aliasKey (n ++ v.flatten)) else none), s) := by
  rw [State.spdmMeasure, State.negotiated_ready h, hv]
  rfl

theorem State.spdmMeasure_invalid {i : Nat} {sg : Bool} {n : List Byte} (hv : s.measured i = none) :
    s.spdmMeasure tr i sg n = (.errInvalid, s) := by
  rw [State.spdmMeasure, State.negotiated_ready h, hv]

theorem State.spdmKeyExchange_busy (hn : 4 ≤ s.sec.sessions.length) : s.spdmKeyExchange tr = (.errBusy, s) :=
  (State.negotiated_ready h).trans (if_pos hn)

theorem State.spdmKeyExchange_opens (hn : s.sec.sessions.length < 4) : s.spdmKeyExchange tr =
    (.keyExchangeRsp s.sec.nextSession, { s with sec := { s.sec with
      sessions := s.sec.sessions ++ [{ id := s.sec.nextSession, tr := tr : SpdmSession }]
      nextSession := s.sec.nextSession + 1 } }) :=
  (State.negotiated_ready h).trans (if_neg (Nat.not_le.mpr hn))

end

/-- The measurements that an index names. -/
theorem State.measured_eq {i : Nat} {v : List (List Byte)} (h : (i = 0 ∧ v = [[8]]) ∨
    (1 ≤ i ∧ i ≤ 8 ∧ v = [s.sec.snapshot.getD (i - 1) []]) ∨ (i = 255 ∧ v = s.sec.snapshot)) :
    s.measured i = some v := by
  obtain ⟨rfl, rfl⟩ | ⟨h1, h8, rfl⟩ | ⟨rfl, rfl⟩ := h
  · rfl
  · rw [State.measured, if_neg (by omega), if_neg (by omega), if_pos h8]
  · rfl

theorem State.measured_none {i : Nat} (h8 : 8 < i) (h : i ≠ 255) : s.measured i = none := by
  rw [State.measured, if_neg (by omega), if_neg h, if_neg (by omega)]

variable {id : Nat} {x : SpdmSession}

theorem State.session_id (hx : s.session tr id = some x) : x.id = id := by
  have h := List.find?_some hx
  simp only [Bool.and_eq_true, decide_eq_true_eq] at h
  exact h.1

theorem State.spdmFinish_none {ok : Bool} (hx : s.session tr id = none) :
    s.spdmFinish tr id ok = (.errUnexpected, s) := by
  rw [State.spdmFinish, hx]

theorem State.spdmFinish_again {ok : Bool} (hx : s.session tr id = some x) (hf : x.finished = true) :
    s.spdmFinish tr id ok = (.errUnexpected, s) := by
  simp only [State.spdmFinish, hx, hf, if_true]

theorem State.spdmFinish_open {ok : Bool} (hx : s.session tr id = some x) (hf : x.finished = false) :
    s.spdmFinish tr id ok =
      if ok = true then (.finishRsp id, s.setSession { x with finished := true }) else (.errInvalid, s.authFail) := by
  simp only [State.spdmFinish, hx, hf, Bool.false_eq_true, if_false]

theorem State.inSession_none {g : SpdmSession → MgmtResp × State} (hx : s.session tr id = none) :
    s.inSession tr id g = (.errUnexpected, s) := by
  rw [State.inSession, hx]

theorem State.inSession_open {g : SpdmSession → MgmtResp × State} (hx : s.session tr id = some x)
    (hf : x.finished = false) : s.inSession tr id g = (.errUnexpected, s) := by
  simp only [State.inSession, hx, hf, Bool.false_eq_true, if_false]

theorem State.inSession_established {g : SpdmSession → MgmtResp × State} (hx : s.session tr id = some x)
    (hf : x.finished = true) : s.inSession tr id g = g x := by
  simp only [State.inSession, hx, hf, if_true]

end

end

/-- Settles O27: the firmware answers once it runs, each request by what precedes it on the connection or in the
session. -/
theorem managementAnswers : Obligations.ManagementAnswers := by
  unfold Obligations.ManagementAnswers
  refine ⟨fun s a => ⟨exec_entdaa, exec_entdaa_reset⟩, fun s n => ⟨exec_endpointId, exec_endpointId_none⟩,
    fun s hb => State.served_outcome hb rfl, fun s hb hv => State.served_outcome hb (State.spdmCaps_ready hv),
    fun s hb hv => State.served_outcome hb (State.spdmCaps_early hv),
    fun s all hb hc => State.served_outcome hb (State.spdmAlgs_ready hc),
    fun s all hb hc => State.served_outcome hb (State.spdmAlgs_early hc), fun s n hb => State.served_outcome hb rfl,
    fun s a b k o n x sg ok id c hb hc => ?unbooted, fun s hb ha => State.served_outcome hb (State.negotiated_ready ha),
    fun s k o n hb ha => ?certificate, fun s k n hb ha => ?challenge,
    fun s i sg n v hb ha hv => State.served_outcome hb (State.spdmMeasure_values ha (State.measured_eq hv)),
    fun s i sg n hb ha h8 hi => State.served_outcome hb (State.spdmMeasure_invalid ha (State.measured_none h8 hi)),
    fun s k o n x sg c hb ha hc => ?early,
    fun s x hb ha hn => ⟨_, State.served_outcome hb (State.spdmKeyExchange_opens ha hn), rfl, rfl, rfl⟩,
    fun s x hb ha hn => State.served_outcome hb (State.spdmKeyExchange_busy ha hn), fun s id x hb hx hf => ?finish,
    fun s id x ok hb hx hf => ?established, fun s id ok c hb hx hc => ?unknown, fun s id x c hb hx hf hc => ?unfinished⟩
  case unbooted =>
    simp only [List.mem_cons, List.not_mem_nil, or_false] at hc
    rcases hc with rfl | rfl | rfl | rfl | rfl | rfl | rfl | rfl | rfl | rfl | rfl | rfl | rfl <;>
      exact State.unserved_outcome hb
  case certificate =>
    refine ⟨fun hm hk => ?_, fun hm hk => ?_, fun hm => ?_⟩
    · exact State.served_outcome hb ((State.spdmCert_ready ha).trans
        ((if_neg (by rw [hm]; decide)).trans (if_neg (not_not_intro hk))))
    · exact State.served_outcome hb ((State.spdmCert_ready ha).trans ((if_neg (by rw [hm]; decide)).trans (if_pos hk)))
    · exact State.served_outcome hb ((State.spdmCert_ready ha).trans (if_pos hm))
  case challenge =>
    exact ⟨fun hk => State.served_outcome hb ((State.spdmChallenge_ready ha).trans (if_neg (not_not_intro hk))),
      fun hk => State.served_outcome hb ((State.spdmChallenge_ready ha).trans (if_pos hk))⟩
  case early =>
    simp only [List.mem_cons, List.not_mem_nil, or_false] at hc
    rcases hc with rfl | rfl | rfl | rfl | rfl <;> exact State.served_outcome hb (State.negotiated_early ha)
  case finish =>
    exact ⟨State.served_outcome hb ((State.spdmFinish_open hx hf).trans (if_pos rfl)),
      State.served_outcome hb ((State.spdmFinish_open hx hf).trans (if_neg Bool.false_ne_true)),
      State.authFail_counts, rfl⟩
  case established =>
    refine ⟨State.served_outcome hb (State.spdmFinish_again hx hf),
      State.served_outcome hb (State.inSession_established hx hf),
      State.served_outcome hb (State.inSession_established hx hf), _,
      State.served_outcome hb (State.inSession_established hx hf), ?_, rfl⟩
    rw [← State.session_id hx]
    rfl
  case unknown =>
    simp only [List.mem_cons, List.not_mem_nil, or_false] at hc
    rcases hc with rfl | rfl | rfl | rfl
    · exact State.served_outcome hb (State.spdmFinish_none hx)
    all_goals exact State.served_outcome hb (State.inSession_none hx)
  case unfinished =>
    simp only [List.mem_cons, List.not_mem_nil, or_false] at hc
    rcases hc with rfl | rfl | rfl <;> exact State.served_outcome hb (State.inSession_open hx hf)

/-! ### Owner keys (19 R509, R521) -/

section
variable {s : State} {m : OwnerMsg} {h : List Byte}

theorem State.ownerAuth_slot (ha : s.ownerAuth m = true) : m.slot < 4 := by
  simp only [State.ownerAuth, Bool.and_eq_true, decide_eq_true_eq] at ha
  exact ha.1.1.2

/-- The four owner slots of the fuses. -/
def Fuses.ownerSlots (f : Fuses) : List (List Byte) := (List.range 4).map (fun i => f.owner.getD i [])

theorem Fuses.ownerSlots_getD {f : Fuses} {i : Nat} (hi : i < 4) : f.ownerSlots.getD i [] = f.owner.getD i [] := by
  simp [Fuses.ownerSlots, List.getD_eq_getElem?_getD, hi]

theorem Fuses.ownerSlots_length (f : Fuses) : f.ownerSlots.length = 4 := by simp [Fuses.ownerSlots]

theorem Fuses.provision_writes {f : Fuses} (hh : m.hash = some h) : f.provision m =
    if (f.ownerSlots.getD m.slot []).isEmpty && decide (h.length = 32) then
      some { f with owner := setAt f.ownerSlots m.slot h } else none := by
  simp only [Fuses.provision, hh]
  rfl

theorem Fuses.provision_revokes {f : Fuses} (hh : m.hash = none) : f.provision m =
    if f.lastOwner m.slot = true then none
    else some { f with ownerRevoke := f.ownerRevoke ||| BitVec.ofNat 4 (2 ^ m.slot) } := by
  simp only [Fuses.provision, hh]

theorem State.provision_accepted {f : Fuses} (ha : s.ownerAuth m = true) (hf : s.sec.fuses.provision m = some f) :
    s.provision m = (.ownerOk, { s with
      sec := { s.sec with fuses := f }, flt := { s.flt with log := .owner m.slot :: s.flt.log } }) := by
  simp only [State.provision, hf, ha, if_true]

theorem State.provision_refused (h : s.ownerAuth m = false ∨ s.sec.fuses.provision m = none) :
    s.provision m = (.ownerRefused, s.authFail) := by
  unfold State.provision
  split
  case h_1 f hf => exact if_neg (by rw [h.resolve_right (by rw [hf]; exact Option.some_ne_none f)]; decide)
  case h_2 => rfl

theorem twoPow_getLsbD {i k : Nat} (hk : k < 4) : (BitVec.ofNat 4 (2 ^ k)).getLsbD i = decide (i = k) := by
  rw [BitVec.getLsbD_ofNat, Nat.testBit_two_pow]
  by_cases hi : i = k
  · simp [hi, hk]
  · simp [hi, Ne.symm hi]

/-! ### Debug tokens (19 R528, R529) -/

theorem State.tokenOk_iff {k : DebugTok} : s.tokenOk k = true ↔ s.sec.policy.allowDebug = true ∧ s.job.img = none ∧
    k.serial = s.sec.serial ∧ k.nonce = Config.freeWord freeNonce s.sec.nonceCtr ∧ k.scope.toNat < 8 ∧ k.rsvd = 0 ∧
    k.key ∈ s.sec.policy.debugKeys ∧ Config.ed25519Verify k.key k.message k.sig = true := by
  simp [State.tokenOk, and_assoc]

/-- The state whose nonce is replaced. -/
def State.newNonce (s : State) : State := { s with sec := { s.sec with nonceCtr := s.sec.nonceCtr + 1 } }

theorem State.token_accepted {k : DebugTok} (h : s.tokenOk k = true) :
    s.token k = (.debugOk, (s.kvSet kDbgState (BitVec.ofNat 64 k.scope.toNat)).newNonce) := by
  simp only [State.token, h, if_true]
  rfl

theorem State.token_refused {k : DebugTok} (h : s.tokenOk k = false) :
    s.token k = (.debugRefused, s.authFail.newNonce) := by
  simp only [State.token, h, Bool.false_eq_true, if_false]
  rfl

end

/-- Settles O28: a provisioning message by what its fuses would be, a token by its checks. -/
theorem authenticatedMessages : Obligations.AuthenticatedMessages := by
  unfold Obligations.AuthenticatedMessages
  refine ⟨fun s m h hb ha hh hl he => ?writes, fun s m hb ha hh hl => ?revokes, fun s m hb hr => ?refused,
    fun s m => State.unserved_outcome, fun s k hb hp hi hs hn hc hr hk hv => ?token, fun s k hb hbad => ?tokenRefused,
    fun s k => State.unserved_outcome⟩
  case writes =>
    have hslot := State.ownerAuth_slot ha
    have hlen := s.sec.fuses.ownerSlots_length
    have hf : s.sec.fuses.provision m = some { s.sec.fuses with owner := setAt s.sec.fuses.ownerSlots m.slot h } := by
      rw [Fuses.provision_writes hh, Fuses.ownerSlots_getD hslot, he, if_pos (by simp [hl])]
    refine ⟨_, State.served_outcome hb (State.provision_accepted ha hf), ?_, fun i hi hne => ?_, rfl, rfl, rfl⟩
    · exact getD_setAt_same (by omega)
    · exact (getD_setAt_ne hne).trans (Fuses.ownerSlots_getD hi)
  case revokes =>
    have hslot := State.ownerAuth_slot ha
    have hf := (Fuses.provision_revokes (f := s.sec.fuses) hh).trans (if_neg (Bool.eq_false_iff.mp hl))
    refine ⟨_, State.served_outcome hb (State.provision_accepted ha hf), rfl, ?_, fun i hne => ?_, rfl, rfl⟩
    · exact (BitVec.getLsbD_or ..).trans (by rw [twoPow_getLsbD hslot]; simp)
    · exact (BitVec.getLsbD_or ..).trans (by rw [twoPow_getLsbD hslot]; simp [hne])
  case refused =>
    refine ⟨State.served_outcome hb (State.provision_refused ?_), rfl, State.authFail_counts⟩
    rcases hr with ha | ⟨hh, hl⟩ | ⟨h, hh, hl | ⟨hs, hw⟩⟩
    · exact .inl ha
    · exact .inr ((Fuses.provision_revokes hh).trans (if_pos hl))
    · exact .inr ((Fuses.provision_writes hh).trans (if_neg (by simp [hl])))
    · refine .inr ((Fuses.provision_writes hh).trans (if_neg ?_))
      rw [Fuses.ownerSlots_getD hs, List.isEmpty_eq_false_iff.mpr hw, Bool.false_and]
      decide
  case token =>
    have hok : s.tokenOk k = true := State.tokenOk_iff.mpr ⟨hp, hi, hs, hn, hc, hr, hk, hv⟩
    refine ⟨_, State.served_outcome hb (State.token_accepted hok), ?_, ?_, rfl, rfl⟩
    · have hget : (s.kvSet kDbgState (BitVec.ofNat 64 k.scope.toNat)).kvNat kDbgState = k.scope.toNat := by
        rw [State.kvNat, State.kvSet_kvGet, BitVec.toNat_ofNat, Nat.mod_eq_of_lt (by omega)]
      exact hget
    · exact s.kvSet_kvNat_ne (by decide)
  case tokenRefused =>
    have hno : s.tokenOk k = false := by
      refine Bool.eq_false_iff.mpr fun hok => ?_
      obtain ⟨hp, hi, hs, hn, hc, hr, hk, hv⟩ := State.tokenOk_iff.mp hok
      rcases hbad with h | h | h | h | h | h | h | h
      · simp [hp] at h
      · simp [hi] at h
      · exact h hs
      · exact h hn
      · omega
      · exact h hr
      · exact h hk
      · simp [hv] at h
    exact ⟨_, State.served_outcome hb (State.token_refused hno), s.countNow_kvNat_ne (by decide), State.authFail_counts,
      rfl, rfl⟩

/-! ### PLDM (19 R523 to R525) -/

section
variable {s : State}

theorem State.sensor_temperature {i : Nat} (h1 : 1 ≤ i) (h2 : i ≤ 64) :
    s.sensor i = (.sensor (s.pwr.sensors[i - 1]?), s) := if_pos ⟨h1, h2⟩

theorem State.sensor_rail {i : Nat} (h1 : 65 ≤ i) (h2 : i ≤ 70) :
    s.sensor i = (.sensor ((s.pwr.railMv[i - 65]?).map (fun v => (v : Int))), s) :=
  (if_neg (by omega)).trans (if_pos ⟨h1, h2⟩)

theorem State.sensor_current {n : Nat} {u : State} (hd : s.draw = (n, u)) :
    s.sensor 71 = (.sensor (some ((u.readKey n kVinCoreMa).toNat : Int)), u) := by
  obtain ⟨rfl, rfl⟩ : s.fresh = n ∧ { s with fresh := s.fresh + 1 } = u := Prod.mk.inj hd
  rfl

theorem State.sensor_none {i : Nat} (h : i = 0 ∨ 73 < i) : s.sensor i = (.sensor none, s) := by
  rw [State.sensor, if_neg (by omega), if_neg (by omega), if_neg (by omega), if_neg (by omega), if_neg (by omega)]

theorem State.poll_empty (h : s.flt.queue = []) : s.poll = (.platformEvent none false, s) := by
  simp only [State.poll, h]

theorem State.poll_oldest {e : Event} {rest : List Event} (h : s.flt.queue = e :: rest) : s.poll =
    (.platformEvent (some e) s.flt.overflow,
      State.alert { s with flt := { s.flt with queue := rest, overflow := false } }
        (!rest.isEmpty || s.clk.phase == .sleep)) := by
  simp only [State.poll, h]

/-! ### The update (19 R526, R527) -/

theorem State.requestUpdate_enters (h : s.sec.updating = none) :
    s.requestUpdate = (.updateAccepted, { s with sec := { s.sec with updating := some {} } }) :=
  if_neg (by rw [h]; decide)

theorem State.requestUpdate_again (h : s.sec.updating.isSome = true) : s.requestUpdate = (.alreadyInUpdateMode, s) :=
  if_pos h

variable {u : Update} {x : FlashSlot} {c p : Nat}

theorem State.component_outside (h : s.sec.updating = none) : s.component c x = (.notInUpdate, s) := by
  rw [State.component, h]

/-- The state in which a firmware component has been written and checked. -/
def State.fwWritten (s : State) (u : Update) (x : FlashSlot) : State :=
  { s with sec := { s.sec with
      flash := flashWithFw s.sec.flash (otherSlot s.sec.flash.prefFw) x
      updating := some { u with
        fw := if s.sec.fuses.accepts 1 x then some (otherSlot s.sec.flash.prefFw) else none } } }

/-- The state in which a configuration component has been written and checked. -/
def State.cfgWritten (s : State) (u : Update) (x : FlashSlot) : State :=
  { s with sec := { s.sec with
      flash := flashWithCfg s.sec.flash (otherSlot s.sec.flash.prefCfg) x
      updating := some { u with
        cfg := if s.sec.fuses.accepts 2 x then some (otherSlot s.sec.flash.prefCfg) else none } } }

section
variable (h : s.sec.updating = some u)
include h

theorem State.component_firmware : s.component 1 x = (.verifyComplete (s.sec.fuses.accepts 1 x), s.fwWritten u x) := by
  rw [State.component, h]
  rfl

theorem State.component_config : s.component 2 x = (.verifyComplete (s.sec.fuses.accepts 2 x), s.cfgWritten u x) := by
  rw [State.component, h]
  rfl

theorem State.component_unknown (h1 : c ≠ 1) (h2 : c ≠ 2) : s.component c x = (.errInvalid, s) := by
  simp only [State.component, h, h1, h2, if_false]

end

/-- A slot's number is 0 or 1; the component goes to the other one. -/
theorem flashWithFw_slots (f : Flash) : flashFw (flashWithFw f (otherSlot p) x) (1 - p % 2) = x ∧
    flashFw (flashWithFw f (otherSlot p) x) (p % 2) = flashFw f (p % 2) ∧
    (flashWithFw f (otherSlot p) x).prefFw = f.prefFw := by
  rcases Nat.mod_two_eq_zero_or_one p with h | h <;> simp [otherSlot, flashWithFw, flashFw, h]

theorem flashWithCfg_slots (f : Flash) : flashCfg (flashWithCfg f (otherSlot p) x) (1 - p % 2) = x ∧
    flashCfg (flashWithCfg f (otherSlot p) x) (p % 2) = flashCfg f (p % 2) ∧
    (flashWithCfg f (otherSlot p) x).prefCfg = f.prefCfg := by
  rcases Nat.mod_two_eq_zero_or_one p with h | h <;> simp [otherSlot, flashWithCfg, flashCfg, h]

@[simp] theorem State.foldWrite_sec (q : Nat × BitVec 64) : (s.foldWrite q).sec = s.sec := by
  unfold State.foldWrite; split <;> simp

@[simp] theorem State.fold_sec : s.fold.sec = s.sec := by
  simp [State.fold, State.foldl_keeps (π := State.sec) fun x q => State.foldWrite_sec (s := x) q,
    State.foldl_keeps (π := State.sec) fun (x : State) (q : Nat × Nat) => x.countNow_sec q.1 q.2]

@[simp] theorem State.hbmLost_sec : s.hbmLost.sec = s.sec := rfl

theorem State.domainsLost_sec : (s.unitsLost 0 224).domainsOff.sec = s.sec := rfl

theorem State.fastOff_sec : s.fastOff.sec = s.sec := by
  rw [State.fastOff_eq, State.domainsLost_sec, State.portsOff_package.sec]

/-- A warm reset leaves the flash and what was sent; the update and the firmware's start end. -/
theorem State.warmReset_sec : s.warmReset.sec =
    { s.sec with booted := false, idLocked := false, updating := none, activate := false, pendPref := none } := by
  have hsec : s.fold.applyHeld.fastOff.hbmLost.sec = s.sec := by
    rw [State.hbmLost_sec, State.fastOff_sec, State.applyHeld_sec, State.fold_sec]
  have hres (v : State) : v.resumed.sec =
      { v.sec with booted := false, idLocked := false, updating := none, activate := false, pendPref := none } := rfl
  have hpins (v : State) (b : Bool) : (v.alert b).pinsBegin.sec = v.sec := rfl
  rw [State.warmReset_eq]
  split
  · rw [hpins, hres, hsec]
  · rw [hres, hsec]

/-- The state in which an update has named its slots, and the response is sent. -/
def State.slotsNamed (s : State) (u : Update) (wait : Bool) : State :=
  State.reply { s with
    sec := { s.sec with updating := none, activate := wait, pendPref := some (u.prefs s.sec.flash) } } (.activated wait)

theorem State.activateFw_outside (h : s.sec.updating = none) : s.activateFw = s.reply .notInUpdate := by
  rw [State.activateFw, h]

theorem State.activateFw_update (h : s.sec.updating = some u) : s.activateFw =
    if s.job.img.isSome = true then s.slotsNamed u s.job.img.isSome
    else (s.slotsNamed u s.job.img.isSome).activateNow := by
  simp only [State.activateFw, h]
  rfl

theorem exec_activateFirmware (hb : s.sec.booted = true) : exec .activateFirmware s = .next s.activateFw :=
  congrArg Host.Outcome.next (if_pos hb)

theorem exec_activateFirmware_none (hb : s.sec.booted = false) : exec .activateFirmware s = .next s :=
  congrArg Host.Outcome.next (if_neg (Bool.eq_false_iff.mp hb))

/-- The flash whose directory names two slots. -/
def State.directory (s : State) (q : Nat × Nat) : State :=
  { s with sec := { s.sec with flash := { s.sec.flash with prefFw := q.1, prefCfg := q.2 } } }

theorem State.activateNow_named {q : Nat × Nat} (h : s.sec.pendPref = some q) : s.activateNow =
    { (s.directory q).warmReset with sec := { (s.directory q).warmReset.sec with pendPref := some q } } := by
  rw [State.activateNow, h]
  rfl

/-- An activation at once: the new slots are preferred, and the start-up resumes at the verification row. -/
theorem State.activateNow_restarts {q : Nat × Nat} (h : s.sec.pendPref = some q) :
    s.activateNow.clk.phase = .boot ∧ s.activateNow.clk.row = .verify ∧ s.activateNow.sec.flash.prefFw = q.1 ∧
      s.activateNow.sec.flash.prefCfg = q.2 ∧ s.activateNow.sec.tx = s.sec.tx := by
  obtain ⟨hphase, hrow, -⟩ := (State.warmReset_restarted (s := s.directory q)).boot
  have hsec := State.warmReset_sec (s := s.directory q)
  rw [State.activateNow_named h]
  generalize (s.directory q).warmReset = v at *
  rw [hsec]
  exact ⟨hphase, hrow, rfl, rfl, rfl⟩

end

/-- Settles O29: each message by the state of the event queue or of the update. -/
theorem pldmAndUpdate : Obligations.PldmAndUpdate := by
  unfold Obligations.PldmAndUpdate
  refine ⟨fun s hb => State.served_outcome hb rfl,
    fun s i hb h1 h2 => State.served_outcome hb (State.sensor_temperature h1 h2),
    fun s i hb h1 h2 => State.served_outcome hb (State.sensor_rail h1 h2),
    fun s n u hb hd => State.served_outcome hb (State.sensor_current hd),
    fun s hb => ⟨State.served_outcome hb rfl, State.served_outcome hb rfl⟩,
    fun s i hb h => State.served_outcome hb (State.sensor_none h),
    fun s e rest hb h => ⟨_, State.served_outcome hb (State.poll_oldest h), rfl, rfl, rfl, rfl⟩,
    fun s hb h => State.served_outcome hb (State.poll_empty h),
    fun s i hb => ⟨State.unserved_outcome hb, State.unserved_outcome hb, State.unserved_outcome hb⟩,
    fun s hb => ⟨fun h => ⟨_, State.served_outcome hb (State.requestUpdate_enters h), rfl, rfl⟩,
      fun h => State.served_outcome hb (State.requestUpdate_again h)⟩, ?firmware, ?config,
    fun s u x c hb h h1 h2 => State.served_outcome hb (State.component_unknown h h1 h2), fun s u hb h hi => ?deferred,
    fun s u hb h hi => ?activated, fun s c x hb h => ⟨?outside, State.served_outcome hb (State.component_outside h)⟩,
    fun s c x hb => ⟨State.unserved_outcome hb, exec_activateFirmware_none hb, State.unserved_outcome hb⟩⟩
  case firmware =>
    rintro s u x _ hb h rfl
    obtain ⟨hnew, hold, hpref⟩ := flashWithFw_slots (p := s.sec.flash.prefFw) (x := x) s.sec.flash
    exact ⟨_, State.served_outcome hb (State.component_firmware h), hnew, hold, hpref, rfl, rfl⟩
  case config =>
    rintro s u x _ hb h rfl
    obtain ⟨hnew, hold, hpref⟩ := flashWithCfg_slots (p := s.sec.flash.prefCfg) (x := x) s.sec.flash
    exact ⟨_, State.served_outcome hb (State.component_config h), hnew, hold, hpref, rfl, rfl⟩
  case deferred =>
    refine ⟨_, exec_activateFirmware hb, ?_⟩
    rw [State.activateFw_update h, if_pos hi, hi]
    exact ⟨rfl, rfl, rfl, rfl, rfl, rfl⟩
  case activated =>
    have hnone : s.job.img.isSome = false := by rw [hi]; rfl
    refine ⟨_, exec_activateFirmware hb, ?_⟩
    rw [State.activateFw_update h, hnone, if_neg Bool.false_ne_true]
    exact State.activateNow_restarts (s := s.slotsNamed u false) rfl
  case outside => rw [exec_activateFirmware hb, State.activateFw_outside h]

end Sys2Proof.Machine
end
